-- ==== Sys2Proof/Word.lean ====
section
/-! DEFINITION. The word types of the TX960 model and their plainest arithmetic (00_scope.md R10, R12). -/

namespace Sys2Proof

/-- One byte. -/
abbrev Byte := BitVec 8
/-- A scalar register, one vector lane, one FP32 value. -/
abbrev W32 := BitVec 32
/-- A control-space register, a global address, a ledger count. -/
abbrev W64 := BitVec 64
/-- A source number: node[15:0], site[4:0], core[5:0] (00_scope.md, Terms). -/
abbrev Src := BitVec 27

/-- A source number built from its three fields (00_scope.md, Terms). -/
def mkSrc (node : BitVec 16) (site : BitVec 5) (unit : BitVec 6) : Src := node ++ site ++ unit

/-- The node field of a source number. -/
def srcNode (x : Src) : BitVec 16 := x.extractLsb' 11 16
/-- The site field of a source number. -/
def srcSite (x : Src) : BitVec 5 := x.extractLsb' 6 5
/-- The core (or bank, or port) field of a source number. -/
def srcUnit (x : Src) : BitVec 6 := x.extractLsb' 0 6

end Sys2Proof
end

