-- ==== Sys2Proof/Syntax.lean ====
section
/-! DEFINITION. The commands of the block: one constructor of Instr per row of spec/opcode_table.json,
with its operands, and the messages the operands carry. -/

namespace Sys2Proof

/-- A Wayfarer core: W site n and physical core p (01_package.md R35). -/
structure CoreId where
  site : BitVec 4
  p : BitVec 6
  deriving DecidableEq, Repr

/-- A virtual channel (R276). -/
inductive Vc where
  | req | rsp | ctl | bulk
  deriving DecidableEq, Repr

/-- Rounding mode of an instruction (R112). -/
inductive Rm where
  | rne | sr
  deriving DecidableEq, Repr

/-- Overflow control of an instruction (R113). -/
inductive Ovc where
  | sat | inf
  deriving DecidableEq, Repr

/-- Lane interpretation of major 0x8 with the RM and OVC it may carry (R138). -/
inductive VMode where
  | fp32
  | bf16 (rm : Rm) (ovc : Ovc)
  | fp16 (rm : Rm) (ovc : Ovc)
  | int32
  deriving DecidableEq, Repr

/-- The floating lane interpretations, for VFMA, VFMS and VFNMA, whose INT32 form is reserved (R138). -/
inductive FMode where
  | fp32
  | bf16 (rm : Rm) (ovc : Ovc)
  | fp16 (rm : Rm) (ovc : Ovc)
  deriving DecidableEq, Repr

/-- What a request asks of its target (R277, R396). `read n` asks for n units of 16 bytes. -/
inductive ReqOp where
  | read (n : BitVec 6)
  | write (data : List Byte)
  | atomic (op : BitVec 4) (a b : BitVec 128) (attempt : BitVec 2) (aseq : BitVec 16)
  | push (seq : BitVec 16) (first : BitVec 2) (hdr : Option (BitVec 128)) (lines : List (List Byte))
  | cread
  | cwrite (value : W64) (lower upper : Bool)
  deriving DecidableEq, Repr

/-- A request: origin, global address (for CREAD and CWRITE the control-space window address), tag
and ordering fields (R276, R369). -/
structure Req where
  src : Src
  addr : W64
  tag : BitVec 12
  op : ReqOp
  chan : BitVec 8 := 0
  ord : Bool := false
  flag : Bool := false
  bulk : Bool := false
  deriving DecidableEq, Repr

/-- A response: RDATA when it carries data, RSTAT when not (R278, R398). -/
structure Resp where
  dst : Src
  tag : BitVec 12
  status : BitVec 7
  data : List Byte := []
  /-- Origin site code and node (R276). -/
  from' : BitVec 5 := 0x1F
  node : BitVec 16 := 0
  /-- Where it enters the data mesh of die `from'`, if it does: the router, and whether a core answers there (R190). -/
  origin : Option (BitVec 6 × Bool) := none
  deriving DecidableEq, Repr

/-- A fault record (R513). -/
structure FaultRec where
  ledger : W64
  source : Src
  cls : BitVec 3
  esc : Bool := false
  inj : Bool := false
  code : BitVec 16
  seq : BitVec 16 := 0
  ctx0 : W64 := 0
  ctx1 : W64 := 0
  ctx2 : W64 := 0
  ctx3 : W64 := 0
  deriving DecidableEq, Repr

/-- What a lattice or fabric packet carries above its link header. -/
inductive Body where
  | req (r : Req)
  | resp (node : BitVec 16) (r : Resp)
  | record (f : FaultRec)
  | probe
  deriving DecidableEq, Repr

/-- A lattice packet (R276): endpoints, virtual channel, link sequence number, retransmitted copy. -/
structure LatPkt where
  dst : Fin 25
  src : Fin 25
  vc : Vc
  lseq : BitVec 10
  rpl : Bool
  body : Body
  deriving DecidableEq, Repr

/-- A fabric packet (R346, R369). -/
structure FabPkt where
  vc : Vc
  lseq : BitVec 12
  rpl : Bool
  dnode : BitVec 16
  snode : BitVec 16
  iboard : BitVec 13
  phase : Bool
  rmode : Bool
  alt : BitVec 2
  ord : Bool
  flag : Bool
  erpl : Bool
  hops : BitVec 6
  chan : BitVec 8
  eseq : BitVec 32
  cseq : BitVec 32
  pred : BitVec 32
  epoch : BitVec 16
  /-- None for an E2EACK (R388), whose base and map follow. -/
  body : Option Body
  ackBase : BitVec 32 := 0
  ackMap : BitVec 64 := 0
  /-- Target site at DNODE. -/
  dsite : BitVec 5 := 0
  /-- In the package that holds it, not on the wire: the directed ring it arrived on and goes on with, 0 for none (R378). -/
  ring : BitVec 4 := 0
  deriving DecidableEq, Repr

/-- IDENT and IDENT_ACK contents (R347). -/
structure Ident where
  node : BitVec 16
  port : BitVec 6
  vmin : BitVec 4
  vmax : BitVec 4
  brev : BitVec 8
  good : BitVec 16
  rcid : BitVec 32
  deriving DecidableEq, Repr

/-- Control messages of a port (R347). -/
inductive PortMsg where
  | train (good : BitVec 16)
  | ident (i : Ident)
  | identAck (i : Ident)
  | leave (reason : BitVec 8)
  | abort (lseq : BitVec 12)
  deriving DecidableEq, Repr

/-- A link block as its receiver meets it (R344, R345): the symbols of its codeword that are in error, 0 to 543, and the
control bits and data bytes that its message holds. -/
structure LinkBlock where
  errs : List (BitVec 10) := []
  ctrl : BitVec 20
  data : List Byte := []
  deriving DecidableEq, Repr

/-- A receive lane of a port and the powers measured on it, in 0.01 dBm (R358, R364). -/
structure LaneSeen where
  lane : BitVec 4
  tx : BitVec 16
  rx : BitVec 16
  deriving DecidableEq, Repr

/-- Where an Ethernet frame or datagram comes from (R429). -/
structure HostAddr where
  mac : BitVec 48
  ip : BitVec 128
  udp : BitVec 16
  v6 : Bool
  deriving DecidableEq, Repr

/-- A frame that arrives at the host port (R427 to R429, R443, R449). -/
structure EthHead where
  len : BitVec 16
  fcsOk : Bool
  /-- Bytes in the receive buffer when it arrives. -/
  buffered : BitVec 32 := 0
  /-- FEC codewords of it that were corrected, and that could not be. -/
  fecCorr : BitVec 16 := 0
  fecUnc : BitVec 16 := 0
  vlan : Option (BitVec 12)
  from' : HostAddr
  /-- Destination IP address; 0-extended IPv4 address when `from'.v6` is false. -/
  to' : BitVec 128
  fragmentOrExt : Bool
  /-- Destination UDP port, of a datagram. -/
  dstPort : BitVec 16 := 0
  deriving DecidableEq, Repr

/-- RDMA WRITE packet position in its message, or a packet whose opcode is not supported (R443). -/
inductive RdmaPos where
  | first | middle | last | only | unsupported
  deriving DecidableEq, Repr

/-- Something sent and not yet received, or an output of the package. -/
inductive Msg where
  | req (r : Req)
  | resp (r : Resp)
  | record (f : FaultRec)
  | lattice (plane : Bool) (p : LatPkt)
  | fabric (f : BitVec 6) (p : FabPkt)
  | port (f : BitVec 6) (m : PortMsg)
  /-- A frame of the host port: where it goes, its PCP and DSCP, its tag, and its contents; DF is always set (R428). -/
  | frame (to' : HostAddr) (pcp : BitVec 3) (dscp : BitVec 6) (vlan : Option (BitVec 12)) (payload : List Byte)
  | service (eid : BitVec 8) (payload : List Byte)
  | ledgerSync (site : BitVec 5) (count : W64)
  /-- A departure count and operating point for a W die (R295, R460). -/
  | departure (site : BitVec 5) (opp : BitVec 2) (at' : W64)
  | notice (endpoint : Fin 25) (plane : Bool) (fallback : Bool)
  | ctlMsg (w : BitVec 4) (cls : BitVec 3) (flits : BitVec 4)
  deriving DecidableEq, Repr

/-- A ring of the package (R226, R267, R510). -/
inductive Ring where
  | bank (b : BitVec 5) (r : Fin 4160)
  | lattice (e : Fin 25) (plane : Bool) (trunk : BitVec 4) (k : BitVec 6)
  | port (f : BitVec 6) (k : BitVec 5)
  deriving DecidableEq, Repr

/-- What an identity check finds (R252). -/
inductive RingId where
  | right | wrongLine (line : BitVec 6) | wrongOrder
  deriving DecidableEq, Repr

/-- Error found on a mesh or direct link (R193). -/
inductive LinkErr where
  | none | corrected | uncorrectable
  deriving DecidableEq, Repr

/-- An L-die memory channel: L die and its own channel number (R30). -/
structure ChanId where
  l : BitVec 2
  k : Fin 12
  deriving DecidableEq, Repr

/-- What a GDDR7 access meets at the device (R305, R317, R320). -/
structure MemEvent where
  /-- Attempts that fail their data CRC. -/
  crcFails : BitVec 3 := 0
  /-- Corrections the device's on-die ECC reports. -/
  odecc : BitVec 8 := 0
  /-- Bits that read inverted: of a line, 0 to 1,023 of its data and 1,024 to 1,055 of its two check words; of a check row,
  0 to 16,383. -/
  flips : List (BitVec 14) := []
  /-- The data comes from another row, bank or column: from that of this channel line. -/
  wrong : Option (BitVec 25) := none
  deriving DecidableEq, Repr

/-- A patrol scrub read: its channel and what it meets. -/
structure ScrubRead where
  ch : ChanId
  seen : MemEvent := {}
  deriving DecidableEq, Repr

/-- Who sends an SPDM request over the service port, and the bytes of it that no operand names, before and after those that
one does (R549; log entry 14). -/
structure SpdmFrom where
  eid : BitVec 8
  head : List Byte := []
  tail : List Byte := []
  deriving DecidableEq, Repr

/-- What the physical work of one boot step gives (R478, R483). -/
structure BootIn where
  /-- Node ID on the straps (R564). -/
  straps : BitVec 16 := 0
  /-- Root PLL locked within 100 us (step 1). -/
  pllLock : Bool := true
  /-- Endpoint sites whose role is short (step 3), by site code. -/
  roleShort : List (BitVec 5) := []
  /-- Lane groups with failed lanes, by site code and group, and how many of their lanes fail (step 3). -/
  laneFails : List (BitVec 5 × BitVec 10 × BitVec 7) := []
  /-- Voted wiring channel found failing (step 3). -/
  wiringBad : Option (BitVec 2) := none
  /-- Sites that do not power up or do not align (steps 4 and 5), berths that fail training (step 6). -/
  heldOut : List (BitVec 5) := []
  /-- Bin each channel 0 to 47 trains at: 2, 1, 0; none where it fails at 28 Gb/s (step 4). -/
  bins : List (Option (BitVec 2)) := []
  /-- Planes found unhealthy by the probes of R481: endpoint and plane (step 7). -/
  probesBad : List (Fin 25 × Bool) := []
  deriving DecidableEq, Repr

/-- What a packet meets at the seam between clock regions that its hop crosses, if it crosses one (R456, R457): the most
flits the seam held for the link, and the cycles for which it held the sender. -/
structure SeamUse where
  occ : Fin 13
  held : BitVec 32
  deriving DecidableEq, Repr

/-- The notice as the three strobe lines of an endpoint carry it (R295). -/
structure Strobes where
  s0 : BitVec 12
  s1 : BitVec 12
  s2 : BitVec 12
  deriving DecidableEq, Repr

/-- A lane of a lane group: 0 to 15 data, 16 and 17 spare (R298). -/
structure LaneId where
  group : BitVec 10
  lane : BitVec 7
  deriving DecidableEq, Repr

/-- What a lane group has after a lane of it has failed: its good lanes, and, of a UCIe module, the half of its lanes that the
failed one belongs to (R301, R446). -/
structure LanesLeft where
  good : BitVec 7
  upper : Bool := false
  deriving DecidableEq, Repr

/-- A matrix operation that a core has started: its place among the started ones that have not completed, the oldest
at 0. -/
structure StartedOp where
  core : CoreId
  place : BitVec 8
  deriving DecidableEq, Repr

/-- What happens to a control message at a router: whether it enters its first router there or goes on from there, and the
position it is for (none: the die controller). -/
structure CtlMove where
  dst : Option (BitVec 6)
  enter : Bool
  deriving DecidableEq, Repr

/-- The consumers of R43 that no limit throttles and no berth supply meters (R496). DESIGN CHOICE, log entry 69. -/
inductive Consumer where
  | lDies | gddr7 | lattice | banks | ports | k0Host | margin
  deriving DecidableEq, Repr

/-- Results of a probe window (R246, R248). -/
structure ProbeStats where
  mean : W32
  rms : W32
  maxAbs : W32
  enob : BitVec 8
  worst : BitVec 6
  deriving DecidableEq, Repr

/-- A route card body (R544), as its 272 bytes. -/
abbrev CardBytes := List Byte

/-- Writable part of a barrier (R214): MASK, or CFG with its LOST clear bit. -/
inductive BarWrite where
  | mask (m : W64)
  | cfg (ext : BitVec 16) (clearLost : Bool)
  deriving DecidableEq, Repr

/-- Answer of an access a host command made on another node (R431). -/
structure RemoteAns where
  status : BitVec 7
  value : W64
  deriving DecidableEq, Repr

/-- The commands of the block, in the order of spec/opcode_table.json. -/
inductive Instr where
  /-- ADD (R131). -/
  | add (c : CoreId) (rd rs1 rs2 : BitVec 6)
  /-- SUB (R131). -/
  | sub (c : CoreId) (rd rs1 rs2 : BitVec 6)
  /-- AND (R131). -/
  | and (c : CoreId) (rd rs1 rs2 : BitVec 6)
  /-- OR (R131). -/
  | or (c : CoreId) (rd rs1 rs2 : BitVec 6)
  /-- XOR (R131). -/
  | xor (c : CoreId) (rd rs1 rs2 : BitVec 6)
  /-- SLL (R131). -/
  | sll (c : CoreId) (rd rs1 rs2 : BitVec 6)
  /-- SRL (R131). -/
  | srl (c : CoreId) (rd rs1 rs2 : BitVec 6)
  /-- SRA (R131). -/
  | sra (c : CoreId) (rd rs1 rs2 : BitVec 6)
  /-- SLT (R131). -/
  | slt (c : CoreId) (rd rs1 rs2 : BitVec 6)
  /-- SLTU (R131). -/
  | sltu (c : CoreId) (rd rs1 rs2 : BitVec 6)
  /-- MUL (R131). -/
  | mul (c : CoreId) (rd rs1 rs2 : BitVec 6)
  /-- MULH (R131). -/
  | mulh (c : CoreId) (rd rs1 rs2 : BitVec 6)
  /-- MULHU (R131). -/
  | mulhu (c : CoreId) (rd rs1 rs2 : BitVec 6)
  /-- MIN (R131). -/
  | min (c : CoreId) (rd rs1 rs2 : BitVec 6)
  /-- MAX (R131). -/
  | max (c : CoreId) (rd rs1 rs2 : BitVec 6)
  /-- MINU (R131). -/
  | minu (c : CoreId) (rd rs1 rs2 : BitVec 6)
  /-- MAXU (R131). -/
  | maxu (c : CoreId) (rd rs1 rs2 : BitVec 6)
  /-- CLZ (R131). -/
  | clz (c : CoreId) (rd rs1 : BitVec 6)
  /-- POPC (R131). -/
  | popc (c : CoreId) (rd rs1 : BitVec 6)
  /-- ADDI (R132). -/
  | addi (c : CoreId) (rd rs1 : BitVec 6) (imm : BitVec 12)
  /-- ANDI (R132). -/
  | andi (c : CoreId) (rd rs1 : BitVec 6) (imm : BitVec 12)
  /-- ORI (R132). -/
  | ori (c : CoreId) (rd rs1 : BitVec 6) (imm : BitVec 12)
  /-- XORI (R132). -/
  | xori (c : CoreId) (rd rs1 : BitVec 6) (imm : BitVec 12)
  /-- SLLI (R132). -/
  | slli (c : CoreId) (rd rs1 : BitVec 6) (sh : BitVec 5)
  /-- SRLI (R132). -/
  | srli (c : CoreId) (rd rs1 : BitVec 6) (sh : BitVec 5)
  /-- SRAI (R132). -/
  | srai (c : CoreId) (rd rs1 : BitVec 6) (sh : BitVec 5)
  /-- SLTI (R132). -/
  | slti (c : CoreId) (rd rs1 : BitVec 6) (imm : BitVec 12)
  /-- SLTIU (R132). -/
  | sltiu (c : CoreId) (rd rs1 : BitVec 6) (imm : BitVec 12)
  /-- LUI (R133). -/
  | lui (c : CoreId) (rd : BitVec 6) (imm : BitVec 22)
  /-- BEQ (R134). -/
  | beq (c : CoreId) (rs1 rs2 : BitVec 6) (off : BitVec 12)
  /-- BNE (R134). -/
  | bne (c : CoreId) (rs1 rs2 : BitVec 6) (off : BitVec 12)
  /-- BLT (R134). -/
  | blt (c : CoreId) (rs1 rs2 : BitVec 6) (off : BitVec 12)
  /-- BGE (R134). -/
  | bge (c : CoreId) (rs1 rs2 : BitVec 6) (off : BitVec 12)
  /-- BLTU (R134). -/
  | bltu (c : CoreId) (rs1 rs2 : BitVec 6) (off : BitVec 12)
  /-- BGEU (R134). -/
  | bgeu (c : CoreId) (rs1 rs2 : BitVec 6) (off : BitVec 12)
  /-- JAL (R135). -/
  | jal (c : CoreId) (rd : BitVec 6) (imm : BitVec 20)
  /-- JALR (R135). -/
  | jalr (c : CoreId) (rd rs : BitVec 6) (imm : BitVec 14)
  /-- LB (R136). -/
  | lb (c : CoreId) (rd rs1 : BitVec 6) (imm : BitVec 12)
  /-- LBU (R136). -/
  | lbu (c : CoreId) (rd rs1 : BitVec 6) (imm : BitVec 12)
  /-- LH (R136). -/
  | lh (c : CoreId) (rd rs1 : BitVec 6) (imm : BitVec 12)
  /-- LHU (R136). -/
  | lhu (c : CoreId) (rd rs1 : BitVec 6) (imm : BitVec 12)
  /-- LW (R136). -/
  | lw (c : CoreId) (rd rs1 : BitVec 6) (imm : BitVec 12)
  /-- SB (R136). -/
  | sb (c : CoreId) (rd rs1 : BitVec 6) (imm : BitVec 12)
  /-- SH (R136). -/
  | sh (c : CoreId) (rd rs1 : BitVec 6) (imm : BitVec 12)
  /-- SW (R136). -/
  | sw (c : CoreId) (rd rs1 : BitVec 6) (imm : BitVec 12)
  /-- VLD (R137). -/
  | vld (c : CoreId) (v : BitVec 5) (r : BitVec 6) (imm : BitVec 13)
  /-- VST (R137). -/
  | vst (c : CoreId) (v : BitVec 5) (r : BitVec 6) (imm : BitVec 13)
  /-- VLDB (R137). -/
  | vldb (c : CoreId) (v : BitVec 5) (r : BitVec 6) (imm : BitVec 13)
  /-- VMVS (R137). -/
  | vmvs (c : CoreId) (v : BitVec 5) (r : BitVec 6) (lane : BitVec 6)
  /-- VMVV (R137). -/
  | vmvv (c : CoreId) (v : BitVec 5) (r : BitVec 6) (lane : BitVec 6)
  /-- VBCAST (R137). -/
  | vbcast (c : CoreId) (v : BitVec 5) (r : BitVec 6)
  /-- VFMA (R138). -/
  | vfma (c : CoreId) (ty : FMode) (vd vs1 vs2 vs3 : BitVec 5)
  /-- VFMS (R138). -/
  | vfms (c : CoreId) (ty : FMode) (vd vs1 vs2 vs3 : BitVec 5)
  /-- VFNMA (R138). -/
  | vfnma (c : CoreId) (ty : FMode) (vd vs1 vs2 vs3 : BitVec 5)
  /-- VADD (R138). -/
  | vadd (c : CoreId) (ty : VMode) (vd vs1 vs2 : BitVec 5)
  /-- VSUB (R138). -/
  | vsub (c : CoreId) (ty : VMode) (vd vs1 vs2 : BitVec 5)
  /-- VMUL (R138). -/
  | vmul (c : CoreId) (ty : VMode) (vd vs1 vs2 : BitVec 5)
  /-- VMIN (R138). -/
  | vmin (c : CoreId) (ty : VMode) (vd vs1 vs2 : BitVec 5)
  /-- VMAX (R138). -/
  | vmax (c : CoreId) (ty : VMode) (vd vs1 vs2 : BitVec 5)
  /-- VCEQ (R138). -/
  | vceq (c : CoreId) (ty : VMode) (vd vs1 vs2 : BitVec 5)
  /-- VCLT (R138). -/
  | vclt (c : CoreId) (ty : VMode) (vd vs1 vs2 : BitVec 5)
  /-- VCLE (R138). -/
  | vcle (c : CoreId) (ty : VMode) (vd vs1 vs2 : BitVec 5)
  /-- VSEL (R138). -/
  | vsel (c : CoreId) (ty : VMode) (vd vs1 vs2 vs3 : BitVec 5)
  /-- VABS (R138). -/
  | vabs (c : CoreId) (ty : VMode) (vd vs1 : BitVec 5)
  /-- VNEG (R138). -/
  | vneg (c : CoreId) (ty : VMode) (vd vs1 : BitVec 5)
  /-- VEXP (R75). -/
  | vexp (c : CoreId) (vd vs1 : BitVec 5)
  /-- VRCP (R75). -/
  | vrcp (c : CoreId) (vd vs1 : BitVec 5)
  /-- VRSQRT (R75). -/
  | vrsqrt (c : CoreId) (vd vs1 : BitVec 5)
  /-- VTANH (R75). -/
  | vtanh (c : CoreId) (vd vs1 : BitVec 5)
  /-- VRSUM (R76). -/
  | vrsum (c : CoreId) (vd vs1 : BitVec 5)
  /-- VRMAX (R76). -/
  | vrmax (c : CoreId) (vd vs1 : BitVec 5)
  /-- VRMIN (R76). -/
  | vrmin (c : CoreId) (vd vs1 : BitVec 5)
  /-- VPERM (R77). -/
  | vperm (c : CoreId) (vd vs1 vs2 : BitVec 5)
  /-- VPERM2 (R77). -/
  | vperm2 (c : CoreId) (vd vs1 vs2 aux : BitVec 5)
  /-- VSORT (R78). -/
  | vsort (c : CoreId) (vd vs1 : BitVec 5) (intKeys descending : Bool)
  /-- VCVTT (R140). -/
  | vcvtt (c : CoreId) (vd vs1 : BitVec 5) (fmt : BitVec 4) (rm : Rm) (ovc : Ovc)
  /-- VCVTF (R140). -/
  | vcvtf (c : CoreId) (vd vs1 vs2 : BitVec 5) (fmt : BitVec 4)
  /-- VCVTI (R141). -/
  | vcvti (c : CoreId) (vd vs1 : BitVec 5) (rm : Rm)
  /-- VCVTIF (R141). -/
  | vcvtif (c : CoreId) (vd vs1 : BitVec 5) (rm : Rm)
  /-- VAND (R139). -/
  | vand (c : CoreId) (vd vs1 vs2 : BitVec 5)
  /-- VOR (R139). -/
  | vor (c : CoreId) (vd vs1 vs2 : BitVec 5)
  /-- VXOR (R139). -/
  | vxor (c : CoreId) (vd vs1 vs2 : BitVec 5)
  /-- VNOT (R139). -/
  | vnot (c : CoreId) (vd vs1 : BitVec 5)
  /-- VSHL (R139). -/
  | vshl (c : CoreId) (vd vs1 vs2 : BitVec 5)
  /-- VSHR (R139). -/
  | vshr (c : CoreId) (vd vs1 vs2 : BitVec 5)
  /-- VSRA (R139). -/
  | vsra (c : CoreId) (vd vs1 vs2 : BitVec 5)
  /-- VIOTA (R139). -/
  | viota (c : CoreId) (vd : BitVec 5)
  /-- VMOV (R139). -/
  | vmov (c : CoreId) (vd vs1 : BitVec 5)
  /-- MX_LDW (R67). -/
  | mxLdw (c : CoreId) (tb : BitVec 3)
  /-- MX_MUL (R143). -/
  | mxMul (c : CoreId) (ta : BitVec 3) (arow : BitVec 9) (swap acc : Bool)
  /-- MX_OMUL (R144). -/
  | mxOmul (c : CoreId) (ta tb : BitVec 3) (arow : BitVec 9) (acc : Bool)
  /-- MX_ST (R70). -/
  | mxSt (c : CoreId) (ta : BitVec 3) (arow : BitVec 9) (rm : Rm) (ovc : Ovc)
  /-- MX_RDV (R143). -/
  | mxRdv (c : CoreId) (v : BitVec 5) (arow : BitVec 9)
  /-- MX_WRV (R143). -/
  | mxWrv (c : CoreId) (v : BitVec 5) (arow : BitVec 9)
  /-- TD_SETLO (R142). -/
  | tdSetlo (c : CoreId) (th : BitVec 3) (sa sb : BitVec 6)
  /-- TD_SETHI (R142). -/
  | tdSethi (c : CoreId) (th : BitVec 3) (sa sb : BitVec 6)
  /-- TD_BASE (R142). -/
  | tdBase (c : CoreId) (th : BitVec 3) (sa : BitVec 6)
  /-- TD_SBASE (R142). -/
  | tdSbase (c : CoreId) (th : BitVec 3) (sa : BitVec 6)
  /-- TD_BADD (R142). -/
  | tdBadd (c : CoreId) (th : BitVec 3) (sa sb : BitVec 6)
  /-- LOB_RDV (R169). -/
  | lobRdv (c : CoreId) (l : BitVec 3) (r : BitVec 6) (upper : Bool)
  /-- LOB_RDP (R169). -/
  | lobRdp (c : CoreId) (l : BitVec 3) (sa : BitVec 6)
  /-- LOB_HDR (R172). -/
  | lobHdr (c : CoreId) (l : BitVec 3) (r : BitVec 6) (word : BitVec 2)
  /-- LOB_WAIT (R173). -/
  | lobWait (c : CoreId) (l : BitVec 3) (whole : Bool)
  /-- LOB_DROP (R174). -/
  | lobDrop (c : CoreId) (l : BitVec 3)
  /-- LOB_STAT (R177). -/
  | lobStat (c : CoreId) (l : BitVec 3) (r : BitVec 6)
  /-- PRT_DB (R148). -/
  | prtDb (c : CoreId) (q : BitVec 4) (ra : BitVec 6)
  /-- PRT_DBI (R148). -/
  | prtDbi (c : CoreId) (q : BitVec 4) (imm : BitVec 8)
  /-- PRT_HEAD (R148). -/
  | prtHead (c : CoreId) (q : BitVec 4) (rd : BitVec 6)
  /-- PRT_WAIT (R148). -/
  | prtWait (c : CoreId) (q : BitVec 4)
  /-- PRT_ATOM (R150). -/
  | prtAtom (c : CoreId) (ra : BitVec 6) (op : BitVec 4)
  /-- PRT_AWAIT (R148). -/
  | prtAwait (c : CoreId)
  /-- FENCE (R152). -/
  | fence (c : CoreId) (mask : BitVec 5)
  /-- LWAIT (R151). -/
  | lwait (c : CoreId) (ra : BitVec 6)
  /-- LRD (R151). -/
  | lrd (c : CoreId) (ra : BitVec 6)
  /-- WAITX (R153). -/
  | waitx (c : CoreId) (ra rb : BitVec 6) (lobby : BitVec 3) (all : Bool)
  /-- BAR (R210). -/
  | bar (c : CoreId) (b : BitVec 4)
  /-- NOP (R154). -/
  | nop (c : CoreId)
  /-- HALT (R154). -/
  | halt (c : CoreId)
  /-- END (R154). -/
  | endProgram (c : CoreId)
  /-- ICINV (R154). -/
  | icinv (c : CoreId)
  /-- SEED (R120). -/
  | seed (c : CoreId) (ra : BitVec 6)
  /-- SRRD (R154). -/
  | srrd (c : CoreId) (ra : BitVec 6)
  /-- FLGRD (R154). -/
  | flgrd (c : CoreId) (ra : BitVec 6) (vec clear : Bool)
  /-- CID (R154). -/
  | cid (c : CoreId) (ra : BitVec 6) (sel : BitVec 2)
  /-- WAIT_CONDITION_MET (R50). -/
  | waitConditionMet (c : CoreId)
  /-- PROGRAM_END_IDLE (R50). -/
  | programEndIdle (c : CoreId)
  /-- CORE_RESET_COMPLETE (R50). -/
  | coreResetComplete (c : CoreId)
  /-- VECTOR_OP_COMPLETE (R124). -/
  | vectorOpComplete (c : CoreId)
  /-- MATRIX_OP_START (R71). -/
  | matrixOpStart (c : CoreId) (idle : BitVec 32)
  /-- MATRIX_OP_COMPLETE (R69). -/
  | matrixOpComplete (o : StartedOp)
  /-- INSTRUCTION_FETCH (R56). -/
  | instructionFetch (c : CoreId)
  /-- DESCRIPTOR_START (R84). -/
  | descriptorStart (c : CoreId) (q : BitVec 4)
  /-- PORTER_PACKET_ISSUE (R85). -/
  | porterPacketIssue (c : CoreId) (q : BitVec 4)
  /-- TARGET_ACK (R79). -/
  | targetAck (r : Resp)
  /-- PORTER_WAIT_REACHED (R82). -/
  | porterWaitReached (c : CoreId) (q : BitVec 4)
  /-- PUSH_RETRY (R167). -/
  | pushRetry (c : CoreId) (q : BitVec 4)
  /-- ATOMIC_RESULT (R150). -/
  | atomicResult (c : CoreId) (tag : BitVec 12)
  /-- CORE_START (R50). -/
  | coreStart (c : CoreId)
  /-- CORE_HALT (R50). -/
  | coreHalt (c : CoreId)
  /-- CORE_RESUME (R50). -/
  | coreResume (c : CoreId)
  /-- CORE_RESET (R53). -/
  | coreReset (c : CoreId)
  /-- CORE_STEP (R50). -/
  | coreStep (c : CoreId)
  /-- IC_INV (R56). -/
  | icInv (c : CoreId)
  /-- QCFG_EN (R90). -/
  | qcfgEn (c : CoreId) (q : BitVec 4) (en : Bool)
  /-- QTAIL_WRITE (R86). -/
  | qtailWrite (c : CoreId) (q : BitVec 4) (tail : BitVec 16)
  /-- REGISTER_WRITE (R15). -/
  | registerWrite (addr : BitVec 40) (value : W64) (lower upper : Bool)
  /-- READ (R396). -/
  | read (r : Req)
  /-- WRITE (R396). -/
  | write (r : Req)
  /-- ATOMIC (R412). -/
  | atomic (r : Req)
  /-- PUSH (R165). -/
  | push (r : Req)
  /-- CREAD (R277). -/
  | cread (r : Req)
  /-- CWRITE (R277). -/
  | cwrite (r : Req)
  /-- RDATA (R398). -/
  | rdata (r : Resp)
  /-- RSTAT (R398). -/
  | rstat (r : Resp)
  /-- LINE_LANDS (R168). -/
  | lineLands (c : CoreId) (l : BitVec 3) (seq : BitVec 16) (line : BitVec 2)
  /-- LOB_CFG_WRITE (R164). -/
  | lobCfgWrite (c : CoreId) (l : BitVec 3) (value : W64)
  /-- LOBBY_DISABLE (R183). -/
  | lobbyDisable (c : CoreId) (l : BitVec 3)
  /-- LOB_SEQ_WRITE (R164). -/
  | lobSeqWrite (c : CoreId) (l : BitVec 3) (next : BitVec 16)
  /-- MESH_PACKET (R191). -/
  | meshPacket (w : BitVec 4) (at' : BitVec 6) (direct : Bool) (flits : BitVec 8) (m : Msg) (err : LinkErr) (seam : SeamUse)
  /-- COMBINE_WINDOW_END (R202). -/
  | combineWindowEnd (w bank : BitVec 4) (line : BitVec 18)
  /-- COMBINE_EN (R202). -/
  | combineEn (w : BitVec 4) (en : Bool)
  /-- CONTROL_MESSAGE (R206). -/
  | controlMessage (w : BitVec 4) (at' : BitVec 6) (cls : BitVec 3) (flits : BitVec 4) (move : CtlMove)
  /-- EXT_ARRIVE (R210). -/
  | extArrive (w b : BitVec 4) (add : BitVec 16)
  /-- BAR_MASK_WRITE (R214). -/
  | barMaskWrite (w b : BitVec 4) (x : BarWrite)
  /-- FENCE_REQ (R215). -/
  | fenceReq (w : BitVec 4) (core : BitVec 6) (go : Bool)
  /-- REGION_SUPPLY_FAULT (R215). -/
  | regionSupplyFault (w : BitVec 4) (core : BitVec 6)
  /-- FENCE_START (R216). -/
  | fenceStart (w : BitVec 4)
  /-- FENCE_COMPLETE (R220). -/
  | fenceComplete (w : BitVec 4)
  /-- FEED_LINE (R232). -/
  | feedLine (src : Src) (b : BitVec 5) (ch : BitVec 3) (offset : BitVec 16) (data : List Byte)
  /-- BANK_VECTOR (R229). -/
  | bankVector (b : BitVec 5) (ch : BitVec 3)
  /-- OUTPUT_TILE_SEND (R235). -/
  | outputTileSend (b : BitVec 5) (ch : BitVec 3)
  /-- BANK_TILE_RETRY (R236). -/
  | bankTileRetry (b : BitVec 5) (ch : BitVec 3)
  /-- FLUSH (R237). -/
  | flush (b : BitVec 5) (ch : BitVec 3)
  /-- CH_EN (R257). -/
  | chEn (b : BitVec 5) (ch : BitVec 3) (en : Bool)
  /-- PWB_LOAD (R241). -/
  | pwbLoad (b : BitVec 5)
  /-- LOAD_START (R242). -/
  | loadStart (b : BitVec 5)
  /-- LOAD_COMPLETE (R243). -/
  | loadComplete (b : BitVec 5) (verified : Bool)
  /-- PWB_CAL (R251). -/
  | pwbCal (b : BitVec 5)
  /-- CAL_START (R249). -/
  | calStart (b : BitVec 5)
  /-- CAL_COMPLETE (R249). -/
  | calComplete (b : BitVec 5) (trims : List (BitVec 13 × W64))
  /-- AUTO_CAL (R250). -/
  | autoCal (b : BitVec 5)
  /-- PROBE_WINDOW (R248). -/
  | probeWindow (b : BitVec 5) (st : ProbeStats)
  /-- RING_DISTURBANCE (R253). -/
  | ringDisturbance (r : Ring)
  /-- IDENTITY_CHECK (R252). -/
  | identityCheck (r : Ring) (found : RingId)
  /-- SWEEP_END (R254). -/
  | sweepEnd (r : Ring) (found : Option (Fin 3))
  /-- RING_VERIFY (R254). -/
  | ringVerify (r : Ring) (ok : Bool)
  /-- STALL_CLEAR (R239). -/
  | stallClear (b : BitVec 5)
  /-- LANTERN_INPUT_LOST (R239). -/
  | lanternInputLost (b : BitVec 5)
  /-- PMON_ALARM (R256). -/
  | pmonAlarm (b : BitVec 5) (stage : Fin 5) (total : BitVec 16) (lines : List (BitVec 16)) (minLine : BitVec 6)
  /-- PWB_RESET (R258). -/
  | pwbReset (b : BitVec 5)
  /-- PARK_COMPLETE (R258). -/
  | parkComplete (b : BitVec 5)
  /-- BANK_UNPARK (R239). -/
  | bankUnpark (b : BitVec 5)
  /-- TRIM_WRITE (R504). -/
  | trimWrite (addr : BitVec 40) (value : W64)
  /-- TRIM_SLEW_STEP (R504). -/
  | trimSlewStep (addr : BitVec 40)
  /-- SLOT (R269). -/
  | slot
  /-- LATTICE_PACKET (R280). -/
  | latticePacket (plane : Bool) (p : LatPkt) (got : List Byte)
  /-- LATTICE_RETRANSMIT (R281). -/
  | latticeRetransmit (src dst : Fin 25) (nak : Bool)
  /-- PLANE_UNHEALTHY (R285). -/
  | planeUnhealthy (e : Fin 25) (plane : Bool) (cause : BitVec 4)
  /-- PLANE_HEALTHY (R285). -/
  | planeHealthy (e : Fin 25) (plane : Bool)
  /-- SWITCH_OVER (R288). -/
  | switchOver (e : Fin 25) (gap : BitVec 5)
  /-- SWITCH_NOTICE (R295). -/
  | switchNotice (at' e : Fin 25) (plane : Bool) (fallback : Bool) (strobes : Strobes)
  /-- LATTICE_PROBE (R291). -/
  | latticeProbe (src dst : Fin 25) (ok : Bool)
  /-- FALL_BACK (R293). -/
  | fallBack (e : Fin 25)
  /-- FORCE (R285). -/
  | latForce (e : Fin 25) (plane : Bool)
  /-- RETURN (R292). -/
  | latReturn (e : Fin 25)
  /-- RESUME (R297). -/
  | latResume (e : Fin 25)
  /-- FRAME (R295). -/
  | frame (site : BitVec 5) (ch0 ch1 ch2 : BitVec 128) (m : Msg)
  /-- FLIT_RETRY (R298). -/
  | flitRetry (site : BitVec 5) (lane : LaneId)
  /-- LANE_FAIL (R301). -/
  | laneFail (site : BitVec 5) (g : BitVec 10) (goodLanes : LanesLeft)
  /-- MEMORY_ACCESS (R315). -/
  | memoryAccess (ch : ChanId) (seen : MemEvent)
  /-- REFRESH (R307). -/
  | refresh (ch : ChanId) (sub : BitVec 2) (bank : BitVec 4)
  /-- RETRAIN (R321). -/
  | retrain (ch : ChanId)
  /-- RETRAIN_COMPLETE (R321). -/
  | retrainComplete (ch : ChanId) (ok : Bool)
  /-- PATROL_SCRUB_READ (R322). -/
  | patrolScrubRead (read : ScrubRead)
  /-- MEM_INIT (R319). -/
  | memInit (l : BitVec 2)
  /-- INIT_COMPLETE (R319). -/
  | initComplete (l : BitVec 2)
  /-- MEM_OPEN (R329). -/
  | memOpen (l : BitVec 2) (open' : Bool)
  /-- MAP_WRITE (R309). -/
  | mapWrite (l : BitVec 2) (value : W64)
  /-- TIMING_WRITE (R330). -/
  | timingWrite (ch : ChanId) (value : W64)
  /-- REC_VALID_WRITE (R323). -/
  | recValidWrite (l : BitVec 2) (r : BitVec 6) (valid : Bool)
  /-- LINK_BLOCK (R345). -/
  | linkBlock (f : BitVec 6) (b : LinkBlock)
  /-- FABRIC_PACKET (R348). -/
  | fabricPacket (f : BitVec 6) (p : FabPkt) (got : List Byte)
  /-- TRAIN (R347). -/
  | train (f : BitVec 6) (block : List Byte)
  /-- IDENT (R356). -/
  | ident (f : BitVec 6) (block : List Byte)
  /-- IDENT_ACK (R356). -/
  | identAck (f : BitVec 6) (block : List Byte)
  /-- LEAVE (R354). -/
  | leave (f : BitVec 6) (block : List Byte)
  /-- ABORT (R352). -/
  | abort (f : BitVec 6) (block : List Byte)
  /-- PORT_RETRANSMIT (R349). -/
  | portRetransmit (f : BitVec 6) (nak : Bool)
  /-- ACK_DEADLINE (R350). -/
  | ackDeadline (f : BitVec 6)
  /-- BLOCK_LOSS (R350). -/
  | blockLoss (f : BitVec 6)
  /-- LANE_NOT_GOOD (R358). -/
  | laneNotGood (f : BitVec 6) (seen : LaneSeen)
  /-- PORT_RINGS_TRACK (R359). -/
  | portRingsTrack (f : BitVec 6) (rxq : BitVec 2)
  /-- CODEWORD_LOCK (R359). -/
  | codewordLock (f : BitVec 6) (locked : BitVec 16) (deskewed : Bool)
  /-- PORT_STATE_TIMEOUT (R359). -/
  | portStateTimeout (f : BitVec 6)
  /-- IDENT_ACK_TIMEOUT (R356). -/
  | identAckTimeout (f : BitVec 6)
  /-- IDENT_REFRESH (R360). -/
  | identRefresh (f : BitVec 6)
  /-- PORT_DISABLE (R359). -/
  | portDisable (f : BitVec 6) (disable light : Bool)
  /-- PORT_RETRAIN (R354). -/
  | portRetrain (f : BitVec 6)
  /-- ROUTE_CARD_INSTALL (R342). -/
  | routeCardInstall (card : CardBytes)
  /-- LANTERN_INSERTED (R339). -/
  | lanternInserted (g : BitVec 4)
  /-- LANTERN_REMOVED (R339). -/
  | lanternRemoved (g : BitVec 4)
  /-- LANTERN_POLL (R336). -/
  | lanternPoll (g : BitVec 4) (avg min : BitVec 16) (minLine : BitVec 6) (temp : BitVec 16) (alarm : Bool)
  /-- IDENTITY_READ (R339). -/
  | identityRead (g : BitVec 4) (ok : Bool)
  /-- LANTERN_WARM_CHECK (R339). -/
  | lanternWarmCheck (g : BitVec 4) (ok : Bool)
  /-- LTN_EN (R339). -/
  | ltnEn (g : BitVec 4) (en : Bool)
  /-- ROUTE_PACKET (R372). -/
  | routePacket (f : BitVec 6) (p : FabPkt)
  /-- FABRIC_INJECT (R370). -/
  | fabricInject (e : Fin 25) (dnode : BitVec 16) (body : Body)
  /-- TRANSIT_LAUNCH (R379). -/
  | transitLaunch (f : BitVec 6)
  /-- E2EACK (R388). -/
  | e2eack (p : FabPkt)
  /-- E2E_RETRANSMIT (R389). -/
  | e2eRetransmit (node : BitVec 16) (eseq : BitVec 32)
  /-- E2E_GIVE_UP (R389). -/
  | e2eGiveUp (node : BitVec 16) (eseq : BitVec 32)
  /-- HOLD_EXPIRY (R385). -/
  | holdExpiry (snode : BitVec 16) (chan : BitVec 8) (ord : Bool)
  /-- CONTEXT_RELEASE (R385). -/
  | contextRelease (tx : Bool) (node : BitVec 16) (chan : BitVec 8) (ord : Bool)
  /-- DRAIN (R394). -/
  | drain
  /-- RT_RESUME (R394). -/
  | rtResume
  /-- DRAIN_COMPLETE (R394). -/
  | drainComplete
  /-- DRAIN_FAIL (R394). -/
  | drainFail
  /-- ROUTING_TABLE_WRITE (R393). -/
  | routingTableWrite (addr : BitVec 40) (value : W64)
  /-- ATOMIC_RETRY (R413). -/
  | atomicRetry (c : CoreId) (aseq : BitVec 16)
  /-- STORE_ENTRY_RELEASE (R412). -/
  | storeEntryRelease (die : BitVec 5) (src : Src) (aseq : BitVec 16)
  /-- HANDOFF_WRITE (R408). -/
  | handoffWrite (l : BitVec 2) (src : Src) (value : W64)
  /-- HANDOFF_COMPLETE (R409). -/
  | handoffComplete
  /-- PTY_START (R418). -/
  | ptyStart (e : BitVec 4)
  /-- PTY_ABORT (R418). -/
  | ptyAbort (e : BitVec 4)
  /-- PTY_FREE (R418). -/
  | ptyFree (e : BitVec 4)
  /-- TEARDOWN_COMPLETE (R419). -/
  | teardownComplete (e : BitVec 4)
  /-- ANCHOR_PROBE (R420). -/
  | anchorProbe (e : BitVec 4)
  /-- ANCHOR_PROBE_ANSWER (R420). -/
  | anchorProbeAnswer (e : BitVec 4) (status : BitVec 7) (value : W64)
  /-- ANCHOR_LOST (R420). -/
  | anchorLost (e : BitVec 4)
  /-- ETHERNET_FRAME (R427). -/
  | ethernetFrame (h : EthHead)
  /-- PFC_FRAME (R427). -/
  | pfcFrame (pri : BitVec 8) (quanta : List (BitVec 16))
  /-- ARP_REQUEST (R428). -/
  | arpRequest (h : EthHead)
  /-- NEIGHBOUR_SOLICITATION (R428). -/
  | neighbourSolicitation (h : EthHead)
  /-- ICMP_ECHO (R428). -/
  | icmpEcho (h : EthHead) (payload : List Byte)
  /-- COMMAND_PACKET (R430). -/
  | commandPacket (h : EthHead) (bytes : List Byte)
  /-- HOST_NOP (R435). -/
  | hostNop
  /-- SESSION_OPEN (R435). -/
  | sessionOpen
  /-- SESSION_CLOSE (R434). -/
  | sessionClose
  /-- SESSION_LIST (R435). -/
  | sessionList
  /-- DEVICE_INFO (R435). -/
  | deviceInfo
  /-- EVENT_POLL (R442). -/
  | eventPoll
  /-- REG_READ (R437). -/
  | regRead (remote : List RemoteAns)
  /-- REG_WRITE (R437). -/
  | regWrite (remote : List RemoteAns)
  /-- CORE_CTRL (R437). -/
  | coreCtrl
  /-- PARTY_START (R437). -/
  | partyStart
  /-- PARTY_ABORT (R437). -/
  | partyAbort
  /-- PARTY_FREE (R437). -/
  | partyFree
  /-- HANDOFF (R437). -/
  | handoff
  /-- QP_CREATE (R435). -/
  | qpCreate
  /-- QP_DESTROY (R435). -/
  | qpDestroy
  /-- MR_REGISTER (R435). -/
  | mrRegister
  /-- MR_DEREGISTER (R435). -/
  | mrDeregister
  /-- FREQ_SET (R437). -/
  | freqSet
  /-- CAL_BANK (R437). -/
  | calBank
  /-- CAL_PACKAGE (R437). -/
  | calPackage
  /-- HOST_RESET (R437). -/
  | hostReset
  /-- STOP (R437). -/
  | stop
  /-- DEFERRED_DONE (R432). -/
  | deferredDone (session : BitVec 5) (slot : BitVec 6)
  /-- SESSION_TIMEOUT (R434). -/
  | sessionTimeout (session : BitVec 5)
  /-- RDMA_WRITE (R445); `va`, `rkey` and the message length `len` count in its first packet only. -/
  | rdmaWrite (qp : BitVec 6) (from' : EthHead) (psn : BitVec 24) (pos : RdmaPos) (va : W64) (rkey len : W32) (data : List Byte) (icrcOk : Bool)
  /-- RDMA_READ (R445). -/
  | rdmaRead (qp : BitVec 6) (from' : EthHead) (psn : BitVec 24) (va : W64) (rkey len : W32) (icrcOk : Bool)
  /-- GDOOR_RING (R447). -/
  | gdoorRing (src : Src) (g : BitVec 1)
  /-- ECONS_WRITE (R440). -/
  | econsWrite (session : BitVec 5) (value : W64)
  /-- ETH_RETRAIN (R426). -/
  | ethRetrain
  /-- ETH_LINK_DOWN (R448). -/
  | ethLinkDown
  /-- REFERENCE_LOST (R451). -/
  | referenceLost
  /-- REFERENCE_RESTORED (R451). -/
  | referenceRestored
  /-- ROOT_PLL_UNLOCK (R451). -/
  | rootPllUnlock
  /-- CLOCK_RATIO_ERROR (R451). -/
  | clockRatioError (clock : BitVec 4)
  /-- DISCIPLINE_WINDOW (R453). -/
  | disciplineWindow (w : BitVec 4) (q : BitVec 2) (undrooped produced : BitVec 11)
  /-- SUPPLY_DROOP (R454). -/
  | supplyDroop (w : BitVec 4) (q : BitVec 2) (stretch : BitVec 8)
  /-- SUPPLY_BELOW_LIMIT (R455). -/
  | supplyBelowLimit (w : BitVec 4) (q : BitVec 2)
  /-- SUPPLY_ABOVE_LIMIT (R455). -/
  | supplyAboveLimit (w : BitVec 4) (q : BitVec 2)
  /-- HOLD_TIMEOUT (R455). -/
  | holdTimeout (w : BitVec 4) (q : BitVec 2)
  /-- FREQ_GO (R459). -/
  | freqGo (opp : BitVec 2)
  /-- DEPARTURE (R460). -/
  | departure
  /-- CLOCK_MONITOR_WINDOW (R463). -/
  | clockMonitorWindow (w : BitVec 4) (q : BitVec 2) (jitter dutyMin dutyMax : BitVec 8)
  /-- LEDGER_TICK (R464). -/
  | ledgerTick
  /-- LEDGER_SYNC (R465). -/
  | ledgerSync
  /-- SNOOP_SYNC (R465). -/
  | snoopSync (c : CoreId) (count : W64)
  /-- LSYNC_EDGE (R467). -/
  | lsyncEdge
  /-- LED_ADJ (R467). -/
  | ledAdj (value : W32)
  /-- POWER_ON (R474). -/
  | powerOn
  /-- RST_N (R566). -/
  | rstN (low : Bool) (longPulse : Bool)
  /-- WRST_N (R566). -/
  | wrstN (low : Bool) (longPulse : Bool)
  /-- WARM_RESET (R477). -/
  | warmReset (cause : BitVec 4)
  /-- BOOT_STEP (R478). -/
  | bootStep (x : BootIn)
  /-- SENSOR_SAMPLE (R489). -/
  | sensorSample (site : BitVec 5) (n : BitVec 6) (reading : Option (BitVec 16))
  /-- SENSOR_SELF_TEST (R490). -/
  | sensorSelfTest (site : BitVec 5) (n : BitVec 6) (ok : Bool)
  /-- REST_STEP_DOWN (R493). -/
  | restStepDown (w : BitVec 4)
  /-- RATE_HOLD_END (R495). -/
  | rateHoldEnd (w : BitVec 4)
  /-- POWER_AVERAGE (R496): the averages over 1 ms, and that of another consumer whose 10 ms end here. -/
  | powerAverage (w : BitVec 4) (siteMw packageMw : W32) (other : Option (Consumer × W32))
  /-- ORDERLY_STOP (R500). -/
  | orderlyStop (cause : BitVec 3)
  /-- ORDERLY_STEP_LIMIT (R501). -/
  | orderlyStepLimit
  /-- HARD_TRIP (R502). -/
  | hardTrip
  /-- CAL_DEFAULTS (R504). -/
  | calDefaults (site : BitVec 5)
  /-- PKG_GO (R507). -/
  | pkgGo
  /-- PKG_RECAL_PHASE (R507). -/
  | pkgRecalPhase (ok : W64)
  /-- FAULT_RECORD_ARRIVAL (R520). -/
  | faultRecordArrival
  /-- FAULT_POLICY (R523). -/
  | faultPolicy (seq : BitVec 16)
  /-- FLT_ACK (R521). -/
  | fltAck (seq : BitVec 16) (upto : Bool)
  /-- ALIVE_TOGGLE (R524). -/
  | aliveToggle
  /-- HEARTBEAT_MISSING (R525). -/
  | heartbeatMissing (group : BitVec 3)
  /-- INJ_GO (R527). -/
  | injGo (site : BitVec 5) (value : W64)
  /-- INTAKE (R529). -/
  | intake (src : Src) (w0 w1 w2 w3 w4 w5 : W64)
  /-- BERTH_POWER_OVER (R45). -/
  | berthPowerOver (g : BitVec 1) (mw : W32)
  /-- BERTH_SUPPLY_CUT (R45). -/
  | berthSupplyCut (g : BitVec 1) (mw : W32)
  /-- ENTDAA (R533). -/
  | entdaa (addr : BitVec 7)
  /-- SET_ENDPOINT_ID (R533). -/
  | setEndpointId (eid : BitVec 8)
  /-- GET_ENDPOINT_ID (R533). -/
  | getEndpointId (from' : BitVec 8)
  /-- GET_MCTP_VERSION_SUPPORT (R533). -/
  | getMctpVersionSupport (from' : BitVec 8)
  /-- GET_MESSAGE_TYPE_SUPPORT (R533). -/
  | getMessageTypeSupport (from' : BitVec 8)
  /-- GET_VENDOR_DEFINED_MESSAGE_SUPPORT (R533). -/
  | getVendorDefinedMessageSupport (from' : BitVec 8)
  /-- IMG_BEGIN (R539). -/
  | imgBegin (eid tag : BitVec 8) (header : List Byte)
  /-- IMG_DATA (R540). -/
  | imgData (eid tag : BitVec 8) (offset : W32) (data : List Byte)
  /-- IMG_END (R541). -/
  | imgEnd (eid tag : BitVec 8)
  /-- IMG_ABORT (R540). -/
  | imgAbort (eid tag : BitVec 8)
  /-- COMMIT (R543). -/
  | commit (eid tag : BitVec 8) (reset : Bool)
  /-- FW_STATUS (R535). -/
  | fwStatus (eid tag : BitVec 8)
  /-- SVC_REG_READ (R535). -/
  | svcRegRead (eid tag : BitVec 8) (addrs : List (BitVec 40))
  /-- SVC_REG_WRITE (R535). -/
  | svcRegWrite (eid tag : BitVec 8) (writes : List (BitVec 40 × W64))
  /-- TRANSFER_TIMEOUT (R540). -/
  | transferTimeout
  /-- CONFIRM (R546). -/
  | confirm (fromFirmware : Bool)
  /-- FIRMWARE_WATCHDOG (R546). -/
  | firmwareWatchdog
  /-- GET_VERSION (R549). -/
  | getVersion (eid : BitVec 8)
  /-- GET_CAPABILITIES (R549). -/
  | getCapabilities (eid : SpdmFrom)
  /-- NEGOTIATE_ALGORITHMS (R549). -/
  | negotiateAlgorithms (eid : SpdmFrom) (asym hash : W32)
  /-- GET_DIGESTS (R549). -/
  | getDigests (eid : BitVec 8)
  /-- GET_CERTIFICATE (R549). -/
  | getCertificate (eid slot : BitVec 8) (offset len : BitVec 16)
  /-- CHALLENGE (R549). -/
  | challenge (eid slot : BitVec 8) (nonce : List Byte)
  /-- GET_MEASUREMENTS (R550). -/
  | getMeasurements (eid index : BitVec 8) (sign : Bool) (nonce : List Byte)
  /-- POWER_CUT (R560). -/
  | powerCut
  /-- ILLEGAL_ENCODING (R129). -/
  | illegalEncoding (c : CoreId) (word : W32)
  /-- COLD_RESET (R474). -/
  | coldReset (cause : BitVec 4)
  /-- ETH_LINK_UP (R426). -/
  | ethLinkUp (offer : BitVec 3) (trained : BitVec 8)
  /-- HEARTBEAT (R525). -/
  | heartbeat (group : BitVec 3)
  /-- VAUX_APPLIED (R561). -/
  | vauxApplied
  /-- PAUSE_TIME_EXPIRY (R427). -/
  | pauseTimeExpiry (pri : BitVec 3)
  deriving DecidableEq, Repr

end Sys2Proof
end

