-- ==== Sys2Proof/Config.lean ====
section
/-! DEFINITION. What an implementation fixes and the manual does not state: constants with no body.
Nothing in Lean can evaluate them, so every statement holds for every value of them. -/

namespace Sys2Proof.Config

/-- A fresh undefined word; applied to State.freeCount, which each use advances (log entry 6). -/
opaque freeWord : Nat → BitVec 64
/-- The vector assists' raw result, by assist number and input; used only when it lies inside the
error bound of R75 (log entry 7). -/
opaque assist : Nat → BitVec 32 → BitVec 32
/-- Analog error e_j of bank b, output j, in units of 2^-20 of S_j, by a count of vectors (R229). -/
opaque analogError : Nat → Nat → Nat → Int
/-- Heater power in uW that holds ring `r` (R226) of a bank, with a trim word, at a weight (R243: the manual gives no
formula); input modulators stand at weight 0. -/
opaque heaterPower : Nat → BitVec 64 → Int → Int
/-- Quadrant of its bank that a ring lies in, modulo 4 (R244). -/
opaque quadrant : Nat → Nat
/-- Fused default of the trim word at a control-space address (R503). -/
opaque defaultTrim : Nat → BitVec 64
/-- LAT.LANE and LAT.ROLE words of a berth's modules, by control-space address (R298, R303). -/
opaque lanePlan : Nat → BitVec 64
/-- Order in which the boot image's lane plan takes the physical groups of a site: by site and group (R299). -/
opaque laneKey : Nat → Nat → Nat
/-- Check bits of a switch notice (R295). -/
opaque noticeCheck : BitVec 7 → BitVec 5
/-- The training pattern of TRAIN messages, by byte (R347). -/
opaque trainPattern : Nat → BitVec 8
/-- Inline check word of 64 bytes of data in a channel line (R317: the manual states what the code detects and not the
code). -/
opaque checkCode : Nat → List (BitVec 8) → BitVec 16
/-- MEM.TIMING as training leaves it, by control-space address (R330). -/
opaque trainedTiming : Nat → BitVec 64
/-- The JESD239 limits a TIMING write is raised to, by bin (R330). -/
opaque timingLimit : Nat → BitVec 64
/-- CTX1 of an exception's record: R516 says that it holds EPC and INFO and not how (log entry 8). -/
opaque excContext : BitVec 22 → BitVec 64 → BitVec 64
/-- CTX0 of the record that names a consumer, by its row in the table of R43: R496 gives the names no code (log entry 69). -/
opaque consumerName : Nat → BitVec 64
/-- Element of a scaled output group whose row scale amax / max_D rounds to zero: R115 states no quotient
(log entry 9). -/
opaque zeroScaleElem : BitVec 4 → BitVec 32 → Nat
/-- Fused MAC address (R449). -/
opaque macAddr : BitVec 48
/-- Enterprise number of the vendor-defined messages (R552, reset "Fixed"). -/
opaque iana : BitVec 32
/-- Whether SIGNATURE verifies for the signed 128 bytes under ROM key `k` (R537, R538: the keys are
not given). -/
opaque signatureOk : Nat → List Byte → List Byte → Bool
/-- RSAPSS signature of the device key over a byte string (R549: the key cannot be read). -/
opaque deviceSign : List Byte → List Byte
/-- The slot 0 certificate chain (R549). -/
opaque certChain : List Byte
/-- SHA-512 of the K0 ROM (R550). -/
opaque romHash : List Byte
/-- Edge router of W die `w`, as a number of the 28, that the lane plan gives to traffic with another site (R190, R299). -/
opaque edgeRouter : Nat → Nat → Nat
/-- Which of the next routers on a route of fewest hops a control router's table names: by die, router and
destination (R207, log entry 82). -/
opaque routeChoice : Nat → Nat → Nat → Nat
/-- One step of the LFSR of RT_SEED, whose polynomial the manual does not give (R376). -/
opaque routeLfsrStep : BitVec 32 → BitVec 32

end Sys2Proof.Config
end

