-- ==== Sys2Proof/Machine/SMap.lean ====
section
/-! DEFINITION. Sparse maps and byte memory in one canonical form: keys strictly rising, and no entry
equal to what an unlisted key reads as. Every indexed family of the state is held this way. -/

namespace Sys2Proof.Machine

/-- A family of values by index; an index not listed reads as the family's default. -/
abbrev SMap (α : Type) := List (Nat × α)

/-- The value at index `k`, `d` where none is listed. -/
def smGet {α : Type} (d : α) : SMap α → Nat → α
  | [], _ => d
  | (i, x) :: m, k => if i = k then x else smGet d m k

/-- The entries at other indices than `k`. -/
def smErase {α : Type} (k : Nat) (m : SMap α) : SMap α := m.filter fun e => e.1 != k

/-- Put `v` at index `k`, in order of the keys; the default is not listed. -/
def smSet {α : Type} [DecidableEq α] (d : α) : SMap α → Nat → α → SMap α
  | [], k, v => if v = d then [] else [(k, v)]
  | (i, x) :: m, k, v =>
    if i < k then (i, x) :: smSet d m k v
    else if v = d then smErase k ((i, x) :: m)
    else (k, v) :: smErase k ((i, x) :: m)

/-- Keys of the tail all lie above `k`. -/
def smAbove {α : Type} (k : Nat) : SMap α → Bool
  | [] => true
  | (i, _) :: m => decide (k < i) && smAbove k m

/-- The canonical form. -/
def smWf {α : Type} [DecidableEq α] (d : α) : SMap α → Bool
  | [] => true
  | (i, x) :: m => smAbove i m && decide (x ≠ d) && smWf d m

/-- What a byte of memory that nothing has written reads as (log entry 2). -/
def Memory.blank : Byte := 0

/-- One byte of memory. -/
def Memory.get (m : List Host.Cell) (a : Nat) : Byte := smGet Memory.blank m a
/-- Write one byte. -/
def Memory.set (m : List Host.Cell) (a : Nat) (b : Byte) : List Host.Cell := smSet Memory.blank m a b
/-- The canonical form of a memory. -/
def Memory.wf (m : List Host.Cell) : Bool := smWf Memory.blank m

/-- `n` bytes from address `a` upward. -/
def Memory.read (m : List Host.Cell) (a : Nat) : Nat → List Byte
  | 0 => []
  | n + 1 => Memory.get m a :: Memory.read m (a + 1) n

/-- Write a run of bytes from address `a` upward. -/
def Memory.write (m : List Host.Cell) (a : Nat) : List Byte → List Host.Cell
  | [] => m
  | b :: bs => Memory.write (Memory.set m a b) (a + 1) bs

end Sys2Proof.Machine
end

