-- ==== Sys2Proof/Machine/State.lean ====
section
/-! DEFINITION. The state of the TX960 as plain data: everything 00_scope.md to 19_pins_and_electrical.md
give the part, its memory, its control space, and the queue of commands that wait. -/

namespace Sys2Proof.Machine

/-- How the part was made (R1 to R7, R194). Fixed; no command changes it (log entry 3). -/
structure Part where
  /-- Grade A, B, C as 0, 1, 2 (R2). -/
  grade : Fin 3
  /-- The 192 GiB option; false is 144 GiB (R4). -/
  mem192 : Bool
  /-- Berth code, 0 for B00 (R1). -/
  berth : BitVec 7
  /-- Good-core mask of each W die (R194); a die not listed has all 64 cores good. -/
  good : SMap W64
  /-- Revision of each die as letter and digit (R36); a die not listed is B0 (0x10). -/
  rev : SMap (BitVec 8)
  /-- Revision of the base: false GA, true GB (R36). -/
  baseGB : Bool
  deriving DecidableEq, Repr

/-- Core states (R49). -/
inductive CoreState where
  | reset | idle | run | wait | halt | fault | fenced
  deriving DecidableEq, Repr

/-- An exact value of a number format: NaN, an infinity, or (-1)^neg * m * 2^e (R98). -/
inductive FV where
  | nan
  | inf (neg : Bool)
  | fin (neg : Bool) (m : Nat) (e : Int)
  deriving DecidableEq, Repr

/-- Which scales apply to a tile (R103). -/
inductive ScaleKind where
  | none | block | row
  deriving DecidableEq, Repr

/-- A decoded tile: elements row by row, and its scales in the order of R104. -/
structure Tile where
  fmt : BitVec 4
  rows : Nat
  cols : Nat
  el : List FV
  sk : ScaleKind
  sc : List FV
  deriving DecidableEq, Repr

/-- The wait instruction a core in WAIT stands on (R155). -/
inductive WaitOn where
  | lobWait (l : BitVec 3) (whole : Bool)
  | prtWait (q : BitVec 4)
  | prtAwait
  | fence (mask : BitVec 5)
  | lwait (target : W64)
  | waitx (target : W64) (rb : BitVec 6) (lobby : BitVec 3) (all : Bool)
  | bar (b : BitVec 4)
  /-- The barrier has released the core, whose clock edges are withheld (R455). -/
  | barDone (b : BitVec 4)
  deriving DecidableEq, Repr

/-- A vector operation in the vector queue: the results it lands when it completes (R124). -/
structure VOp where
  /-- Lanes written, as 64 * v + lane. -/
  wr : List (Nat × W32) := []
  /-- v registers it writes, for the scoreboard of R57. -/
  vregs : List (BitVec 5) := []
  /-- Scalar register it writes (VMVV). -/
  sreg : Option (BitVec 6 × W32) := none
  /-- VEC.FLAGS bits it raises. -/
  flags : BitVec 5 := 0
  deriving DecidableEq, Repr

/-- A matrix operation as captured at issue (R65, R125). -/
inductive MOp where
  | ldw (tb : BitVec 128)
  | mul (ta : BitVec 128) (arow : BitVec 9) (swap acc : Bool) (th : BitVec 3)
  | omul (ta tb : BitVec 128) (arow : BitVec 9) (acc : Bool)
  | st (ta : BitVec 128) (arow : BitVec 9) (rm : Rm) (ovc : Ovc) (lfsr : W64)
  | rdv (v : BitVec 5) (arow : BitVec 9)
  | wrv (lanes : List W32) (arow : BitVec 9)
  deriving DecidableEq, Repr

/-- A matrix operation in the queue with the address of its instruction (R60). -/
structure MQ where
  op : MOp
  pc : BitVec 22
  deriving DecidableEq, Repr

/-- A matrix operation that has started, with the operands it read (R71). -/
structure MRun where
  op : MOp
  pc : BitVec 22
  a : Option Tile := none
  w : Option Tile := none
  deriving DecidableEq, Repr

/-- A line of the instruction cache (R56): its pantry line number and its 128 bytes. -/
structure ICLine where
  line : BitVec 15
  data : List Byte
  deriving DecidableEq, Repr

/-- A tile slot of a lobby (R163). -/
structure LSlot where
  seq : BitVec 16
  hdr : BitVec 128
  nl : BitVec 2
  /-- Lines arrived, by index; a line not yet arrived is not listed. -/
  lines : SMap (List Byte)
  /-- Lines written to their buffers (R168). -/
  landed : BitVec 4
  /-- Its late check has been made or has passed (R180). -/
  checked : Bool := false
  deriving DecidableEq, Repr

/-- A drop mark (R175): its SEQ, whether the header packet has arrived, and the lines still to come
once that is known. -/
structure LMark where
  seq : BitVec 16
  hdrSeen : Bool
  toCome : BitVec 4
  /-- The second packet of a 4-line tile has arrived before its header. -/
  tail : Bool := false
  deriving DecidableEq, Repr

/-- Lobby storage beside its registers (R163, R168, R171). -/
structure Lobby where
  slots : List LSlot := []
  marks : List LMark := []
  readpos : BitVec 2 := 0
  /-- Last value: the last line returned by a read; empty stands for 128 zero bytes. -/
  last : List Byte := []
  held : BitVec 128 := 0
  deriving DecidableEq, Repr

/-- What a porter packet in flight was (R85). -/
inductive PKind where
  | rd | wr | tileHead | tileTail
  deriving DecidableEq, Repr

/-- A porter packet sent and not yet answered: tag, what it was, its place in the transfer (byte
offset, or tile index), its size in bytes, and the lines it counts against R85. -/
structure PPkt where
  tag : BitVec 12
  kind : PKind
  pos : Nat
  size : Nat
  lines : Nat
  deriving DecidableEq, Repr

/-- A tile refused with a retried status (R167). -/
structure PRetry where
  tile : Nat
  at' : W64
  tries : Nat
  status : BitVec 7
  /-- It has been sent again and its answer is awaited. -/
  sent : Bool := false
  deriving DecidableEq, Repr

/-- Where a started descriptor stands (R84, R85). -/
inductive DPhase where
  | active | waitLedger | waitAcks | done
  deriving DecidableEq, Repr

/-- A started descriptor (R81 to R89). -/
structure Desc where
  idx : BitVec 16
  w0 : W64 := 0
  w1 : W64 := 0
  w2 : W64 := 0
  w3 : W64 := 0
  phase : DPhase := .active
  /-- Bytes of a transfer issued so far: read or written, whichever comes first. -/
  issued : Nat := 0
  /-- Tiles of a PUSH sent so far, and whether the second packet of the last one is still to go. -/
  tiles : Nat := 0
  half : Option Nat := none
  pkts : List PPkt := []
  /-- Read data returned and not yet used: place in the transfer and bytes. -/
  buf : List (Nat × List Byte) := []
  /-- Tiles accepted. -/
  acked : List Nat := []
  retry : List PRetry := []
  status : BitVec 8 := 0
  /-- Place of the first error, if any. -/
  errAt : Option Nat := none
  done : Nat := 0
  endT : W64 := 0
  deriving DecidableEq, Repr

/-- An outstanding PRT.ATOM (R149, R150, R411): its block, sequence number, request and retries. -/
structure Atom where
  block : BitVec 22
  aseq : BitVec 16
  /-- Tag of the latest attempt. -/
  tag : BitVec 12
  op : BitVec 4
  addr : W64
  a : BitVec 128
  b : BitVec 128
  attempt : BitVec 2
  sentT : W64
  /-- Tags of the earlier attempts, in order: each attempt has its own (log entry 105). -/
  oldTags : List (BitVec 12) := []
  /-- The retried statuses that attempts have ended with, each with its attempt (R413, R414). -/
  bad : List (Nat × BitVec 7) := []
  deriving DecidableEq, Repr

/-- One Wayfarer core beside its registers and its pantry (R48, R54). -/
structure CoreSt where
  st : CoreState := .reset
  pc : BitVec 22 := 0
  /-- STEP has been written and its one instruction has not issued yet (R50). -/
  step : Bool := false
  /-- The wait instruction of a core in WAIT. -/
  wait : Option WaitOn := none
  /-- The program-end instruction has retired and the queues are not yet empty (R50). -/
  ending : Bool := false
  /-- Scalar registers s1 to s63; s0 is never listed. -/
  s : SMap W32 := []
  /-- Vector lanes, 64 * v + lane. -/
  v : SMap W32 := []
  /-- Tile handles t0 to t7. -/
  t : SMap (BitVec 128) := []
  vq : List VOp := []
  mq : List MQ := []
  mrun : List MRun := []
  wActive : Option Tile := none
  wShadow : Option Tile := none
  /-- Mode of the last array operation, true for OS (R94). -/
  osMode : Bool := false
  /-- Accumulator, 64 * row + lane, and the rows marked written (R68). -/
  acc : SMap W32 := []
  accWr : SMap Bool := []
  /-- Array cycles counted for the rest insertion of R492. -/
  restCnt : BitVec 32 := 0
  /-- Instruction cache by index 0 to 127 (R56). -/
  ic : SMap (Option ICLine) := []
  /-- Address and word of the last instruction fetched (R56). -/
  fetched : Option (BitVec 22 × W32) := none
  lob : SMap Lobby := []
  /-- Started descriptors of each porter queue, in ring order. -/
  prt : SMap (List Desc) := []
  /-- Porter packets sent: the next tag. -/
  prtTag : BitVec 12 := 0
  /-- Queue served last, for the rotation of R85. -/
  prtLast : BitVec 4 := 0
  atoms : List Atom := []
  /-- Next ASEQ (R411). -/
  aseq : BitVec 16 := 0
  /-- Pending barrier arrivals by barrier: EPOCH and GEN recorded (R210). -/
  bars : SMap (Option (BitVec 8 × W32)) := []
  /-- Offset of the ledger snoop from the ledger clock (R465). -/
  snoopOff : W64 := 0
  /-- The value a held snoop keeps until the ledger reaches it (R465). -/
  snoopHold : Option W64 := none
  /-- In RESET by a party teardown, until it is started or reset again (R419). -/
  heldReset : Bool := false
  deriving DecidableEq, Repr

/-- A fence in progress on a W die: each core it covers with its cause and its state at step 1, and the
barriers that gained LOST (R215, R216, R220). -/
structure Fence where
  cores : List (BitVec 6 × BitVec 4 × CoreState)
  bars : List (BitVec 4)
  deriving DecidableEq, Repr

/-- A combining entry of a commons bank (R200, R201): its line, its data, the response of the read that
opened it, whether that response has left the bank, and whether a read has joined it. -/
structure CEntry where
  line : Nat
  data : List Byte
  first : Resp
  left : Bool := false
  joined : Bool := false
  deriving DecidableEq, Repr

/-- A message that a control router of W die `die` holds: the router, its destination (none: the die controller), the
next router of its route (none: it is delivered here), its class and its flits, and the fault record that one of class 2
carries (R205 to R208, R515). -/
structure CtlMsg where
  die : BitVec 4
  at' : BitVec 6
  dst : Option (BitVec 6)
  next : Option (BitVec 6)
  cls : BitVec 3
  flits : BitVec 4
  fault : Option FaultRec := none
  deriving DecidableEq, Repr

/-- One line access of a request at an L die: its request, local address and bytes. -/
structure GAcc where
  id : Nat
  addr : Nat
  n : Nat
  deriving DecidableEq, Repr

/-- A GDDR7 request accepted at an L die: its line accesses still to come, the data read so far, whether it
has been answered (R314, R315). -/
structure GReq where
  id : Nat
  req : Req
  left : Nat
  data : List (Nat × List Byte) := []
  status : BitVec 7 := 0
  answered : Bool := false
  deriving DecidableEq, Repr

/-- A GDDR7 channel: its queue in arrival order, the ledger counts of its recent CRC retries, whether a
cause to retrain stands, and the next data line or check row its scrub reads (R315, R320 to R322). -/
structure MemChan where
  q : List GAcc := []
  crc : List W64 := []
  want : Bool := false
  scrub : Nat := 0
  /-- A warm reset waits for retraining to end (R328). -/
  selfDue : Bool := false
  /-- TIMING in force, where training has taken a host's value (R330). -/
  timing : Option W64 := none
  deriving DecidableEq, Repr

/-- Ownership of a region away from its reset value (R406). -/
structure Region where
  owner : BitVec 16
  party : BitVec 16
  moving : Bool
  /-- Its party was torn down: writes are refused until a hand-off from K0 (R419). -/
  cut : Bool := false
  deriving DecidableEq, Repr

/-- The hand-off in progress and the CWRITE that waits for its answer (R408, R409). -/
structure HandOff where
  first : Nat
  nm1 : Nat
  owner : BitVec 16
  party : BitVec 16
  answer : Option Req
  /-- The host command that is executing began it. -/
  host : Bool := false
  deriving DecidableEq, Repr

/-- An entry of an exactly-once store: its result with the count at which it was written, or the attempts
that wait for it (R412). -/
structure SEntry where
  src : Src
  aseq : BitVec 16
  result : Option (BitVec 7 × List Byte × W64) := none
  waiting : List Req := []
  deriving DecidableEq, Repr

/-- A complete output tile of a bank channel that is not yet sent (R235). -/
structure BTile where
  lines : List (List Byte)
  epoch : BitVec 16
  last : Bool
  tidx : Nat
  deriving DecidableEq, Repr

/-- An output tile sent and not yet accepted: its packets' tags, and where its retries stand (R235, R236). -/
structure BSent where
  hdr : BitVec 128
  lines : List (List Byte)
  head : BitVec 12
  tail : BitVec 12
  /-- When a refused tile is due to be sent again. -/
  due : Option W64 := none
  tries : Nat := 0
  refused : Bool := false
  deriving DecidableEq, Repr

/-- A bank channel beside its registers (R231 to R237). -/
structure BankCh where
  /-- Feed lines, oldest first. -/
  feed : List (List Byte) := []
  /-- The earlier vector of the oldest line has been taken. -/
  half : Bool := false
  /-- E4M3 outputs of an earlier vector. -/
  part : Option (List Byte) := none
  lines : List (List Byte) := []
  /-- EPOCH when the incomplete tile's first vector entered. -/
  epoch : BitVec 16 := 0
  tidx : Nat := 0
  tiles : List BTile := []
  sent : List BSent := []
  deriving DecidableEq, Repr

/-- A weight load in progress: image reads not answered, the lines read, and whether the image is whole (R243). -/
structure BankLoad where
  reads : List (BitVec 12 × Nat) := []
  got : List (Nat × List Byte) := []
  ready : Bool := false
  /-- When the ramp began, its steps made, and the power change of all its heaters in each quadrant in uW (R243, R244). -/
  rampT : W64 := 0
  steps : Nat := 0
  change : List Int := []
  deriving DecidableEq, Repr

/-- A photonic weight bank beside its registers (R223 to R260). -/
structure BankSt where
  /-- Resident weights as bytes, and column scales. -/
  q : List Byte := []
  c : List W32 := []
  load : Option BankLoad := none
  /-- When a reset that is ramping the heaters to park level began (R258). -/
  parking : Option W64 := none
  /-- Ledger count of a cause for auto-calibration (R250). -/
  autoCause : Option W64 := none
  tag : BitVec 12 := 0
  vectors : Nat := 0
  /-- Vector slots since a probe slot, and probes of the window in hand (R248). -/
  slots : Nat := 0
  probes : Nat := 0
  /-- End of the last calibration (R247). -/
  calT : Option W64 := none
  /-- Power of each comb line at the stages measured, in 0.01 dBm (R256). -/
  levels : SMap (List (BitVec 16)) := []
  /-- Heater power change that ramps of thermal neighbours have fed forward, by quadrant, in 1/64 uW (R244, R498). -/
  fed : List Int := []
  /-- Channel served last. -/
  rot : Nat := 7
  ch : SMap BankCh := []
  /-- When the rings locked last, and each channel's next tile then. -/
  lockT : W64 := 0
  lockSeq : List (BitVec 16) := []
  deriving DecidableEq, Repr

/-- Ring lock states (R254). -/
inductive RingPh where
  | track | sweep | verify | fail | park
  deriving DecidableEq, Repr

/-- A ring away from plain tracking, or with a clean identity check on record (R254, R255). -/
structure RingSt where
  ph : RingPh := .track
  cleanT : Option W64 := none
  cleanSeq : List (BitVec 16) := []
  /-- The line found and the two ledger counts of the mislock it is being relocked for. -/
  found : Option (Nat × W64 × W64) := none
  deriving DecidableEq, Repr

/-- The correction of a temperature feed-forward: it moves from `old` to `new` over the 12,000 ticks from `at'` on
(R498). -/
structure LoopSt where
  old : Int := 0
  new : Int := 0
  at' : W64 := 0
  deriving DecidableEq, Repr

/-- A lattice packet launched and not yet acknowledged: the slot of its last launch, how often it has been
retransmitted, and whether it is due again (R281). -/
structure LatSent where
  pkt : LatPkt
  slot : Nat
  tries : Nat := 0
  due : Bool := false
  deriving DecidableEq, Repr

/-- The slot control word of an endpoint on a plane in a slot (R273, R274). -/
structure SlotWord where
  slot : Nat
  ep : Nat
  plane : Bool
  word : BitVec 128
  deriving DecidableEq, Repr

/-- A failure on a plane at an endpoint: as sender (a NAK or a timeout) or as receiver (a CRC failure), with which peer, and
whether of a probe (R285, R291). -/
structure LatFail where
  slot : Nat
  ep : Nat
  plane : Bool
  tx : Bool
  peer : Nat
  probe : Bool
  deriving DecidableEq, Repr

/-- A grant of a trunk in a slot (R273). -/
structure SlotGrant where
  slot : Nat
  plane : Bool
  trunk : Nat
  to' : Nat
  recv : Nat
  deriving DecidableEq, Repr

/-- A fabric packet launched and not yet acknowledged on its link, with the counts of its first and last
launch (R349, R350). -/
structure LinkSent where
  pkt : FabPkt
  first : W64
  last : W64
  /-- An ABORT has ended it: the ABORT is what is sent again (R352). -/
  aborted : Bool := false
  deriving DecidableEq, Repr

/-- A fabric port beside its registers (R344 to R362). -/
structure PortSt where
  /-- When the present state was entered. -/
  since : W64 := 0
  /-- Next LSEQ expected. -/
  expect : BitVec 12 := 0
  /-- A loss is to be reported. -/
  nak : Bool := false
  /-- Packets delivered by the link and not yet taken by the routing stage. -/
  rx : List FabPkt := []
  /-- Transit queues, in order of entry (R378). -/
  tq : List FabPkt := []
  /-- How often each virtual channel has been passed over (R379). -/
  passed : SMap Nat := []
  replay : List LinkSent := []
  /-- Last correctable block. -/
  blockT : W64 := 0
  sentAck : Bool := false
  gotAck : Bool := false
  ackT : W64 := 0
  /-- The partner's TRAIN has come in this ALIGN (R347, R358). -/
  trained : Bool := false
  /-- Its MISMATCH, UNLISTED or INCOMPAT fault, its NOPEER fault and its light Notice have been raised (R362). -/
  faulted : Bool := false
  noPeer : Bool := false
  lit : Bool := false
  refreshT : W64 := 0
  /-- A NAK has come and its packets have not been sent again. -/
  nakIn : Bool := false
  /-- A packet was lost: those after it are discarded until a block whose head is the expected packet (R348). -/
  resync : Bool := false
  /-- ASEQ is valid, the control bits and data bytes of the block sent last, and its symbols that an injection put in error
  (R344, R345, R349, R527). -/
  ackv : Bool := false
  sent : BitVec 20 := 0
  sentData : List Byte := []
  sentErrs : Nat := 0
  /-- Packets' bytes that wait for DATA blocks, and whether the first of them has begun in a block (R346). -/
  out : List (List Byte) := []
  outPart : Bool := false
  /-- Where the data bytes received stand: the first bytes of a header not whole yet, and the bytes of a packet still to come;
  none until a block begins with a packet head (R346). -/
  inPos : Option (List Byte × Nat) := none
  /-- Counts of the corrected symbol errors of the last 1 ms, by lane (R358). -/
  symT : SMap (List W64) := []
  /-- When it last left by its own RETRAIN, and whether it was UP (R363). -/
  leftT : Option (W64 × Bool) := none
  /-- Headers that have come, by LSEQ with their bytes 8 to 63, of packets not delivered yet, and the packet that was passed on
  on the strength of its header (R352, R378). -/
  head : List (BitVec 12 × List Byte) := []
  cut : Option FabPkt := none
  deriving DecidableEq, Repr

/-- A packet in the end-to-end replay store (R389). -/
structure E2eSent where
  pkt : FabPkt
  last : W64
  tries : Nat := 0
  /-- When it was first sent. -/
  first : W64 := 0
  deriving DecidableEq, Repr

/-- A source stream context (R382, R383). -/
structure TxStream where
  cseq : BitVec 32 := 0
  epoch : BitVec 16 := 0
  n : BitVec 32 := 0
  last : W64 := 0
  deriving DecidableEq, Repr

/-- A destination stream context (R382 to R385): next CSEQ, open epochs with their counts, and held packets
with the counts at which they were held. -/
structure RxStream where
  cseq : BitVec 32 := 0
  epoch : BitVec 16 := 0
  counts : List (BitVec 16 × Nat) := []
  held : List (FabPkt × W64) := []
  last : W64 := 0
  deriving DecidableEq, Repr

/-- What has been received from a source node: the lowest ESEQ not received and those above it that have
been (R387). -/
structure RxNode where
  base : BitVec 32 := 0
  got : List (BitVec 32) := []
  deriving DecidableEq, Repr

/-- A full package photonic recalibration in progress (R507): phase 1 to 3, the round of phase 3, the endpoints that
phase 1 and phase 2 calibrate, those whose plane B passed, and the ring trims held when it started. -/
structure Recal where
  phase : Nat := 1
  round : Nat := 0
  eps : List Nat := []
  okB : List Nat := []
  /-- Banks whose calibration the round in hand has requested. -/
  banks : List Nat := []
  saved : SMap W64 := []
  /-- Address ranges of the trims it has changed. -/
  touched : List (Nat × Nat) := []
  deriving DecidableEq, Repr

/-- A temperature sensor beside its registers (R489, R490): samples taken, the last 25 of them with the newest first,
consecutive samples far from the mean of the site, consecutive periods without a sample. -/
structure Sens where
  taken : Nat := 0
  /-- The last 25 sample periods, none for one without a sample. -/
  hist : List (Option (BitVec 16)) := []
  far : Nat := 0
  miss : Nat := 0
  deriving DecidableEq, Repr

/-- A trim that moves: its live word when the move began, the steps made, and the ledger count at the start (R504). -/
structure Slew where
  live : W64
  steps : Nat := 0
  t : W64 := 0
  deriving DecidableEq, Repr

/-- A core clock region (R453 to R455, R463). -/
structure ClkReg where
  /-- Stretch now, and the largest of the open window. -/
  stretch : BitVec 8 := 0
  strMax : BitVec 8 := 0
  /-- Every clock edge is withheld, since when, and what that hold has raised. -/
  below : Bool := false
  belowT : W64 := 0
  longDone : Bool := false
  fenceDone : Bool := false
  /-- When holds of more than 1 us occurred. -/
  longs : List W64 := []
  /-- The last monitor window was beyond the outer thresholds. -/
  badWin : Bool := false
  /-- Ledger edges at which the open discipline window began (R453, R462). -/
  winT : W64 := 0
  deriving DecidableEq, Repr

/-- An injection in progress at a site (R527). -/
structure Inj where
  checker : Nat
  bits : Nat
  unit : Nat
  left : Nat
  deriving DecidableEq, Repr

/-- A firmware bank (R542): state 0 EMPTY, 1 STAGED, 2 TRIAL, 3 GOOD, 4 BAD, and the image it holds. -/
structure FwBank where
  st : Nat := 0
  header : List Byte := []
  body : List Byte := []
  deriving DecidableEq, Repr

/-- A selector record (R543). -/
structure SelRec where
  active : Bool
  trial : Bool
  tried : Bool
  cnt : W32
  crc : W32
  deriving DecidableEq, Repr

/-- The latest write of a selector record: when it was made, into which slot, and what it went with: a bank, its state before, and
the fused minimum before (R543, R546, R548). -/
structure SelWrite where
  t : W64
  slot1 : Bool
  bank : Bool
  was : Nat
  svn : BitVec 6
  deriving DecidableEq, Repr

/-- The SPDM exchange with one endpoint: how far it has come (1 VERSION, 2 CAPABILITIES, 3 ALGORITHMS answered), and the messages
that its signatures cover (R549; log entry 14). -/
structure SpdmSt where
  at' : Nat := 0
  vca : List Byte := []
  certs : List Byte := []
  meas : List Byte := []
  deriving DecidableEq, Repr

/-- What power off does not lose: fuses, K0's non-volatile store (R475, R500, R538, R542 to R544). -/
structure Nv where
  bank0 : FwBank := {}
  bank1 : FwBank := {}
  slot0 : Option SelRec := none
  slot1 : Option SelRec := none
  revoked : BitVec 4 := 0
  svnMin : BitVec 6 := 0
  card : Option CardBytes := none
  /-- Fault log, thermal record and trims saved at step 6 of an orderly stop. -/
  saved : SMap W64 := []
  deriving DecidableEq, Repr

/-- An image transfer (R539 to R541). -/
structure Xfer where
  eid : BitVec 8
  header : List Byte
  body : List Byte := []
  /-- Offset and length of the previous chunk. -/
  prev : Option (Nat × Nat) := none
  since : W64 := 0
  deriving DecidableEq, Repr

/-- Where a host command came from: Ethernet, or a berth (R429, R447). -/
inductive Origin where
  | eth (a : HostAddr)
  | berth (g : BitVec 1)
  deriving DecidableEq, Repr

/-- A host command held for execution (R431). DESIGN CHOICE, log entry 51. -/
structure HCmd where
  from' : Origin
  bytes : List Byte
  /-- It has begun and is not yet answered. -/
  begun : Bool := false
  /-- Writes of a REG_WRITE made so far, and the status of the hand-off it waits for, once that has ended. -/
  made : Nat := 0
  done : Option (BitVec 7) := none
  deriving DecidableEq, Repr

/-- A deferred command that runs (R432): its session, slot, opcode and tag, the banks it requested and refused. -/
structure Deferred where
  sess : Nat
  slot : Nat
  opcode : Nat
  tag : BitVec 16
  banks : List Nat := []
  refused : List Nat := []
  /-- Banks whose calibration has completed since. -/
  calibrated : List Nat := []
  deriving DecidableEq, Repr

/-- A reset or stop that a command asked for: 1 warm, 2 cold, 3 stop; when its reply left, or the reply while it waits to leave
(R437). -/
structure ResetDue where
  kind : Nat
  t : W64
  waits : Option Msg := none
  deriving DecidableEq, Repr

/-- A queue pair (R443): its session, remote QPN and GID, the next PSN expected, the device's PSN, PMTU code. -/
structure QP where
  sess : Nat
  rqpn : BitVec 24
  epsn : BitVec 24
  psn : BitVec 24
  pmtu : BitVec 2
  ipv6 : Bool
  gid : BitVec 128
  /-- Next address, bytes to come and RKEY of the RDMA WRITE message in progress. -/
  msg : Option (W64 × Nat × W32) := none
  msn : BitVec 24 := 0
  /-- A sequence error has been reported and no packet in sequence has come since. -/
  nakSent : Bool := false
  /-- UDP source port of the remote GID: that of its first packet (R444; log entry 55). -/
  udp : Option (BitVec 16) := none
  deriving DecidableEq, Repr

/-- What an RDMA packet asks for: a READ of a length, or the data of a WRITE packet, the last of its message or not. -/
inductive RdmaWhat where
  | read (len : Nat)
  | write (data : List Byte) (last : Bool)
  deriving DecidableEq, Repr

/-- An accepted RDMA packet (R444, R445): its QP, PSN, requester and first address, whether its accesses have been
sent, those not yet answered by tag, address and size, and the data read so far. -/
structure RdmaOp where
  qp : Nat
  psn : BitVec 24
  to' : HostAddr
  addr : W64
  what : RdmaWhat
  issued : Bool := false
  parts : List (BitVec 12 × W64 × Nat) := []
  data : List (Nat × List Byte) := []
  deriving DecidableEq, Repr

/-- A memory region (R443): its session, range and permissions; `ring` for a session's RING_RKEY. -/
structure MR where
  rkey : W32
  sess : Nat
  base : Nat
  len : Nat
  rd : Bool
  wr : Bool
  ring : Bool
  deriving DecidableEq, Repr


set_option maxRecDepth 1024 in
/-- The device beside its memory. -/
structure Dev where
  /-- Control space by 40-bit address; a register not listed holds its reset value (R14, R15). -/
  ctl : SMap W64 := []
  cores : SMap CoreSt := []
  /-- ECC marks by local word (pantry, commons) or line (GDDR7) address: bit 0 a correctable error,
  bit 1 an uncorrectable one, bit 2 an injected one (R60, R199, R317, R527). -/
  ecc : SMap (BitVec 3) := []
  /-- Node ID latched from the straps at cold reset (R36, R366). -/
  node : BitVec 16 := 0
  /-- Ledger clock edges since the ledger started, and the three copies of the count (R464). -/
  raw : W64 := 0
  led : List W64 := [0, 0, 0]
  /-- Uses so far of a free value (log entry 6). -/
  freeCount : Nat := 0
  /-- Messages sent and not yet received, and the outputs of the package, oldest first. -/
  net : List Msg := []
  /-- Fault records on their way to K0 (R517). -/
  records : List FaultRec := []
  /-- Records of cores that have not entered the control network of their die (R206, R517). -/
  recOut : List (CoreId × FaultRec) := []
  /-- Source and count of each record of class 0 or 1 sent in the last 1,200,000 ticks (R518). -/
  storm : List (Src × W64) := []
  /-- Offset of each die's ledger copy from the ledger clock, and a held copy's value (R465). -/
  dieOff : SMap W64 := []
  /-- Ticks by which loads and slews have moved the ledger (R467, R468). -/
  moved : W64 := 0
  /-- Ledger edges at the latest synchronisation message, and the message that each die received last, by site (R465). -/
  syncT : W64 := 0
  syncGot : SMap (Option W64) := []
  dieHold : SMap (Option W64) := []
  /-- Members arrived in the present generation, by 16 * w + barrier (R210, R211). -/
  barIn : SMap W64 := []
  /-- Fence requests that wait, with their cause, and the fence in progress, by W die (R215, R216). -/
  fenceQ : SMap (List (BitVec 6 × BitVec 4)) := []
  fence : SMap (Option Fence) := []
  /-- Combining entries, oldest first, by 16 * w + bank (R200). -/
  combine : SMap (List CEntry) := []
  /-- Packets that have entered a data mesh: the die, the packet and the router that holds it, none once it has left the
  mesh and stands at its target (R191). -/
  hops : List (BitVec 4 × Msg × Option (BitVec 6)) := []
  /-- Responses that travel as one multicast packet (R201). -/
  mcast : List (List Msg) := []
  /-- Which port a commons bank served last, true for its edge port, by 16 * w + bank (R197). -/
  bankPort : SMap (Option Bool) := []
  /-- Route tables of the control network of each W die, as the set of live routers they were computed from (R207). -/
  routes : SMap W64 := []
  /-- Messages held in control routers, in the order in which they came (R208). -/
  ctlHeld : List CtlMsg := []
  /-- GDDR7 channels by package channel 0 to 47, the requests accepted at the L dies, and the next id. -/
  chans : SMap MemChan := []
  greqs : List GReq := []
  gnext : Nat := 0
  /-- L dies whose check words do not match unless their line is listed as written since (R319). -/
  chkStale : SMap Bool := [(0, true), (1, true), (2, true), (3, true)]
  chkOk : SMap Bool := []
  /-- L dies whose check rows hold, under what the memory lists for them, the check words of zeros: INIT ran with CHECK on
  (R319). -/
  chkInit : SMap Bool := []
  /-- Ledger counts of the corrected events of error record 64 * l + r (R324). -/
  weakLog : SMap (List W64) := []
  regions : SMap (Option Region) := []
  handoff : Option HandOff := none
  /-- Exactly-once store of each die, by site (R412). -/
  stores : SMap (List SEntry) := []
  /-- Ledger count of the latest package reset (R415). -/
  lastReset : W64 := 0
  /-- Ledger clock edges at that reset: the health watchdog counts from there (R546, R547). -/
  resetRaw : W64 := 0
  banks : SMap BankSt := []
  /-- Rings by index: bank, lattice and port rings; one not listed is in TRACK while its loop is on. -/
  rings : SMap RingSt := []
  /-- Trims that move (R504). -/
  slews : SMap (Option Slew) := []
  /-- Temperature feed-forward of the loops: oscillator 4w + q, the references of site x at 64 + x, heater zone i at
  128 + i (R498). -/
  loops : SMap LoopSt := []
  /-- Roles with every group out: site, role code, index (R302). -/
  rolesOut : List (Nat × Nat × Nat) := []
  /-- Messages the lattice or a port has delivered at an endpoint and that wait there, with their virtual channel. -/
  arrived : List (Nat × Vc × Msg) := []
  /-- Packets that wait at a shelf endpoint for the lattice. -/
  shelf : List (Nat × Msg) := []
  /-- The next slot to begin, and what slot control words and grants of the last slots said. -/
  slotNext : Nat := 0
  latWords : List SlotWord := []
  latGrants : List SlotGrant := []
  latReplay : List LatSent := []
  /-- Acknowledgements to send: receiver, sender, NAK, LSEQ. -/
  latAcks : List (Nat × Nat × Bool × BitVec 10) := []
  /-- Pairs (sender, receiver) to whose sender a NAK has come and been answered by no retransmission (R281). -/
  latNaks : List (Nat × Nat) := []
  /-- Receivers and senders of pairs on which an injected error is being made good (R528). -/
  latInj : List (Nat × Nat) := []
  /-- Failures of the last 1,024 slots (R285), and the window of 1,024 slots of the latest probe plus one, by
  25 * src + dst (R291). -/
  latFails : List LatFail := []
  probed : SMap Nat := []
  /-- Counts of the flit errors of the last 1 ms by lane, and failed lanes by group: (768 * site + group) * 32 + lane,
  768 * site + group (R301). -/
  flitErrs : SMap (List W64) := []
  lanesBad : SMap Nat := []
  /-- Failed lanes of each half of a UCIe module, by 2 * (768 * e + g) + half (R446). -/
  halfBad : SMap Nat := []
  /-- How often a channel of a pair has been passed over, by (25 * src + dst) * 4 + VC. -/
  latPassed : SMap Nat := []
  /-- Switch notices that have arrived: at, endpoint, plane. -/
  noticed : List (Nat × Nat × Bool) := []
  /-- Endpoints in order of their latest plane loss, oldest first. -/
  losses : List Nat := []
  /-- Slot of the latest loss or probe error, by 2 * e + plane. -/
  planeErr : SMap Nat := []
  /-- Endpoints whose switch-over follows LAT.CTRL.RETURN. -/
  returning : List Nat := []
  ports : SMap PortSt := []
  /-- Intermediate boards drawn for tiles whose second packet is still to come: SEQ and board, by source and stream
  (R162, R376). -/
  tileDraw : SMap (Option (BitVec 16 × BitVec 13)) := []
  /-- Random-intermediate LFSR (R376). -/
  routeLfsr : W32 := 1
  e2e : List E2eSent := []
  /-- Requests acknowledged end to end whose answers have not come (R405). -/
  awaited : List E2eSent := []
  /-- Next ESEQ by destination node, and what has come from each source node. -/
  eseq : SMap W32 := []
  rxNodes : SMap RxNode := []
  /-- Stream contexts by ((node * 256) + channel) * 2 + ordering mode. -/
  txStreams : SMap (Option TxStream) := []
  rxStreams : SMap (Option RxStream) := []
  /-- Source nodes to which an end-to-end acknowledgement is due that no transit queue has admitted yet (R388). -/
  ackDue : List (BitVec 16) := []
  drainT : W64 := 0
  /-- Packets handed back to the routing stage that no transit queue has admitted yet (R355). -/
  rerouted : List FabPkt := []
  /-- By destination node: when the last fault of R417 was raised and the timeouts since. -/
  timeouts : SMap (Option (W64 × Nat)) := []
  /-- Lanterns whose identity has been read, and those in FAULT whose EN has been written 0 (R339). -/
  ltnId : SMap Bool := []
  ltnOff : SMap Bool := []
  /-- Lanterns whose presence signal is asserted at their contacts; a poll takes it up (R336, R575). -/
  ltnPres : SMap Bool := []
  /-- Party entries with an anchor probe outstanding, and when each entry was probed last or started (R420). -/
  probeOut : List Nat := []
  probeT : SMap W64 := []
  recal : Option Recal := none
  /-- Step of the orderly stop in progress, 1 to 7; 0 for none, 8 for STOPPED; and the ledger count at its cause (R500). -/
  stopStep : Nat := 0
  stopT : W64 := 0
  /-- The package's supplies are off (R502, R560), VAUX is in range and PWR_OK is high, RST_N and WRST_N are held low. -/
  off : Bool := false
  vaux : Bool := true
  pwrOk : Bool := true
  rstLow : Bool := false
  wrstLow : Bool := false
  /-- THERMTRIP_N and PWROFF_REQ_N are driven low, and the hard-trip latch is set (R500 to R502). -/
  thermTrip : Bool := false
  pwrOff : Bool := false
  tripLatch : Bool := false
  /-- The undefined level of FAULT_N while VAUX is absent (R565). -/
  faultPin : Option Bool := none
  /-- A warm reset's boot has begun: the boot order skips what is cold only. -/
  warmBoot : Bool := false
  /-- Code of the reset to be latched at step 1 (R474). -/
  rstCause : Nat := 1
  /-- Boot stopped at step 1, or boot waits in RECOVERY (R483). -/
  bootStopped : Bool := false
  /-- The ledger has started (R464). -/
  ledOn : Bool := false
  lsyncT : Option W64 := none
  /-- A load that takes effect: its value and the edge count at which it does (R467). -/
  loadDue : Option (W64 × W64) := none
  freqPend : Option (BitVec 2 × W64) := none
  clkRegs : SMap ClkReg := []
  sensors : SMap Sens := []
  /-- In the band of 105 C: K0 as 20, base sensor i as 1000 + i (R494). -/
  hot : SMap Bool := []
  /-- Last counts at which a W site's rate stood at 4 and at 12 K/ms or above, of the last step down of its rest
  fraction, and of the last power period (R493, R495, R496). -/
  rate4T : SMap W64 := []
  rate12T : SMap W64 := []
  restT : SMap W64 := []
  powT : SMap W64 := []
  inj : SMap (Option Inj) := []
  /-- Messages launched with inverted check bits. -/
  corrupt : List Msg := []
  /-- ALIVE pins: levels; last heartbeat of each group, and groups whose loss has been raised (R524, R525). -/
  aliveLvl : BitVec 8 := 0
  beatT : SMap W64 := []
  beatLost : BitVec 8 := 0
  /-- Arrival counts of 0x0102 records by source, for FENCE_CE, and records not yet given to the policy (R523). -/
  ceTimes : SMap (List W64) := []
  policyQ : List FaultRec := []
  nv : Nv := {}
  xfer : Option Xfer := none
  /-- Ledger clock edges from which the armed health watchdog counts (R546, R547). -/
  wdogT : Option W64 := none
  /-- Host command queue, slots in use by 64 * session + slot, deferred commands (R431, R432, R438). -/
  hostQ : List HCmd := []
  hostUse : SMap (Option (List Byte)) := []
  deferred : List Deferred := []
  /-- When each session last passed check 3 (R434). -/
  sessT : SMap W64 := []
  /-- Counts of the unstored replies of the last second (R430). -/
  badT : List W64 := []
  qps : SMap (Option QP) := []
  mrs : List MR := []
  /-- RDMA packets whose accesses are not all answered, oldest first, and the next tag of such an access. -/
  rdma : List RdmaOp := []
  rdmaTag : BitVec 12 := 0
  /-- Paused priorities, when each pause ends in ledger edges, and the frames that wait for them (R427). -/
  paused : BitVec 8 := 0
  pauseT : SMap W64 := []
  txHeld : List Msg := []
  /-- The latest selector write, and SPDM exchanges by endpoint (R543, R549). -/
  selWrite : Option SelWrite := none
  spdm : SMap SpdmSt := []
  /-- A reset (1 warm, 2 cold) or stop (3) that a command has asked for, and when (R437, R535). -/
  resetDue : List ResetDue := []
  deriving DecidableEq, Repr

/-- The machine: how the part was made, its memory, the device, and the commands that wait. -/
structure State where
  part : Part
  mem : List Host.Cell
  dev : Dev
  pending : List Instr
  deriving DecidableEq, Repr

/-- Why a step stops. The manual gives every command an effect, so no meaning of this model ends in a
fault and the type has no constructor (NOTES.md, Stops). -/
inductive Fault where
  deriving DecidableEq, Repr

/-- Why a command has no meaning here. -/
inductive Refusal where
  /-- The command has no meaning yet; raised by an arm of exec. Safe: nothing is claimed of it. -/
  | notModelled (mnemonic : String)
  deriving DecidableEq, Repr

/-- The part of a reset state: grade A, 192 GiB, B00, all cores good, dies B0, base GB (log entry 3). -/
def Part.standard : Part :=
  { grade := 0, mem192 := true, berth := 0, good := [], rev := [], baseGB := true }

/-- SHA-512 of the image's one body byte, 0. -/
def shippedHash : List Byte :=
  [0xB8, 0x24, 0x4D, 0x02, 0x89, 0x81, 0xD6, 0x93, 0xAF, 0x7B, 0x45, 0x6A, 0xF8, 0xEF, 0xA4, 0xCA,
    0xD6, 0x3D, 0x28, 0x2E, 0x19, 0xFF, 0x14, 0x94, 0x2C, 0x24, 0x6E, 0x50, 0xD9, 0x35, 0x1D, 0x22,
    0x70, 0x4A, 0x80, 0x2A, 0x71, 0xC3, 0x58, 0x0B, 0x63, 0x70, 0xDE, 0x4C, 0xEB, 0x29, 0x3C, 0x32,
    0x4A, 0x84, 0x23, 0x34, 0x25, 0x57, 0xD4, 0xE5, 0xC3, 0x84, 0x38, 0xF0, 0xE3, 0x69, 0x10, 0xEE]
/-- The header of the image the store holds at reset: a firmware image for any part, version 0, of one body byte
(R537; log entry 11). -/
def shippedHeader : List Byte :=
  [0x4A, 0x5A, 0x46, 0x57, 1, 0, 1, 0, 0x60, 0x09, 0xFF, 0xFF, 0x07, 0x03, 0, 0] ++ List.replicate 16 0 ++ [1] ++ List.replicate 7 0
    ++ shippedHash ++ List.replicate 536 0
/-- K0's non-volatile store at reset: bank 0 GOOD and selected (R542, R543; log entry 11). -/
def Nv.shipped : Nv := { bank0 := { st := 3, header := shippedHeader, body := [0] }, slot0 := some ⟨false, false, false, 0, 0xC622F71D⟩ }

/-- The machine right after cold reset: every register at its reset value, memory with nothing listed,
nothing in flight, no command waiting (R15, R474). DESIGN CHOICE, log entry 4. -/
def State.reset : State := { part := Part.standard, mem := [], dev := { nv := Nv.shipped }, pending := [] }

end Sys2Proof.Machine
end

