-- ==== Sys2Proof/Machine/Regs.lean ====
section
/-! DEFINITION. The register tables of control space: for every block the offsets at which a register
stands and the fields of each register with their access and reset value, as the chapters' register maps
give them (R14 to R16, R33, and the rule named at each table). -/

namespace Sys2Proof.Machine

/-- Access codes (R15). -/
inductive Acc where
  | ro | rw | w1c | wo | rws | sat
  deriving DecidableEq, Repr

/-- One field of a register: its bits, access, reset value, and the ranges of values that a register
table marks reserved (R16). -/
structure Field where
  lo : Nat
  hi : Nat
  acc : Acc
  reset : Nat := 0
  rsv : List (Nat × Nat) := []
  deriving DecidableEq, Repr

/-- A register, or an array of `count` registers `stride` bytes apart. -/
structure RegDesc where
  base : Nat
  stride : Nat := 0
  count : Nat := 1
  fields : List Field
  deriving DecidableEq, Repr

/-- The two fields of every counter (R92). -/
def counterFields : List Field := [⟨0, 47, .sat, 0, []⟩, ⟨63, 63, .w1c, 0, []⟩]

/-- Block ID of every site (R36, R487). -/
def regsID : List RegDesc := [
  ⟨0x0, 0x0, 1, [⟨0, 4, .ro, 0, []⟩, ⟨5, 7, .ro, 0, []⟩, ⟨8, 11, .ro, 0, []⟩, ⟨12, 15, .ro, 0, []⟩, ⟨16, 31, .ro, 0, []⟩]⟩,  -- INFO
  ⟨0x8, 0x0, 1, [⟨0, 7, .ro, 0, []⟩]⟩]  -- CAP

/-- Further registers of block ID at K0 (R487). -/
def regsIDK : List RegDesc := [
  ⟨0x100, 0x0, 1, [⟨0, 3, .ro, 0, []⟩, ⟨4, 4, .ro, 0, []⟩, ⟨5, 5, .ro, 0, []⟩, ⟨6, 6, .ro, 0, []⟩, ⟨32, 63, .ro, 0, []⟩]⟩,  -- BOOT
  ⟨0x108, 0x0, 1, [⟨0, 22, .ro, 0, []⟩, ⟨32, 54, .ro, 0, []⟩]⟩,  -- SITERDY
  ⟨0x110, 0x0, 1, [⟨0, 3, .ro, 0, []⟩, ⟨16, 31, .rws, 0, []⟩]⟩,  -- RSTCAUSE
  ⟨0x118, 0x0, 1, [⟨0, 7, .ro, 0, []⟩]⟩]  -- CAPSET

/-- Block BRT (R37). -/
def regsBRT : List RegDesc := [
  ⟨0x0, 0x0, 1, [⟨0, 0, .ro, 0, []⟩, ⟨1, 7, .ro, 0, []⟩, ⟨8, 8, .ro, 0, []⟩, ⟨16, 63, .sat, 0, []⟩]⟩]  -- INFO

/-- Block CORE (R93). -/
def regsCORE : List RegDesc := [
  ⟨0x0, 0x0, 1, [⟨0, 0, .wo, 0, []⟩, ⟨1, 1, .wo, 0, []⟩, ⟨2, 2, .wo, 0, []⟩, ⟨3, 3, .wo, 0, []⟩, ⟨4, 4, .wo, 0, []⟩]⟩,  -- CTRL
  ⟨0x8, 0x0, 1, [⟨0, 3, .ro, 0, []⟩, ⟨8, 13, .ro, 0, []⟩, ⟨16, 16, .ro, 0, []⟩, ⟨17, 17, .ro, 0, []⟩, ⟨18, 18, .ro, 0, []⟩, ⟨19, 19, .ro, 0, []⟩, ⟨20, 20, .ro, 0, []⟩]⟩,  -- STATE
  ⟨0x10, 0x0, 1, [⟨0, 21, .rw, 0, []⟩]⟩,  -- PC
  ⟨0x18, 0x0, 1, [⟨0, 7, .ro, 0, []⟩, ⟨8, 8, .ro, 0, []⟩, ⟨32, 53, .ro, 0, []⟩]⟩,  -- EXC
  ⟨0x20, 0x0, 1, [⟨0, 63, .ro, 0, []⟩]⟩,  -- EXC_INFO
  ⟨0x28, 0x0, 1, [⟨0, 1, .rw, 0, [(3, 3)]⟩, ⟨2, 7, .rw, 0, []⟩, ⟨8, 13, .rw, 0, []⟩]⟩,  -- DBG_SEL
  ⟨0x30, 0x0, 1, [⟨0, 31, .rw, 0, []⟩]⟩,  -- DBG_DATA
  ⟨0x38, 0x0, 1, [⟨0, 63, .rw, 1, []⟩]⟩,  -- SRLFSR
  ⟨0x40, 0x0, 1, [⟨0, 21, .ro, 0, []⟩, ⟨32, 32, .w1c, 0, []⟩, ⟨33, 33, .w1c, 0, []⟩]⟩,  -- PERR
  ⟨0x48, 0x0, 1, [⟨0, 0, .rw, 1, []⟩, ⟨1, 1, .wo, 0, []⟩]⟩,  -- ICCTL
  ⟨0x100, 0x0, 1, counterFields⟩,  -- CNT_CYC
  ⟨0x108, 0x0, 1, counterFields⟩,  -- CNT_INSTR
  ⟨0x110, 0x0, 1, counterFields⟩,  -- CNT_WAIT
  ⟨0x118, 0x0, 1, counterFields⟩,  -- CNT_ICMISS
  ⟨0x120, 0x0, 1, counterFields⟩,  -- CNT_BANKCONF
  ⟨0x128, 0x0, 1, counterFields⟩]  -- CNT_ECC

/-- Block MXU (R94). -/
def regsMXU : List RegDesc := [
  ⟨0x0, 0x0, 1, [⟨0, 0, .ro, 0, []⟩, ⟨1, 1, .ro, 0, []⟩, ⟨2, 2, .ro, 0, []⟩, ⟨3, 3, .ro, 0, []⟩, ⟨8, 11, .ro, 0, []⟩, ⟨16, 19, .ro, 0, []⟩]⟩,  -- STATUS
  ⟨0x8, 0x0, 1, [⟨0, 0, .w1c, 0, []⟩, ⟨1, 1, .w1c, 0, []⟩, ⟨2, 2, .w1c, 0, []⟩, ⟨3, 3, .w1c, 0, []⟩, ⟨4, 4, .w1c, 0, []⟩]⟩,  -- FLAGS
  ⟨0x40, 0x10, 8, [⟨0, 63, .ro, 0, []⟩]⟩,  -- TDLO
  ⟨0x48, 0x10, 8, [⟨0, 63, .ro, 0, []⟩]⟩,  -- TDHI
  ⟨0x100, 0x0, 1, counterFields⟩,  -- CNT_ROWS
  ⟨0x108, 0x0, 1, counterFields⟩,  -- CNT_BUSY
  ⟨0x110, 0x0, 1, counterFields⟩,  -- CNT_REST
  ⟨0x118, 0x0, 1, counterFields⟩]  -- CNT_STALL

/-- Block VEC (R95). -/
def regsVEC : List RegDesc := [
  ⟨0x0, 0x0, 1, [⟨0, 0, .ro, 0, []⟩, ⟨8, 12, .ro, 0, []⟩]⟩,  -- STATUS
  ⟨0x8, 0x0, 1, [⟨0, 0, .w1c, 0, []⟩, ⟨1, 1, .w1c, 0, []⟩, ⟨2, 2, .w1c, 0, []⟩, ⟨3, 3, .w1c, 0, []⟩, ⟨4, 4, .w1c, 0, []⟩]⟩,  -- FLAGS
  ⟨0x100, 0x0, 1, counterFields⟩,  -- CNT_OPS
  ⟨0x108, 0x0, 1, counterFields⟩]  -- CNT_BUSY

/-- Block PRT (R96). -/
def regsPRT : List RegDesc := [
  ⟨0x0, 0x0, 1, [⟨0, 3, .ro, 0, []⟩, ⟨8, 14, .ro, 0, []⟩]⟩,  -- STATUS
  ⟨0x10, 0x0, 1, counterFields⟩,  -- CNT_DESC
  ⟨0x18, 0x0, 1, counterFields⟩,  -- CNT_LINES
  ⟨0x20, 0x0, 1, counterFields⟩,  -- CNT_ERR
  ⟨0x100, 0x20, 16, [⟨0, 0, .rw, 0, []⟩, ⟨1, 1, .rw, 0, []⟩, ⟨2, 3, .rw, 0, []⟩, ⟨4, 7, .rw, 4, [(0, 3), (13, 15)]⟩, ⟨8, 29, .rw, 0, []⟩, ⟨30, 51, .rw, 0, []⟩]⟩,  -- QCFG
  ⟨0x108, 0x20, 16, [⟨0, 15, .ro, 0, []⟩]⟩,  -- QHEAD
  ⟨0x110, 0x20, 16, [⟨0, 15, .rw, 0, []⟩]⟩,  -- QTAIL
  ⟨0x118, 0x20, 16, [⟨0, 1, .ro, 0, []⟩, ⟨4, 7, .ro, 0, []⟩, ⟨16, 31, .ro, 0, []⟩]⟩]  -- QSTATE

/-- Block LOB (R186, R187). -/
def regsLOB : List RegDesc := [
  ⟨0x0, 0x0, 1, [⟨0, 7, .ro, 0xFF, []⟩, ⟨8, 15, .w1c, 0, []⟩, ⟨16, 23, .w1c, 0, []⟩, ⟨24, 31, .ro, 0, []⟩]⟩,  -- STATUS
  ⟨0x10, 0x0, 1, [⟨0, 2, .ro, 0, []⟩, ⟨3, 3, .ro, 0, []⟩, ⟨16, 31, .ro, 0, []⟩, ⟨32, 63, .ro, 0, []⟩]⟩,  -- LATE
  ⟨0x18, 0x0, 1, [⟨0, 31, .ro, 0, []⟩, ⟨32, 63, .ro, 0, []⟩]⟩,  -- LATE_T
  ⟨0x20, 0x0, 1, counterFields⟩,  -- CNT_LATE
  ⟨0x100, 0x40, 8, [⟨0, 0, .rw, 0, []⟩, ⟨1, 3, .rw, 0, [(5, 7)]⟩, ⟨4, 4, .rw, 0, []⟩, ⟨10, 36, .rw, 0, []⟩]⟩,  -- CFG
  ⟨0x108, 0x40, 8, [⟨0, 15, .rw, 0, []⟩]⟩,  -- SEQ
  ⟨0x110, 0x40, 8, [⟨0, 31, .rw, 0, []⟩]⟩,  -- SLACK
  ⟨0x118, 0x40, 8, [⟨0, 31, .ro, 0x2000001, []⟩, ⟨32, 47, .ro, 0, []⟩]⟩,  -- LSTAT
  ⟨0x120, 0x40, 8, counterFields⟩,  -- CNT_TILES
  ⟨0x128, 0x40, 8, counterFields⟩,  -- CNT_UNDERRUN
  ⟨0x130, 0x40, 8, counterFields⟩,  -- CNT_REFUSE
  ⟨0x138, 0x40, 8, counterFields⟩]  -- CNT_DROP

/-- Block MESH (R221). -/
def regsMESH : List RegDesc := [
  ⟨0x0, 0x0, 1, [⟨0, 6, .ro, 0, []⟩, ⟨8, 14, .ro, 0, []⟩]⟩,  -- INFO
  ⟨0x8, 0x0, 1, [⟨0, 63, .ro, 0, []⟩]⟩,  -- GOOD
  ⟨0x10, 0x0, 1, [⟨0, 63, .ro, 0, []⟩]⟩,  -- FENCED
  ⟨0x18, 0x0, 1, [⟨0, 5, .wo, 0, []⟩, ⟨8, 8, .wo, 0, []⟩]⟩,  -- FENCE_REQ
  ⟨0x20, 0x0, 1, [⟨0, 0, .ro, 0, []⟩, ⟨8, 13, .ro, 0, []⟩, ⟨16, 19, .ro, 0, []⟩, ⟨32, 63, .ro, 0, []⟩]⟩,  -- FENCE_STAT
  ⟨0x40, 0x0, 1, counterFields⟩,  -- CNT_FLITS
  ⟨0x48, 0x0, 1, counterFields⟩,  -- CNT_NBR
  ⟨0x50, 0x0, 1, counterFields⟩,  -- CNT_LINKECC
  ⟨0x58, 0x0, 1, counterFields⟩,  -- CNT_CTLMSG
  ⟨0x100, 0x20, 16, [⟨0, 63, .rw, 0, []⟩]⟩,  -- BAR_MASK
  ⟨0x108, 0x20, 16, [⟨0, 15, .rw, 0, []⟩, ⟨16, 16, .w1c, 0, []⟩]⟩,  -- BAR_CFG
  ⟨0x110, 0x20, 16, [⟨0, 31, .ro, 0, []⟩, ⟨32, 38, .ro, 0, []⟩, ⟨40, 47, .ro, 0, []⟩, ⟨48, 63, .ro, 0, []⟩]⟩,  -- BAR_STAT
  ⟨0x118, 0x20, 16, [⟨0, 15, .wo, 0, []⟩]⟩]  -- BAR_EXT_ARRIVE

/-- Block CMN (R222, R422). -/
def regsCMN : List RegDesc := [
  ⟨0x0, 0x0, 1, [⟨0, 0, .rw, 1, []⟩]⟩,  -- CFG
  ⟨0x8, 0x0, 1, [⟨0, 24, .ro, 0, []⟩, ⟨32, 32, .w1c, 0, []⟩, ⟨33, 33, .w1c, 0, []⟩]⟩,  -- ERR
  ⟨0x100, 0x0, 1, counterFields⟩,  -- CNT_READ
  ⟨0x108, 0x0, 1, counterFields⟩,  -- CNT_WRITE
  ⟨0x110, 0x0, 1, counterFields⟩,  -- CNT_COMBINED
  ⟨0x118, 0x0, 1, counterFields⟩,  -- CNT_MCAST
  ⟨0x120, 0x0, 1, counterFields⟩,  -- CNT_CLOSE_WR
  ⟨0x128, 0x0, 1, counterFields⟩,  -- CNT_EVICT
  ⟨0x130, 0x0, 1, counterFields⟩,  -- CNT_BANKCONF
  ⟨0x138, 0x0, 1, counterFields⟩,  -- CNT_ECC
  ⟨0x140, 0x0, 1, counterFields⟩,  -- CNT_AHIT
  ⟨0x148, 0x0, 1, counterFields⟩]  -- CNT_ABUSY

/-- Block PWB with its channels and trim array (R261 to R263). -/
def regsPWB : List RegDesc := [
  ⟨0x0, 0x0, 1, [⟨0, 0, .wo, 0, []⟩, ⟨1, 1, .wo, 0, []⟩, ⟨2, 2, .wo, 0, []⟩]⟩,  -- CTRL
  ⟨0x8, 0x0, 1, [⟨0, 3, .ro, 0, []⟩, ⟨4, 4, .ro, 0, []⟩, ⟨32, 63, .ro, 0, []⟩]⟩,  -- STATE
  ⟨0x10, 0x0, 1, [⟨0, 0, .rw, 0, []⟩, ⟨1, 3, .rw, 0, [(6, 7)]⟩, ⟨8, 11, .rw, 0xC, [(1, 7)]⟩, ⟨12, 12, .rw, 0, []⟩, ⟨16, 23, .rw, 0x50, []⟩]⟩,  -- CFG
  ⟨0x18, 0x0, 1, [⟨0, 31, .rw, 0x3F800000, []⟩]⟩,  -- SCALE_IN
  ⟨0x20, 0x0, 1, [⟨0, 63, .rw, 0, []⟩]⟩,  -- LOAD_SRC
  ⟨0x28, 0x0, 1, [⟨0, 0, .ro, 0, []⟩, ⟨1, 1, .ro, 0, []⟩, ⟨4, 7, .ro, 0, []⟩, ⟨32, 63, .ro, 0, []⟩]⟩,  -- LOAD_STAT
  ⟨0x30, 0x0, 1, [⟨0, 0, .ro, 0, []⟩, ⟨1, 1, .ro, 0, []⟩, ⟨32, 63, .ro, 0, []⟩]⟩,  -- CAL_STAT
  ⟨0x50, 0x0, 1, [⟨0, 12, .ro, 0, []⟩, ⟨16, 28, .ro, 0, []⟩, ⟨29, 30, .ro, 0, []⟩, ⟨32, 63, .ro, 0, []⟩]⟩,  -- LOCK
  ⟨0x58, 0x0, 1, [⟨0, 15, .ro, 0, []⟩, ⟨16, 31, .ro, 0, []⟩]⟩,  -- THERM
  ⟨0x40, 0x0, 1, [⟨0, 31, .ro, 0, []⟩, ⟨32, 63, .ro, 0, []⟩]⟩,  -- ERR_A
  ⟨0x48, 0x0, 1, [⟨0, 31, .ro, 0, []⟩, ⟨32, 39, .ro, 0, []⟩, ⟨40, 45, .ro, 0, []⟩, ⟨47, 47, .ro, 0, []⟩, ⟨48, 63, .ro, 0, []⟩]⟩,  -- ERR_B
  ⟨0x60, 0x8, 5, [⟨0, 15, .ro, 0, []⟩, ⟨16, 31, .ro, 0, []⟩, ⟨32, 37, .ro, 0, []⟩, ⟨40, 40, .w1c, 0, []⟩]⟩,  -- PMON
  ⟨0x100, 0x0, 1, counterFields⟩,  -- CNT_VEC
  ⟨0x108, 0x0, 1, counterFields⟩,  -- CNT_PROBE
  ⟨0x110, 0x0, 1, counterFields⟩,  -- CNT_CLAMP
  ⟨0x118, 0x0, 1, counterFields⟩,  -- CNT_CLIP
  ⟨0x120, 0x0, 1, counterFields⟩,  -- CNT_MISLOCK
  ⟨0x128, 0x0, 1, counterFields⟩,  -- CNT_RELOCK
  ⟨0x130, 0x0, 1, counterFields⟩,  -- CNT_LOAD
  ⟨0x138, 0x0, 1, counterFields⟩,  -- CNT_CAL
  ⟨0x140, 0x0, 1, counterFields⟩,  -- CNT_RETRY
  ⟨0x148, 0x0, 1, counterFields⟩,  -- CNT_STALL
  ⟨0x200, 0x40, 8, [⟨0, 0, .rw, 0, []⟩, ⟨1, 2, .rw, 0, []⟩, ⟨10, 36, .rw, 0, []⟩, ⟨48, 59, .rw, 0, []⟩]⟩,  -- CH_CFG
  ⟨0x208, 0x40, 8, [⟨0, 63, .rw, 0, []⟩]⟩,  -- CH_DEST
  ⟨0x210, 0x40, 8, [⟨0, 31, .rw, 0, []⟩, ⟨32, 47, .rw, 0, []⟩]⟩,  -- CH_COACH
  ⟨0x218, 0x40, 8, [⟨0, 31, .rw, 0, []⟩, ⟨32, 63, .rw, 0, []⟩]⟩,  -- CH_DUE
  ⟨0x220, 0x40, 8, [⟨0, 1, .ro, 0, []⟩, ⟨4, 7, .ro, 0, []⟩, ⟨8, 14, .ro, 0, []⟩, ⟨16, 23, .ro, 0, []⟩]⟩,  -- CH_STAT
  ⟨0x228, 0x40, 8, [⟨0, 15, .ro, 0, []⟩, ⟨16, 31, .ro, 0, []⟩, ⟨32, 32, .w1c, 0, []⟩]⟩,  -- CH_SUSPECT
  ⟨0x230, 0x40, 8, [⟨0, 0, .wo, 0, []⟩]⟩,  -- CH_CTRL
  ⟨0x40000, 0x8, 4160, [⟨0, 15, .rw, 0, []⟩, ⟨16, 31, .rw, 0, []⟩, ⟨32, 39, .rw, 0, []⟩, ⟨40, 47, .rw, 0, []⟩, ⟨48, 63, .rw, 0, []⟩]⟩,  -- TRIM_RING
  ⟨0x48200, 0x8, 64, [⟨0, 15, .rw, 0, []⟩, ⟨16, 31, .rw, 0, []⟩, ⟨32, 47, .rw, 0, []⟩]⟩]  -- TRIM_OUT

/-- Block LAT of a site (R303). -/
def regsLAT : List RegDesc := [
  ⟨0x0, 0x0, 1, [⟨0, 0, .ro, 0, []⟩, ⟨1, 1, .ro, 0, []⟩, ⟨2, 2, .ro, 0, []⟩, ⟨3, 3, .ro, 0, []⟩, ⟨4, 4, .ro, 0, []⟩, ⟨5, 5, .ro, 0, []⟩, ⟨8, 11, .ro, 0, []⟩, ⟨12, 12, .ro, 0, []⟩, ⟨32, 63, .ro, 0, []⟩]⟩,  -- STATE
  ⟨0x8, 0x0, 1, [⟨0, 0, .wo, 0, []⟩, ⟨1, 1, .wo, 0, []⟩, ⟨2, 2, .wo, 0, []⟩, ⟨3, 3, .wo, 0, []⟩]⟩,  -- CTRL
  ⟨0x10, 0x0, 1, [⟨0, 4, .ro, 0, []⟩, ⟨8, 12, .ro, 0, []⟩, ⟨32, 63, .ro, 0, []⟩]⟩,  -- SWSTAT
  ⟨0x100, 0x8, 25, [⟨0, 9, .ro, 0, []⟩, ⟨16, 25, .ro, 0, []⟩, ⟨32, 41, .ro, 0, []⟩, ⟨42, 45, .ro, 0, []⟩, ⟨48, 48, .ro, 0, []⟩, ⟨49, 49, .ro, 0, []⟩, ⟨50, 50, .ro, 0, []⟩, ⟨52, 61, .ro, 0, []⟩]⟩,  -- PAIR
  ⟨0x200, 0x0, 1, counterFields⟩,  -- CNT_TX
  ⟨0x208, 0x0, 1, counterFields⟩,  -- CNT_RX
  ⟨0x210, 0x0, 1, counterFields⟩,  -- CNT_RSV
  ⟨0x218, 0x0, 1, counterFields⟩,  -- CNT_IDLE
  ⟨0x220, 0x0, 1, counterFields⟩,  -- CNT_CRC
  ⟨0x228, 0x0, 1, counterFields⟩,  -- CNT_REPLAY
  ⟨0x230, 0x0, 1, counterFields⟩,  -- CNT_SWITCH
  ⟨0x238, 0x0, 1, counterFields⟩,  -- CNT_STOPSLOT
  ⟨0x240, 0x0, 1, counterFields⟩,  -- CNT_FBACC
  ⟨0x300, 0x8, 5, [⟨0, 9, .ro, 0, []⟩, ⟨16, 25, .ro, 0, []⟩, ⟨32, 41, .ro, 0, []⟩, ⟨48, 57, .ro, 0, []⟩]⟩,  -- ROLE
  ⟨0x1000, 0x8, 768, [⟨0, 2, .ro, 0, []⟩, ⟨3, 3, .ro, 0, []⟩, ⟨8, 12, .ro, 0, []⟩, ⟨13, 14, .ro, 0, []⟩, ⟨16, 17, .ro, 0, []⟩, ⟨48, 63, .sat, 0, []⟩]⟩]  -- LANE

/-- Registers of a shelf endpoint, from its base (R303, R304). -/
def regsLATS : List RegDesc := [
  ⟨0x0, 0x0, 1, [⟨0, 0, .ro, 0, []⟩, ⟨1, 1, .ro, 0, []⟩, ⟨2, 2, .ro, 0, []⟩, ⟨3, 3, .ro, 0, []⟩, ⟨4, 4, .ro, 0, []⟩, ⟨5, 5, .ro, 0, []⟩, ⟨8, 11, .ro, 0, []⟩, ⟨12, 12, .ro, 0, []⟩, ⟨32, 63, .ro, 0, []⟩]⟩,  -- STATE
  ⟨0x8, 0x0, 1, [⟨0, 0, .wo, 0, []⟩, ⟨1, 1, .wo, 0, []⟩, ⟨2, 2, .wo, 0, []⟩, ⟨3, 3, .wo, 0, []⟩]⟩,  -- CTRL
  ⟨0x10, 0x0, 1, [⟨0, 4, .ro, 0, []⟩, ⟨8, 12, .ro, 0, []⟩, ⟨32, 63, .ro, 0, []⟩]⟩,  -- SWSTAT
  ⟨0x100, 0x8, 25, [⟨0, 9, .ro, 0, []⟩, ⟨16, 25, .ro, 0, []⟩, ⟨32, 41, .ro, 0, []⟩, ⟨42, 45, .ro, 0, []⟩, ⟨48, 48, .ro, 0, []⟩, ⟨49, 49, .ro, 0, []⟩, ⟨50, 50, .ro, 0, []⟩, ⟨52, 61, .ro, 0, []⟩]⟩,  -- PAIR
  ⟨0x200, 0x0, 1, counterFields⟩,  -- CNT_TX
  ⟨0x208, 0x0, 1, counterFields⟩,  -- CNT_RX
  ⟨0x210, 0x0, 1, counterFields⟩,  -- CNT_RSV
  ⟨0x218, 0x0, 1, counterFields⟩,  -- CNT_IDLE
  ⟨0x220, 0x0, 1, counterFields⟩,  -- CNT_CRC
  ⟨0x228, 0x0, 1, counterFields⟩,  -- CNT_REPLAY
  ⟨0x230, 0x0, 1, counterFields⟩,  -- CNT_SWITCH
  ⟨0x238, 0x0, 1, counterFields⟩,  -- CNT_STOPSLOT
  ⟨0x240, 0x0, 1, counterFields⟩]  -- CNT_FBACC

/-- Lattice-common, routing and party registers (R304, R395, R423). -/
def regsLATC : List RegDesc := [
  ⟨0x80000, 0x0, 1, [⟨0, 63, .ro, 0, []⟩]⟩,  -- SLOT
  ⟨0x80008, 0x0, 1, [⟨0, 63, .ro, 0, []⟩]⟩,  -- ORIGIN
  ⟨0x90000, 0x0, 1, [⟨0, 0, .wo, 0, []⟩, ⟨1, 1, .wo, 0, []⟩]⟩,  -- RT_CTRL
  ⟨0x90008, 0x0, 1, [⟨0, 1, .ro, 2, []⟩, ⟨16, 30, .ro, 0, []⟩, ⟨32, 46, .ro, 0, []⟩, ⟨48, 58, .ro, 0, []⟩]⟩,  -- RT_STATE
  ⟨0x90010, 0x0, 1, [⟨0, 31, .rw, 1, []⟩]⟩,  -- RT_SEED
  ⟨0x90100, 0x8, 16, [⟨0, 15, .rw, 0, []⟩, ⟨16, 19, .rw, 0, []⟩, ⟨20, 23, .rw, 0, []⟩, ⟨24, 24, .rw, 0, []⟩, ⟨32, 38, .ro, 0, []⟩]⟩,  -- RT_NBR
  ⟨0x90300, 0x8, 4, [⟨0, 63, .rw, 0xFFFFFFFFFFFFFFFF, []⟩]⟩,  -- RT_CHANMODE
  ⟨0x90200, 0x8, 8, [⟨0, 15, .rw, 0, []⟩, ⟨16, 31, .rw, 0, []⟩, ⟨32, 47, .rw, 0, []⟩, ⟨48, 48, .rw, 0, []⟩, ⟨49, 49, .rw, 0, []⟩]⟩,  -- RT_POS
  ⟨0xA0000, 0x8, 8192, [⟨0, 15, .rw, 0, []⟩, ⟨16, 31, .rw, 0, []⟩, ⟨32, 47, .rw, 0, []⟩, ⟨48, 48, .rw, 0, []⟩, ⟨49, 49, .rw, 0, []⟩]⟩,  -- RT_BOARD
  ⟨0x90400, 0x0, 1, counterFields⟩,  -- RT_CNT_FWD
  ⟨0x90408, 0x0, 1, counterFields⟩,  -- RT_CNT_ALT
  ⟨0x90410, 0x0, 1, counterFields⟩,  -- RT_CNT_NOROUTE
  ⟨0x90418, 0x0, 1, counterFields⟩,  -- RT_CNT_HOPS
  ⟨0x90420, 0x0, 1, counterFields⟩,  -- RT_CNT_E2ERPL
  ⟨0x90428, 0x0, 1, counterFields⟩,  -- RT_CNT_TIMEOUT
  ⟨0x90430, 0x0, 1, counterFields⟩,  -- RT_CNT_HOLDFULL
  ⟨0xB0000, 0x100, 16, [⟨0, 15, .rw, 0, []⟩, ⟨16, 31, .rw, 0, []⟩, ⟨32, 35, .rw, 0, []⟩]⟩,  -- PTY_CFG
  ⟨0xB0008, 0x100, 16, [⟨0, 0, .wo, 0, []⟩, ⟨1, 1, .wo, 0, []⟩, ⟨2, 2, .wo, 0, []⟩]⟩,  -- PTY_CTRL
  ⟨0xB0010, 0x100, 16, [⟨0, 1, .ro, 0, []⟩, ⟨4, 7, .ro, 0, []⟩, ⟨16, 31, .ro, 0, []⟩, ⟨32, 63, .ro, 0, []⟩]⟩,  -- PTY_STAT
  ⟨0xB0018, 0x100, 16, counterFields⟩,  -- CNT_PROBEFAIL
  ⟨0xB0080, 0x8, 16, [⟨0, 63, .rw, 0, []⟩]⟩,  -- PTY_CORES0
  ⟨0xB0180, 0x8, 16, [⟨0, 63, .rw, 0, []⟩]⟩,  -- PTY_CORES1
  ⟨0xB0280, 0x8, 16, [⟨0, 63, .rw, 0, []⟩]⟩,  -- PTY_CORES2
  ⟨0xB0380, 0x8, 16, [⟨0, 63, .rw, 0, []⟩]⟩,  -- PTY_CORES3
  ⟨0xB0480, 0x8, 16, [⟨0, 63, .rw, 0, []⟩]⟩,  -- PTY_CORES4
  ⟨0xB0580, 0x8, 16, [⟨0, 63, .rw, 0, []⟩]⟩,  -- PTY_CORES5
  ⟨0xB0680, 0x8, 16, [⟨0, 63, .rw, 0, []⟩]⟩,  -- PTY_CORES6
  ⟨0xB0780, 0x8, 16, [⟨0, 63, .rw, 0, []⟩]⟩,  -- PTY_CORES7
  ⟨0xB0880, 0x8, 16, [⟨0, 63, .rw, 0, []⟩]⟩,  -- PTY_CORES8
  ⟨0xB0980, 0x8, 16, [⟨0, 63, .rw, 0, []⟩]⟩,  -- PTY_CORES9
  ⟨0xB0A80, 0x8, 16, [⟨0, 63, .rw, 0, []⟩]⟩,  -- PTY_CORES10
  ⟨0xB0B80, 0x8, 16, [⟨0, 63, .rw, 0, []⟩]⟩,  -- PTY_CORES11
  ⟨0xB0C80, 0x8, 16, [⟨0, 63, .rw, 0, []⟩]⟩,  -- PTY_CORES12
  ⟨0xB0D80, 0x8, 16, [⟨0, 63, .rw, 0, []⟩]⟩,  -- PTY_CORES13
  ⟨0xB0E80, 0x8, 16, [⟨0, 63, .rw, 0, []⟩]⟩,  -- PTY_CORES14
  ⟨0xB0F80, 0x8, 16, [⟨0, 63, .rw, 0, []⟩]⟩]  -- PTY_CORES15

/-- Block MEM common to all channels (R329, R422). -/
def regsMEMC : List RegDesc := [
  ⟨0x0, 0x0, 1, [⟨0, 0, .rw, 0, []⟩, ⟨1, 1, .wo, 0, []⟩]⟩,  -- CTRL
  ⟨0x8, 0x0, 1, [⟨0, 0, .rws, 1, []⟩, ⟨8, 15, .rws, 0, []⟩]⟩,  -- MAP
  ⟨0x10, 0x0, 1, [⟨0, 1, .rws, 2, [(3, 3)]⟩]⟩,  -- CFG
  ⟨0x18, 0x0, 1, [⟨0, 7, .rw, 0x18, []⟩]⟩,  -- SCRUB
  ⟨0x20, 0x0, 1, [⟨0, 0, .ro, 0, []⟩, ⟨1, 1, .ro, 0, []⟩, ⟨2, 2, .ro, 0, []⟩]⟩,  -- STAT
  ⟨0x28, 0x0, 1, [⟨0, 47, .ro, 0, []⟩]⟩,  -- DOWN
  ⟨0x30, 0x0, 1, [⟨0, 16, .wo, 0, []⟩, ⟨17, 26, .wo, 0, []⟩, ⟨32, 47, .wo, 0, []⟩, ⟨48, 63, .wo, 0, []⟩]⟩,  -- HANDOFF
  ⟨0x38, 0x0, 1, [⟨0, 0, .ro, 0, []⟩, ⟨1, 7, .ro, 0, []⟩, ⟨8, 24, .ro, 0, []⟩, ⟨25, 34, .ro, 0, []⟩]⟩,  -- HOSTAT
  ⟨0x108, 0x0, 1, counterFields⟩,  -- CNT_AHIT
  ⟨0x110, 0x0, 1, counterFields⟩,  -- CNT_ABUSY
  ⟨0x118, 0x0, 1, counterFields⟩,  -- CNT_NOTOWNER
  ⟨0x100, 0x0, 1, counterFields⟩,  -- CNT_LOST
  ⟨0x1000, 0x18, 64, [⟨0, 47, .ro, 0, []⟩, ⟨48, 51, .ro, 0, []⟩, ⟨52, 53, .ro, 0, []⟩, ⟨54, 54, .ro, 0, []⟩, ⟨55, 55, .rw, 0, []⟩, ⟨56, 63, .sat, 0, []⟩]⟩,  -- REC_ADDR
  ⟨0x1008, 0x18, 64, [⟨0, 63, .ro, 0, []⟩]⟩,  -- REC_FIRST
  ⟨0x1010, 0x18, 64, [⟨0, 63, .ro, 0, []⟩]⟩,  -- REC_LAST
  ⟨0x40000, 0x8, 98304, [⟨0, 15, .ro, 0, []⟩, ⟨16, 31, .ro, 0, []⟩, ⟨32, 32, .ro, 0, []⟩]⟩]  -- REGION

/-- Block MEM of a channel (R330). -/
def regsMEM : List RegDesc := [
  ⟨0x0, 0x0, 1, [⟨0, 2, .ro, 0, []⟩, ⟨4, 5, .ro, 0, []⟩, ⟨8, 23, .ro, 0, []⟩, ⟨24, 24, .ro, 0, []⟩, ⟨32, 47, .ro, 0, []⟩]⟩,  -- STATE
  ⟨0x8, 0x0, 1, [⟨0, 7, .rw, 0, []⟩, ⟨8, 15, .rw, 0, []⟩, ⟨16, 23, .rw, 0, []⟩, ⟨24, 35, .rw, 0, []⟩, ⟨36, 51, .rw, 0, []⟩]⟩,  -- TIMING
  ⟨0x100, 0x0, 1, counterFields⟩,  -- CNT_RD
  ⟨0x108, 0x0, 1, counterFields⟩,  -- CNT_WR
  ⟨0x110, 0x0, 1, counterFields⟩,  -- CNT_CRC
  ⟨0x118, 0x0, 1, counterFields⟩,  -- CNT_CORR
  ⟨0x120, 0x0, 1, counterFields⟩,  -- CNT_UNCORR
  ⟨0x128, 0x0, 1, counterFields⟩,  -- CNT_ODECC
  ⟨0x130, 0x0, 1, counterFields⟩]  -- CNT_RETRAIN

/-- Block PORT (R364). -/
def regsPORT : List RegDesc := [
  ⟨0x0, 0x0, 1, [⟨0, 0, .rw, 0, []⟩, ⟨1, 1, .wo, 0, []⟩, ⟨4, 7, .rw, 0xF, []⟩]⟩,  -- CTRL
  ⟨0x8, 0x0, 1, [⟨0, 3, .ro, 0, []⟩, ⟨4, 7, .ro, 0, []⟩, ⟨8, 11, .ro, 0, []⟩, ⟨12, 12, .ro, 0, []⟩, ⟨13, 13, .ro, 0, []⟩, ⟨16, 17, .ro, 0, []⟩, ⟨32, 63, .ro, 0, []⟩]⟩,  -- STATE
  ⟨0x10, 0x0, 1, [⟨0, 15, .ro, 0, []⟩, ⟨16, 21, .ro, 0, []⟩, ⟨24, 24, .ro, 0, []⟩]⟩,  -- EXPECT
  ⟨0x18, 0x0, 1, [⟨0, 15, .ro, 0, []⟩, ⟨16, 21, .ro, 0, []⟩, ⟨24, 27, .ro, 0, []⟩, ⟨28, 31, .ro, 0, []⟩, ⟨32, 35, .ro, 0, []⟩, ⟨36, 36, .ro, 0, []⟩, ⟨40, 55, .ro, 0, []⟩]⟩,  -- PEER
  ⟨0x20, 0x0, 1, [⟨0, 31, .ro, 0, []⟩, ⟨32, 32, .ro, 0, []⟩]⟩,  -- PEER_RC
  ⟨0x28, 0x0, 1, [⟨0, 10, .ro, 0, []⟩, ⟨16, 19, .ro, 0, []⟩, ⟨20, 23, .ro, 0, []⟩, ⟨32, 43, .ro, 0, []⟩, ⟨48, 59, .ro, 0, []⟩]⟩,  -- LINK
  ⟨0x100, 0x8, 16, [⟨0, 15, .ro, 0, []⟩, ⟨16, 31, .ro, 0, []⟩, ⟨32, 37, .ro, 0, []⟩, ⟨40, 40, .ro, 0, []⟩, ⟨48, 63, .sat, 0, []⟩]⟩,  -- LANE
  ⟨0x200, 0x0, 1, counterFields⟩,  -- CNT_TX
  ⟨0x208, 0x0, 1, counterFields⟩,  -- CNT_RX
  ⟨0x210, 0x0, 1, counterFields⟩,  -- CNT_FECCORR
  ⟨0x218, 0x0, 1, counterFields⟩,  -- CNT_FECUNC
  ⟨0x220, 0x0, 1, counterFields⟩,  -- CNT_CRC
  ⟨0x228, 0x0, 1, counterFields⟩,  -- CNT_REPLAY
  ⟨0x230, 0x0, 1, counterFields⟩,  -- CNT_NAK
  ⟨0x238, 0x0, 1, counterFields⟩,  -- CNT_STOPBLK
  ⟨0x240, 0x0, 1, counterFields⟩,  -- CNT_ABORT
  ⟨0x248, 0x0, 1, counterFields⟩]  -- CNT_DOWN

/-- Lantern registers of port 4g (R365). -/
def regsLTN : List RegDesc := [
  ⟨0x400, 0x0, 1, [⟨0, 0, .rw, 1, []⟩]⟩,  -- LTN_CTRL
  ⟨0x408, 0x0, 1, [⟨0, 2, .ro, 0, []⟩, ⟨4, 7, .ro, 0, []⟩, ⟨8, 23, .ro, 0, []⟩, ⟨32, 63, .ro, 0, []⟩]⟩,  -- LTN_STATE
  ⟨0x410, 0x0, 1, [⟨0, 15, .ro, 0, []⟩, ⟨16, 31, .ro, 0, []⟩, ⟨32, 37, .ro, 0, []⟩]⟩,  -- LTN_PWR
  ⟨0x418, 0x0, 1, counterFields⟩]  -- CNT_LOSS

/-- Block HOST (R439, R447, R449). -/
def regsHOST : List RegDesc := [
  ⟨0x0, 0x0, 1, [⟨0, 1, .rws, 2, [(3, 3)]⟩, ⟨2, 2, .rws, 1, []⟩, ⟨4, 5, .rws, 0, [(3, 3)]⟩, ⟨8, 15, .rws, 0, []⟩, ⟨16, 16, .wo, 0, []⟩]⟩,  -- ETH_CTRL
  ⟨0x8, 0x0, 1, [⟨0, 1, .ro, 0, []⟩, ⟨2, 3, .ro, 0, []⟩, ⟨8, 15, .ro, 0, []⟩, ⟨32, 63, .ro, 0, []⟩]⟩,  -- ETH_STATE
  ⟨0x10, 0x0, 1, [⟨0, 47, .ro, 0, []⟩]⟩,  -- MAC
  ⟨0x18, 0x0, 1, [⟨0, 31, .rws, 0, []⟩, ⟨32, 37, .rws, 0, []⟩, ⟨40, 40, .rws, 0, []⟩]⟩,  -- IP4
  ⟨0x20, 0x0, 1, [⟨0, 63, .rws, 0, []⟩]⟩,  -- IP6_HI
  ⟨0x30, 0x0, 1, [⟨0, 6, .rws, 0, []⟩, ⟨8, 8, .rws, 0, []⟩]⟩,  -- IP6_CFG
  ⟨0x38, 0x0, 1, [⟨0, 15, .rws, 0x1F18, []⟩, ⟨16, 27, .rws, 0, []⟩, ⟨28, 28, .rws, 0, []⟩, ⟨29, 31, .rws, 0, []⟩, ⟨32, 37, .rws, 0, []⟩]⟩,  -- NET
  ⟨0x1C0, 0x0, 1, [⟨0, 47, .ro, 0, []⟩, ⟨48, 54, .ro, 0, []⟩, ⟨56, 63, .ro, 0, []⟩]⟩,  -- RDMA_ERR
  ⟨0x28, 0x0, 1, [⟨0, 63, .rws, 0, []⟩]⟩,  -- IP6_LO
  ⟨0x20000, 0x8, 2048, [⟨0, 63, .rw, 0, []⟩]⟩,  -- WINDOW
  ⟨0x40000, 0x8, 73728, [⟨0, 63, .ro, 0, []⟩]⟩,  -- RING
  ⟨0x100, 0x8, 18, [⟨0, 0, .ro, 0, []⟩, ⟨1, 1, .ro, 0, []⟩, ⟨2, 2, .ro, 0, []⟩, ⟨3, 5, .ro, 0, []⟩, ⟨8, 11, .ro, 0, []⟩, ⟨16, 27, .ro, 0, []⟩, ⟨32, 63, .ro, 0, []⟩]⟩,  -- SESS
  ⟨0x1A0, 0x8, 2, [⟨0, 0, .wo, 0, []⟩, ⟨1, 1, .ro, 0, []⟩]⟩,  -- GDOOR
  ⟨0x200, 0x0, 1, counterFields⟩,  -- CNT_CMD
  ⟨0x208, 0x0, 1, counterFields⟩,  -- CNT_DUP
  ⟨0x210, 0x0, 1, counterFields⟩,  -- CNT_DROP
  ⟨0x218, 0x0, 1, counterFields⟩,  -- CNT_BADSESS
  ⟨0x220, 0x0, 1, counterFields⟩,  -- CNT_RDMA_WR
  ⟨0x228, 0x0, 1, counterFields⟩,  -- CNT_RDMA_RD
  ⟨0x230, 0x0, 1, counterFields⟩,  -- CNT_NAK
  ⟨0x238, 0x0, 1, counterFields⟩,  -- CNT_FECCORR
  ⟨0x240, 0x0, 1, counterFields⟩,  -- CNT_FECUNC
  ⟨0x248, 0x0, 1, counterFields⟩,  -- CNT_FCS
  ⟨0x30000, 0x40, 18, [⟨0, 63, .ro, 0, []⟩]⟩,  -- EPROD
  ⟨0x30008, 0x40, 18, [⟨0, 63, .rw, 0, []⟩]⟩,  -- ECONS
  ⟨0x30010, 0x40, 18, counterFields⟩]  -- ELOST

/-- Block CLK of every site (R471). -/
def regsCLK : List RegDesc := [
  ⟨0x0, 0x0, 1, [⟨0, 0, .ro, 0, []⟩, ⟨1, 1, .ro, 0, []⟩, ⟨2, 2, .ro, 0, []⟩, ⟨4, 5, .ro, 0, []⟩, ⟨32, 63, .ro, 0, []⟩]⟩,  -- STATUS
  ⟨0x8, 0x0, 1, [⟨0, 63, .ro, 0, []⟩]⟩]  -- LEDGER

/-- Block CLK at BASE (R471). -/
def regsCLKB : List RegDesc := [
  ⟨0x10, 0x0, 1, [⟨0, 1, .wo, 0, []⟩, ⟨8, 8, .wo, 0, []⟩]⟩,  -- FREQ_REQ
  ⟨0x18, 0x0, 1, [⟨0, 63, .rw, 0, []⟩]⟩,  -- DEPART
  ⟨0x20, 0x0, 1, [⟨0, 0, .ro, 0, []⟩, ⟨1, 2, .ro, 0, []⟩, ⟨4, 7, .ro, 0, []⟩, ⟨32, 63, .ro, 0, []⟩]⟩]  -- FREQ_STAT

/-- Block CLK at W sites (R471, R578). -/
def regsCLKW : List RegDesc := [
  ⟨0x100, 0x40, 4, [⟨0, 10, .ro, 0x600, []⟩, ⟨16, 26, .ro, 0, []⟩, ⟨32, 32, .w1c, 0, []⟩, ⟨33, 33, .w1c, 0, []⟩, ⟨34, 34, .w1c, 0, []⟩]⟩,  -- REGION_STATE
  ⟨0x108, 0x40, 4, [⟨0, 7, .ro, 0, []⟩, ⟨8, 15, .ro, 0, []⟩, ⟨16, 23, .ro, 0, []⟩, ⟨24, 31, .ro, 0, []⟩]⟩,  -- REGION_MON
  ⟨0x110, 0x40, 4, counterFields⟩,  -- CNT_LOST
  ⟨0x118, 0x40, 4, counterFields⟩,  -- CNT_LIMIT
  ⟨0x120, 0x40, 4, counterFields⟩,  -- CNT_JIT
  ⟨0x200, 0x20, 4, [⟨0, 0, .ro, 0, []⟩, ⟨8, 11, .ro, 0, []⟩]⟩,  -- SEAM_STAT
  ⟨0x208, 0x20, 4, counterFields⟩]  -- CNT_BP

/-- Block LED at BASE (R472). -/
def regsLEDB : List RegDesc := [
  ⟨0x0, 0x0, 1, [⟨0, 63, .ro, 0, []⟩]⟩,  -- COUNT
  ⟨0x8, 0x0, 1, [⟨0, 2, .w1c, 0, []⟩, ⟨3, 3, .w1c, 0, []⟩, ⟨32, 63, .ro, 0, []⟩]⟩,  -- VOTE
  ⟨0x10, 0x0, 1, [⟨0, 0, .rw, 0, []⟩]⟩,  -- CTRL
  ⟨0x18, 0x0, 1, [⟨0, 63, .rw, 0, []⟩]⟩,  -- LOAD
  ⟨0x20, 0x0, 1, [⟨0, 63, .ro, 0, []⟩]⟩,  -- CAPT
  ⟨0x28, 0x0, 1, [⟨0, 15, .ro, 0, []⟩, ⟨16, 16, .w1c, 0, []⟩, ⟨17, 17, .w1c, 0, []⟩]⟩,  -- CAPT_INFO
  ⟨0x30, 0x0, 1, [⟨0, 31, .rw, 0, []⟩]⟩,  -- ADJ
  ⟨0x100, 0x0, 1, counterFields⟩,  -- CNT_VOTE
  ⟨0x108, 0x0, 1, counterFields⟩,  -- CNT_SYNC
  ⟨0x110, 0x0, 1, counterFields⟩]  -- CNT_LSYNC

/-- Block LED of a core (R473). -/
def regsLEDC : List RegDesc := [
  ⟨0x0, 0x0, 1, [⟨0, 63, .ro, 0, []⟩]⟩,  -- SNOOP
  ⟨0x8, 0x0, 1, [⟨0, 7, .ro, 0, []⟩, ⟨8, 8, .w1c, 0, []⟩, ⟨9, 9, .ro, 0, []⟩, ⟨32, 63, .ro, 0, []⟩]⟩,  -- STAT
  ⟨0x100, 0x0, 1, counterFields⟩]  -- CNT_CORR

/-- Block THM of every site (R509). -/
def regsTHM : List RegDesc := [
  ⟨0x0, 0x0, 1, [⟨0, 15, .ro, 0, []⟩, ⟨16, 23, .ro, 0, []⟩, ⟨32, 47, .ro, 0, []⟩, ⟨48, 55, .ro, 0, []⟩]⟩,  -- TEMP
  ⟨0x10, 0x0, 1, [⟨0, 0, .w1c, 0, []⟩, ⟨1, 1, .w1c, 0, []⟩, ⟨2, 2, .ro, 0, []⟩, ⟨3, 5, .ro, 0, []⟩, ⟨6, 6, .w1c, 0, []⟩, ⟨32, 63, .ro, 0, []⟩]⟩,  -- STAT
  ⟨0x18, 0x0, 1, [⟨0, 31, .ro, 0, []⟩]⟩,  -- POWER
  ⟨0x40, 0x0, 1, counterFields⟩,  -- CNT_RATE4
  ⟨0x48, 0x0, 1, counterFields⟩,  -- CNT_RATE12
  ⟨0x50, 0x0, 1, counterFields⟩,  -- CNT_POWLIM
  ⟨0x58, 0x0, 1, counterFields⟩]  -- CNT_SAMPLE

/-- THM.REST at W and L sites (R509). -/
def regsTHMW : List RegDesc := [
  ⟨0x8, 0x0, 1, [⟨0, 3, .ro, 0, []⟩, ⟨4, 7, .ro, 0, []⟩, ⟨8, 11, .ro, 0, []⟩, ⟨12, 15, .ro, 0, []⟩, ⟨16, 19, .rw, 0, []⟩]⟩]  -- REST

/-- THM.PLIMIT at W sites and BASE (R509). -/
def regsTHMP : List RegDesc := [
  ⟨0x20, 0x0, 1, [⟨0, 15, .rw, 0x91, []⟩]⟩]  -- PLIMIT

/-- Sensors; the site kind bounds the index (R488, R509). -/
def regsTHMS : List RegDesc := [
  ⟨0x100, 0x8, 56, [⟨0, 15, .ro, 0, []⟩, ⟨16, 31, .ro, 0, []⟩, ⟨32, 32, .ro, 0, []⟩, ⟨33, 35, .ro, 0, []⟩]⟩]  -- SENS

/-- Block CAL (R510). -/
def regsCAL : List RegDesc := [
  ⟨0x0, 0x0, 1, [⟨0, 0, .wo, 0, []⟩, ⟨1, 1, .wo, 0, []⟩]⟩,  -- CTRL
  ⟨0x8, 0x0, 1, [⟨0, 0, .ro, 0, []⟩, ⟨1, 1, .ro, 0, []⟩, ⟨2, 3, .ro, 0, []⟩, ⟨32, 63, .ro, 0, []⟩]⟩]  -- STAT

/-- Block CAL at BASE (R510). -/
def regsCALB : List RegDesc := [
  ⟨0x10, 0x0, 1, [⟨0, 31, .ro, 0, []⟩, ⟨32, 63, .ro, 0, []⟩]⟩,  -- PKG_RES0
  ⟨0x18, 0x0, 1, [⟨0, 24, .ro, 0, []⟩]⟩,  -- PKG_RES1
  ⟨0x20, 0x0, 1, [⟨0, 63, .ro, 0, []⟩]⟩,  -- PKG_RES2
  ⟨0x2000, 0x8, 56, [⟨0, 15, .rw, 0, []⟩, ⟨16, 31, .rw, 0, []⟩]⟩,  -- ZONE
  ⟨0x10000, 0x8, 51200, [⟨0, 15, .rw, 0, []⟩, ⟨16, 31, .rw, 0, []⟩, ⟨32, 39, .rw, 0, []⟩, ⟨40, 47, .rw, 0, []⟩, ⟨48, 63, .rw, 0, []⟩]⟩,  -- LTRIM
  ⟨0x80000, 0x8, 2048, [⟨0, 15, .rw, 0, []⟩, ⟨16, 31, .rw, 0, []⟩, ⟨32, 39, .rw, 0, []⟩, ⟨40, 47, .rw, 0, []⟩, ⟨48, 63, .rw, 0, []⟩]⟩]  -- PTRIM

/-- Sensor trims; the site kind bounds the index (R510). -/
def regsCALS : List RegDesc := [
  ⟨0x1000, 0x8, 56, [⟨0, 15, .rw, 0, []⟩, ⟨16, 31, .rw, 0, []⟩]⟩]  -- SENS

/-- Oscillator trims at W sites (R510). -/
def regsCALW : List RegDesc := [
  ⟨0x2000, 0x8, 4, [⟨0, 15, .rw, 0, []⟩, ⟨16, 31, .rw, 0, []⟩]⟩]  -- OSC

/-- Reference trim at W and L sites (R510). -/
def regsCALR : List RegDesc := [
  ⟨0x3000, 0x0, 1, [⟨0, 15, .rw, 0, []⟩]⟩]  -- REF

/-- Block FLT of every site (R531). -/
def regsFLT : List RegDesc := [
  ⟨0x0, 0x0, 1, [⟨0, 3, .ro, 0, []⟩, ⟨4, 4, .ro, 0, []⟩, ⟨8, 15, .ro, 0, []⟩]⟩,  -- STAT
  ⟨0x8, 0x0, 1, [⟨0, 3, .wo, 0, [(0, 0), (13, 15)]⟩, ⟨4, 5, .wo, 0, [(0, 0), (3, 3)]⟩, ⟨8, 13, .wo, 0, []⟩, ⟨24, 27, .wo, 0, [(12, 15)]⟩, ⟨16, 23, .wo, 0, [(0, 0)]⟩, ⟨31, 31, .wo, 0, []⟩]⟩,  -- INJ
  ⟨0x40, 0x0, 1, counterFields⟩,  -- CNT_RAISED
  ⟨0x48, 0x0, 1, counterFields⟩,  -- CNT_SUPPRESS
  ⟨0x50, 0x0, 1, counterFields⟩,  -- CNT_INJ
  ⟨0x100, 0x8, 96, [⟨0, 63, .ro, 0, []⟩]⟩]  -- LOG

/-- Package registers of block FLT at K0 (R529, R532). -/
def regsFLTK : List RegDesc := [
  ⟨0x800, 0x0, 1, [⟨0, 15, .ro, 0, []⟩, ⟨16, 16, .w1c, 0, []⟩, ⟨17, 17, .ro, 1, []⟩, ⟨24, 31, .ro, 0, []⟩]⟩,  -- PSTAT
  ⟨0x808, 0x0, 1, [⟨0, 9, .ro, 0, []⟩, ⟨10, 19, .ro, 0, []⟩, ⟨20, 29, .ro, 0, []⟩, ⟨30, 39, .ro, 0, []⟩, ⟨40, 49, .ro, 0, []⟩]⟩,  -- PEND
  ⟨0x810, 0x0, 1, [⟨0, 15, .wo, 0, []⟩, ⟨16, 16, .wo, 0, []⟩]⟩,  -- ACK
  ⟨0x818, 0x0, 1, [⟨0, 2, .rws, 3, [(5, 7)]⟩, ⟨4, 6, .rws, 4, [(5, 7)]⟩]⟩,  -- PINCFG
  ⟨0x820, 0x0, 1, [⟨0, 1, .rws, 2, [(3, 3)]⟩, ⟨2, 2, .rws, 0, []⟩, ⟨3, 3, .rws, 0, []⟩, ⟨8, 15, .rws, 0x40, []⟩, ⟨16, 23, .rws, 0, []⟩]⟩,  -- POLICY
  ⟨0x840, 0x0, 1, counterFields⟩,  -- CNT_PLOG
  ⟨0x848, 0x0, 1, counterFields⟩,  -- CNT_ESC
  ⟨0x850, 0x0, 1, counterFields⟩,  -- CNT_LOST
  ⟨0x900, 0x8, 6, [⟨0, 63, .wo, 0, []⟩]⟩,  -- INTAKE
  ⟨0x10000, 0x40, 512, [⟨0, 63, .ro, 0, []⟩]⟩,  -- PLOG0
  ⟨0x10008, 0x40, 512, [⟨0, 63, .ro, 0, []⟩]⟩,  -- PLOG1
  ⟨0x10010, 0x40, 512, [⟨0, 63, .ro, 0, []⟩]⟩,  -- PLOG2
  ⟨0x10018, 0x40, 512, [⟨0, 63, .ro, 0, []⟩]⟩,  -- PLOG3
  ⟨0x10020, 0x40, 512, [⟨0, 63, .ro, 0, []⟩]⟩,  -- PLOG4
  ⟨0x10028, 0x40, 512, [⟨0, 63, .ro, 0, []⟩]⟩,  -- PLOG5
  ⟨0x10030, 0x40, 512, [⟨0, 0, .ro, 0, []⟩, ⟨1, 1, .ro, 0, []⟩]⟩]  -- PLOG6

/-- Block FW (R552). -/
def regsFW : List RegDesc := [
  ⟨0x0, 0x0, 1, [⟨0, 0, .ro, 0, []⟩, ⟨1, 1, .ro, 0, []⟩, ⟨32, 63, .ro, 0, []⟩]⟩,  -- INFO
  ⟨0x8, 0x0, 1, [⟨0, 63, .ro, 0, []⟩]⟩,  -- VERSION
  ⟨0x10, 0x8, 2, [⟨0, 2, .ro, 0, []⟩, ⟨8, 13, .ro, 0, []⟩, ⟨14, 15, .ro, 0, []⟩, ⟨32, 63, .ro, 0, []⟩]⟩,  -- BANK
  ⟨0x20, 0x0, 1, [⟨0, 0, .ro, 0, []⟩, ⟨1, 7, .ro, 0, []⟩, ⟨8, 10, .ro, 0, []⟩, ⟨16, 31, .ro, 0, []⟩, ⟨32, 56, .ro, 0, []⟩]⟩,  -- XFER
  ⟨0x28, 0x0, 1, [⟨0, 0, .wo, 0, []⟩]⟩,  -- CTRL
  ⟨0x30, 0x0, 1, [⟨0, 31, .ro, 0, []⟩]⟩,  -- WDOG
  ⟨0x38, 0x0, 1, [⟨0, 3, .ro, 0, []⟩, ⟨8, 13, .ro, 0, []⟩]⟩,  -- KEYS
  ⟨0x40, 0x0, 1, [⟨0, 31, .ro, 0, []⟩]⟩,  -- RCID
  ⟨0x48, 0x0, 1, [⟨0, 6, .ro, 0, []⟩, ⟨8, 15, .ro, 0, []⟩, ⟨32, 63, .ro, 0, []⟩]⟩]  -- SVC
/-- Does offset `off` name this register or an entry of this array? -/
def RegDesc.hit (r : RegDesc) (off : Nat) : Bool :=
  if r.count = 1 then off == r.base
  else decide (r.base ≤ off) && (off - r.base) % r.stride == 0 && decide ((off - r.base) / r.stride < r.count)

/-- The fields of the register at offset `off`. -/
def findReg : List RegDesc → Nat → Option (List Field)
  | [], _ => none
  | r :: rs, off => if r.hit off then some r.fields else findReg rs off

/-- A sensor array cut to the `n` sensors of its site (R488). -/
def sensors (n : Nat) (l : List RegDesc) : List RegDesc := l.map fun r => RegDesc.mk r.base r.stride n r.fields

/-- Site, block number and offset of a control-space address (R32). -/
def ctlSite (a : Nat) : Nat := a / 2 ^ 35
def ctlBlk (a : Nat) : Nat := a / 2 ^ 20 % 2 ^ 15
def ctlOff (a : Nat) : Nat := a % 2 ^ 20
/-- A control-space address (R32). -/
def ctlAddr (site blk off : Nat) : Nat := site * 2 ^ 35 + blk * 2 ^ 20 + off

/-- Site codes by kind (R22). -/
def isW (site : Nat) : Bool := decide (site < 16)
def isL (site : Nat) : Bool := decide (16 ≤ site) && decide (site < 20)
def isK (site : Nat) : Bool := site == 20
def isG (site : Nat) : Bool := site == 21 || site == 22
def isBase (site : Nat) : Bool := site == 31

/-- Good-core mask of W site n (R194). -/
def Part.mask (p : Part) (n : Nat) : W64 := smGet (-1) p.good n
/-- Is core `c` a good core of its die (R3)? -/
def Part.goodCore (p : Part) (n c : Nat) : Bool := (p.mask n).getLsbD c
/-- Set bits of a word. -/
def popCount {w : Nat} (x : BitVec w) : Nat := (List.range w).foldl (fun n i => if x.getLsbD i then n + 1 else n) 0
/-- Good-core count of W site n (R194). -/
def Part.nGood (p : Part) (n : Nat) : Nat := popCount (p.mask n)
/-- Least number of good cores of a compute die of this grade (R2). -/
def Part.minGood (p : Part) : Nat := 62 - 4 * p.grade.val
/-- Logical number of physical core c: good cores below it (R194). -/
def Part.logical (p : Part) (n c : Nat) : Nat :=
  (List.range c).foldl (fun k i => if p.goodCore n i then k + 1 else k) 0
/-- Regions of 2 MiB that the directory counts (R422). -/
def Part.regions (p : Part) : Nat := if p.mem192 then 98304 else 73728

/-- The register groups of a block, or none where the block does not exist (R33). -/
def blockRegs (p : Part) (site blk : Nat) : Option (List RegDesc) :=
  if isG site || !(isW site || isL site || isK site || isBase site) then none
  else if blk = 0 then some (if isK site then regsID ++ regsIDK else regsID)
  else if blk = 1 then some (if isK site then regsFLT ++ regsFLTK else regsFLT)
  else if blk = 2 then
    some (if isW site then regsTHM ++ regsTHMW ++ regsTHMP ++ sensors 16 regsTHMS
      else if isL site then regsTHM ++ regsTHMW ++ sensors 4 regsTHMS
      else if isK site then regsTHM ++ sensors 2 regsTHMS
      else regsTHM ++ regsTHMP ++ sensors 56 regsTHMS)
  else if blk = 3 then
    some (if isW site then regsCLK ++ regsCLKW else if isBase site then regsCLK ++ regsCLKB else regsCLK)
  else if blk = 4 then
    (if isW site then some (regsCAL ++ sensors 16 regsCALS ++ regsCALW ++ regsCALR)
      else if isL site then some (regsCAL ++ sensors 4 regsCALS ++ regsCALR)
      else if isBase site then some (regsCAL ++ regsCALB ++ sensors 56 regsCALS) else none)
  else if isW site then
    (if blk = 0x10 then some regsMESH else if blk = 0x11 then some regsCMN
    else if blk < 0x100 ∨ 0x280 ≤ blk then none
    else if !p.goodCore site (blk % 64) then none
    else if blk < 0x140 then some regsCORE else if blk < 0x180 then some regsMXU
    else if blk < 0x1C0 then some regsVEC else if blk < 0x200 then some regsLOB
    else if blk < 0x240 then some regsPRT else some regsLEDC)
  else if isL site then
    (if 0x30 ≤ blk ∧ blk < 0x3C then some regsMEM
    else if blk = 0x3F then some (regsMEMC.map fun r =>
      if r.base = 0x40000 then RegDesc.mk r.base r.stride p.regions r.fields else r)
    else none)
  else if isK site then
    (if blk = 0x50 then some regsHOST else if blk = 0x51 then some regsFW else none)
  else
    (if blk = 8 then some regsLEDB
    else if 0x20 ≤ blk ∧ blk ≤ 0x36 then
      some (regsLAT ++ regsLATC
        ++ (regsLATS.map fun r => RegDesc.mk (r.base + 0x81000) r.stride r.count r.fields)
        ++ (regsLATS.map fun r => RegDesc.mk (r.base + 0x82000) r.stride r.count r.fields))
    else if 0x40 ≤ blk ∧ blk < 0x60 then some regsPWB
    else if blk = 0x60 ∨ blk = 0x61 then some regsBRT
    else if 0x80 ≤ blk ∧ blk < 0xC0 then some (if blk % 4 = 0 then regsPORT ++ regsLTN else regsPORT)
    else none)

/-- The fields of the register at a control-space address; none where none is defined (R33). -/
def regFields (p : Part) (a : Nat) : Option (List Field) :=
  match blockRegs p (ctlSite a) (ctlBlk a) with
  | none => none
  | some l => findReg l (ctlOff a)

/-- The lattice-common registers are the same in every LAT block; they are held at endpoint 0's (R304). -/
def canonAddr (a : Nat) : Nat :=
  if isBase (ctlSite a) ∧ 0x20 ≤ ctlBlk a ∧ ctlBlk a ≤ 0x36 ∧ 0x80000 ≤ ctlOff a then ctlAddr 31 0x20 (ctlOff a)
  else a

/-- The reset word that the fields of a table give. -/
def fieldsReset : List Field → Nat
  | [] => 0
  | f :: fs => f.reset * 2 ^ f.lo + fieldsReset fs

/-- Silicon revision byte (letter, digit) of a site's die (R6, R36). -/
def Part.revOf (p : Part) (site : Nat) : BitVec 8 :=
  if isBase site then (if p.baseGB then 0x10 else 0) else smGet 0x10 p.rev site

/-- A part as it is sold: every compute die has at least the good cores R2 gives it, and so has the package; its dies are of
revisions A0, A1 and B0, and A0 is never paired with a base GB (R485). -/
def Part.valid (p : Part) : Prop :=
  (∀ n, n < 16 → p.minGood ≤ p.nGood n) ∧ 16 * p.minGood ≤ ((List.range 16).map p.nGood).sum ∧
  ∀ s, s < 21 → p.revOf s ∈ ([0x00, 0x01, 0x10] : List Byte) ∧ (p.baseGB = true → p.revOf s ≠ 0x00)

/-- The bits of a word that the fields of a table cover; reserved bits read as zero (R16). -/
def fieldsOf (w : W64) : List Field → Nat
  | [] => 0
  | f :: fs => w.toNat / 2 ^ f.lo % 2 ^ (f.hi + 1 - f.lo) * 2 ^ f.lo + fieldsOf w fs
/-- Ring number of a lattice or port ring trim word at BASE.CAL (R510). -/
def latTrim (off : Nat) : Option Nat := if 0x10000 ≤ off ∧ off < 0x74000 then some ((off - 0x10000) / 8) else none
def portTrim (off : Nat) : Option Nat := if 0x80000 ≤ off ∧ off < 0x84000 then some ((off - 0x80000) / 8) else none
/-- Does a ring trim word hold DACG: only an input modulator's of a bank (R263, R510)? -/
def hasDacg (a : Nat) : Bool :=
  if ctlBlk a = 4 then (latTrim (ctlOff a)).isNone && (portTrim (ctlOff a)).isNone
  else decide (ctlOff a < 0x40000 + 8 * 64) || decide (0x48200 ≤ ctlOff a)
/-- The default of a trim as its register holds it: DACG is zero where the ring has none (R263, R510). -/
def trimDefault (a : Nat) : W64 :=
  let w := Config.defaultTrim a
  if hasDacg a then w else (w.extractLsb' 0 48).zeroExtend 64

/-- Sites adjacent under R27. -/
def adjacentSites : List (Nat × List Nat) :=
  [(0, [1, 4, 16]), (1, [0, 2, 5, 16]), (2, [1, 3, 6, 17]), (3, [2, 7, 17]), (4, [0, 5, 21]), (5, [1, 4, 6, 20]),
   (6, [2, 5, 7, 20]), (7, [3, 6, 22]), (8, [9, 12, 21]), (9, [8, 10, 13, 20]), (10, [9, 11, 14, 20]), (11, [10, 15, 22]),
   (12, [8, 13, 18]), (13, [9, 12, 14, 18]), (14, [10, 13, 15, 19]), (15, [11, 14, 19]), (16, [0, 1]), (17, [2, 3]),
   (18, [12, 13]), (19, [14, 15]), (20, [5, 6, 9, 10, 21, 22]), (21, [4, 8, 20]), (22, [7, 11, 20])]
/-- The lane groups that the lane plan gives a site in one direction, die to base or base to die: how many, of which role and
index (R299); the groups toward the berth of a B00 part are in the reserve (R300). DEDUCED, log entry 88. -/
def planDir (p : Part) (site : Nat) (toDie : Bool) : List (Nat × Nat × Nat) :=
  let nbrs := match adjacentSites.find? fun x => x.1 == site with | some x => x.2 | none => []
  [(16, 0, 0), (82, 1, 0)] ++ nbrs.map (fun f => if isG f && p.berth == 0 then (40, 0, 0) else (40, 2, f))
    ++ (if isW site then [0, 1].map fun b => (if toDie then 44 else 22, 3, b) else [])
    ++ (if isL site then (List.range 12).map fun k => (4, 4, k) else [])
/-- The groups of both directions: DIR, how many, role, index. -/
def planOf (p : Part) (site : Nat) : List (Bool × Nat × Nat × Nat) :=
  (planDir p site false).map (fun x => (false, x)) ++ (planDir p site true).map fun x => (true, x)
/-- DIR, role and index of the n-th group of a plan. -/
def planAt : List (Bool × Nat × Nat × Nat) → Nat → Option (Bool × Nat × Nat)
  | [], _ => none
  | x :: xs, n => if n < x.2.1 then some (x.1, x.2.2) else planAt xs (n - x.2.1)
/-- Place of a physical group in the order in which the lane plan takes the groups of its site. -/
def laneRank (site g : Nat) : Nat :=
  let key := Config.laneKey site
  ((List.range 768).filter fun h => decide (key h < key g) || (key h == key g && decide (h < g))).length
/-- LAT.LANE[g] and LAT.ROLE[r] as the lane plan leaves them; a berth's modules are not planned (R299, R303). -/
def planWord (p : Part) (site off a : Nat) : W64 :=
  if isG site then BitVec.ofNat 64 ((Config.lanePlan a).toNat % (if off < 0x1000 then 1024 else 32768))
  else if off < 0x1000 then BitVec.ofNat 64 (((planOf p site).filter fun x => x.2.2.1 == (off - 0x300) / 8).map fun x => x.2.1).sum
  else match planAt (planOf p site) (laneRank site ((off - 0x1000) / 8)) with
    | some x => BitVec.ofNat 64 (x.2.1 + (if x.1 then 8 else 0) + x.2.2 * 2 ^ 8)
    | none => BitVec.ofNat 64 (3 * 2 ^ 13)

/-- Reset word of a register whose table gives no number: per die, per part, fused, per plan, trained,
default (R36, R37, R221, R263, R303, R329, R330, R449, R485, R509, R510, R552). DESIGN CHOICE, log entry 16. -/
def specialReset (p : Part) (a : Nat) : Option W64 :=
  let site := ctlSite a; let blk := ctlBlk a; let off := ctlOff a
  if blk = 0 ∧ off = 0 then
    let kind : Nat := if isW site then 0 else if isL site then 1 else if isK site then 2 else 7
    let r := p.revOf site
    some (BitVec.ofNat 64 (site + kind * 2 ^ 5 + (r.toNat % 16) * 2 ^ 8 + (r.toNat / 16) * 2 ^ 12))
  else if blk = 0 ∧ off = 8 then
    some (if isBase site then (if p.baseGB then 7 else 4)
      else if p.revOf site = 0 then 4 else if p.revOf site = 1 then 6 else 7)
  else if isW site then
    (if blk = 0x10 ∧ off = 0 then some (BitVec.ofNat 64 (p.nGood site))
    else if blk = 0x10 ∧ off = 8 then some (p.mask site)
    else if blk = 4 ∧ 0x1000 ≤ off then some (trimDefault a) else none)
  else if isL site then
    (if blk = 0x3F ∧ off = 0x20 then some (if p.mem192 then 2 else 0)
    else if 0x30 ≤ blk ∧ blk < 0x3C ∧ off = 8 then some (Config.trainedTiming a)
    else if blk = 4 ∧ 0x1000 ≤ off then some (trimDefault a) else none)
  else if isK site then
    (if blk = 0x50 ∧ off = 0x10 then some (Config.macAddr.zeroExtend 64)
    else if blk = 0x51 ∧ off = 0x48 then some (Config.iana.zeroExtend 64 <<< 32) else none)
  else if isBase site then
    (if blk = 0x60 ∨ blk = 0x61 then
      some (BitVec.ofNat 64 ((if p.berth = 0 then 0 else 1) + p.berth.toNat * 2))
    else if blk = 2 ∧ off = 0x20 then some 4000
    else if blk = 4 ∧ 0x1000 ≤ off then some (trimDefault a)
    else if 0x40 ≤ blk ∧ blk < 0x60 ∧ 0x40000 ≤ off then some (trimDefault a)
    else if 0x20 ≤ blk ∧ blk ≤ 0x36 ∧ off = 0 ∧ (blk = 0x35 ∨ blk = 0x36) then
      some (if p.berth = 0 then 32 else 0)
    else if 0x20 ≤ blk ∧ blk ≤ 0x36 ∧ 0x300 ≤ off ∧ off < 0x3000 then some (planWord p (blk - 0x20) off a)
    else none)
  else none

/-- The reset word of the register at a control-space address (R15). -/
def resetWord (p : Part) (a : Nat) : W64 :=
  match regFields p a with
  | none => 0
  | some fs =>
    match specialReset p a with
    | some w => BitVec.ofNat 64 (fieldsOf w fs)
    | none => BitVec.ofNat 64 (fieldsReset fs)

end Sys2Proof.Machine
end

