-- ==== Sys2Proof/Machine/Ops.lean ====
section
/-! DEFINITION. The named operations over registers, memory, the ledger, faults and messages that every
meaning is built from. -/

namespace Sys2Proof.Machine

/-- What a meaning answers. -/
abbrev Out := Host.Outcome State Fault Refusal
/-- Runs of bytes to be written to local addresses, in order. -/
abbrev Wr := List (Nat × List Byte)

/-- Perform a list of writes. -/
def applyWr (m : List Host.Cell) : Wr → List Host.Cell
  | [] => m
  | (a, bs) :: ws => applyWr (Memory.write m a bs) ws

/-- A command that changes the device and writes no memory. -/
def State.upd (s : State) (f : Part → List Host.Cell → Dev → Dev) : Out :=
  .next (State.mk s.part s.mem (f s.part s.mem s.dev) s.pending)

/-- A command that changes the device and writes memory. -/
def State.updW (s : State) (f : Part → List Host.Cell → Dev → Dev × Wr) : Out :=
  .next (State.mk s.part (applyWr s.mem (f s.part s.mem s.dev).2) (f s.part s.mem s.dev).1 s.pending)

/-- The memory with every byte from `lo` up to `hi` blank. -/
def clearRange (m : List Host.Cell) (lo hi : Nat) : List Host.Cell :=
  m.filter fun e => !(decide (lo ≤ e.1) && decide (e.1 < hi))
/-- Blank a list of ranges. -/
def clearRanges (m : List Host.Cell) : List (Nat × Nat) → List Host.Cell
  | [] => m
  | (lo, hi) :: r => clearRanges (clearRange m lo hi) r
/-- A command that changes the device, writes memory and then blanks ranges of it. -/
def State.updC (s : State) (f : Part → List Host.Cell → Dev → Dev × Wr × List (Nat × Nat)) : Out :=
  .next (State.mk s.part
    (clearRanges (applyWr s.mem (f s.part s.mem s.dev).2.1) (f s.part s.mem s.dev).2.2)
    (f s.part s.mem s.dev).1 s.pending)

/-! ### Addresses of registers (R32, R33) -/

def coreSite (c : CoreId) : Nat := c.site.toNat
def coreNo (c : CoreId) : Nat := c.p.toNat
def coreR (c : CoreId) (off : Nat) : Nat := ctlAddr c.site.toNat (0x100 + c.p.toNat) off
def mxuR (c : CoreId) (off : Nat) : Nat := ctlAddr c.site.toNat (0x140 + c.p.toNat) off
def vecR (c : CoreId) (off : Nat) : Nat := ctlAddr c.site.toNat (0x180 + c.p.toNat) off
def lobR (c : CoreId) (off : Nat) : Nat := ctlAddr c.site.toNat (0x1C0 + c.p.toNat) off
def prtR (c : CoreId) (off : Nat) : Nat := ctlAddr c.site.toNat (0x200 + c.p.toNat) off
def ledR (c : CoreId) (off : Nat) : Nat := ctlAddr c.site.toNat (0x240 + c.p.toNat) off
def meshR (w off : Nat) : Nat := ctlAddr w 0x10 off
def cmnR (w off : Nat) : Nat := ctlAddr w 0x11 off
def idR (site off : Nat) : Nat := ctlAddr site 0 off
def fltR (site off : Nat) : Nat := ctlAddr site 1 off
def thmR (site off : Nat) : Nat := ctlAddr site 2 off
def clkR (site off : Nat) : Nat := ctlAddr site 3 off
/-- Registers of a seam of a W die (R471). -/
def seamR (w seam off : Nat) : Nat := clkR w (0x200 + 0x20 * seam + off)
def calR (site off : Nat) : Nat := ctlAddr site 4 off
def ledbR (off : Nat) : Nat := ctlAddr 31 8 off
/-- Register of lattice endpoint e; the shelf endpoints 23 and 24 stand at their own place (R304). -/
def latR (e off : Nat) : Nat :=
  if e < 23 then ctlAddr 31 (0x20 + e) off else ctlAddr 31 0x20 (0x81000 + 0x1000 * (e - 23) + off)
def latcR (off : Nat) : Nat := ctlAddr 31 0x20 off
def pwbR (b off : Nat) : Nat := ctlAddr 31 (0x40 + b) off
def brtR (g off : Nat) : Nat := ctlAddr 31 (0x60 + g) off
def portR (f off : Nat) : Nat := ctlAddr 31 (0x80 + f) off
/-- Registers of lantern g stand in the block of port 4g (R365). -/
def ltnR (g off : Nat) : Nat := portR (4 * g) off
def memR (l k off : Nat) : Nat := ctlAddr (16 + l) (0x30 + k) off
def memcR (l off : Nat) : Nat := ctlAddr (16 + l) 0x3F off
def hostR (off : Nat) : Nat := ctlAddr 20 0x50 off
def fwR (off : Nat) : Nat := ctlAddr 20 0x51 off

/-! ### Registers -/

/-- The word a register holds (R15). -/
def Dev.get (p : Part) (d : Dev) (a : Nat) : W64 := smGet (resetWord p a) d.ctl a
/-- Store a whole register word. -/
def Dev.put (p : Part) (d : Dev) (a : Nat) (v : W64) : Dev :=
  { d with ctl := smSet (resetWord p a) d.ctl a v }
/-- Bits [lo + n - 1 : lo] of a word. -/
def bits (w : W64) (lo n : Nat) : Nat := w.toNat / 2 ^ lo % 2 ^ n
/-- The word with bits [lo + n - 1 : lo] replaced by `v`. -/
def withBits (w : W64) (lo n v : Nat) : W64 :=
  BitVec.ofNat 64 (w.toNat - bits w lo n * 2 ^ lo + v % 2 ^ n * 2 ^ lo)
/-- A field of a register. -/
def Dev.fld (p : Part) (d : Dev) (a lo n : Nat) : Nat := bits (d.get p a) lo n
/-- One bit of a register. -/
def Dev.bit (p : Part) (d : Dev) (a i : Nat) : Bool := (d.get p a).getLsbD i
/-- Replace a field of a register. -/
def Dev.setF (p : Part) (d : Dev) (a lo n v : Nat) : Dev := d.put p a (withBits (d.get p a) lo n v)
/-- Set or clear one bit of a register. -/
def Dev.setB (p : Part) (d : Dev) (a i : Nat) (b : Bool) : Dev := d.setF p a i 1 (if b then 1 else 0)

/-- A counter word after `n` further events: COUNT holds at all ones, and OVF is set when an event
brings it there or meets it there (R92). -/
def countUp (w : W64) (n : Nat) : W64 :=
  if n = 0 then w
  else if 2 ^ 48 - 1 ≤ bits w 0 48 + n then BitVec.ofNat 64 (2 ^ 48 - 1 + 2 ^ 63)
  else withBits w 0 48 (bits w 0 48 + n)
/-- Count `n` events (R92). -/
def Dev.count (p : Part) (d : Dev) (a n : Nat) : Dev := d.put p a (countUp (d.get p a) n)

/-- The field's bits of a word. -/
def Field.width (f : Field) : Nat := f.hi + 1 - f.lo
/-- Is a value in a range the table reserves (R16)? -/
def Field.reserved (f : Field) (v : Nat) : Bool := f.rsv.any fun r => decide (r.1 ≤ v) && decide (v ≤ r.2)
/-- Does a write of the halves reach bit `i`? -/
def halfReaches (lower upper : Bool) (i : Nat) : Bool := if i < 32 then lower else upper

/-- What one field holds after a write of `v` to the named halves (R14 to R16): bits outside the
written half keep their value, a reserved value counts as the reset value, any write that reaches a
SAT field clears all of it, a 1 clears a W1C bit. -/
def Field.written (f : Field) (old v : W64) (lower upper : Bool) : Nat :=
  let o := bits old f.lo f.width
  let merged := (List.range f.width).foldl (fun acc i =>
    acc + (if halfReaches lower upper (f.lo + i) then (bits v (f.lo + i) 1) else (bits old (f.lo + i) 1)) * 2 ^ i) 0
  match f.acc with
  | .ro => o
  | .wo => 0
  | .rw | .rws => if f.reserved merged then f.reset else merged
  | .w1c => (List.range f.width).foldl (fun acc i =>
      acc + (if halfReaches lower upper (f.lo + i) && (bits v (f.lo + i) 1 == 1) then 0
        else bits old (f.lo + i) 1) * 2 ^ i) 0
  | .sat => if (lower && decide (f.lo < 32)) || (upper && decide (32 ≤ f.hi)) then 0 else o

/-- The register word after a write; reserved bits read as zero (R16). -/
def fieldsWritten (fs : List Field) (old v : W64) (lower upper : Bool) : W64 :=
  fs.foldl (fun w f => withBits w f.lo f.width (f.written old v lower upper)) 0

/-- Does the write put a reserved value into a writable field (R16)? -/
def writesReserved (fs : List Field) (old v : W64) (lower upper : Bool) : Bool :=
  fs.any fun f =>
    (match f.acc with | .rw | .rws | .wo => true | _ => false) &&
    (List.range f.width).any (fun i => halfReaches lower upper (f.lo + i)) &&
    f.reserved ((List.range f.width).foldl (fun acc i =>
      acc + (if halfReaches lower upper (f.lo + i) then (bits v (f.lo + i) 1) else (bits old (f.lo + i) 1)) * 2 ^ i) 0)

/-! ### Cores -/

/-- Index of a core among the cores of the package (R41). -/
def coreIx (c : CoreId) : Nat := 64 * c.site.toNat + c.p.toNat
/-- A core's own state. -/
def Dev.core (d : Dev) (c : CoreId) : CoreSt := smGet {} d.cores (coreIx c)
/-- Store a core's own state. -/
def Dev.setCore (d : Dev) (c : CoreId) (k : CoreSt) : Dev := { d with cores := smSet {} d.cores (coreIx c) k }
/-- Change a core's own state. -/
def Dev.modCore (d : Dev) (c : CoreId) (f : CoreSt → CoreSt) : Dev := d.setCore c (f (d.core c))
/-- A core that exists: a good core (R35). -/
def Part.has (p : Part) (c : CoreId) : Bool := p.goodCore c.site.toNat c.p.toNat

/-- A scalar register; s0 reads zero (R54). -/
def CoreSt.getS (k : CoreSt) (r : BitVec 6) : W32 := if r = 0 then 0 else smGet 0 k.s r.toNat
/-- Write a scalar register; writes to s0 are discarded (R54). -/
def CoreSt.setS (k : CoreSt) (r : BitVec 6) (x : W32) : CoreSt :=
  if r = 0 then k else { k with s := smSet 0 k.s r.toNat x }
/-- The pair s[a], s[a + 1] (R130). -/
def CoreSt.getP (k : CoreSt) (r : BitVec 6) : W64 := k.getS (r + 1) ++ k.getS r
/-- Write a pair (R130). -/
def CoreSt.setP (k : CoreSt) (r : BitVec 6) (x : W64) : CoreSt :=
  (k.setS r (x.extractLsb' 0 32)).setS (r + 1) (x.extractLsb' 32 32)
/-- Does a pair field raise 0x0A: odd, or 62 (63 is odd) (R130)? -/
def badPair (r : BitVec 6) : Bool := r.getLsbD 0 || r == 62
/-- One lane of a vector register. -/
def CoreSt.lane (k : CoreSt) (v : BitVec 5) (i : Nat) : W32 := smGet 0 k.v (64 * v.toNat + i)
/-- The 64 lanes of a vector register. -/
def CoreSt.lanes (k : CoreSt) (v : BitVec 5) : List W32 := (List.range 64).map (k.lane v)
/-- A tile handle. -/
def CoreSt.getT (k : CoreSt) (h : BitVec 3) : BitVec 128 := smGet 0 k.t h.toNat
/-- Write a tile handle. -/
def CoreSt.setT (k : CoreSt) (h : BitVec 3) (x : BitVec 128) : CoreSt := { k with t := smSet 0 k.t h.toNat x }

/-! ### Ledger (R464 to R466) -/

/-- Median of three counts. -/
def median3 (a b c : W64) : W64 :=
  max (min a.toNat b.toNat) (min (max a.toNat b.toNat) c.toNat) |> BitVec.ofNat 64
/-- The voted ledger count (R464). DESIGN CHOICE, log entry 5. -/
def Dev.now (d : Dev) : W64 :=
  match d.led with
  | [a, b, c] => if a = b ∨ a = c then a else if b = c then b else median3 a b c
  | _ => 0
/-- A target is reached when (count - target) mod 2^64 < 2^63 (R466). -/
def reached (count target : W64) : Bool := (count - target).toNat < 2 ^ 63
/-- Ticks from `t` to `count`, modulo 2^64. -/
def elapsed (count t : W64) : Nat := (count - t).toNat
/-- A count that follows a ledger clock of its own at an offset, or is held until the ledger reaches it (R465). -/
def followed (now own off : W64) (hold : Option W64) : W64 :=
  match hold with
  | some v => if reached now v then now else v
  | none => own + off
/-- What every ledger clock has counted, with the loads and slews that move the ledger for every user of it (R465, R468). -/
def Dev.own (d : Dev) : W64 := d.raw + d.moved
/-- The count of a core's ledger snoop (R465). -/
def Dev.snoop (d : Dev) (c : CoreId) : W64 := followed d.now d.own (d.core c).snoopOff (d.core c).snoopHold
/-- The count of a die's own ledger copy; BASE returns the voted count (R465, R471). -/
def Dev.dieCount (d : Dev) (site : Nat) : W64 :=
  if isBase site then d.now else followed d.now d.own (smGet 0 d.dieOff site) (smGet none d.dieHold site)
/-- The path delay that is added to a synchronisation message: the ticks that it has been on its way, which boot has measured for
the place (R465). That it is exact is a DESIGN CHOICE (log entry 108). -/
def Dev.pathDelay (d : Dev) (count : W64) : W64 := d.now - count
/-- A synchronisation message reaches a die and its own ledger copy, which compares itself with the message and its path delay: 2
ticks or more behind it steps forward, 2 or more ahead it holds until the ledger reaches it (R465). -/
def Dev.dieSync (d0 : Dev) (site : Nat) (count : W64) : Dev :=
  let d : Dev := { d0 with syncGot := smSet none d0.syncGot site (some count) }
  let own := d.dieCount site
  let at' := count + d.pathDelay count
  let diff : Int := (at' - own).toInt
  let off := smSet 0 d.dieOff site (at' - d.own)
  if -1 ≤ diff ∧ diff ≤ 1 then d
  else if 0 < diff then { d with dieOff := off, dieHold := smSet none d.dieHold site none }
  else { d with dieOff := off, dieHold := smSet none d.dieHold site (some own) }
/-- Low half of a count, as LAST_T and DONE_T fields hold it (R470). -/
def lowT (t : W64) : Nat := t.toNat % 2 ^ 32

/-! ### Free values -/

/-- Nothing but the pins answers: the supplies are off, or the package is held in reset (R502, R560, R566). -/
def Dev.dead (d : Dev) : Bool := d.off || d.rstLow
/-- Use one fresh undefined word (log entry 6). -/
def Dev.fresh (d : Dev) : W64 × Dev := (Config.freeWord d.freeCount, { d with freeCount := d.freeCount + 1 })

/-! ### Messages -/

/-- Send a message. -/
def Dev.send (d : Dev) (m : Msg) : Dev := { d with net := d.net ++ [m] }
/-- Send messages in order. -/
def Dev.sendAll (d : Dev) (ms : List Msg) : Dev := { d with net := d.net ++ ms }
/-- A packet is on no data mesh any more (R191, R201). -/
def Dev.offMesh (d : Dev) (m : Msg) : Dev :=
  { d with
    hops := d.hops.filter fun h => h.2.1 != m
    mcast := (d.mcast.map fun g => g.filter fun x => x != m).filter fun g => !g.isEmpty }
/-- Is a packet on some data mesh (R191)? It has not arrived then. -/
def Dev.onMesh (d : Dev) (m : Msg) : Bool := d.hops.any fun h => h.2.1 == m && h.2.2.isSome
/-- Has a response not arrived: it is on the mesh, or one from the same router to the same requester was sent before it (R191)? -/
def Dev.respWaits (d : Dev) (r : Resp) : Bool :=
  d.onMesh (.resp r) || (d.net.contains (.resp r) && r.origin.isSome &&
    (d.net.takeWhile fun x => x != .resp r).any fun m => match m with
      | .resp a => a.dst == r.dst && a.from' == r.from' && a.origin == r.origin && a.node == r.node
      | _ => false)
/-- Take a message that is received off those in flight, or off those the lattice has delivered. DESIGN CHOICE, log entry 67. -/
def Dev.recv (d : Dev) (m : Msg) : Dev :=
  if d.net.contains m then Dev.offMesh { d with net := d.net.erase m } m
  else Dev.offMesh { d with arrived := d.arrived.eraseP fun x => x.2.2 == m } m

/-! ### Faults (R513 to R519) -/

/-- Source number of a core (Terms). -/
def Dev.coreSrc (d : Dev) (c : CoreId) : Src := mkSrc d.node (c.site.zeroExtend 5) c.p

/-- A record as six 64-bit words (R513). -/
def recWords (f : FaultRec) : List W64 :=
  [f.ledger,
   BitVec.ofNat 64 (f.source.toNat + f.cls.toNat * 2 ^ 27 + (if f.esc then 2 ^ 30 else 0)
     + (if f.inj then 2 ^ 31 else 0) + f.code.toNat * 2 ^ 32 + f.seq.toNat * 2 ^ 48),
   f.ctx0, f.ctx1, f.ctx2, f.ctx3]

/-- Write words to consecutive registers. -/
def Dev.putWords (p : Part) (d : Dev) (a : Nat) : List W64 → Dev
  | [] => d
  | w :: ws => Dev.putWords p (d.put p a w) (a + 8) ws

/-- Does the storm limit suppress one more record of this source (R518)? -/
def Dev.storming (p : Part) (d : Dev) (src : Src) : Bool :=
  decide (max 1 (d.fld p (fltR 20 0x820) 8 8) ≤
    (d.storm.filter fun x => x.1 == src && decide (elapsed d.now x.2 < 1200000)).length)

/-- A record is counted and written to the site log (R519, R531). -/
def Dev.logRec (p : Part) (d : Dev) (site : Nat) (f : FaultRec) : Dev :=
  let j := d.fld p (fltR site 0) 0 4
  ((d.count p (fltR site 0x40) 1).putWords p (fltR site (0x100 + 0x30 * j)) (recWords f)).setF p (fltR site 0) 0 4 (j + 1)
/-- A record leaves for K0: a core's by way of the control network of its die (R517). -/
def Dev.sendRec (d : Dev) (f : FaultRec) (core : Option CoreId) : Dev :=
  match core with
  | none => { d with records := d.records ++ [f] }
  | some c => { d with recOut := d.recOut ++ [(c, f)] }
/-- A record of class 0 or 1 counts for the storm limit of its source (R518). -/
def Dev.noteMinor (d : Dev) (f : FaultRec) : Dev :=
  { d with storm := (d.storm.filter fun x => decide (elapsed d.now x.2 < 1200000)) ++ [(f.source, d.now)] }
/-- A site, or a core of it, raises a record: it is counted, written to the site log, and sent to K0 unless the storm
limit suppresses it (R517 to R519). -/
def Dev.raiseRec (p : Part) (d : Dev) (site : Nat) (f : FaultRec) (core : Option CoreId := none) : Dev :=
  let d := d.logRec p site f
  if 2 ≤ f.cls.toNat then d.sendRec f core
  else if d.storming p f.source then d.count p (fltR site 0x48) 1
  else (d.noteMinor f).sendRec f core

/-- A fault of a site other than a core's: unit field, class, code and context (R513 to R515). -/
def Dev.fault (p : Part) (d : Dev) (site unit cls code : Nat) (c0 c1 : W64 := 0) (inj : Bool := false)
    (c2 : W64 := 0) (c3 : W64 := 0) : Dev :=
  d.raiseRec p site
    { ledger := d.dieCount site, source := mkSrc d.node (BitVec.ofNat 5 site) (BitVec.ofNat 6 unit)
      cls := BitVec.ofNat 3 cls, inj := inj, code := BitVec.ofNat 16 code, ctx0 := c0, ctx1 := c1, ctx2 := c2, ctx3 := c3 }

/-- A fault of a core, stamped with its snoop's count (R469, R515). -/
def Dev.coreFault (p : Part) (d : Dev) (c : CoreId) (cls code : Nat) (c0 c1 : W64 := 0) (inj : Bool := false) : Dev :=
  d.raiseRec p c.site.toNat
    { ledger := d.snoop c, source := d.coreSrc c, cls := BitVec.ofNat 3 cls, inj := inj
      code := BitVec.ofNat 16 code, ctx0 := c0, ctx1 := c1 } (some c)

/-- Unit field of a record about a register of this address: the core, channel, bank, port or
endpoint whose block it is, or the unit of the site as a whole (R514). -/
def regUnit (a : Nat) : Nat :=
  let blk := ctlBlk a
  if isW (ctlSite a) then (if 0x100 ≤ blk then blk % 64 else 0)
  else if isL (ctlSite a) then (if 0x30 ≤ blk ∧ blk < 0x3C then blk - 0x30 else 63)
  else if isBase (ctlSite a) then
    (if 0x40 ≤ blk ∧ blk < 0x60 then blk - 0x40 else if 0x80 ≤ blk ∧ blk < 0xC0 then blk - 0x80
     else if blk = 0x20 ∧ 0x80000 ≤ ctlOff a then (if 0x81000 ≤ ctlOff a ∧ ctlOff a < 0x83000 then 23 + (ctlOff a - 0x81000) / 0x1000 else 63)
     else if 0x20 ≤ blk ∧ blk ≤ 0x36 then blk - 0x20 else 63)
  else 0

/-- A Notice about a write that was ignored or refused: code 0x0002, CTX0 the register address (R516). -/
def Dev.noticeIgnored (p : Part) (d : Dev) (a : Nat) (v : W64 := 0) : Dev :=
  d.fault p (ctlSite a) (regUnit a) 0 0x0002 (BitVec.ofNat 64 a) v
/-- A Notice about a reserved field value written: code 0x0001 (R16, R516). -/
def Dev.noticeReserved (p : Part) (d : Dev) (a : Nat) (v : W64 := 0) : Dev :=
  d.fault p (ctlSite a) (regUnit a) 0 0x0001 (BitVec.ofNat 64 a) v

/-- Write a register field by field with no behaviour of its own (R14 to R16); nothing changes where no
register is defined (R33). -/
def Dev.regStore (p : Part) (d : Dev) (a : Nat) (v : W64) (lower upper : Bool) : Dev :=
  match regFields p a with
  | none => d
  | some fs =>
    let old := d.get p a
    let d1 := d.put p a (fieldsWritten fs old v lower upper)
    if writesReserved fs old v lower upper then d1.noticeReserved p a v else d1

/-! ### Injection (R527, R528) -/

/-- Is the unit of a checker at the base in a recalibration: an endpoint in phases 1 and 2, a port in its round of phase 3? An
injection waits until the calibration ends (R507, R530). -/
def Dev.calUnit (d : Dev) (checker unit : Nat) : Bool :=
  match d.recal with
  | some r => if checker = 5 then decide (r.phase ≤ 2) && r.eps.contains unit
      else (checker == 6 || checker == 7) && r.phase == 3 && unit % 4 == r.round
  | none => false
/-- BITS of the injection in progress at a site for a checker and unit; 0 for none, or while it waits. -/
def Dev.injBits (d : Dev) (site checker unit : Nat) : Nat :=
  match smGet none d.inj site with
  | some x => if x.checker = checker ∧ x.unit = unit ∧ !(isBase site && d.calUnit checker unit) then x.bits else 0
  | none => 0
/-- STAT of an FLT block shows the injections that remain (R531). -/
def Dev.setInj (p : Part) (d : Dev) (site : Nat) (x : Option Inj) : Dev :=
  let left := match x with | some y => y.left | none => 0
  ({ d with inj := smSet none d.inj site x } : Dev).setF p (fltR site 0) 4 12 (left * 16 + if left = 0 then 0 else 1)
/-- One injected error is used up. -/
def Dev.injUse (p : Part) (d : Dev) (site : Nat) : Dev :=
  match smGet none d.inj site with
  | some x => (d.setInj p site (if x.left ≤ 1 then none else some { x with left := x.left - 1 })).count p (fltR site 0x50) 1
  | none => d
/-- A unit produces one word, packet or frame: BITS of the error it carries, 0 for none. -/
def Dev.injTake (p : Part) (d : Dev) (site checker unit : Nat) : Dev × Nat :=
  let b := d.injBits site checker unit
  if b = 0 then (d, 0) else (d.injUse p site, b)
/-- Mark of a word or line written with BITS of injected error. -/
def injMark (b : Nat) : BitVec 3 := if b = 0 then 0 else if b = 1 then 5 else 6

/-! ### Pantry (R59 to R62) -/

/-- Local address of byte `a` of a core's pantry (R41). -/
def pantryBase (c : CoreId) : Nat := 0x400000000000 + coreIx c * 0x1000000
def pantryAt (c : CoreId) (a : Nat) : Nat := pantryBase c + a

/-- Mark of a word or line. -/
def Dev.mark (d : Dev) (a : Nat) : BitVec 3 := smGet 0 d.ecc a
def Dev.setMark (d : Dev) (a : Nat) (x : BitVec 3) : Dev := { d with ecc := smSet 0 d.ecc a x }
/-- `n` units of `step` bytes from address `a` are written: their check bits are right but for injected errors. -/
def Dev.produce (p : Part) (d : Dev) (site checker unit a step : Nat) : Nat → Dev
  | 0 => d
  | n + 1 =>
    let z := d.injTake p site checker unit
    Dev.produce p (z.1.setMark a (injMark z.2)) site checker unit (a + step) step n

/-- Check one 8-byte pantry word on a read: a single-bit error is corrected, written back, counted,
recorded and raised; a double-bit error is recorded (R60). Answers whether it was a double-bit error. -/
def Dev.checkWord (p : Part) (d : Dev) (c : CoreId) (a : Nat) : Dev × Bool :=
  let mk := d.mark (pantryAt c a)
  if mk.getLsbD 1 then
    ((d.setF p (coreR c 0x40) 0 22 a).setB p (coreR c 0x40) 33 true, true)
  else if mk.getLsbD 0 then
    let d := d.setMark (pantryAt c a) 0
    let d := d.count p (coreR c 0x128) 1
    let d := (d.setF p (coreR c 0x40) 0 22 a).setB p (coreR c 0x40) 32 true
    (d.coreFault p c 1 0x0102 (BitVec.ofNat 64 a) 0 (mk.getLsbD 2), false)
  else (d, false)

/-- Check `n` words from `a` upward, stopping at the first double-bit error and naming it. -/
def Dev.checkWords (p : Part) (d : Dev) (c : CoreId) (a : Nat) : Nat → Dev × Option Nat
  | 0 => (d, none)
  | n + 1 =>
    match d.checkWord p c a with
    | (d1, true) => (d1, some a)
    | (d1, false) => Dev.checkWords p d1 c (a + 8) n

/-- First word and count of words of a byte range. -/
def wordOf (a : Nat) : Nat := a / 8 * 8
def wordsIn (a n : Nat) : Nat := if n = 0 then 0 else (a + n - 1) / 8 - a / 8 + 1

/-- Read `n` bytes of the pantry at offset `a`: the data, or the address of a word with a double-bit
error (R60). DEDUCED, log entry 19. -/
def Dev.pantryRead (p : Part) (m : List Host.Cell) (d : Dev) (c : CoreId) (a n : Nat) :
    Dev × Except Nat (List Byte) :=
  match d.checkWords p c (wordOf a) (wordsIn a n) with
  | (d1, some e) => (d1, .error e)
  | (d1, none) => (d1, .ok (Memory.read m (pantryAt c a) n))

/-- Write bytes to the pantry at offset `a`. A word written in part is read first (R62): a double-bit
error there leaves the whole access unperformed (R60). Whole words take new check bits. -/
def Dev.pantryWrite (p : Part) (d : Dev) (c : CoreId) (a : Nat) (bs : List Byte) : Dev × Except Nat Wr :=
  let n := bs.length
  let first := wordOf a
  let last := wordOf (a + n - 1)
  let partFirst := a % 8 ≠ 0 ∨ (first = last ∧ (a + n) % 8 ≠ 0)
  let partLast := first ≠ last ∧ (a + n) % 8 ≠ 0
  if n = 0 then (d, .ok [])
  else
    let r1 := if partFirst then d.checkWords p c first 1 else (d, none)
    match r1 with
    | (d1, some e) => (d1, .error e)
    | (d1, none) =>
      let r2 := if partLast then d1.checkWords p c last 1 else (d1, none)
      match r2 with
      | (d2, some e) => (d2, .error e)
      | (d2, none) => (d2.produce p c.site.toNat 1 c.p.toNat (pantryAt c first) 8 (wordsIn a n), .ok [(pantryAt c a, bs)])

/-! ### Issue, retirement and exceptions (R50, R51, R57, R124) -/

/-- May the core issue an instruction: in RUN, or in HALT under a STEP (R50)? -/
def CoreSt.canIssue (k : CoreSt) : Bool :=
  (k.st == .run && !k.ending) || (k.st == .halt && k.step)
/-- Take the STEP for the one instruction it allows (R50). -/
def CoreSt.take (k : CoreSt) : CoreSt := { k with step := false }
/-- Does an earlier operation still write scalar register `r` (R57)? -/
def CoreSt.sBusy (k : CoreSt) (r : BitVec 6) : Bool :=
  r != 0 && k.vq.any fun o => match o.sreg with | some x => x.1 == r | none => false
/-- Does an earlier operation still write vector register `v` (R57)? -/
def CoreSt.vBusy (k : CoreSt) (v : BitVec 5) : Bool :=
  k.vq.any (fun o => o.vregs.contains v)
    || k.mq.any (fun o => match o.op with | .rdv x _ => x == v | _ => false)
    || k.mrun.any (fun o => match o.op with | .rdv x _ => x == v | _ => false)

/-- The instruction retires: it counts, and the program counter moves on (R93). -/
def Dev.retireTo (p : Part) (d : Dev) (c : CoreId) (pc : BitVec 22) : Dev :=
  (d.modCore c fun k => { k with pc := pc }).count p (coreR c 0x108) 1
/-- The instruction retires and the next one follows it. -/
def Dev.retire (p : Part) (d : Dev) (c : CoreId) : Dev := d.retireTo p c ((d.core c).pc + 4)

/-- Taking an exception (R51): issue stops with this and every later instruction unretired, the cause,
the instruction's address and the detail are written, and a Party-fatal fault names the core. R50 has a row to FAULT from
RUN; an exception raised under STEP in HALT, or found by the MXU in another state, takes the core to FAULT too (DEDUCED,
log entry 73). -/
def Dev.exception (p : Part) (d : Dev) (c : CoreId) (cause : Nat) (info : W64) (epc : BitVec 22)
    (inj : Bool := false) : Dev :=
  let d := d.put p (coreR c 0x18) (BitVec.ofNat 64 (cause + 2 ^ 8 + epc.toNat * 2 ^ 32))
  let d := d.put p (coreR c 0x20) info
  let d := d.modCore c fun k => { k with st := .fault, step := false, wait := none, ending := false }
  d.coreFault p c 3 0x0101 (BitVec.ofNat 64 cause) (Config.excContext epc info) inj

/-- An exception of the instruction at the program counter. -/
def Dev.raiseExc (p : Part) (d : Dev) (c : CoreId) (cause : Nat) (info : W64) (inj : Bool := false) : Dev :=
  d.exception p c cause info (d.core c).pc inj
/-- Exception 0x08: the instruction at the program counter meets a double-bit error in pantry word `w`; an injected one marks
its record (R51, R60, R528). -/
def Dev.raiseBad (p : Part) (d : Dev) (c : CoreId) (w : Nat) : Dev :=
  d.raiseExc p c 0x08 (BitVec.ofNat 64 w) ((d.mark (pantryAt c w)).getLsbD 2)

/-- Clock region of a core's position (R452). -/
def regionOf (p : Nat) : Nat := p % 8 / 4 + 2 * (p / 32)
/-- Every edge of the region's clock is withheld: its cores, routers and banks stand still (R455). -/
def Dev.held (d : Dev) (w pos : Nat) : Bool := (smGet {} d.clkRegs (4 * w + regionOf pos)).below
def Dev.edgesHeld (d : Dev) (c : CoreId) : Bool := d.held c.site.toNat c.p.toNat

/-- Issue of an instruction that needs the scalar registers `ss` and vector registers `vs` free of
earlier writes: nothing happens while the core may not issue, its clock is held, or a register waits (R50, R57,
R455). DEDUCED, log entry 17. -/
def ready (p : Part) (d : Dev) (c : CoreId) (ss : List (BitVec 6)) (vs : List (BitVec 5)) : Bool :=
  p.has c && (d.core c).canIssue && !d.edgesHeld c && !(ss.any (d.core c).sBusy) && !(vs.any (d.core c).vBusy)

/-- Run an instruction that writes no memory. -/
def issue (c : CoreId) (ss : List (BitVec 6)) (vs : List (BitVec 5)) (s : State)
    (f : Part → List Host.Cell → Dev → Dev) : Out :=
  s.upd fun p m d => if ready p d c ss vs then f p m (d.modCore c CoreSt.take) else d

/-- Run an instruction that may write memory. -/
def issueW (c : CoreId) (ss : List (BitVec 6)) (vs : List (BitVec 5)) (s : State)
    (f : Part → List Host.Cell → Dev → Dev × Wr) : Out :=
  s.updW fun p m d => if ready p d c ss vs then f p m (d.modCore c CoreSt.take) else (d, [])

/-- Little-endian value of a run of bytes (R10). -/
def leNat : List Byte → Nat
  | [] => 0
  | b :: bs => b.toNat + 256 * leNat bs
/-- Little-endian bytes of a value (R10). -/
def leBytes : Nat → Nat → List Byte
  | 0, _ => []
  | n + 1, x => BitVec.ofNat 8 x :: leBytes n (x / 256)

end Sys2Proof.Machine
end

