-- ==== Sys2Proof/Machine/Addr.lean ====
section
/-! DEFINITION. The local address map, the GDDR7 interleave, target statuses and the refusals made at the
sender (R5, R25, R26, R38 to R42, R308 to R311, R399, R479). -/

namespace Sys2Proof.Machine

/-! ### Target statuses (R399) -/

def stOk : BitVec 7 := 0x00
def stNoTarget : BitVec 7 := 0x01
def stNotReady : BitVec 7 := 0x02
def stDataError : BitVec 7 := 0x03
def stPathError : BitVec 7 := 0x04
def stNotOwner : BitVec 7 := 0x05
def stRegionMoving : BitVec 7 := 0x06
def stPartyAborted : BitVec 7 := 0x07
def stBusy : BitVec 7 := 0x08
def stBadRequest : BitVec 7 := 0x09
def stLobbyFull : BitVec 7 := 0x10
def stLobbyAhead : BitVec 7 := 0x11
def stLobbyClosed : BitVec 7 := 0x12
def stLobbyStale : BitVec 7 := 0x13
def stLobbyBad : BitVec 7 := 0x14
def stCoreFenced : BitVec 7 := 0x15
def stBankOffline : BitVec 7 := 0x16
def stSiteDown : BitVec 7 := 0x18
def stChannelDown : BitVec 7 := 0x19
def stNoRoute : BitVec 7 := 0x20
def stOrderLost : BitVec 7 := 0x21
def stRemoteTimeout : BitVec 7 := 0x22
def stUncertain : BitVec 7 := 0x23

/-- Statuses after which an atomic is sent again (R399, R413). -/
def atomicRetried (st : BitVec 7) : Bool :=
  st == stPathError || st == stBusy || st == stNoRoute || st == stOrderLost || st == stRemoteTimeout
/-- Statuses that leave it unknown whether the request was performed (R399). -/
def outcomeUnknown (st : BitVec 7) : Bool := st == stPathError || st == stRemoteTimeout || st == stUncertain
/-- Refusals after which the porter resends a tile (R166). -/
def pushRetried (st : BitVec 7) : Bool := st == stLobbyFull || st == stLobbyAhead || st == stLobbyClosed

/-! ### Addresses -/

/-- Node and local address of a global address (R38). -/
def gaNode (a : W64) : BitVec 16 := a.extractLsb' 48 16
def gaLocal (a : W64) : Nat := a.toNat % 2 ^ 48

/-- What a local address names (R39, R41, R42). -/
inductive Place where
  | gddr (a : Nat)
  | pantry (c : CoreId) (off : Nat)
  | lobby (c : CoreId) (l : BitVec 3) (off : Nat)
  | coreHole (c : CoreId)
  | berth (g : Nat)
  | commons (w off : Nat)
  | ctl (a : Nat)
  | nowhere
  deriving DecidableEq, Repr

/-- Bank of a commons offset, and the data router of a commons bank (R197). -/
def cmnBank (off : Nat) : Nat := off / 128 % 16
def bankRouter (b : Nat) : BitVec 6 := BitVec.ofNat 6 ((2 * (b / 4) + 1) * 8 + (2 * (b % 4) + 1))
/-- The data router of its W die at which a place lies, and whether that is a core's (R188, R197). -/
def placeRouter : Place → Option (BitVec 6 × Bool)
  | .pantry c _ => some (c.p, true)
  | .lobby c _ _ => some (c.p, true)
  | .commons _ off => some (bankRouter (cmnBank off), false)
  | _ => none
/-- The inline check is on (R309, R329). -/
def Dev.checkOn (p : Part) (d : Dev) : Bool := d.bit p (memcR 0 8) 0
/-- Rows of a bank, and how many of them are data rows while the check is on (R308). -/
def Part.rows (p : Part) : Nat := if p.mem192 then 32768 else 24576
def Part.checkedRows (p : Part) : Nat := if p.mem192 then 31744 else 23808
/-- Data rows of a bank (R308). -/
def Dev.dataRows (p : Part) (d : Dev) : Nat := if d.checkOn p then p.checkedRows else p.rows
/-- Usable capacity per channel in bytes: the data rows, of 2 KiB, of sixteen banks of four sub-channels (R4, R40, R308). -/
def Dev.usable (p : Part) (d : Dev) : Nat := d.dataRows p * (16 * 4 * 2048)

/-- Decode a local address (R39 to R42). -/
def Dev.place (p : Part) (d : Dev) (a : Nat) : Place :=
  if a < 48 * d.usable p then .gddr a
  else if 0x400000000000 ≤ a ∧ a < 0x400400000000 then
    let i := (a - 0x400000000000) / 0x1000000
    let off := a % 0x1000000
    let c : CoreId := ⟨BitVec.ofNat 4 (i / 64), BitVec.ofNat 6 i⟩
    if off < 0x400000 then .pantry c off
    else if off < 0x480000 then .lobby c (BitVec.ofNat 3 ((off - 0x400000) / 0x10000)) (off % 0x10000)
    else .coreHole c
  else if 0x500000000000 ≤ a ∧ a < 0x501000000000 then .berth 0
  else if 0x501000000000 ≤ a ∧ a < 0x502000000000 then .berth 1
  else if 0x600000000000 ≤ a ∧ a < 0x600020000000 then
    .commons ((a - 0x600000000000) / 0x2000000) (a % 0x2000000)
  else if 0x7F0000000000 ≤ a ∧ a < 0x800000000000 then .ctl (a - 0x7F0000000000)
  else .nowhere

/-- Channel 0 to 47 and channel line of a GDDR7 address (R310, R311). -/
def Dev.channelOf (p : Part) (d : Dev) (a : Nat) : Nat × Nat :=
  let u := d.usable p
  let r := d.fld p (memcR 0 8) 8 8 * 0x2000000
  let i := 48 * (u - r)
  if a < i then (a / 128 % 48, a / 128 / 48)
  else if r = 0 then (0, 0)
  else ((a - i) / r, (u - r) / 128 + (a - i) % r / 128)

/-- Is a site ready (R479)? BASE answers for itself. -/
def Dev.siteReady (p : Part) (d : Dev) (site : Nat) : Bool := isBase site || d.bit p (idR 20 0x108) site
/-- Was a site held out at boot (R483)? -/
def Dev.heldOut (p : Part) (d : Dev) (site : Nat) : Bool := decide (site < 23) && d.bit p (idR 20 0x108) (32 + site)
/-- Does berth g carry a consigned die that is powered and not held out, which makes its berth one of a B00 part (R5, R37,
R45, R483)? -/
def Dev.berthLive (p : Part) (d : Dev) (g : Nat) : Bool := d.bit p (brtR g 0) 0 && !d.heldOut p (21 + g)

/-- The site a place lies at. -/
def Dev.placeSite (p : Part) (d : Dev) : Place → Nat
  | .gddr a => 16 + (d.channelOf p a).1 / 12
  | .pantry c _ => c.site.toNat
  | .lobby c _ _ => c.site.toNat
  | .coreHole c => c.site.toNat
  | .berth g => 21 + g
  | .commons w _ => w
  | .ctl a => ctlSite a
  | .nowhere => 31

/-- The status with which a request to a place of this node is refused at its sender, if any (R5, R25,
R26, R33, R35, R39, R41, R309, R326, R483). -/
def Dev.refusedAtSender (p : Part) (d : Dev) (pl : Place) : Option (BitVec 7) :=
  let out := d.heldOut p (d.placeSite p pl)
  let ready := if out then some stNoTarget else if d.siteReady p (d.placeSite p pl) then none else some stNotReady
  match pl with
  | .nowhere => some stNoTarget
  | .gddr _ => if !d.bit p (memcR 0 0) 0 then some stNotReady else if out then some stChannelDown else ready
  | .pantry c _ => if p.has c then ready else some stNoTarget
  | .lobby c _ _ => if p.has c then ready else some stNoTarget
  | .coreHole _ => some stNoTarget
  | .berth g => if d.berthLive p g then ready else some stNoTarget
  | .commons _ _ => ready
  | .ctl a =>
    if isG (ctlSite a) then (if d.berthLive p (ctlSite a - 21) then ready else some stNoTarget)
    else match blockRegs p (ctlSite a) (ctlBlk a) with
      | none => some stNoTarget
      | some _ => ready

/-- Boot step in progress: 1 to 8, 15 DONE, 14 RECOVERY (R487). -/
def Dev.bootAt (p : Part) (d : Dev) : Nat := d.fld p (idR 20 0x100) 0 4
/-- Has boot reached a step (R478)? -/
def Dev.bootReached (p : Part) (d : Dev) (n : Nat) : Bool := d.bootAt p == 15 || (decide (n ≤ d.bootAt p) && decide (d.bootAt p ≤ 8))
/-- Does K0 reach a site that is not ready: itself, and one whose own step of the boot order has completed, but no die in
STOPPED (R26, R479, R501, R535)? DEDUCED, log entry 31. -/
def Dev.k0Reaches (p : Part) (d : Dev) (site : Nat) : Bool :=
  isK site || (decide (d.stopStep < 8) && d.bootReached p (if isL site then 5 else if isW site then 6 else 7))
/-- The status with which a request is refused at its sender: as `refusedAtSender`, but for K0's own register accesses to a
site that is not ready, which travel on the voted control wiring (R295, R479). -/
def Dev.refusedReq (p : Part) (d : Dev) (r : Req) (pl : Place) : Option (BitVec 7) :=
  let byK0 := r.src == mkSrc d.node 20 0 && d.k0Reaches p (d.placeSite p pl) && match r.op with | .cread | .cwrite .. => true | _ => false
  match d.refusedAtSender p pl with
  | some st => if st == stNotReady && byK0 then none else some st
  | none => none

/-! ### Paths within the node (R27, R80, R232, R264, R279) -/

/-- Are two sites adjacent (R27)? -/
def adjacent (a b : Nat) : Bool :=
  adjacentSites.any fun e => e.1 == a && e.2.contains b
/-- Every lane group of a role toward an index is out at a site (R302). -/
def Dev.roleOut (d : Dev) (site role index : Nat) : Bool := d.rolesOut.contains (site, role, index)
/-- Lattice endpoint of a site; the base's own control block is on the west shelf (R264, R279). -/
def endpointOf (site : Nat) : Nat := if site < 23 then site else 23
/-- Does a place lie in a feed window of a bank under W site n (R231, R232)? -/
def isFeedOf (n : Nat) : Place → Bool
  | .ctl a => isBase (ctlSite a) && decide (0x40 ≤ ctlBlk a) && decide (ctlBlk a < 0x60) && decide (0x80000 ≤ ctlOff a) && (ctlBlk a - 0x40) / 2 == n
  | _ => false
/-- The lattice endpoints between which traffic from site `a` to site `b` travels: none on one die, over a
neighbour link (R80, R302) or over the feed lanes of a bank, whose unit is `unit` (R232). -/
def Dev.latEnds (d : Dev) (a b unit : Nat) : Option (Nat × Nat) :=
  if a = b then none
  else if adjacent a b && !d.roleOut a 2 b && !d.roleOut b 2 a then none
  else if (isBase a && b == unit / 2) || (isBase b && a == unit / 2) then none
  else some (endpointOf a, endpointOf b)
/-- Is an endpoint in fall-back (R293)? -/
def Dev.inFallback (p : Part) (d : Dev) (e : Nat) : Bool := d.bit p (latR e 0) 2
/-- Does a request travel on the voted control wiring when its lattice path is lost (R294)? -/
def onWiring (r : Req) : Bool := match r.op with | .cread | .cwrite .. => true | _ => false
/-- The lattice path of a request of this node to a place of this node. -/
def Dev.reqEnds (p : Part) (d : Dev) (r : Req) (pl : Place) : Option (Nat × Nat) :=
  let a := (srcSite r.src).toNat
  if isFeedOf a pl then none
  else d.latEnds a (d.placeSite p pl) (if isBase a then (srcUnit r.src).toNat else 64)
/-- Is the lattice path of a request lost (R294)? -/
def Dev.pathDown (p : Part) (d : Dev) (r : Req) (ends : Option (Nat × Nat)) : Bool :=
  !onWiring r && match ends with | some (a, b) => d.inFallback p a || d.inFallback p b | none => false

/-- Virtual channel of a body (R80, R277). -/
def bodyVc : Body → Vc
  | .req r =>
    match r.op with
    | .read _ | .atomic .. => .req
    | .write _ => if r.bulk then .bulk else .req
    | .push .. => .bulk
    | .cread | .cwrite .. => .ctl
  | .resp .. => .rsp
  | .record _ => .ctl
  | .probe => .ctl
/-- Send a request: one for this node that its sender refuses is answered at once, as is one whose lattice path
is lost (R25, R26, R294). -/
def Dev.sendReq (p : Part) (d : Dev) (r : Req) : Dev :=
  let refuse (st : BitVec 7) : Dev := d.send (.resp { dst := r.src, tag := r.tag, status := st, from' := srcSite r.src, node := d.node })
  if gaNode r.addr = d.node then
    let pl := d.place p (gaLocal r.addr)
    match d.refusedReq p r pl with
    | some st => refuse st
    | none => if d.pathDown p r (d.reqEnds p r pl) then refuse stSiteDown else d.send (.req r)
  else if srcNode r.src = d.node ∧ !onWiring r ∧ d.inFallback p (endpointOf (srcSite r.src).toNat) then refuse stSiteDown
  else d.send (.req r)

end Sys2Proof.Machine
end

