-- ==== Sys2Proof/Machine/Float.lean ====
section
/-! DEFINITION. Number formats and exact arithmetic (R97 to R102, R105, R110 to R121): decoding, exact sums
and products, the one rounding to a destination grid, and the flags of vector and matrix results. -/

namespace Sys2Proof.Machine

/-- How a format spends its top exponent (R98). -/
inductive Top where
  /-- Infinity and NaN, as IEEE 754. -/
  | ieee
  /-- S.1111.111 is NaN; there is no infinity (E4M3). -/
  | e4m3
  /-- Every encoding is finite. -/
  | finite
  deriving DecidableEq, Repr

/-- A floating-point format (R98). -/
structure FFmt where
  eb : Nat
  mb : Nat
  bias : Nat
  top : Top
  deriving DecidableEq, Repr

def fp32 : FFmt := ⟨8, 23, 127, .ieee⟩
def bf16 : FFmt := ⟨8, 7, 127, .ieee⟩
def fp16 : FFmt := ⟨5, 10, 15, .ieee⟩
def e4m3 : FFmt := ⟨4, 3, 7, .e4m3⟩
def e5m2 : FFmt := ⟨5, 2, 15, .ieee⟩
def e2m3 : FFmt := ⟨2, 3, 1, .finite⟩
def e3m2 : FFmt := ⟨3, 2, 3, .finite⟩
def e2m1 : FFmt := ⟨2, 1, 1, .finite⟩

/-- Bits of an encoding. -/
def FFmt.width (f : FFmt) : Nat := 1 + f.eb + f.mb
/-- Encoding of the largest finite magnitude (R98). -/
def FFmt.maxMag (f : FFmt) : Nat :=
  match f.top with
  | .ieee => (2 ^ f.eb - 1) * 2 ^ f.mb - 1
  | .e4m3 => 2 ^ (f.eb + f.mb) - 2
  | .finite => 2 ^ (f.eb + f.mb) - 1
/-- Canonical NaN (R100). -/
def FFmt.nan (f : FFmt) : Nat :=
  match f.top with
  | .ieee => (2 ^ f.eb - 1) * 2 ^ f.mb + 2 ^ (f.mb - 1)
  | .e4m3 => 2 ^ (f.eb + f.mb) - 1
  | .finite => 0
/-- Encoding of infinity in a format that has one. -/
def FFmt.infMag (f : FFmt) : Nat := (2 ^ f.eb - 1) * 2 ^ f.mb
/-- Sign bit as a number. -/
def FFmt.sign (f : FFmt) (neg : Bool) : Nat := if neg then 2 ^ (f.eb + f.mb) else 0
/-- Exponent of the subnormal step, 1 - bias - m (R111). -/
def FFmt.minExp (f : FFmt) : Int := 1 - (f.bias : Int) - (f.mb : Int)

/-- The value of an encoding (R98, R100). -/
def FFmt.decode (f : FFmt) (x : Nat) : FV :=
  let mant := x % 2 ^ f.mb
  let ex := x / 2 ^ f.mb % 2 ^ f.eb
  let neg := x / 2 ^ (f.eb + f.mb) % 2 == 1
  if f.top = .ieee ∧ ex = 2 ^ f.eb - 1 then (if mant = 0 then .inf neg else .nan)
  else if f.top = .e4m3 ∧ x % 2 ^ (f.eb + f.mb) = 2 ^ (f.eb + f.mb) - 1 then .nan
  else if ex = 0 then .fin neg mant f.minExp
  else .fin neg (2 ^ f.mb + mant) (f.minExp + ex - 1)

/-- Two's complement value of `w` bits (R99). -/
def intVal (w x : Nat) : Int := if x % 2 ^ w < 2 ^ (w - 1) then (x % 2 ^ w : Nat) else ((x % 2 ^ w : Nat) : Int) - (2 ^ w : Nat)
/-- An integer as an exact value. -/
def FV.ofInt (i : Int) : FV := .fin (decide (i < 0)) i.natAbs 0

/-- An E8M0 scale (R102). -/
def e8m0 (x : Nat) : FV := if x = 255 then .nan else .fin false 1 ((x : Int) - 127)

/-! ### Exact arithmetic -/

def FV.isNan : FV → Bool | .nan => true | _ => false
def FV.isInf : FV → Bool | .inf _ => true | _ => false
def FV.isZero : FV → Bool | .fin _ 0 _ => true | _ => false
def FV.sgn : FV → Bool | .nan => false | .inf n => n | .fin n _ _ => n
def FV.neg : FV → FV | .nan => .nan | .inf n => .inf (!n) | .fin n m e => .fin (!n) m e

/-- Exact product; infinity times zero is NaN. -/
def FV.mul : FV → FV → FV
  | .nan, _ => .nan
  | _, .nan => .nan
  | .inf a, .inf b => .inf (a != b)
  | .inf a, .fin b m _ => if m = 0 then .nan else .inf (a != b)
  | .fin a m _, .inf b => if m = 0 then .nan else .inf (a != b)
  | .fin a m e, .fin b n f => .fin (a != b) (m * n) (e + f)

/-- Signed integer m * 2^(e - low). -/
def FV.scaled (neg : Bool) (m : Nat) (e low : Int) : Int :=
  let x : Int := (m * 2 ^ (e - low).toNat : Nat)
  if neg then -x else x

/-- Exact sum; opposite infinities give NaN; an exact zero sum is +0 unless both terms are -0 (R108). -/
def FV.add : FV → FV → FV
  | .nan, _ => .nan
  | _, .nan => .nan
  | .inf a, .inf b => if a = b then .inf a else .nan
  | .inf a, .fin .. => .inf a
  | .fin .., .inf b => .inf b
  | .fin a m e, .fin b n f =>
    let low := min e f
    let x := FV.scaled a m e low + FV.scaled b n f low
    if x = 0 then .fin (a && b && (m == 0) && (n == 0)) 0 low
    else .fin (decide (x < 0)) x.natAbs low

/-- Order of two values that are not NaN: is a < b (zeros are equal)? -/
def FV.lt : FV → FV → Bool
  | .nan, _ => false
  | _, .nan => false
  | .inf a, .inf b => a && !b
  | .inf a, .fin .. => a
  | .fin .., .inf b => !b
  | .fin a m e, .fin b n f =>
    let low := min e f
    decide (FV.scaled a m e low < FV.scaled b n f low)
/-- Equal as numbers. -/
def FV.eq : FV → FV → Bool
  | .nan, _ => false
  | _, .nan => false
  | .inf a, .inf b => a == b
  | .inf _, .fin .. => false
  | .fin .., .inf _ => false
  | .fin a m e, .fin b n f =>
    let low := min e f
    decide (FV.scaled a m e low = FV.scaled b n f low)

/-! ### Rounding (R111, R112) -/

/-- A grid point n * 2^q near m * 2^e, with whether the value was inexact. -/
structure Rounded where
  n : Nat
  q : Int
  inexact : Bool
  deriving DecidableEq, Repr

/-- Round m * 2^e to a multiple of 2^q: to nearest even, or up when the draw is below F, the top 16
bits of the fraction (R112). `st` says that the exact magnitude lies strictly between m * 2^e and the
next representable m. -/
def roundGrid (m : Nat) (e q : Int) (draw : Option (BitVec 16)) (st : Bool) : Rounded :=
  if q ≤ e then ⟨m * 2 ^ (e - q).toNat, q, st⟩
  else
    let sh := (q - e).toNat
    let lo := m / 2 ^ sh
    let rem := m % 2 ^ sh
    if rem = 0 ∧ !st then ⟨lo, q, false⟩
    else
      let up := match draw with
        | some u => decide (u.toNat < rem * 65536 / 2 ^ sh)
        | none => decide (2 ^ sh < 2 * rem) || (decide (2 ^ sh = 2 * rem) && (st || lo % 2 == 1))
      ⟨if up then lo + 1 else lo, q, true⟩

/-- Grid exponent of a magnitude in a format: its own precision, or the subnormal step (R111 step 2). -/
def FFmt.gridExp (f : FFmt) (m : Nat) (e : Int) : Int := max (e + (Nat.log2 m : Int) - (f.mb : Int)) f.minExp

/-- Encoding of the grid point n * 2^q; the exponent range unbounded above shows as a large number. -/
def FFmt.encodeMag (f : FFmt) (n : Nat) (q : Int) : Nat :=
  if n = 0 then 0
  else
    let k := (Nat.log2 n : Int) - (f.mb : Int)   -- n * 2^q = 1.M * 2^(mb + k + q)
    let ex := q + k - f.minExp + 1
    if ex ≤ 0 then n * 2 ^ (q - f.minExp).toNat
    else
      let mant := if 0 ≤ k then n / 2 ^ k.toNat else n * 2 ^ (-k).toNat
      (ex.toNat) * 2 ^ f.mb + (mant - 2 ^ f.mb)

/-- What a conversion met, beside its result. -/
structure Events where
  nanIn : Bool := false
  invalid : Bool := false
  divZero : Bool := false
  ovfSat : Bool := false
  ovfInf : Bool := false
  underflow : Bool := false
  inexact : Bool := false
  /-- Conversion to an integer of NaN, or of a value out of range. -/
  intNan : Bool := false
  intOvf : Bool := false
  deriving DecidableEq, Repr

def Events.or (a b : Events) : Events :=
  ⟨a.nanIn || b.nanIn, a.invalid || b.invalid, a.divZero || b.divZero, a.ovfSat || b.ovfSat,
   a.ovfInf || b.ovfInf, a.underflow || b.underflow, a.inexact || b.inexact,
   a.intNan || b.intNan, a.intOvf || b.intOvf⟩

/-- MXU.FLAGS bits of a set of events (R94, R121). -/
def Events.mxu (e : Events) : Nat :=
  (if e.invalid then 1 else 0) + (if e.nanIn || e.intNan then 2 else 0) + (if e.ovfSat || e.intOvf then 4 else 0)
    + (if e.ovfInf then 8 else 0) + (if e.underflow then 16 else 0)
/-- VEC.FLAGS bits of a set of events (R95, R121): overflow and underflow come with INEXACT. -/
def Events.vec (e : Events) : BitVec 5 :=
  BitVec.ofNat 5 ((if e.invalid || e.intNan || e.intOvf then 1 else 0) + (if e.divZero then 2 else 0)
    + (if e.ovfSat || e.ovfInf then 4 else 0) + (if e.underflow then 8 else 0)
    + (if e.ovfSat || e.ovfInf || e.underflow || e.inexact then 16 else 0))

/-- Result of overflow in a floating format (R113). -/
def FFmt.overflow (f : FFmt) (neg : Bool) (ovc : Ovc) : Nat × Events :=
  match f.top, ovc with
  | .finite, _ => (f.sign neg + f.maxMag, { ovfSat := true, inexact := true })
  | _, .sat => (f.sign neg + f.maxMag, { ovfSat := true, inexact := true })
  | .ieee, .inf => (f.sign neg + f.infMag, { ovfInf := true, inexact := true })
  | .e4m3, .inf => (f.nan, { ovfInf := true, inexact := true })

/-- The largest finite magnitude as n * 2^q. -/
def FFmt.maxVal (f : FFmt) : Nat × Int :=
  match f.decode f.maxMag with
  | .fin _ n q => (n, q)
  | _ => (0, 0)

/-- Stochastic rounding of a magnitude m * 2^e on the grid 2^q above the maximum `mx` of its destination: `lo`
is that maximum, `hi` the grid point above the magnitude, and rounding up overflows (R112; DEDUCED, log entry 78).
None where the magnitude does not exceed the maximum. -/
def srAbove (mx : Nat × Int) (m : Nat) (e q : Int) (u : BitVec 16) : Option Bool :=
  let b := min (min e q) mx.2
  let x := m * 2 ^ (e - b).toNat
  let lo := mx.1 * 2 ^ (mx.2 - b).toNat
  let step := 2 ^ (q - b).toNat
  let hi := (x / step + 1) * step
  if lo < x then some (decide (u.toNat < (x - lo) * 65536 / (hi - lo))) else none

/-- Is a non-zero magnitude m * 2^e (or one above it when m is 0) below the minimum normal (R121)? -/
def FFmt.tiny (f : FFmt) (m : Nat) (e : Int) : Bool :=
  decide (e + (Nat.log2 m : Int) < 1 - (f.bias : Int)) || m == 0

/-- Round a finite magnitude m * 2^e (exact, or above it when `st`) into a format (R111). The grid runs on above
the maximum: 480, the place of E4M3's NaN encoding, is a grid point of E4M3 (DEDUCED, log entry 79). -/
def FFmt.roundFin (f : FFmt) (neg : Bool) (m : Nat) (e : Int) (draw : Option (BitVec 16)) (ovc : Ovc)
    (st : Bool := false) : Nat × Events :=
  if m = 0 ∧ !st then (f.sign neg, {})
  else
    match draw.bind (srAbove f.maxVal m e (f.gridExp m e)) with
    | some up => if up then f.overflow neg ovc else (f.sign neg + f.maxMag, { inexact := true })
    | none =>
      let r := roundGrid m e (f.gridExp m e) draw st
      let mag := f.encodeMag r.n r.q
      if f.maxMag < mag then f.overflow neg ovc
      else (f.sign neg + mag, { underflow := f.tiny m e && r.inexact, inexact := r.inexact })

/-- Conversion of an exact value into a floating format (R111 to R114). -/
def FFmt.convert (f : FFmt) (x : FV) (draw : Option (BitVec 16)) (ovc : Ovc) : Nat × Events :=
  match x with
  | .nan => (f.nan, { nanIn := true })
  | .inf neg =>
    match f.top with
    | .ieee => (f.sign neg + f.infMag, {})
    | _ => f.overflow neg ovc
  | .fin neg m e => f.roundFin neg m e draw ovc

/-- Conversion of an exact value to a two's complement integer of `w` bits (R112 to R114, R141). -/
def intConvert (w : Nat) (x : FV) (draw : Option (BitVec 16)) (st : Bool := false) : Nat × Events :=
  let clamp (neg : Bool) : Nat := if neg then 2 ^ (w - 1) else 2 ^ (w - 1) - 1
  match x with
  | .nan => (0, { intNan := true })
  | .inf neg => (clamp neg, { intOvf := true })
  | .fin neg m e =>
    match draw.bind (srAbove (clamp neg, 0) m e 0) with
    | some up => (clamp neg, if up then { intOvf := true } else { inexact := true })
    | none =>
      let r := roundGrid m e 0 draw st
      if clamp neg < r.n then (clamp neg, { intOvf := true })
      else ((if neg ∧ r.n ≠ 0 then 2 ^ w - r.n else r.n), { inexact := r.inexact })

/-! ### FP32 arithmetic -/

/-- An FP32 register word as a value. -/
def val32 (x : W32) : FV := fp32.decode x.toNat
/-- Round an exact value to FP32, to nearest even; overflow gives infinity (R105, R109). -/
def to32 (x : FV) : W32 × Events :=
  let r := fp32.convert x none .inf
  (BitVec.ofNat 32 r.1, { r.2 with nanIn := false })

/-- Was a NaN made from operands that are not NaN (R108, R121)? -/
def madeNan (ops : List FV) (r : FV) : Bool := r.isNan && !(ops.any FV.isNan)

/-! ### Narrow formats by code (R97) -/

/-- Is the code reserved? -/
def fmtReserved (c : BitVec 4) : Bool := decide (12 ≤ c.toNat)
/-- Element width in bits. -/
def fmtBits (c : BitVec 4) : Nat :=
  match c.toNat with
  | 0 => 32 | 1 => 16 | 2 => 16 | 3 => 8 | 4 => 8 | 5 => 8 | 6 => 4 | 7 => 8 | 8 => 8 | 9 => 6 | 10 => 6 | _ => 4
/-- The floating format of a code, or none for INT8 and INT4. -/
def fmtFloat (c : BitVec 4) : Option FFmt :=
  match c.toNat with
  | 0 => some fp32 | 1 => some bf16 | 2 => some fp16 | 3 => some e4m3 | 4 => some e5m2 | 5 => none | 6 => none
  | 7 => some e4m3 | 8 => some e5m2 | 9 => some e2m3 | 10 => some e3m2 | _ => some e2m1
/-- An MX format: its scales are always read (R103). -/
def fmtMx (c : BitVec 4) : Bool := decide (7 ≤ c.toNat) && decide (c.toNat ≤ 11)
/-- E4M3, E5M2, INT8 and INT4, whose scales are optional (R97). -/
def fmtOptScale (c : BitVec 4) : Bool := decide (3 ≤ c.toNat) && decide (c.toNat ≤ 6)
/-- MXU operand class: 8, 6, 4 or 16, and 0 for FP32 (R64, R97). -/
def fmtClass (c : BitVec 4) : Nat :=
  match c.toNat with
  | 0 => 0 | 1 => 16 | 2 => 16 | 6 => 4 | 9 => 6 | 10 => 6 | 11 => 4 | _ => 8

/-- Value of one element (R98, R99). -/
def fmtDecode (c : BitVec 4) (x : Nat) : FV :=
  match fmtFloat c with
  | some f => f.decode x
  | none => .ofInt (intVal (fmtBits c) x)

/-- Element of a format from an exact value, unscaled (R111, R114). -/
def fmtEncode (c : BitVec 4) (x : FV) (draw : Option (BitVec 16)) (ovc : Ovc) : Nat × Events :=
  match fmtFloat c with
  | some f => f.convert x draw ovc
  | none =>
    let r := intConvert (fmtBits c) x draw
    (r.1, r.2)

/-- Element `i` of `w` bits in a little-endian bit string (R101). -/
def elemAt (bs : Nat) (w i : Nat) : Nat := bs / 2 ^ (w * i) % 2 ^ w
/-- Pack elements of `w` bits into one little-endian bit string (R101). -/
def packElems (w : Nat) : List Nat → Nat
  | [] => 0
  | x :: xs => x % 2 ^ w + 2 ^ w * packElems w xs

/-! ### The stochastic rounding source (R118, R119) -/

/-- One step of the shift register. -/
def lfsrStep (s : W64) : W64 :=
  let b := s.getLsbD 63 ^^ s.getLsbD 62 ^^ s.getLsbD 60 ^^ s.getLsbD 59
  (s <<< 1) ||| (if b then 1 else 0)
/-- `n` steps. -/
def lfsrSteps (s : W64) : Nat → W64
  | 0 => s
  | n + 1 => lfsrSteps (lfsrStep s) n
/-- One draw: 16 steps, yielding the low 16 bits of the new state. -/
def lfsrDraw (s : W64) : BitVec 16 × W64 :=
  let t := lfsrSteps s 16
  (t.extractLsb' 0 16, t)
/-- The next `n` draws and the state after them. -/
def lfsrDraws (s : W64) : Nat → List (BitVec 16) × W64
  | 0 => ([], s)
  | n + 1 =>
    let d := lfsrDraw s
    let r := lfsrDraws d.2 n
    (d.1 :: r.1, r.2)

/-- The stochastic rounding state of a core (R93). -/
def Dev.srState (p : Part) (d : Dev) (c : CoreId) : W64 := d.get p (coreR c 0x38)
/-- Load the stochastic rounding state; zero loads the reset value (R93, R120). -/
def Dev.setSr (p : Part) (d : Dev) (c : CoreId) (x : W64) : Dev := d.put p (coreR c 0x38) (if x = 0 then 1 else x)
/-- Reserve `n` draws at issue (R119). -/
def Dev.reserve (p : Part) (d : Dev) (c : CoreId) (rm : Rm) (n : Nat) : List (Option (BitVec 16)) × Dev :=
  match rm with
  | .rne => (List.replicate n none, d)
  | .sr =>
    let r := lfsrDraws (d.srState p c) n
    (r.1.map some, d.put p (coreR c 0x38) r.2)

end Sys2Proof.Machine
end

