-- ==== Sys2Proof/Machine/Scalar.lean ====
section
/-! DEFINITION. Scalar, branch, jump and pantry load and store instructions (R131 to R136). -/

namespace Sys2Proof.Machine

/-- Retire with a scalar result. -/
def Dev.retireS (p : Part) (d : Dev) (c : CoreId) (rd : BitVec 6) (x : W32) : Dev :=
  (d.modCore c fun k => k.setS rd x).retire p c

/-- A register-register instruction of major 0x1 (R131). -/
def opRR (c : CoreId) (rd rs1 rs2 : BitVec 6) (f : W32 → W32 → W32) (s : State) : Out :=
  issue c [rd, rs1, rs2] [] s fun p _ d =>
    d.retireS p c rd (f ((d.core c).getS rs1) ((d.core c).getS rs2))

/-- An instruction with one scalar source. -/
def opR (c : CoreId) (rd rs1 : BitVec 6) (f : W32 → W32) (s : State) : Out :=
  issue c [rd, rs1] [] s fun p _ d => d.retireS p c rd (f ((d.core c).getS rs1))

/-- 1 or 0. -/
def bool32 (b : Bool) : W32 := if b then 1 else 0
/-- High half of a signed product. -/
def mulhS (a b : W32) : W32 := (a.signExtend 64 * b.signExtend 64).extractLsb' 32 32
/-- High half of an unsigned product. -/
def mulhU (a b : W32) : W32 := (a.zeroExtend 64 * b.zeroExtend 64).extractLsb' 32 32
/-- Leading zeros among the low `n` bits. -/
def clzFrom (a : W32) : Nat → Nat
  | 0 => 0
  | n + 1 => if a.getLsbD n then 0 else clzFrom a n + 1
/-- Leading zeros, 32 for zero. -/
def clz32 (a : W32) : W32 := BitVec.ofNat 32 (clzFrom a 32)
/-- Set bits. -/
def popc32 (a : W32) : W32 := BitVec.ofNat 32 (popCount a)
/-- Shift amounts are the low five bits (R131). -/
def sh5 (b : W32) : Nat := b.toNat % 32

/-- ADD (R131). -/
def execAdd (c : CoreId) (rd rs1 rs2 : BitVec 6) (s : State) : Out :=
  opRR c rd rs1 rs2 (fun a b => a + b) s

/-- SUB (R131). -/
def execSub (c : CoreId) (rd rs1 rs2 : BitVec 6) (s : State) : Out :=
  opRR c rd rs1 rs2 (fun a b => a - b) s

/-- AND (R131). -/
def execAnd (c : CoreId) (rd rs1 rs2 : BitVec 6) (s : State) : Out :=
  opRR c rd rs1 rs2 (fun a b => a &&& b) s

/-- OR (R131). -/
def execOr (c : CoreId) (rd rs1 rs2 : BitVec 6) (s : State) : Out :=
  opRR c rd rs1 rs2 (fun a b => a ||| b) s

/-- XOR (R131). -/
def execXor (c : CoreId) (rd rs1 rs2 : BitVec 6) (s : State) : Out :=
  opRR c rd rs1 rs2 (fun a b => a ^^^ b) s

/-- SLL (R131). -/
def execSll (c : CoreId) (rd rs1 rs2 : BitVec 6) (s : State) : Out :=
  opRR c rd rs1 rs2 (fun a b => a <<< sh5 b) s

/-- SRL (R131). -/
def execSrl (c : CoreId) (rd rs1 rs2 : BitVec 6) (s : State) : Out :=
  opRR c rd rs1 rs2 (fun a b => a >>> sh5 b) s

/-- SRA (R131). -/
def execSra (c : CoreId) (rd rs1 rs2 : BitVec 6) (s : State) : Out :=
  opRR c rd rs1 rs2 (fun a b => a.sshiftRight (sh5 b)) s

/-- SLT (R131). -/
def execSlt (c : CoreId) (rd rs1 rs2 : BitVec 6) (s : State) : Out :=
  opRR c rd rs1 rs2 (fun a b => bool32 (a.slt b)) s

/-- SLTU (R131). -/
def execSltu (c : CoreId) (rd rs1 rs2 : BitVec 6) (s : State) : Out :=
  opRR c rd rs1 rs2 (fun a b => bool32 (a.ult b)) s

/-- MUL (R131). -/
def execMul (c : CoreId) (rd rs1 rs2 : BitVec 6) (s : State) : Out :=
  opRR c rd rs1 rs2 (fun a b => a * b) s

/-- MULH (R131). -/
def execMulh (c : CoreId) (rd rs1 rs2 : BitVec 6) (s : State) : Out :=
  opRR c rd rs1 rs2 (fun a b => mulhS a b) s

/-- MULHU (R131). -/
def execMulhu (c : CoreId) (rd rs1 rs2 : BitVec 6) (s : State) : Out :=
  opRR c rd rs1 rs2 (fun a b => mulhU a b) s

/-- MIN (R131). -/
def execMin (c : CoreId) (rd rs1 rs2 : BitVec 6) (s : State) : Out :=
  opRR c rd rs1 rs2 (fun a b => if a.slt b then a else b) s

/-- MAX (R131). -/
def execMax (c : CoreId) (rd rs1 rs2 : BitVec 6) (s : State) : Out :=
  opRR c rd rs1 rs2 (fun a b => if a.slt b then b else a) s

/-- MINU (R131). -/
def execMinu (c : CoreId) (rd rs1 rs2 : BitVec 6) (s : State) : Out :=
  opRR c rd rs1 rs2 (fun a b => if a.ult b then a else b) s

/-- MAXU (R131). -/
def execMaxu (c : CoreId) (rd rs1 rs2 : BitVec 6) (s : State) : Out :=
  opRR c rd rs1 rs2 (fun a b => if a.ult b then b else a) s

/-- CLZ (R131). -/
def execClz (c : CoreId) (rd rs1 : BitVec 6) (s : State) : Out := opR c rd rs1 clz32 s

/-- POPC (R131). -/
def execPopc (c : CoreId) (rd rs1 : BitVec 6) (s : State) : Out := opR c rd rs1 popc32 s

/-- ADDI (R132). -/
def execAddi (c : CoreId) (rd rs1 : BitVec 6) (imm : BitVec 12) (s : State) : Out :=
  opR c rd rs1 (fun a => a + imm.signExtend 32) s

/-- ANDI (R132). -/
def execAndi (c : CoreId) (rd rs1 : BitVec 6) (imm : BitVec 12) (s : State) : Out :=
  opR c rd rs1 (fun a => a &&& imm.zeroExtend 32) s

/-- ORI (R132). -/
def execOri (c : CoreId) (rd rs1 : BitVec 6) (imm : BitVec 12) (s : State) : Out :=
  opR c rd rs1 (fun a => a ||| imm.zeroExtend 32) s

/-- XORI (R132). -/
def execXori (c : CoreId) (rd rs1 : BitVec 6) (imm : BitVec 12) (s : State) : Out :=
  opR c rd rs1 (fun a => a ^^^ imm.zeroExtend 32) s

/-- SLLI (R132). -/
def execSlli (c : CoreId) (rd rs1 : BitVec 6) (imm : BitVec 5) (s : State) : Out :=
  opR c rd rs1 (fun a => a <<< imm.toNat) s

/-- SRLI (R132). -/
def execSrli (c : CoreId) (rd rs1 : BitVec 6) (imm : BitVec 5) (s : State) : Out :=
  opR c rd rs1 (fun a => a >>> imm.toNat) s

/-- SRAI (R132). -/
def execSrai (c : CoreId) (rd rs1 : BitVec 6) (imm : BitVec 5) (s : State) : Out :=
  opR c rd rs1 (fun a => a.sshiftRight imm.toNat) s

/-- SLTI (R132). -/
def execSlti (c : CoreId) (rd rs1 : BitVec 6) (imm : BitVec 12) (s : State) : Out :=
  opR c rd rs1 (fun a => bool32 (a.slt (imm.signExtend 32))) s

/-- SLTIU (R132). -/
def execSltiu (c : CoreId) (rd rs1 : BitVec 6) (imm : BitVec 12) (s : State) : Out :=
  opR c rd rs1 (fun a => bool32 (a.ult (imm.signExtend 32))) s

/-- LUI (R133). -/
def execLui (c : CoreId) (rd : BitVec 6) (imm : BitVec 22) (s : State) : Out :=
  issue c [rd] [] s fun p _ d => d.retireS p c rd (imm ++ (0 : BitVec 10))

/-- A conditional branch: a taken branch continues at its own address + off12 * 4, modulo 2^22 (R134). -/
def branch (c : CoreId) (rs1 rs2 : BitVec 6) (off : BitVec 12) (taken : W32 → W32 → Bool) (s : State) : Out :=
  issue c [rs1, rs2] [] s fun p _ d =>
    if taken ((d.core c).getS rs1) ((d.core c).getS rs2) then
      d.retireTo p c ((d.core c).pc + (off ++ (0 : BitVec 2)).signExtend 22)
    else d.retire p c

/-- BEQ (R134). -/
def execBeq (c : CoreId) (rs1 rs2 : BitVec 6) (off : BitVec 12) (s : State) : Out :=
  branch c rs1 rs2 off (fun a b => a == b) s

/-- BNE (R134). -/
def execBne (c : CoreId) (rs1 rs2 : BitVec 6) (off : BitVec 12) (s : State) : Out :=
  branch c rs1 rs2 off (fun a b => a != b) s

/-- BLT (R134). -/
def execBlt (c : CoreId) (rs1 rs2 : BitVec 6) (off : BitVec 12) (s : State) : Out :=
  branch c rs1 rs2 off (fun a b => a.slt b) s

/-- BGE (R134). -/
def execBge (c : CoreId) (rs1 rs2 : BitVec 6) (off : BitVec 12) (s : State) : Out :=
  branch c rs1 rs2 off (fun a b => !(a.slt b)) s

/-- BLTU (R134). -/
def execBltu (c : CoreId) (rs1 rs2 : BitVec 6) (off : BitVec 12) (s : State) : Out :=
  branch c rs1 rs2 off (fun a b => a.ult b) s

/-- BGEU (R134). -/
def execBgeu (c : CoreId) (rs1 rs2 : BitVec 6) (off : BitVec 12) (s : State) : Out :=
  branch c rs1 rs2 off (fun a b => !(a.ult b)) s

/-- JAL: the target is imm20 * 4; the address of the next instruction goes to rd (R135). -/
def execJal (c : CoreId) (rd : BitVec 6) (imm : BitVec 20) (s : State) : Out :=
  issue c [rd] [] s fun p _ d =>
    (d.modCore c fun k => k.setS rd ((k.pc + 4).zeroExtend 32)).retireTo p c (imm ++ (0 : BitVec 2))

/-- Target of JALR: (s[rs] + imm14) modulo 2^22, imm14 sign-extended (R135). -/
def jalrTarget (k : CoreSt) (rs : BitVec 6) (imm : BitVec 14) : BitVec 22 :=
  (k.getS rs + imm.signExtend 32).extractLsb' 0 22

/-- JALR: a target whose bits [1:0] are not zero raises exception 0x03 (R135). -/
def execJalr (c : CoreId) (rd rs : BitVec 6) (imm : BitVec 14) (s : State) : Out :=
  issue c [rd, rs] [] s fun p _ d =>
    let t := jalrTarget (d.core c) rs imm
    if t.toNat % 4 ≠ 0 then d.raiseExc p c 0x03 (t.zeroExtend 64)
    else (d.modCore c fun k => k.setS rd ((k.pc + 4).zeroExtend 32)).retireTo p c t

/-- Address of major 0x6: s[rs1] + imm12, as an unsigned 32-bit value (R136). -/
def lsAddr (k : CoreSt) (rs1 : BitVec 6) (imm : BitVec 12) : Nat := (k.getS rs1 + imm.signExtend 32).toNat

/-- The address checks of R136 over `n` bytes with alignment `al`: the exception cause, if any. An address that fails both
raises 0x02; the rule gives them no order (DESIGN CHOICE, log entry 96). -/
def addrCheck (a n al : Nat) : Option Nat :=
  if 0x3FFFFF < a + n - 1 then some 0x02 else if a % al ≠ 0 then some 0x03 else none

/-- A load: the value read, extended by `ext`, goes to rd (R136, R60). -/
def load (c : CoreId) (rd rs1 : BitVec 6) (imm : BitVec 12) (n : Nat) (ext : Nat → W32) (s : State) : Out :=
  issue c [rd, rs1] [] s fun p m d =>
    let a := lsAddr (d.core c) rs1 imm
    match addrCheck a 1 n with
    | some e => d.raiseExc p c e (BitVec.ofNat 64 a)
    | none =>
      match d.pantryRead p m c a n with
      | (d1, .error w) => d1.raiseBad p c w
      | (d1, .ok bs) => d1.retireS p c rd (ext (leNat bs))

/-- A store of the low `n` bytes of rd, as one read-modify-write of its word (R136, R60, R62). -/
def store (c : CoreId) (rd rs1 : BitVec 6) (imm : BitVec 12) (n : Nat) (s : State) : Out :=
  issueW c [rd, rs1] [] s fun p _ d =>
    let a := lsAddr (d.core c) rs1 imm
    match addrCheck a 1 n with
    | some e => (d.raiseExc p c e (BitVec.ofNat 64 a), [])
    | none =>
      match d.pantryWrite p c a (leBytes n ((d.core c).getS rd).toNat) with
      | (d1, .error w) => (d1.raiseBad p c w, [])
      | (d1, .ok ws) => (d1.retire p c, ws)

/-- LB (R136). -/
def execLb (c : CoreId) (rd rs1 : BitVec 6) (imm : BitVec 12) (s : State) : Out :=
  load c rd rs1 imm 1 (fun x => (BitVec.ofNat 8 x).signExtend 32) s

/-- LBU (R136). -/
def execLbu (c : CoreId) (rd rs1 : BitVec 6) (imm : BitVec 12) (s : State) : Out :=
  load c rd rs1 imm 1 (BitVec.ofNat 32) s

/-- LH (R136). -/
def execLh (c : CoreId) (rd rs1 : BitVec 6) (imm : BitVec 12) (s : State) : Out :=
  load c rd rs1 imm 2 (fun x => (BitVec.ofNat 16 x).signExtend 32) s

/-- LHU (R136). -/
def execLhu (c : CoreId) (rd rs1 : BitVec 6) (imm : BitVec 12) (s : State) : Out :=
  load c rd rs1 imm 2 (BitVec.ofNat 32) s

/-- LW (R136). -/
def execLw (c : CoreId) (rd rs1 : BitVec 6) (imm : BitVec 12) (s : State) : Out :=
  load c rd rs1 imm 4 (BitVec.ofNat 32) s

/-- SB (R136). -/
def execSb (c : CoreId) (rd rs1 : BitVec 6) (imm : BitVec 12) (s : State) : Out := store c rd rs1 imm 1 s

/-- SH (R136). -/
def execSh (c : CoreId) (rd rs1 : BitVec 6) (imm : BitVec 12) (s : State) : Out := store c rd rs1 imm 2 s

/-- SW (R136). -/
def execSw (c : CoreId) (rd rs1 : BitVec 6) (imm : BitVec 12) (s : State) : Out := store c rd rs1 imm 4 s

end Sys2Proof.Machine
end

