-- ==== Sys2Proof/Machine/Vector.lean ====
section
/-! DEFINITION. Vector instructions (R74 to R78, R109, R137 to R141) and the completion of a queued vector
operation (R122, R124). A vector instruction captures its sources and forms its results at issue; the
results and flags land when its operation completes. -/

namespace Sys2Proof.Machine

/-- The vector queue holds 16 entries (R48). -/
def CoreSt.vFull (k : CoreSt) : Bool := decide (16 ≤ k.vq.length)

/-- Enter an operation into the vector queue and retire its instruction (R57, R124). -/
def Dev.pushV (p : Part) (d : Dev) (c : CoreId) (o : VOp) : Dev :=
  (d.modCore c fun k => { k with vq := k.vq ++ [o] }).retire p c

/-- Issue of a vector instruction that needs registers `ss` and `vs`: it stalls while the queue is full
(R57). -/
def issueV (c : CoreId) (ss : List (BitVec 6)) (vs : List (BitVec 5)) (s : State)
    (f : Part → List Host.Cell → Dev → Dev) : Out :=
  s.upd fun p m d =>
    if ready p d c ss vs && !(d.core c).vFull then f p m (d.modCore c CoreSt.take) else d

/-- The writes that put 64 lanes into a register. -/
def laneWr (v : BitVec 5) (xs : List W32) : List (Nat × W32) :=
  (xs.zipIdx).map fun x => (64 * v.toNat + x.2, x.1)

/-- The result of a whole vector register. -/
def VOp.full (v : BitVec 5) (xs : List W32) (ev : Events := {}) : VOp :=
  { wr := laneWr v xs, vregs := [v], flags := ev.vec }

/-! ### Loads, stores and moves (R137) -/

/-- Address of VLD and VST (scale 32) and of VLDB (scale 4): s + imm13 * scale, imm13 sign-extended. -/
def vAddr (k : CoreSt) (r : BitVec 6) (imm : BitVec 13) (scale : Nat) : Nat :=
  (k.getS r + imm.signExtend 32 * BitVec.ofNat 32 scale).toNat

/-- Lanes of a run of bytes, little-endian. -/
def lanesOf (bs : List Byte) : List W32 :=
  (List.range 64).map fun i => BitVec.ofNat 32 (leNat ((bs.drop (4 * i)).take 4))
/-- Bytes of lanes, little-endian. -/
def bytesOf (xs : List W32) : List Byte := xs.flatMap fun x => leBytes 4 x.toNat

/-- VLD: v takes 256 bytes. -/
def execVld (c : CoreId) (v : BitVec 5) (r : BitVec 6) (imm : BitVec 13) (s : State) : Out :=
  issueV c [r] [v] s fun p m d =>
    let a := vAddr (d.core c) r imm 32
    match addrCheck a 256 32 with
    | some e => d.raiseExc p c e (BitVec.ofNat 64 a)
    | none =>
      match d.pantryRead p m c a 256 with
      | (d1, .error w) => d1.raiseBad p c w
      | (d1, .ok bs) => d1.pushV p c (VOp.full v (lanesOf bs))

/-- VST: 256 bytes take v. Whole words are written, so no word is read first (R60, R62). -/
def execVst (c : CoreId) (v : BitVec 5) (r : BitVec 6) (imm : BitVec 13) (s : State) : Out :=
  s.updW fun p _ d =>
    if ready p d c [r] [v] && !(d.core c).vFull then
      let d := d.modCore c CoreSt.take
      let a := vAddr (d.core c) r imm 32
      match addrCheck a 256 32 with
      | some e => (d.raiseExc p c e (BitVec.ofNat 64 a), [])
      | none =>
        match d.pantryWrite p c a (bytesOf ((d.core c).lanes v)) with
        | (d1, .error w) => (d1.raiseBad p c w, [])
        | (d1, .ok ws) => (d1.pushV p c {}, ws)
    else (d, [])

/-- VLDB: every lane of v takes the 4 bytes at the address. -/
def execVldb (c : CoreId) (v : BitVec 5) (r : BitVec 6) (imm : BitVec 13) (s : State) : Out :=
  issueV c [r] [v] s fun p m d =>
    let a := vAddr (d.core c) r imm 4
    match addrCheck a 4 4 with
    | some e => d.raiseExc p c e (BitVec.ofNat 64 a)
    | none =>
      match d.pantryRead p m c a 4 with
      | (d1, .error w) => d1.raiseBad p c w
      | (d1, .ok bs) => d1.pushV p c (VOp.full v (List.replicate 64 (BitVec.ofNat 32 (leNat bs))))

/-- VMVS: one lane of v takes s; the other lanes are kept. -/
def execVmvs (c : CoreId) (v : BitVec 5) (r lane : BitVec 6) (s : State) : Out :=
  issueV c [r] [v] s fun p _ d =>
    d.pushV p c { wr := [(64 * v.toNat + lane.toNat, (d.core c).getS r)], vregs := [v] }

/-- VMVV: s takes one lane of v. -/
def execVmvv (c : CoreId) (v : BitVec 5) (r lane : BitVec 6) (s : State) : Out :=
  issueV c [r] [v] s fun p _ d => d.pushV p c { sreg := some (r, (d.core c).lane v lane.toNat) }

/-- VBCAST: every lane of v takes s. -/
def execVbcast (c : CoreId) (v : BitVec 5) (r : BitVec 6) (s : State) : Out :=
  issueV c [r] [v] s fun p _ d => d.pushV p c (VOp.full v (List.replicate 64 ((d.core c).getS r)))

/-! ### Lane arithmetic (R109, R138) -/

/-- One element in a floating format: the exact result of `op`, converted once (R109). -/
def fpElem (f : FFmt) (ovc : Ovc) (op : List FV → FV) (draw : Option (BitVec 16)) (xs : List Nat) : Nat × Events :=
  let vs := xs.map f.decode
  let r := op vs
  let z := f.convert r draw ovc
  (z.1, { z.2 with nanIn := false, invalid := madeNan vs r })

/-- One lane of two packed 16-bit elements, lower half first (R109). -/
def packedLane (g : Option (BitVec 16) → List Nat → Nat × Events) (d0 d1 : Option (BitVec 16)) (xs : List W32) :
    W32 × Events :=
  let lo := g d0 (xs.map fun x => x.toNat % 65536)
  let hi := g d1 (xs.map fun x => x.toNat / 65536)
  (BitVec.ofNat 32 (lo.1 % 65536 + hi.1 % 65536 * 65536), lo.2.or hi.2)

/-- Apply a lane function to the lanes of several registers, gathering events. -/
def mapLanes (g : Nat → List W32 → W32 × Events) (srcs : List (List W32)) : List W32 × Events :=
  (List.range 64).foldl (fun acc i =>
    let z := g i (srcs.map fun x => x.getD i 0)
    (acc.1 ++ [z.1], acc.2.or z.2)) ([], {})

/-- The lane type of a mode, and its rounding (R138). -/
def modeRm : VMode → Rm | .bf16 r _ => r | .fp16 r _ => r | _ => .rne
def modePacked : VMode → Bool | .bf16 .. => true | .fp16 .. => true | _ => false
def modeOf : FMode → VMode | .fp32 => .fp32 | .bf16 r o => .bf16 r o | .fp16 r o => .fp16 r o

/-- A floating operation `fop` on exact values, or `iop` on INT32 words, over all lanes (R138). -/
def vaLanes (ty : VMode) (fop : List FV → FV) (iop : List W32 → W32) (draws : List (Option (BitVec 16)))
    (srcs : List (List W32)) : List W32 × Events :=
  match ty with
  | .fp32 => mapLanes (fun _ xs =>
      let z := fpElem fp32 .inf fop none (xs.map BitVec.toNat)
      (BitVec.ofNat 32 z.1, z.2)) srcs
  | .bf16 _ o => mapLanes (fun i xs =>
      packedLane (fpElem bf16 o fop) (draws.getD (2 * i) none) (draws.getD (2 * i + 1) none) xs) srcs
  | .fp16 _ o => mapLanes (fun i xs =>
      packedLane (fpElem fp16 o fop) (draws.getD (2 * i) none) (draws.getD (2 * i + 1) none) xs) srcs
  | .int32 => mapLanes (fun _ xs => (iop xs, {})) srcs

/-- An operation on bits alone: `h` on one element of `w` bits; no flag (R138). -/
def bitLanes (ty : VMode) (h : Nat → List Nat → Nat) (srcs : List (List W32)) : List W32 × Events :=
  if modePacked ty then mapLanes (fun _ xs => packedLane (fun _ ys => (h 16 ys, {})) none none xs) srcs
  else mapLanes (fun _ xs => (BitVec.ofNat 32 (h 32 (xs.map BitVec.toNat)), {})) srcs

/-- Issue of an instruction of major 0x8: its draws are reserved, one per element written (R119, R141),
and `f` forms the lanes from the sources. -/
def va (c : CoreId) (ty : VMode) (vd : BitVec 5) (vs : List (BitVec 5)) (s : State)
    (f : List (Option (BitVec 16)) → List (List W32) → List W32 × Events) : Out :=
  issueV c [] (vd :: vs) s fun p _ d =>
    let r := d.reserve p c (modeRm ty) (if modePacked ty then 128 else 64)
    let z := f r.1 (vs.map (d.core c).lanes)
    r.2.pushV p c (VOp.full vd z.1 z.2)

/-- Two and three operands of a list. -/
def fv1 (l : List FV) : FV := l.getD 0 .nan
def fv2 (l : List FV) : FV := l.getD 1 .nan
def fv3 (l : List FV) : FV := l.getD 2 .nan
def w1 (l : List W32) : W32 := l.getD 0 0
def w2 (l : List W32) : W32 := l.getD 1 0
def n1 (l : List Nat) : Nat := l.getD 0 0
def n2 (l : List Nat) : Nat := l.getD 1 0
def n3 (l : List Nat) : Nat := l.getD 2 0

/-- VFMA: vs1 * vs2 + vs3, fused. -/
def execVfma (c : CoreId) (ty : FMode) (vd vs1 vs2 vs3 : BitVec 5) (s : State) : Out :=
  va c (modeOf ty) vd [vs1, vs2, vs3] s (vaLanes (modeOf ty) (fun l => ((fv1 l).mul (fv2 l)).add (fv3 l)) (fun _ => 0))
/-- VFMS: vs1 * vs2 - vs3, fused. -/
def execVfms (c : CoreId) (ty : FMode) (vd vs1 vs2 vs3 : BitVec 5) (s : State) : Out :=
  va c (modeOf ty) vd [vs1, vs2, vs3] s (vaLanes (modeOf ty) (fun l => ((fv1 l).mul (fv2 l)).add (fv3 l).neg) (fun _ => 0))
/-- VFNMA: -(vs1 * vs2) + vs3, fused. -/
def execVfnma (c : CoreId) (ty : FMode) (vd vs1 vs2 vs3 : BitVec 5) (s : State) : Out :=
  va c (modeOf ty) vd [vs1, vs2, vs3] s (vaLanes (modeOf ty) (fun l => ((fv1 l).mul (fv2 l)).neg.add (fv3 l)) (fun _ => 0))
/-- VADD. -/
def execVadd (c : CoreId) (ty : VMode) (vd vs1 vs2 : BitVec 5) (s : State) : Out :=
  va c ty vd [vs1, vs2] s (vaLanes ty (fun l => (fv1 l).add (fv2 l)) (fun l => w1 l + w2 l))
/-- VSUB. -/
def execVsub (c : CoreId) (ty : VMode) (vd vs1 vs2 : BitVec 5) (s : State) : Out :=
  va c ty vd [vs1, vs2] s (vaLanes ty (fun l => (fv1 l).add (fv2 l).neg) (fun l => w1 l - w2 l))
/-- VMUL. -/
def execVmul (c : CoreId) (ty : VMode) (vd vs1 vs2 : BitVec 5) (s : State) : Out :=
  va c ty vd [vs1, vs2] s (vaLanes ty (fun l => (fv1 l).mul (fv2 l)) (fun l => w1 l * w2 l))

/-- Is a below b, with -0 below +0 (R76, R138)? -/
def fvBelow (a b : FV) : Bool := a.lt b || (a.eq b && a.sgn && !b.sgn)
/-- Minimum and maximum: NaN if either operand is NaN. -/
def fvMin (a b : FV) : FV := if a.isNan || b.isNan then .nan else if fvBelow b a then b else a
def fvMax (a b : FV) : FV := if a.isNan || b.isNan then .nan else if fvBelow a b then b else a

/-- VMIN. -/
def execVmin (c : CoreId) (ty : VMode) (vd vs1 vs2 : BitVec 5) (s : State) : Out :=
  va c ty vd [vs1, vs2] s (vaLanes ty (fun l => fvMin (fv1 l) (fv2 l)) (fun l => if (w1 l).slt (w2 l) then w1 l else w2 l))
/-- VMAX. -/
def execVmax (c : CoreId) (ty : VMode) (vd vs1 vs2 : BitVec 5) (s : State) : Out :=
  va c ty vd [vs1, vs2] s (vaLanes ty (fun l => fvMax (fv1 l) (fv2 l)) (fun l => if (w1 l).slt (w2 l) then w2 l else w1 l))

/-- Element format of a floating mode. -/
def modeFmt : VMode → Option FFmt | .fp32 => some fp32 | .bf16 .. => some bf16 | .fp16 .. => some fp16 | .int32 => none

/-- A compare: all ones where it holds, else zero; no flag (R138). -/
def vcmp (ty : VMode) (fcmp : FV → FV → Bool) (icmp : W32 → W32 → Bool) (srcs : List (List W32)) : List W32 × Events :=
  bitLanes ty (fun w l =>
    let t := match modeFmt ty with
      | some f => fcmp (f.decode (n1 l)) (f.decode (n2 l))
      | none => icmp (BitVec.ofNat 32 (n1 l)) (BitVec.ofNat 32 (n2 l))
    if t then 2 ^ w - 1 else 0) srcs

/-- VCEQ. -/
def execVceq (c : CoreId) (ty : VMode) (vd vs1 vs2 : BitVec 5) (s : State) : Out :=
  va c ty vd [vs1, vs2] s fun _ => vcmp ty FV.eq (fun a b => a == b)
/-- VCLT. -/
def execVclt (c : CoreId) (ty : VMode) (vd vs1 vs2 : BitVec 5) (s : State) : Out :=
  va c ty vd [vs1, vs2] s fun _ => vcmp ty FV.lt (fun a b => a.slt b)
/-- VCLE. -/
def execVcle (c : CoreId) (ty : VMode) (vd vs1 vs2 : BitVec 5) (s : State) : Out :=
  va c ty vd [vs1, vs2] s fun _ => vcmp ty (fun a b => a.lt b || a.eq b) (fun a b => a.sle b)
/-- VSEL: (vs1 & vs3) | (vs2 & ~vs3). -/
def execVsel (c : CoreId) (ty : VMode) (vd vs1 vs2 vs3 : BitVec 5) (s : State) : Out :=
  va c ty vd [vs1, vs2, vs3] s fun _ srcs =>
    mapLanes (fun _ l => ((w1 l &&& l.getD 2 0) ||| (w2 l &&& ~~~ l.getD 2 0), {})) srcs
/-- VABS: clears the sign bit; wraps for INT32. -/
def execVabs (c : CoreId) (ty : VMode) (vd vs1 : BitVec 5) (s : State) : Out :=
  va c ty vd [vs1] s fun _ => bitLanes ty fun w l =>
    match ty with
    | .int32 => if n1 l < 2 ^ 31 then n1 l else (2 ^ 32 - n1 l) % 2 ^ 32
    | _ => n1 l % 2 ^ (w - 1)
/-- VNEG: inverts the sign bit; wraps for INT32. -/
def execVneg (c : CoreId) (ty : VMode) (vd vs1 : BitVec 5) (s : State) : Out :=
  va c ty vd [vs1] s fun _ => bitLanes ty fun w l =>
    match ty with
    | .int32 => (2 ^ 32 - n1 l) % 2 ^ 32
    | _ => (n1 l + 2 ^ (w - 1)) % 2 ^ w

/-! ### Major 0x9: one-lane operations and the assists (R75, R139) -/

/-- Issue of an instruction of major 0x9 without RM: `f` forms the lanes. -/
def vm (c : CoreId) (vd : BitVec 5) (vs : List (BitVec 5)) (s : State) (f : List (List W32) → List W32 × Events) : Out :=
  issueV c [] (vd :: vs) s fun p _ d =>
    let z := f (vs.map (d.core c).lanes)
    d.pushV p c (VOp.full vd z.1 z.2)

/-- Distance of two FP32 encodings of one sign, in ulp. -/
def ulpDist (a b : Nat) : Nat := if a < b then b - a else a - b

/-- A subnormal FP32 word counts as zero of the same sign (R75). -/
def flushIn (x : W32) : W32 := if x.toNat / 2 ^ 23 % 256 = 0 then BitVec.ofNat 32 (x.toNat / 2 ^ 31 * 2 ^ 31) else x
/-- The result of an assist: its own value when that lies within `n` ulp of the correctly rounded one and
keeps its sign, else the correctly rounded one (R75, log entry 7). -/
def assistUlp (which n : Nat) (x : W32) (exact : W32) : W32 :=
  let r := Config.assist which x
  if r.getLsbD 31 = exact.getLsbD 31 ∧ ulpDist (r.toNat % 2 ^ 31) (exact.toNat % 2 ^ 31) ≤ n
    ∧ r.toNat % 2 ^ 31 ≤ fp32.maxMag ∧ (flushIn r = r ∨ flushIn exact ≠ exact) then r else exact

/-- A quotient a / b as a magnitude with 64 further bits and whether a remainder is left. -/
def quot (a b : Nat) : Nat × Bool := (a * 2 ^ 96 / b, a * 2 ^ 96 % b != 0)
/-- Correctly rounded FP32 of (-1)^neg * a / b * 2^e. -/
def quot32 (neg : Bool) (a b : Nat) (e : Int) : W32 × Events :=
  let q := quot a b
  let z := fp32.roundFin neg q.1 (e - 96) none .inf q.2
  (BitVec.ofNat 32 z.1, z.2)

/-- A subnormal result becomes zero of the same sign (R75), which subnormal words and zeros share with
subnormal inputs. The flags of R121: `exact` is the exact result where FP32 has it, `tiny` says that the exact
result is non-zero and below the minimum normal. -/
def assistEnd (r : W32) (exact : Option W32) (tiny : Bool) : W32 × Events :=
  let w := flushIn r
  let inexact := !(exact == some w)
  (w, { underflow := tiny && inexact, inexact := inexact })

/-- Integer square root by bisection on `n` bits. -/
def isqrtBits (x : Nat) : Nat → Nat → Nat
  | 0, r => r
  | n + 1, r => if (r + 2 ^ n) * (r + 2 ^ n) ≤ x then isqrtBits x n (r + 2 ^ n) else isqrtBits x n r

/-- e^t in units of 2^-400 for t in units of 2^-400, by the series to 80 terms. -/
def expSeries (t : Int) : Nat → Int → Int → Int
  | 0, _, acc => acc
  | n + 1, term, acc =>
    let k : Int := 80 - (n : Int)
    let term' := term * t / (2 ^ 400 * k)
    expSeries t n term' (acc + term')
/-- Square `n` times in units of 2^-400. -/
def squareTimes (x : Int) : Nat → Int
  | 0 => x
  | n + 1 => squareTimes (x * x / 2 ^ 400) n
/-- e^x in units of 2^-400, for x = (-1)^neg * m * 2^e of magnitude below 256: the series at x / 512,
squared nine times. -/
def expFix (neg : Bool) (m : Nat) (e : Int) : Nat :=
  let t : Int := if 0 ≤ e + 391 then (m * 2 ^ (e + 391).toNat : Nat) else (m / 2 ^ (-(e + 391)).toNat : Nat)
  (squareTimes (expSeries (if neg then -t else t) 80 (2 ^ 400) (2 ^ 400)) 9).toNat

/-- Compare |x| = m * 2^e with a / 100. -/
def magAtMost (m : Nat) (e : Int) (a : Nat) : Bool :=
  if 0 ≤ e then decide (m * 2 ^ e.toNat * 100 ≤ a) else decide (m * 100 ≤ a * 2 ^ (-e).toNat)
def magBelow (m : Nat) (e : Int) (a : Nat) : Bool :=
  if 0 ≤ e then decide (m * 2 ^ e.toNat * 100 < a) else decide (m * 100 < a * 2 ^ (-e).toNat)

def inf32 (neg : Bool) : W32 := if neg then 0xFF800000 else 0x7F800000
def nan32 : W32 := 0x7FC00000
def zero32 (neg : Bool) : W32 := if neg then 0x80000000 else 0
def one32 (neg : Bool) : W32 := if neg then 0xBF800000 else 0x3F800000

/-- VEXP of one lane (R75). Outside the domain of R75 its fixed result sets the flags of R121: OVERFLOW with +inf,
UNDERFLOW where e^x itself is below the minimum normal (DEDUCED, log entry 80). -/
def vexp1 (x0 : W32) : W32 × Events :=
  let x := flushIn x0
  match val32 x with
  | .nan => (nan32, {})
  | .inf neg => (if neg then 0 else inf32 false, {})
  | .fin neg m e =>
    if m = 0 then (one32 false, {})
    else if !neg && !(magAtMost m e 8872) then (inf32 false, { ovfInf := true, inexact := true })
    else if neg && !(magAtMost m e 8733) then
      (0, { underflow := !(magAtMost m e 8800) || fp32.tiny (expFix neg m e) (-400), inexact := true })
    else
      let z := fp32.roundFin false (expFix neg m e) (-400) none .inf true
      assistEnd (assistUlp 0 2 x (BitVec.ofNat 32 z.1)) none false

/-- VRCP of one lane (R75). -/
def vrcp1 (x0 : W32) : W32 × Events :=
  let x := flushIn x0
  match val32 x with
  | .nan => (nan32, {})
  | .inf neg => (zero32 neg, {})
  | .fin neg m e =>
    if m = 0 then (inf32 neg, { divZero := true })
    else
      let z := quot32 neg 1 m (-e)
      assistEnd (assistUlp 1 1 x z.1) (if z.2.inexact then none else some z.1) (fp32.tiny (quot 1 m).1 (-e - 96))

/-- VRSQRT of one lane (R75). -/
def vrsqrt1 (x0 : W32) : W32 × Events :=
  let x := flushIn x0
  match val32 x with
  | .nan => (nan32, {})
  | .inf neg => if neg then (nan32, { invalid := true }) else (0, {})
  | .fin neg m e =>
    if m = 0 then (inf32 neg, { divZero := true })
    else if neg then (nan32, { invalid := true })
    else
      -- 1/sqrt(m 2^e) with e made even: sqrt(2^400 / m') 2^(-200 - e'/2)
      let odd := e % 2 ≠ 0
      let m' := if odd then 2 * m else m
      let e' := if odd then e - 1 else e
      let q := 2 ^ 400 / m'
      let r := isqrtBits q 201 0
      let st := !(r * r * m' == 2 ^ 400)
      let z := fp32.roundFin false r (-200 - e' / 2) none .inf st
      let w := BitVec.ofNat 32 z.1
      assistEnd (assistUlp 2 2 x w) (if z.2.inexact then none else some w) false

/-- VTANH of one lane: within 2^-22 of tanh x (R75). tanh x = (y - 1) / (y + 1) with y = e^(2x). -/
def vtanh1 (x0 : W32) : W32 × Events :=
  let x := flushIn x0
  match val32 x with
  | .nan => (nan32, {})
  | .inf neg => (one32 neg, {})
  | .fin neg m e =>
    if m = 0 then (zero32 neg, {})
    else if !(magBelow m e 901) then (one32 neg, { inexact := true })
    else
      let y := expFix false m (e + 1)
      let num := (y - 2 ^ 400) * 2 ^ 200
      let exact := quot32 neg num (y + 2 ^ 400) (-200)
      let r := Config.assist 3 x
      -- |r| and tanh |x| compared in units of 2^-200
      let th := num / (y + 2 ^ 400)
      let ok := match val32 r with
        | .fin n k f =>
          let u := if 0 ≤ f + 200 then k * 2 ^ (f + 200).toNat else 0
          n == neg && decide (u ≤ th + 2 ^ 178) && decide (th ≤ u + 2 ^ 178)
        | _ => false
      assistEnd (if ok then r else exact.1) none (fp32.tiny (quot num (y + 2 ^ 400)).1 (-296))

/-- Apply a one-lane operation. -/
def lanes1 (g : W32 → W32 × Events) (srcs : List (List W32)) : List W32 × Events := mapLanes (fun _ l => g (w1 l)) srcs

/-- VEXP. -/
def execVexp (c : CoreId) (vd vs1 : BitVec 5) (s : State) : Out := vm c vd [vs1] s (lanes1 vexp1)
/-- VRCP. -/
def execVrcp (c : CoreId) (vd vs1 : BitVec 5) (s : State) : Out := vm c vd [vs1] s (lanes1 vrcp1)
/-- VRSQRT. -/
def execVrsqrt (c : CoreId) (vd vs1 : BitVec 5) (s : State) : Out := vm c vd [vs1] s (lanes1 vrsqrt1)
/-- VTANH. -/
def execVtanh (c : CoreId) (vd vs1 : BitVec 5) (s : State) : Out := vm c vd [vs1] s (lanes1 vtanh1)

/-! ### Reductions, permutes, sort (R76 to R78) -/

/-- One level of the pairwise tree: lane 2i with lane 2i + 1. -/
def pairUp (g : W32 → W32 → W32 × Events) : List W32 → List W32 × Events
  | a :: b :: r =>
    let z := g a b
    let t := pairUp g r
    (z.1 :: t.1, z.2.or t.2)
  | l => (l, {})
/-- `n` levels. -/
def pairTree (g : W32 → W32 → W32 × Events) (l : List W32) : Nat → List W32 × Events
  | 0 => (l, {})
  | n + 1 =>
    let z := pairUp g l
    let t := pairTree g z.1 n
    (t.1, z.2.or t.2)

/-- An operation on two FP32 words. -/
def fp32Op2 (op : FV → FV → FV) (a b : W32) : W32 × Events :=
  let z := fpElem fp32 .inf (fun l => op (fv1 l) (fv2 l)) none [a.toNat, b.toNat]
  (BitVec.ofNat 32 z.1, z.2)

/-- A reduction: the result in lane 0, +0.0 in the others (R76). -/
def reduce (g : W32 → W32 → W32 × Events) (srcs : List (List W32)) : List W32 × Events :=
  let t := pairTree g (srcs.getD 0 []) 6
  (t.1.take 1 ++ List.replicate 63 0, t.2)

/-- VRSUM. -/
def execVrsum (c : CoreId) (vd vs1 : BitVec 5) (s : State) : Out := vm c vd [vs1] s (reduce (fp32Op2 FV.add))
/-- VRMAX. -/
def execVrmax (c : CoreId) (vd vs1 : BitVec 5) (s : State) : Out := vm c vd [vs1] s (reduce (fp32Op2 fvMax))
/-- VRMIN. -/
def execVrmin (c : CoreId) (vd vs1 : BitVec 5) (s : State) : Out := vm c vd [vs1] s (reduce (fp32Op2 fvMin))

/-- VPERM: lane i from lane idx[i] bits [5:0]. -/
def execVperm (c : CoreId) (vd vs1 vs2 : BitVec 5) (s : State) : Out :=
  vm c vd [vs1, vs2] s fun l => mapLanes (fun _ x => ((l.getD 0 []).getD ((w1 x).toNat % 64) 0, {})) [l.getD 1 []]
/-- VPERM2: bit 6 of the index selects vs1 or aux. -/
def execVperm2 (c : CoreId) (vd vs1 vs2 aux : BitVec 5) (s : State) : Out :=
  vm c vd [vs1, vs2, aux] s fun l =>
    mapLanes (fun _ x =>
      ((l.getD (if (w1 x).getLsbD 6 then 2 else 0) []).getD ((w1 x).toNat % 64) 0, {})) [l.getD 1 []]

/-- Sort key: FP32 in totalOrder, or signed INT32 (R78). -/
def sortKey (intKeys : Bool) (x : W32) : Int :=
  if intKeys then x.toInt else if x.getLsbD 31 then -((x.toNat % 2 ^ 31 : Nat) : Int) - 1 else (x.toNat : Nat)
/-- Insert after every element that is not to follow it, so that equal keys keep their order. -/
def sortInsert (before : Int → Int → Bool) (x : Int × W32 × W32) : List (Int × W32 × W32) → List (Int × W32 × W32)
  | [] => [x]
  | y :: ys => if before x.1 y.1 then x :: y :: ys else y :: sortInsert before x ys
/-- Stable sort of (key, key word, payload). -/
def sortAll (before : Int → Int → Bool) (l : List (Int × W32 × W32)) : List (Int × W32 × W32) :=
  l.foldl (fun acc x => sortInsert before x acc) []

/-- VSORT: vd keys and vs1 payload are both read and rewritten (R139). With vd and vs1 one register the rule does not say
which of the two stands there: the keys do (DESIGN CHOICE, log entry 99). -/
def execVsort (c : CoreId) (vd vs1 : BitVec 5) (intKeys descending : Bool) (s : State) : Out :=
  issueV c [] [vd, vs1] s fun p _ d =>
    let ks := (d.core c).lanes vd
    let ps := (d.core c).lanes vs1
    let l := sortAll (fun a b => if descending then decide (b < a) else decide (a < b))
      ((ks.zip ps).map fun x => (sortKey intKeys x.1, x.1, x.2))
    d.pushV p c { wr := laneWr vs1 (l.map fun x => x.2.2) ++ laneWr vd (l.map fun x => x.2.1), vregs := [vd, vs1] }

/-! ### Conversions (R140, R141) -/

/-- The format codes that VCVTT and VCVTF refuse: exception 0x07 with the code twice (R140, R576). -/
def cvtBad (fmt : BitVec 4) : Bool := fmt == 0 || fmtReserved fmt
def cvtInfo (fmt : BitVec 4) : W64 := BitVec.ofNat 64 (fmt.toNat + fmt.toNat * 2 ^ 8)

/-- VCVTT: 64 lanes to narrow elements packed from byte 0; the rest of vd becomes zero. -/
def execVcvtt (c : CoreId) (vd vs1 : BitVec 5) (fmt : BitVec 4) (rm : Rm) (ovc : Ovc) (s : State) : Out :=
  issueV c [] [vd, vs1] s fun p _ d =>
    if cvtBad fmt then d.raiseExc p c 0x07 (cvtInfo fmt)
    else
      let r := d.reserve p c rm 64
      let z := (((d.core c).lanes vs1).zip r.1).map fun x => fmtEncode fmt (val32 x.1) x.2 ovc
      let word := packElems (fmtBits fmt) (z.map Prod.fst)
      let ev := (z.map Prod.snd).foldl Events.or {}
      r.2.pushV p c (VOp.full vd ((List.range 64).map fun i => BitVec.ofNat 32 (word / 2 ^ (32 * i))) ev)

/-- One 2048-bit string of a vector register. -/
def lanesNat : List W32 → Nat
  | [] => 0
  | x :: xs => x.toNat + 2 ^ 32 * lanesNat xs

/-- Widening of one element under its scale, if any (R110). -/
def widen (fmt : BitVec 4) (x : Nat) (scale : Option FV) : W32 × Events :=
  match scale with
  | none => to32 (fmtDecode fmt x)
  | some sc => if sc.isNan then (nan32, {}) else to32 ((fmtDecode fmt x).mul sc)

/-- VCVTF: narrow elements to 64 FP32 lanes; an MX format takes its two scales from lane 0 of vs2. -/
def execVcvtf (c : CoreId) (vd vs1 vs2 : BitVec 5) (fmt : BitVec 4) (s : State) : Out :=
  issueV c [] (if fmtMx fmt then [vd, vs1, vs2] else [vd, vs1]) s fun p _ d =>
    if cvtBad fmt then d.raiseExc p c 0x07 (cvtInfo fmt)
    else
      let word := lanesNat ((d.core c).lanes vs1)
      let sc := ((d.core c).lane vs2 0).toNat
      let z := (List.range 64).map fun i =>
        widen fmt (elemAt word (fmtBits fmt) i)
          (if fmtMx fmt then some (e8m0 (if i < 32 then sc % 256 else sc / 256 % 256)) else none)
      d.pushV p c (VOp.full vd (z.map Prod.fst) ((z.map Prod.snd).foldl Events.or {}))

/-- VCVTI: FP32 to INT32 under RM; out of range to the nearest end, NaN to 0. -/
def execVcvti (c : CoreId) (vd vs1 : BitVec 5) (rm : Rm) (s : State) : Out :=
  issueV c [] [vd, vs1] s fun p _ d =>
    let r := d.reserve p c rm 64
    let z := (((d.core c).lanes vs1).zip r.1).map fun x => intConvert 32 (val32 x.1) x.2
    r.2.pushV p c (VOp.full vd (z.map fun x => BitVec.ofNat 32 x.1) ((z.map Prod.snd).foldl Events.or {}))

/-- VCVTIF: INT32 to FP32 under RM. -/
def execVcvtif (c : CoreId) (vd vs1 : BitVec 5) (rm : Rm) (s : State) : Out :=
  issueV c [] [vd, vs1] s fun p _ d =>
    let r := d.reserve p c rm 64
    let z := (((d.core c).lanes vs1).zip r.1).map fun x => fp32.convert (FV.ofInt x.1.toInt) x.2 .inf
    r.2.pushV p c (VOp.full vd (z.map fun x => BitVec.ofNat 32 x.1) ((z.map Prod.snd).foldl Events.or {}))

/-! ### Logic, shifts and copies (R139) -/

/-- A lane operation on two words. -/
def lanes2 (g : W32 → W32 → W32) (srcs : List (List W32)) : List W32 × Events :=
  mapLanes (fun _ l => (g (w1 l) (w2 l), {})) srcs

/-- VAND. -/
def execVand (c : CoreId) (vd vs1 vs2 : BitVec 5) (s : State) : Out := vm c vd [vs1, vs2] s (lanes2 fun a b => a &&& b)
/-- VOR. -/
def execVor (c : CoreId) (vd vs1 vs2 : BitVec 5) (s : State) : Out := vm c vd [vs1, vs2] s (lanes2 fun a b => a ||| b)
/-- VXOR. -/
def execVxor (c : CoreId) (vd vs1 vs2 : BitVec 5) (s : State) : Out := vm c vd [vs1, vs2] s (lanes2 fun a b => a ^^^ b)
/-- VNOT. -/
def execVnot (c : CoreId) (vd vs1 : BitVec 5) (s : State) : Out := vm c vd [vs1] s (lanes1 fun a => (~~~a, {}))
/-- VSHL. -/
def execVshl (c : CoreId) (vd vs1 vs2 : BitVec 5) (s : State) : Out := vm c vd [vs1, vs2] s (lanes2 fun a b => a <<< sh5 b)
/-- VSHR. -/
def execVshr (c : CoreId) (vd vs1 vs2 : BitVec 5) (s : State) : Out := vm c vd [vs1, vs2] s (lanes2 fun a b => a >>> sh5 b)
/-- VSRA. -/
def execVsra (c : CoreId) (vd vs1 vs2 : BitVec 5) (s : State) : Out :=
  vm c vd [vs1, vs2] s (lanes2 fun a b => a.sshiftRight (sh5 b))
/-- VIOTA: lane i takes i. -/
def execViota (c : CoreId) (vd : BitVec 5) (s : State) : Out :=
  vm c vd [] s fun _ => ((List.range 64).map (BitVec.ofNat 32), {})
/-- VMOV. -/
def execVmov (c : CoreId) (vd vs1 : BitVec 5) (s : State) : Out := vm c vd [vs1] s (lanes1 fun a => (a, {}))

/-! ### Completion -/

/-- Land the lanes of a result. -/
def landLanes (v : SMap W32) : List (Nat × W32) → SMap W32
  | [] => v
  | (i, x) :: r => landLanes (smSet 0 v i x) r

/-- The registers of a core after an operation has landed. -/
def CoreSt.landV (k : CoreSt) (o : VOp) : CoreSt :=
  let k := { k with v := landLanes k.v o.wr }
  match o.sreg with
  | some (r, x) => k.setS r x
  | none => k

/-- VECTOR_OP_COMPLETE: the oldest queued vector operation lands its results and sets its flags
(R122, R124); it counts in VEC.CNT_OPS. Vector operations land in queue order, also where a later one has a
shorter latency (DEDUCED, log entry 22). -/
def execVectorOpComplete (c : CoreId) (s : State) : Out :=
  s.upd fun p _ d =>
    if d.edgesHeld c then d else
    match (d.core c).vq with
    | [] => d
    | o :: r =>
      let d := d.modCore c fun k => ({ k with vq := r }).landV o
      let d := d.put p (vecR c 8) (d.get p (vecR c 8) ||| o.flags.zeroExtend 64)
      d.count p (vecR c 0x100) 1

end Sys2Proof.Machine
end

