-- ==== Sys2Proof/Machine/Lobby.lean ====
section
/-! DEFINITION. Lobbies: admission, landing, reading, drop marks, late checks and their registers
(R159 to R187), and the lobby instructions that do not wait (R146, R147). -/

namespace Sys2Proof.Machine

/-! ### Registers of lobby l (R186, R187) -/

def lobReg (c : CoreId) (l : BitVec 3) (off : Nat) : Nat := lobR c (0x100 + 0x40 * l.toNat + off)
/-- Storage of lobby l. -/
def CoreSt.lobby (k : CoreSt) (l : BitVec 3) : Lobby := smGet {} k.lob l.toNat
def CoreSt.setLobby (k : CoreSt) (l : BitVec 3) (x : Lobby) : CoreSt := { k with lob := smSet {} k.lob l.toNat x }
def Dev.lobby (d : Dev) (c : CoreId) (l : BitVec 3) : Lobby := (d.core c).lobby l
def Dev.setLobby (d : Dev) (c : CoreId) (l : BitVec 3) (x : Lobby) : Dev := d.modCore c fun k => k.setLobby l x
def Dev.lobEn (p : Part) (d : Dev) (c : CoreId) (l : BitVec 3) : Bool := d.bit p (lobReg c l 0) 0
/-- READSEQ, held in LOB.SEQ[l].NEXT (R168, R187). -/
def Dev.readSeq (p : Part) (d : Dev) (c : CoreId) (l : BitVec 3) : BitVec 16 := BitVec.ofNat 16 (d.fld p (lobReg c l 8) 0 16)
def Dev.setReadSeq (p : Part) (d : Dev) (c : CoreId) (l : BitVec 3) (s : BitVec 16) : Dev := d.setF p (lobReg c l 8) 0 16 s.toNat

/-- The slot that holds a SEQ. -/
def Lobby.slot (x : Lobby) (seq : BitVec 16) : Option LSlot := x.slots.find? fun s => s.seq == seq
/-- Lines of a tile. -/
def LSlot.lineCount (s : LSlot) : Nat := s.nl.toNat + 1
/-- Lines landed (R168). -/
def LSlot.landedCount (s : LSlot) : Nat := popCount s.landed
/-- A tile is whole when all its lines have landed. -/
def LSlot.whole (s : LSlot) : Bool := s.landedCount == s.lineCount
/-- Free line buffers (R163, R165). -/
def Lobby.free (x : Lobby) : Nat := 512 - (x.slots.map LSlot.lineCount).sum
/-- Header fields (R161). -/
def hdrSeq (h : BitVec 128) : BitVec 16 := h.extractLsb' 0 16
def hdrNl (h : BitVec 128) : BitVec 2 := h.extractLsb' 16 2
def hdrLast (h : BitVec 128) : Bool := h.getLsbD 19
def hdrWord (h : BitVec 128) (w : Nat) : W32 := h.extractLsb' (32 * w) 32

/-- The current tile (R168). -/
def Dev.curTile (p : Part) (d : Dev) (c : CoreId) (l : BitVec 3) : Option LSlot := (d.lobby c l).slot (d.readSeq p c l)
/-- EMPTY: line READPOS of the current tile has not landed, or EN is 0 (R170). -/
def Dev.lobEmpty (p : Part) (d : Dev) (c : CoreId) (l : BitVec 3) : Bool :=
  match d.lobEn p c l, d.curTile p c l with
  | true, some s => !s.landed.getLsbD (d.lobby c l).readpos.toNat
  | _, _ => true
/-- The cut-through threshold of a tile (R173). -/
def Dev.threshold (p : Part) (d : Dev) (c : CoreId) (l : BitVec 3) (s : LSlot) : Nat :=
  let cut := d.fld p (lobReg c l 0) 1 3
  if cut = 0 ∨ s.lineCount < cut then s.lineCount else cut
/-- The condition of LOB.WAIT (R173). -/
def Dev.lobReady (p : Part) (d : Dev) (c : CoreId) (l : BitVec 3) (whole : Bool) : Bool :=
  match d.lobEn p c l, d.curTile p c l with
  | true, some s => if whole then s.whole else decide (d.threshold p c l s ≤ s.landedCount)
  | _, _ => false
/-- The first of `n` SEQs from `s` upward of which no part has arrived. -/
def lowFrom (x : Lobby) (s : BitVec 16) : Nat → BitVec 16
  | 0 => s
  | n + 1 => if (x.slot s).isSome || x.marks.any (fun m => m.seq == s && (m.hdrSeen || m.tail)) then lowFrom x (s + 1) n else s
/-- LOWMISS (R165). -/
def Dev.lowMiss (p : Part) (d : Dev) (c : CoreId) (l : BitVec 3) : BitVec 16 :=
  lowFrom (d.lobby c l) (d.readSeq p c l) (d.lobby c l).slots.length.succ

/-- The status word of LOB.STAT (R177). -/
def Dev.lobStat (p : Part) (d : Dev) (c : CoreId) (l : BitVec 3) : W32 :=
  let b (x : Bool) (i : Nat) : Nat := if x then 2 ^ i else 0
  let x := d.lobby c l
  let en := d.lobEn p c l
  let sticky := b (d.bit p (lobR c 0) (8 + l.toNat)) 3 + b (d.bit p (lobR c 0) (16 + l.toNat)) 4
  BitVec.ofNat 32 (
    if en then
      b (d.lobEmpty p c l) 0 + b (d.lobReady p c l false) 1 + b (d.lobReady p c l true) 2 + sticky + 2 ^ 5
        + x.readpos.toNat * 2 ^ 6 + x.slots.length * 2 ^ 8 + x.free * 2 ^ 16 + x.marks.length * 2 ^ 26
    else 1 + sticky + 512 * 2 ^ 16)

/-! ### Late check (R180, R181) -/

/-- Are the `n` tiles from `s` upward all present and whole? -/
def allWhole (x : Lobby) (s : BitVec 16) : Nat → Bool
  | 0 => true
  | n + 1 => (match x.slot s with | some t => t.whole | none => false) && allWhole x (s + 1) n

/-- The check of one LAST tile: ARRIVE, OVER, and the late record (R180, R181). -/
def Dev.lateRecord (p : Part) (d : Dev) (c : CoreId) (l : BitVec 3) (t : LSlot) : Dev :=
  let arrive := lowT (d.snoop c)
  let due := (hdrWord t.hdr 3).toNat
  let slack := d.fld p (lobReg c l 0x10) 0 32
  let past := (BitVec.ofNat 32 arrive - BitVec.ofNat 32 due - BitVec.ofNat 32 slack).toNat
  if 1 ≤ past ∧ past < 2 ^ 31 then
    let was := d.bit p (lobR c 0) (16 + l.toNat)
    let late : W64 := BitVec.ofNat 64 (l.toNat + 8 + t.seq.toNat * 2 ^ 16 + (hdrWord t.hdr 1).toNat * 2 ^ 32)
    let lateT : W64 := BitVec.ofNat 64 (arrive + past * 2 ^ 32)
    let d := d.setB p (lobR c 0) (16 + l.toNat) true
    let d := (d.put p (lobR c 0x10) late).put p (lobR c 0x18) lateT
    let d := d.count p (lobR c 0x20) 1
    if was then d else d.coreFault p c 0 0x0104 late lateT
  else d

/-- Make the late check of every LAST tile whose moment has come; a moment that passes with LATE_EN at 0
makes no check (R180). Late checks of one moment are made in order of admission (DESIGN CHOICE, log entry 100). -/
def Dev.lateCheck (p : Part) (d : Dev) (c : CoreId) (l : BitVec 3) : Dev :=
  let x := d.lobby c l
  let rs := d.readSeq p c l
  let now := x.slots.filter fun t =>
    hdrLast t.hdr && !t.checked && t.whole && allWhole x rs (t.seq - rs).toNat
  let d1 := if d.bit p (lobReg c l 0) 4 then now.foldl (fun d t => d.lateRecord p c l t) d else d
  d1.setLobby c l { x with slots := x.slots.map fun t => if now.any (fun u => u.seq == t.seq) then { t with checked := true } else t }

/-! ### Admission (R165, R166, R175) -/

/-- Refuse a push: it counts, and LOBBY_STALE and LOBBY_BAD raise a Notice (R166). -/
def Dev.lobRefuse (p : Part) (d : Dev) (c : CoreId) (l : BitVec 3) (st : BitVec 7) : Dev × BitVec 7 :=
  let d := d.count p (lobReg c l 0x30) 1
  (if st = stLobbyStale ∨ st = stLobbyBad then d.coreFault p c 0 0x0105 (l.zeroExtend 64) (st.zeroExtend 64) else d, st)

/-- Set a drop mark; for a ninth the oldest is released with a Notice (R175). -/
def Dev.addMark (p : Part) (d : Dev) (c : CoreId) (l : BitVec 3) (m : LMark) : Dev :=
  let x := d.lobby c l
  if x.marks.length < 8 then d.setLobby c l { x with marks := x.marks ++ [m] }
  else (d.setLobby c l { x with marks := x.marks.drop 1 ++ [m] }).coreFault p c 0 0x0106 (l.zeroExtend 64)
    (((x.marks.map LMark.seq).headD 0).zeroExtend 64)

/-- Replace a mark, releasing it when its tile has fully arrived (R175). -/
def Lobby.updMark (x : Lobby) (m : LMark) : Lobby :=
  if m.hdrSeen && m.toCome == 0 then { x with marks := x.marks.filter fun y => y.seq != m.seq }
  else { x with marks := x.marks.map fun y => if y.seq == m.seq then m else y }
/-- Replace a slot. -/
def Lobby.updSlot (x : Lobby) (t : LSlot) : Lobby := { x with slots := x.slots.map fun y => if y.seq == t.seq then t else y }

/-- A push packet that carries a header, at lobby l (R165). A header whose SEQ is not the packet's own is refused LOBBY_BAD (DESIGN
CHOICE, log entry 100). -/
def Dev.pushHeader (p : Part) (d : Dev) (c : CoreId) (l : BitVec 3) (src : Src) (seq : BitVec 16) (first : BitVec 2)
    (h : BitVec 128) (lines : List (List Byte)) : Dev × BitVec 7 :=
  let x := d.lobby c l
  let nl := hdrNl h
  let rs := d.readSeq p c l
  let dist := (seq - rs).toNat
  let need := if seq = d.lowMiss p c l then nl.toNat + 1 else nl.toNat + 5
  if !d.lobEn p c l then d.lobRefuse p c l stLobbyClosed
  else if src.toNat ≠ d.fld p (lobReg c l 0) 10 27 then d.lobRefuse p c l stLobbyBad
  else if first ≠ 0 ∨ hdrSeq h ≠ seq ∨ h.extractLsb' 20 4 ≠ 0 ∨ lines.length ≠ min 3 (nl.toNat + 1) then d.lobRefuse p c l stLobbyBad
  else match x.marks.find? fun m => m.seq == seq with
    | some m => (d.setLobby c l (x.updMark { m with hdrSeen := true, toCome := if m.hdrSeen then m.toCome else if nl = 3 ∧ !m.tail then 8 else 0 }), stOk)
    | none =>
      if 32768 ≤ dist ∨ (dist < 128 ∧ (x.slot seq).isSome) then d.lobRefuse p c l stLobbyStale
      else if 128 ≤ dist then d.lobRefuse p c l stLobbyAhead
      else if x.free < need then d.lobRefuse p c l stLobbyFull
      else
        let t : LSlot := { seq := seq, hdr := h, nl := nl, lines := (lines.zipIdx).map fun y => (y.2, y.1), landed := 0 }
        (d.setLobby c l { x with slots := x.slots ++ [t] }, stOk)

/-- A push packet without a header (R165): line 3 of a 4-line tile lands as it is accepted, and with it the lines before
it, for lines land in index order (R162). -/
def Dev.pushTail (p : Part) (d : Dev) (c : CoreId) (l : BitVec 3) (src : Src) (seq : BitVec 16) (first : BitVec 2)
    (lines : List (List Byte)) : Dev × BitVec 7 :=
  let x := d.lobby c l
  let dist := (seq - d.readSeq p c l).toNat
  if !d.lobEn p c l then d.lobRefuse p c l stLobbyClosed
  else if src.toNat ≠ d.fld p (lobReg c l 0) 10 27 then d.lobRefuse p c l stLobbyBad
  else if first ≠ 3 ∨ lines.length ≠ 1 then d.lobRefuse p c l stLobbyBad
  else match x.marks.find? fun m => m.seq == seq with
    | some m => (d.setLobby c l (x.updMark { m with toCome := 0, tail := true }), stOk)
    | none =>
      match x.slot seq with
      | some t =>
        if t.nl = 3 ∧ !t.landed.getLsbD 3 then
          let t' := { t with lines := t.lines ++ [(3, lines.headD [])], landed := 15 }
          ((d.setLobby c l (x.updSlot t')).lateCheck p c l, stOk)
        else d.lobRefuse p c l stLobbyBad
      | none => if dist < 32768 then d.lobRefuse p c l stLobbyAhead else d.lobRefuse p c l stLobbyStale

/-- LINE_LANDS: a line of an admitted tile is written to its buffer, in index order; a line of a dropped tile that was
still to land is discarded and counts toward the release of its mark (R162, R168, R174 to R176). -/
def execLineLands (c : CoreId) (l : BitVec 3) (seq : BitVec 16) (line : BitVec 2) (s : State) : Out :=
  s.upd fun p _ d =>
    if d.edgesHeld c then d else
    let x := d.lobby c l
    let bit : BitVec 4 := 1 <<< line.toNat
    let before : BitVec 4 := bit - 1
    match x.slot seq with
    | some t =>
      if (t.lines.any fun y => y.1 == line.toNat) && (t.landed &&& bit == 0) && (t.landed &&& before == before) then
        (d.setLobby c l (x.updSlot { t with landed := t.landed ||| bit })).lateCheck p c l
      else d
    | none =>
      match x.marks.find? fun m => m.seq == seq with
      | some m =>
        if m.hdrSeen && m.toCome &&& bit != 0 && m.toCome &&& before == 0 && line != 3 then
          d.setLobby c l (x.updMark { m with toCome := m.toCome &&& ~~~bit })
        else d
      | none => d

/-! ### Reading (R169 to R174) -/

/-- An underrun: the sticky bit, the count, and a Notice when the bit changes (R171). -/
def Dev.underrun (p : Part) (d : Dev) (c : CoreId) (l : BitVec 3) : Dev :=
  let was := d.bit p (lobR c 0) (8 + l.toNat)
  let d := (d.setB p (lobR c 0) (8 + l.toNat) true).count p (lobReg c l 0x28) 1
  if was then d else d.coreFault p c 0 0x0103 (l.zeroExtend 64)

/-- The last value, 128 zero bytes after reset (R171). -/
def Lobby.lastValue (x : Lobby) : List Byte := if x.last.isEmpty then List.replicate 128 0 else x.last

/-- A read of the next line: the line, or an underrun with the last value (R169, R171). -/
def Dev.lobRead (p : Part) (d : Dev) (c : CoreId) (l : BitVec 3) : Dev × List Byte :=
  let x := d.lobby c l
  if d.lobEmpty p c l then (d.underrun p c l, x.lastValue)
  else match d.curTile p c l with
    | none => (d.underrun p c l, x.lastValue)
    | some t =>
      let data := smGet [] t.lines x.readpos.toNat
      if x.readpos.toNat = t.nl.toNat then
        -- the tile retires
        let d := d.setLobby c l { x with slots := x.slots.filter (fun y => y.seq != t.seq), readpos := 0, last := data, held := t.hdr }
        let d := d.setReadSeq p c l (t.seq + 1)
        (d.count p (lobReg c l 0x20) 1, data)
      else (d.setLobby c l { x with readpos := x.readpos + 1, last := data }, data)

/-- Bit 5 of a 6-bit v field is set: exception 0x0A with the instruction word (R130). -/
def lobWord (func l r sa sub : Nat) : W64 :=
  BitVec.ofNat 64 (0xC0000000 + func * 2 ^ 24 + l * 2 ^ 21 + r * 2 ^ 15 + sa * 2 ^ 9 + sub * 2 ^ 7)

/-- LOB.RDV: the next line to lanes 0 to 31, or 32 to 63, of v; the other lanes are kept (R146, R169). -/
def execLobRdv (c : CoreId) (l : BitVec 3) (r : BitVec 6) (upper : Bool) (s : State) : Out :=
  issue c [] [r.extractLsb' 0 5] s fun p _ d =>
    if r.getLsbD 5 then d.raiseExc p c 0x0A (lobWord 0 l.toNat r.toNat 0 (if upper then 1 else 0))
    else
      let z := d.lobRead p c l
      let base := 64 * r.toNat + (if upper then 32 else 0)
      let wr := (List.range 32).map fun i => (base + i, BitVec.ofNat 32 (leNat ((z.2.drop (4 * i)).take 4)))
      (z.1.modCore c fun k => { k with v := landLanes k.v wr }).retire p c

/-- LOB.RDP: the next line to the pantry at s[sa], through the LSU port (R146, R147). -/
def execLobRdp (c : CoreId) (l : BitVec 3) (sa : BitVec 6) (s : State) : Out :=
  issueW c [sa] [] s fun p _ d =>
    let a := ((d.core c).getS sa).toNat
    match addrCheck a 128 128 with
    | some e => (d.raiseExc p c e (BitVec.ofNat 64 a), [])
    | none =>
      let z := d.lobRead p c l
      match z.1.pantryWrite p c a z.2 with
      | (d1, .error w) => (d1.raiseBad p c w, [])
      | (d1, .ok ws) => (d1.retire p c, ws)

/-- LOB.HDR: word sub of the current tile's header, or of the held header as an underrun (R172, R178). -/
def execLobHdr (c : CoreId) (l : BitVec 3) (r : BitVec 6) (word : BitVec 2) (s : State) : Out :=
  issue c [r] [] s fun p _ d =>
    match d.lobEn p c l, d.curTile p c l with
    | true, some t => d.retireS p c r (hdrWord t.hdr word.toNat)
    | _, _ => (d.underrun p c l).retireS p c r (hdrWord (d.lobby c l).held word.toNat)

/-- LOB.DROP: discards the rest of the current tile and makes the next SEQ current (R174, R178). -/
def execLobDrop (c : CoreId) (l : BitVec 3) (s : State) : Out :=
  issue c [] [] s fun p _ d =>
    if !d.lobEn p c l then d.retire p c
    else
      let x := d.lobby c l
      let rs := d.readSeq p c l
      let d1 := match x.slot rs with
        | some t =>
          let d1 := d.setLobby c l { x with slots := x.slots.filter (fun y => y.seq != rs), readpos := 0, held := t.hdr }
          if t.whole then d1
          else d1.addMark p c l { seq := rs, hdrSeen := true, toCome := BitVec.ofNat 4 (2 ^ t.lineCount - 1) &&& ~~~t.landed }
        | none => (d.setLobby c l { x with readpos := 0 }).addMark p c l { seq := rs, hdrSeen := false, toCome := 0 }
      let d2 := (d1.setReadSeq p c l (rs + 1)).count p (lobReg c l 0x38) 1
      (d2.lateCheck p c l).retire p c

/-- LOB.STAT: the lobby's status word (R177). -/
def execLobStat (c : CoreId) (l : BitVec 3) (r : BitVec 6) (s : State) : Out :=
  issue c [r] [] s fun p _ d => d.retireS p c r (d.lobStat p c l)

/-! ### Configuration (R164, R182, R183, R187) -/

/-- Tiles, reservations and drop marks gone, last value and held header zero (R182, R183). -/
def Dev.lobClear (d : Dev) (c : CoreId) (l : BitVec 3) : Dev := d.setLobby c l {}

/-- A write of LOB.CFG[l]: EN 0 discards the lobby's contents; PRODUCER changes only when EN was 0, and a
differing value raises a Notice while EN is 1; CUT and LATE_EN change at any time, a reserved CUT counting
as its reset value (R16, R164, R183). -/
def Dev.writeLobCfg (p : Part) (d : Dev) (c : CoreId) (l : BitVec 3) (v : W64) (lower upper : Bool) : Dev :=
  let a := lobReg c l 0
  let old := d.get p a
  let en := d.lobEn p c l
  let d1 := d.regStore p a v lower upper
  let new := d1.get p a
  let d2 :=
    if en then
      let d2 := d1.put p a (withBits new 10 27 (bits old 10 27))
      if bits new 10 27 ≠ bits old 10 27 then d2.noticeIgnored p a v else d2
    else d1
  if en && !d2.lobEn p c l then d2.lobClear c l else d2

/-- A write of LOB.SEQ[l].NEXT: sets READSEQ while EN is 0; a differing value raises a Notice while EN is 1
(R164). -/
def Dev.writeLobSeq (p : Part) (d : Dev) (c : CoreId) (l : BitVec 3) (next : BitVec 16) : Dev :=
  if d.lobEn p c l then
    (if next = d.readSeq p c l then d else d.noticeIgnored p (lobReg c l 8) (next.zeroExtend 64))
  else d.setReadSeq p c l next

/-- Does a control-space write reach a core's blocks: the core exists and is not fenced (R35, R217)? -/
def Dev.coreOpen (p : Part) (d : Dev) (c : CoreId) : Bool := p.has c && (d.core c).st != .fenced

/-- LOB_CFG_WRITE. -/
def execLobCfgWrite (c : CoreId) (l : BitVec 3) (value : W64) (s : State) : Out :=
  s.upd fun p _ d => if d.coreOpen p c then d.writeLobCfg p c l value true true else d
/-- LOBBY_DISABLE: EN written 0, the other fields kept (R183). -/
def execLobbyDisable (c : CoreId) (l : BitVec 3) (s : State) : Out :=
  s.upd fun p _ d =>
    if d.coreOpen p c then (d.setB p (lobReg c l 0) 0 false).lobClear c l else d
/-- LOB_SEQ_WRITE. -/
def execLobSeqWrite (c : CoreId) (l : BitVec 3) (next : BitVec 16) (s : State) : Out :=
  s.upd fun p _ d => if d.coreOpen p c then d.writeLobSeq p c l next else d

end Sys2Proof.Machine
end

