-- ==== Sys2Proof/Machine/Porter.lean ====
section
/-! DEFINITION. The porter: descriptor queues, transfers and pushes, completions, atomics and their
instructions (R79 to R91, R148 to R150, R162, R166, R167, R397, R410 to R414). -/

namespace Sys2Proof.Machine

/-! ### Queue registers (R96) -/

def prtReg (c : CoreId) (q off : Nat) : Nat := prtR c (0x100 + 0x20 * q + off)
def Dev.qEn (p : Part) (d : Dev) (c : CoreId) (q : Nat) : Bool := d.bit p (prtReg c q 0) 0
def Dev.qStop (p : Part) (d : Dev) (c : CoreId) (q : Nat) : Bool := d.bit p (prtReg c q 0) 1
def Dev.qPrio (p : Part) (d : Dev) (c : CoreId) (q : Nat) : Nat := d.fld p (prtReg c q 0) 2 2
def Dev.qLog2 (p : Part) (d : Dev) (c : CoreId) (q : Nat) : Nat := d.fld p (prtReg c q 0) 4 4
def Dev.qDbase (p : Part) (d : Dev) (c : CoreId) (q : Nat) : Nat := d.fld p (prtReg c q 0) 8 22 / 32 * 32
def Dev.qCbase (p : Part) (d : Dev) (c : CoreId) (q : Nat) : Nat := d.fld p (prtReg c q 0) 30 22 / 16 * 16
def Dev.qHead (p : Part) (d : Dev) (c : CoreId) (q : Nat) : BitVec 16 := BitVec.ofNat 16 (d.fld p (prtReg c q 8) 0 16)
def Dev.qTail (p : Part) (d : Dev) (c : CoreId) (q : Nat) : BitVec 16 := BitVec.ofNat 16 (d.fld p (prtReg c q 0x10) 0 16)
def Dev.qCause (p : Part) (d : Dev) (c : CoreId) (q : Nat) : Nat := d.fld p (prtReg c q 0x18) 4 4
def Dev.qErrIndex (p : Part) (d : Dev) (c : CoreId) (q : Nat) : BitVec 16 := BitVec.ofNat 16 (d.fld p (prtReg c q 0x18) 16 16)
def Dev.setHead (p : Part) (d : Dev) (c : CoreId) (q : Nat) (i : BitVec 16) : Dev := d.setF p (prtReg c q 8) 0 16 i.toNat
/-- The started descriptors of a queue. -/
def Dev.descs (d : Dev) (c : CoreId) (q : Nat) : List Desc := smGet [] (d.core c).prt q
def Dev.setDescs (d : Dev) (c : CoreId) (q : Nat) (l : List Desc) : Dev :=
  d.modCore c fun k => { k with prt := smSet [] k.prt q l }
def Dev.modDesc (d : Dev) (c : CoreId) (q : Nat) (idx : BitVec 16) (f : Desc → Desc) : Dev :=
  d.setDescs c q ((d.descs c q).map fun x => if x.idx == idx then f x else x)
def Dev.findDesc (d : Dev) (c : CoreId) (q : Nat) (idx : BitVec 16) : Option Desc :=
  (d.descs c q).find? fun x => x.idx == idx

/-- In ERROR: a cause stands, and the queue has not gone IDLE under EN 0 (R90). -/
def Dev.qError (p : Part) (d : Dev) (c : CoreId) (q : Nat) : Bool :=
  d.qCause p c q != 0 && (d.qEn p c q || !(d.descs c q).isEmpty)
/-- QSTATE.STATE: 0 IDLE, 1 RUN, 2 WAIT, 3 ERROR (R90, R96). -/
def Dev.qState (p : Part) (d : Dev) (c : CoreId) (q : Nat) : Nat :=
  if d.qError p c q then 3
  else if (d.descs c q).any (fun x => x.phase == .waitLedger) then 2
  else if !(d.descs c q).isEmpty || (d.qEn p c q && d.qHead p c q != d.qTail p c q) then 1
  else 0
/-- A queue goes into ERROR; a cause that already stands is kept. DEDUCED, log entry 26. -/
def Dev.qFail (p : Part) (d : Dev) (c : CoreId) (q cause : Nat) (idx : BitVec 16) : Dev :=
  if d.qCause p c q = 0 then (d.setF p (prtReg c q 0x18) 4 4 cause).setF p (prtReg c q 0x18) 16 16 idx.toNat else d
/-- The overflow rule (R86). While EN is 0 a tail too far ahead sets no CAUSE: the queue reports IDLE (R90) and goes into
ERROR when EN is written 1 (DESIGN CHOICE, log entry 97). -/
def Dev.qOverflow (p : Part) (d : Dev) (c : CoreId) (q : Nat) : Dev :=
  let size := 2 ^ d.qLog2 p c q
  if d.qEn p c q && decide (size < (d.qTail p c q - d.qHead p c q).toNat) then
    d.qFail p c q 2 (d.qHead p c q + BitVec.ofNat 16 size)
  else d
/-- A new tail, under the overflow rule (R86). -/
def Dev.setTail (p : Part) (d : Dev) (c : CoreId) (q : Nat) (t : BitVec 16) : Dev :=
  (d.setF p (prtReg c q 0x10) 0 16 t.toNat).qOverflow p c q

/-! ### Descriptor fields (R81) -/

def Desc.op (x : Desc) : Nat := bits x.w0 0 4
def Desc.fence (x : Desc) : Bool := x.w0.getLsbD 4
def Desc.cpl (x : Desc) : Bool := x.w0.getLsbD 5
def Desc.len (x : Desc) : Nat := bits x.w0 16 24
def Desc.lineN (x : Desc) : Nat := bits x.w0 40 8
def Desc.tag (x : Desc) : Nat := bits x.w0 48 16
def Desc.rows (x : Desc) : Nat := bits x.w3 0 16 + 1
def Desc.sstride (x : Desc) : Nat := bits x.w3 16 24
def Desc.dstride (x : Desc) : Nat := bits x.w3 40 24
/-- Bytes of one tile of a PUSH, header included. -/
def Desc.tileBytes (x : Desc) : Nat := 16 + 128 * x.lineN
/-- Bytes the source side of the transfer covers. -/
def Desc.total (x : Desc) : Nat :=
  if x.op = 1 then x.rows * x.len else if x.op = 2 then x.len else if x.op = 3 then x.rows * x.tileBytes else 0
/-- Source and destination address of byte `pos` of a transfer (R82). -/
def Desc.srcAt (x : Desc) (pos : Nat) : W64 :=
  if x.op = 1 then x.w1 + BitVec.ofNat 64 (pos / x.len * x.sstride + pos % x.len) else x.w1 + BitVec.ofNat 64 pos
def Desc.dstAt (x : Desc) (pos : Nat) : W64 :=
  if x.op = 1 then x.w2 + BitVec.ofNat 64 (pos / x.len * x.dstride + pos % x.len) else x.w2 + BitVec.ofNat 64 pos

/-- Is the address the base of a lobby push window (R41)? -/
def isPushBase (a : W64) : Bool :=
  let l := gaLocal a
  decide (0x400000000000 ≤ l) && decide (l < 0x400400000000)
    && decide (0x400000 ≤ l % 0x1000000) && decide (l % 0x1000000 < 0x480000) && l % 0x10000 == 0
/-- Malformed (R83). -/
def Desc.malformed (x : Desc) : Bool :=
  decide (4 < x.op)
  || ((x.op == 1 || x.op == 2) && (x.len == 0 || x.len % 16 != 0 || x.w2.toNat % 16 != 0))
  || (x.op == 1 && (x.w1.toNat % 16 != 0 || x.sstride % 16 != 0 || x.dstride % 16 != 0))
  || (x.op == 3 && (x.lineN == 0 || decide (4 < x.lineN) || !isPushBase x.w2))

/-- Offset in the core's own pantry that an address names, if it does. -/
def Dev.ownPantry (p : Part) (d : Dev) (c : CoreId) (a : W64) : Option Nat :=
  if gaNode a = d.node then
    match d.place p (gaLocal a) with
    | .pantry c' off => if c' = c then some off else none
    | _ => none
  else none
/-- Does the address lie on another die or another node (R85)? -/
def Dev.offDie (p : Part) (d : Dev) (c : CoreId) (a : W64) : Bool :=
  gaNode a != d.node || d.placeSite p (d.place p (gaLocal a)) != c.site.toNat
/-- Lines that `n` bytes at `a` touch. -/
def linesIn (a n : Nat) : Nat := if n = 0 then 0 else (a + n - 1) / 128 - a / 128 + 1
/-- Remote lines outstanding (R85). -/
def CoreSt.outLines (k : CoreSt) : Nat := (k.prt.map fun q => (q.2.map fun x => (x.pkts.map PPkt.lines).sum).sum).sum
/-- Descriptors active (R85). -/
def CoreSt.activeDescs (k : CoreSt) : Nat := (k.prt.map fun q => (q.2.filter fun x => x.phase == .active).length).sum

/-! ### Completion (R79, R84, R87 to R89) -/

/-- Write a finished descriptor's record at its place in the completion ring: PHASE is 1 on the first pass
and inverts on each later one (R87). DONE keeps the low 32 bits of a larger quotient (DESIGN CHOICE, log entry 97). -/
def Dev.writeRecord (p : Part) (d : Dev) (c : CoreId) (q : Nat) (x : Desc) : Dev × Wr :=
  if x.cpl || x.status != 0 then
    let lg := d.qLog2 p c q
    let a := (d.qCbase p c q + 16 * (x.idx.toNat % 2 ^ lg)) % 0x400000
    let phase := 1 - x.idx.toNat / 2 ^ lg % 2
    let w := x.tag + x.status.toNat * 2 ^ 16 + phase * 2 ^ 24 + x.done / 16 * 2 ^ 32
    match d.pantryWrite p c a (leBytes 8 w ++ leBytes 8 x.endT.toNat) with
    | (d1, .ok ws) => (d1, ws)
    | (d1, .error _) => (d1, [])
  else (d, [])

/-- Write the records whose turn has come, in ring order (R84). -/
def flushRecords (p : Part) (c : CoreId) (q : Nat) (d : Dev) : List Desc → Dev × List Desc × Wr
  | [] => (d, [], [])
  | x :: xs =>
    if x.phase = .done then
      let r := d.writeRecord p c q x
      let z := flushRecords p c q r.1 xs
      (z.1, z.2.1, r.2 ++ z.2.2)
    else (d, x :: xs, [])

/-- Tiles accepted in order from `k` upward, looking at `n` of them (R167). -/
def prefixLen (acked : List Nat) (k : Nat) : Nat → Nat
  | 0 => k
  | n + 1 => if acked.contains k then prefixLen acked (k + 1) n else k

/-- A descriptor ends: it counts, its record is written in its turn, and a target status stops the queue
under STOP_ON_ERR (R84, R87, R89). -/
def Dev.endDesc (p : Part) (d : Dev) (c : CoreId) (q : Nat) (x : Desc) : Dev × Wr :=
  let done := if x.op = 3 then prefixLen x.acked 0 x.acked.length * x.tileBytes
    else match x.errAt with | some e => e | none => x.total
  let x' := { x with phase := .done, done := done, endT := d.snoop c, pkts := [], buf := [], retry := [], half := none }
  let d := (d.modDesc c q x.idx fun _ => x').count p (prtR c 0x10) 1
  let d := if x.status != 0 then d.count p (prtR c 0x20) 1 else d
  let d := if x.status.getLsbD 7 && d.qStop p c q then d.qFail p c q 3 x.idx else d
  let z := flushRecords p c q d (d.descs c q)
  (z.1.setDescs c q z.2.1, z.2.2)

/-- Is a read outstanding whose data a write packet will carry to its row's destination (R82, R85)? -/
def Dev.readsAway (p : Part) (d : Dev) (c : CoreId) (x : Desc) : Bool :=
  x.pkts.any fun k => k.kind == .rd && (d.ownPantry p c (x.dstAt k.pos)).isNone
/-- Has the descriptor issued its last packet (R85)? One that met an error issues no more. -/
def Desc.allIssued (x : Desc) : Bool :=
  x.errAt.isSome
  || (if x.op = 3 then decide (x.rows ≤ x.tiles) && x.half.isNone && x.retry.isEmpty
      else decide (x.total ≤ x.issued) && x.buf.isEmpty)
/-- After any event of a descriptor: it leaves its place when all is issued, and ends when all is answered. One that has left
its place does not take it again: a tile refused after the last packet is sent again without a place (R85, R167). -/
def Dev.settle (p : Part) (d : Dev) (c : CoreId) (q : Nat) (idx : BitVec 16) : Dev × Wr :=
  match d.findDesc c q idx with
  | none => (d, [])
  | some x =>
    if x.phase = .done ∨ x.phase = .waitLedger then (d, [])
    else
      -- data still to come from a read will need a write packet
      let reading := x.op = 1 ∧ d.readsAway p c x ∧ x.errAt.isNone
      if x.allIssued ∧ x.pkts.isEmpty then d.endDesc p c q x
      else (d.modDesc c q idx fun y => { y with phase := if y.phase = .waitAcks ∨ (y.allIssued ∧ ¬reading) then .waitAcks else .active }, [])
/-- Record the error of a descriptor: the one at the lowest place counts. -/
def Desc.fail (x : Desc) (pos : Nat) (status : BitVec 8) : Desc :=
  match x.errAt with
  | some e => if pos < e then { x with errAt := some pos, status := status } else x
  | none => { x with errAt := some pos, status := status, buf := [], half := none, retry := [] }

/-! ### Starting a descriptor (R81 to R86) -/

/-- DESCRIPTOR_START: the descriptor at the head of queue q is read and starts (R84 to R86); an unreadable
or malformed one puts the queue into ERROR (R60, R83). In step 3 of an orderly stop none starts (R500). -/
def execDescriptorStart (c : CoreId) (q : BitVec 4) (s : State) : Out :=
  s.updW fun p m d =>
    if d.edgesHeld c || d.stopStep == 3 then (d, []) else
    let n := q.toNat
    let i := d.qHead p c n
    let qs := d.descs c n
    if !p.has c || (d.core c).st == .fenced || !d.qEn p c n || d.qCause p c n != 0 || i == d.qTail p c n
      || qs.any (fun x => x.phase == .active || x.phase == .waitLedger) then (d, [])
    else
      let a := (d.qDbase p c n + 32 * (i.toNat % 2 ^ d.qLog2 p c n)) % 0x400000
      match d.pantryRead p m c a 32 with
      | (d1, .error _) =>
        let x : Desc := { idx := i, status := 0x03, errAt := some 0 }
        ((d1.setDescs c n (qs ++ [x])).qFail p c n 4 i).endDesc p c n x
      | (d1, .ok bs) =>
        let w (k : Nat) : W64 := BitVec.ofNat 64 (leNat ((bs.drop (8 * k)).take 8))
        let x : Desc := { idx := i, w0 := w 0, w1 := w 1, w2 := w 2, w3 := w 3 }
        if x.malformed then
          let x := { x with status := 0x01, errAt := some 0 }
          let d2 := ((d1.setDescs c n (qs ++ [x])).qFail p c n 1 i).coreFault p c 0 0x0107 (BitVec.ofNat 64 a) (BitVec.ofNat 64 n)
          d2.endDesc p c n x
        else if (x.fence && !qs.isEmpty) || (1 ≤ x.op && x.op ≤ 3 && decide (8 ≤ (d.core c).activeDescs)) then (d1, [])
        else
          let d2 := d1.setHead p c n (i + 1)
          if x.op = 0 then (d2.setDescs c n (qs ++ [x])).endDesc p c n x
          else if x.op = 4 then (d2.setDescs c n (qs ++ [{ x with phase := .waitLedger }]), [])
          else (d2.setDescs c n (qs ++ [x]), [])

/-- PORTER_WAIT_REACHED: a WAIT descriptor completes once the ledger count reaches SRC (R82). -/
def execPorterWaitReached (c : CoreId) (q : BitVec 4) (s : State) : Out :=
  s.updW fun p _ d =>
    if d.edgesHeld c then (d, []) else
    match (d.descs c q.toNat).find? fun x => x.phase == .waitLedger with
    | some x => if reached (d.snoop c) x.w1 then d.endDesc p c q.toNat x else (d, [])
    | none => (d, [])

/-! ### Packets (R85, R162, R397) -/

/-- Next packet tag. -/
def Dev.takeTag (d : Dev) (c : CoreId) : BitVec 12 × Dev :=
  ((d.core c).prtTag, d.modCore c fun k => { k with prtTag := k.prtTag + 1 })
/-- Send a packet of a descriptor and note it as outstanding. `last` marks the descriptor's last packet. -/
def Dev.sendPkt (p : Part) (d : Dev) (c : CoreId) (q : Nat) (x : Desc) (a : W64) (op : ReqOp) (kind : PKind)
    (pos size lines : Nat) (bulk last : Bool) : Dev :=
  let t := d.takeTag c
  let r : Req := { src := d.coreSrc c, addr := a, tag := t.1, op := op, chan := x.w0.extractLsb' 8 8
                   ord := x.w0.getLsbD 6, flag := last && x.w0.getLsbD 7, bulk := bulk }
  let k : PPkt := { tag := t.1, kind := kind, pos := pos, size := size, lines := if d.offDie p c a then lines else 0 }
  (t.2.modDesc c q x.idx fun y => { y with pkts := y.pkts ++ [k] }).sendReq p r

/-- Does an address lie in a feed window of a bank of some node (R231)? -/
def isFeedAddr (a : W64) : Bool :=
  let l := gaLocal a
  decide (0x7F0000000000 ≤ l) && (let x := l - 0x7F0000000000
    isBase (ctlSite x) && decide (0x40 ≤ ctlBlk x) && decide (ctlBlk x < 0x60) && decide (0x80000 ≤ ctlOff x))
/-- Bytes of its row, from byte `pos` of a COPY or FILL on. -/
def Desc.rowLeft (x : Desc) (pos : Nat) : Nat := if x.op = 1 then x.len - pos % x.len else x.total - pos
/-- Bytes up to the end of the block of a packet at the destination: 512, and a line of a feed window (R232, R397). -/
def Desc.dstLeft (x : Desc) (pos : Nat) : Nat :=
  let unit := if isFeedAddr (x.dstAt pos) then 128 else 512
  unit - (x.dstAt pos).toNat % unit
/-- Size of the packet at byte `pos` of a COPY or FILL: within its row and within 512-byte blocks of both
sides (R397). A feed window takes its lines one by one (R232): a line is read from the own pantry at once, and reads elsewhere
keep to the source's blocks alone, for `feedHead` puts the lines together. -/
def Desc.chunk (x : Desc) (own : Bool) (pos : Nat) : Nat :=
  let feed := isFeedAddr (x.dstAt pos)
  let dst := if feed && x.op == 1 && !own then 512 else x.dstLeft pos
  let src := if x.op = 1 then (if feed && own then 0x400000 - (x.srcAt pos).toNat % 0x400000 else 512 - (x.srcAt pos).toNat % 512) else 512
  min (x.rowLeft pos) (min dst src)
/-- Take `need` bytes that follow one another from the head of the returned data. -/
def takeRun (need : Nat) : List (Nat × List Byte) → Option (List Byte × List (Nat × List Byte))
  | [] => none
  | (pos, bs) :: rest =>
    if need < bs.length then some (bs.take need, (pos + need, bs.drop need) :: rest)
    else if need = bs.length then some (bs, rest)
    else match rest with
      | (pos2, _) :: _ => if pos2 = pos + bs.length then (takeRun (need - bs.length) rest).map fun z => (bs ++ z.1, z.2) else none
      | [] => none
/-- Returned data that the next write packet carries, with what is left of it: the first piece; toward a feed window a whole
line, in the order of addresses (R232). -/
def Desc.nextOut (x : Desc) : Option (Nat × List Byte × List (Nat × List Byte)) :=
  match x.buf with
  | [] => none
  | (pos, bs) :: rest =>
    if isFeedAddr (x.dstAt pos) then
      if x.pkts.any (fun k => k.kind == .rd && decide (k.pos < pos)) then none
      else (takeRun (min (x.rowLeft pos) (x.dstLeft pos)) x.buf).map fun z => (pos, z.1, z.2)
    else some (pos, bs, rest)
/-- Is the source of byte `pos` of a COPY in the own pantry? -/
def Dev.srcOwn (p : Part) (d : Dev) (c : CoreId) (x : Desc) (pos : Nat) : Bool := (d.ownPantry p c (x.srcAt pos)).isSome
/-- The repeated pattern of a FILL from byte `pos` (a multiple of 16). -/
def fillBytes (pattern : W64) (n : Nat) : List Byte := ((List.replicate (n / 8) (leBytes 8 pattern.toNat)).flatten)

/-- Data that reaches the destination: to the own pantry at once, elsewhere as a WRITE (R79, R80). -/
def Dev.deliver (p : Part) (d : Dev) (c : CoreId) (q : Nat) (x : Desc) (pos : Nat) (bs : List Byte) (last : Bool) : Dev × Wr :=
  let a := x.dstAt pos
  let n := linesIn a.toNat bs.length
  match d.ownPantry p c a with
  | some off =>
    (match d.pantryWrite p c off bs with
    | (d1, .ok ws) => (d1.count p (prtR c 0x18) n, ws)
    | (d1, .error _) => (d1.modDesc c q x.idx fun y => y.fail pos 0x03, []))
  | none => (d.sendPkt p c q x a (.write bs) .wr pos bs.length n true last, [])

/-- The returned data without that of a tile. -/
def Desc.dropTile (x : Desc) (t : Nat) : List (Nat × List Byte) :=
  x.buf.filter fun y => decide (y.1 < t * x.tileBytes) || decide ((t + 1) * x.tileBytes ≤ y.1)
/-- Bytes of a tile of a PUSH: read from the own pantry, or gathered from the reads of a source elsewhere. -/
def Dev.tileData (p : Part) (m : List Host.Cell) (d : Dev) (c : CoreId) (x : Desc) (t : Nat) : Dev × Option (Except Nat (List Byte)) :=
  match d.ownPantry p c (x.srcAt (t * x.tileBytes)) with
  | some off =>
    let z := d.pantryRead p m c off x.tileBytes
    (z.1, some z.2)
  | none =>
    let bs := ((x.buf.filter fun y => decide (t * x.tileBytes ≤ y.1) && decide (y.1 < (t + 1) * x.tileBytes)).map fun y => y.2).flatten
    (d, if bs.length = x.tileBytes then some (.ok bs) else none)
/-- Lines of a tile's bytes after its header. -/
def tileLines (bs : List Byte) (n : Nat) : List (List Byte) := (List.range n).map fun i => (bs.drop (16 + 128 * i)).take 128
def tileHeader (bs : List Byte) : BitVec 128 := BitVec.ofNat 128 (leNat (bs.take 16))
/-- The header packet of a tile (R162). -/
def Dev.sendHead (p : Part) (d : Dev) (c : CoreId) (q : Nat) (x : Desc) (t : Nat) (bs : List Byte) : Dev :=
  let n := min 3 x.lineN
  d.sendPkt p c q x x.w2 (.push (hdrSeq (tileHeader bs)) 0 (some (tileHeader bs)) (tileLines bs n)) .tileHead t
    (16 + 128 * n) n true (t + 1 == x.rows && x.lineN != 4)
/-- The second packet of a 4-line tile (R162). -/
def Dev.sendTail (p : Part) (d : Dev) (c : CoreId) (q : Nat) (x : Desc) (t : Nat) (bs : List Byte) : Dev :=
  d.sendPkt p c q x x.w2 (.push (hdrSeq (tileHeader bs)) 3 none [(bs.drop 400).take 128]) .tileTail t 128 1 true (t + 1 == x.rows)

/-- Does an active descriptor have a packet to issue within the limit of 64 remote lines (R85)? -/
def Dev.hasWork (p : Part) (m : List Host.Cell) (d : Dev) (c : CoreId) (x : Desc) : Bool :=
  let room (a : W64) (n : Nat) : Bool := !d.offDie p c a || decide ((d.core c).outLines + n ≤ 64)
  if x.phase ≠ .active ∨ x.errAt.isSome then false
  else if x.op = 3 then
    if x.half.isSome then room x.w2 1
    else if x.retry.isEmpty ∧ x.tiles < x.rows then
      (match (d.tileData p m c x x.tiles).2 with
      | some _ => room x.w2 (min 3 x.lineN)
      | none => decide (x.issued < (x.tiles + 1) * x.tileBytes) && room (x.srcAt x.issued) 4)
    else false
  else match x.nextOut with
    | some (pos, bs, _) => room (x.dstAt pos) (linesIn (x.dstAt pos).toNat bs.length)
    | none => decide (x.issued < x.total) &&
      (let n := x.chunk (d.srcOwn p c x x.issued) x.issued
       if x.op = 1 ∧ (d.ownPantry p c (x.srcAt x.issued)).isNone then
         room (x.srcAt x.issued) (linesIn (x.srcAt x.issued).toNat n)
       else room (x.dstAt x.issued) (linesIn (x.dstAt x.issued).toNat n))

/-- The active descriptor of a queue that has a packet to issue. -/
def Dev.worker (p : Part) (m : List Host.Cell) (d : Dev) (c : CoreId) (q : Nat) : Option Desc :=
  (d.descs c q).find? fun x => d.hasWork p m c x
/-- The queue the porter serves next: the highest PRIO that has work, and in rotation among equals (R85). -/
def Dev.served (p : Part) (m : List Host.Cell) (d : Dev) (c : CoreId) : Option Nat :=
  let qs := (List.range 16).map fun i => ((d.core c).prtLast.toNat + 1 + i) % 16
  let busy := qs.filter fun q => (d.worker p m c q).isSome
  busy.foldl (fun b q => match b with
    | none => some q
    | some r => if d.qPrio p c r < d.qPrio p c q then some q else some r) none

/-- One packet of a descriptor. -/
def Dev.issuePkt (p : Part) (m : List Host.Cell) (d : Dev) (c : CoreId) (q : Nat) (x : Desc) : Dev × Wr :=
  if x.op = 3 then
    let t := x.half.getD x.tiles
    match d.tileData p m c x t with
    | (d1, none) =>
      -- part of a tile whose source lies elsewhere is read
      let n := min (512 - (x.srcAt x.issued).toNat % 512) ((x.tiles + 1) * x.tileBytes - x.issued)
      let a := x.srcAt x.issued
      let d2 := d1.modDesc c q x.idx fun y => { y with issued := y.issued + n }
      (d2.sendPkt p c q x a (.read (BitVec.ofNat 6 (n / 16))) .rd x.issued n (linesIn a.toNat n) false false, [])
    | (d1, some (.error _)) => (d1.modDesc c q x.idx fun y => y.fail (t * x.tileBytes) 0x03, [])
    | (d1, some (.ok bs)) =>
      if x.half.isSome then
        ((d1.modDesc c q x.idx fun y => { y with half := none, buf := if y.acked.contains t then y.dropTile t else y.buf }).sendTail p c q x t bs, [])
      else
        ((d1.modDesc c q x.idx fun y => { y with tiles := t + 1, half := if x.lineN = 4 then some t else none }).sendHead p c q x t bs, [])
  else match x.nextOut with
    | some (pos, bs, rest) =>
      let last := decide (x.total ≤ x.issued) && rest.isEmpty && !d.readsAway p c x
      (d.modDesc c q x.idx fun y => { y with buf := rest }).deliver p c q x pos bs last
    | none =>
      let pos := x.issued
      let n := x.chunk (d.srcOwn p c x pos) pos
      let last := decide (x.total ≤ pos + n)
      let d1 := d.modDesc c q x.idx fun y => { y with issued := y.issued + n }
      if x.op = 2 then d1.deliver p c q x pos (fillBytes x.w1 n) last
      else match d1.ownPantry p c (x.srcAt pos) with
        | some off =>
          (match d1.pantryRead p m c off n with
          | (d2, .ok bs) => d2.deliver p c q x pos bs last
          | (d2, .error _) => (d2.modDesc c q x.idx fun y => y.fail pos 0x03, []))
        | none =>
          let a := x.srcAt pos
          (d1.sendPkt p c q x a (.read (BitVec.ofNat 6 (n / 16))) .rd pos n (linesIn a.toNat n) false
            (last && (d1.ownPantry p c (x.dstAt pos)).isSome && x.buf.isEmpty && !d.readsAway p c x), [])

/-- PORTER_PACKET_ISSUE: the queue the porter serves next issues one packet (R85). -/
def execPorterPacketIssue (c : CoreId) (q : BitVec 4) (s : State) : Out :=
  s.updW fun p m d =>
    if d.edgesHeld c then (d, []) else
    if d.served p m c = some q.toNat then
      match d.worker p m c q.toNat with
      | none => (d, [])
      | some x =>
        let r := (d.modCore c fun k => { k with prtLast := q }).issuePkt p m c q.toNat x
        let z := r.1.settle p c q.toNat x.idx
        (z.1, r.2 ++ z.2)
    else (d, [])

/-! ### Answers (R79, R88, R167, R398) -/

/-- Insert returned data in order of place. -/
def insertBuf (pos : Nat) (bs : List Byte) : List (Nat × List Byte) → List (Nat × List Byte)
  | [] => [(pos, bs)]
  | y :: ys => if pos < y.1 then (pos, bs) :: y :: ys else y :: insertBuf pos bs ys

/-- Find the packet an answer names: its queue, descriptor and packet. -/
def CoreSt.pktOf (k : CoreSt) (tag : BitVec 12) : Option (Nat × Desc × PPkt) :=
  (k.prt.flatMap fun q => q.2.flatMap fun x => (x.pkts.filter fun y => y.tag == tag).map fun y => (q.1, x, y)).head?

/-- The outcome of a tile (R167): accepted; refused with a retried status, up to 4,096 times; or the end. -/
def Desc.tileOutcome (x : Desc) (now : W64) (t : Nat) (st : BitVec 7) : Desc :=
  if st = stOk then
    { x with acked := x.acked ++ [t], retry := x.retry.filter (fun r => r.tile != t)
             buf := if x.half = some t then x.buf else x.dropTile t }
  else if pushRetried st then
    match x.retry.find? fun r => r.tile == t with
    | some r =>
      if 4096 ≤ r.tries then x.fail (t * x.tileBytes) (1#1 ++ st)
      else { x with retry := x.retry.map fun y => if y.tile == t then { y with at' := now + 64, status := st, sent := false } else y }
    | none =>
      if x.errAt.isSome then x
      else { x with retry := x.retry ++ [{ tile := t, at' := now + 64, tries := 0, status := st }]
                    half := if x.half = some t then none else x.half }
  else x.fail (t * x.tileBytes) (1#1 ++ st)

/-- An answer to a porter packet. -/
def Dev.pktAnswer (p : Part) (d : Dev) (c : CoreId) (q : Nat) (x : Desc) (k : PPkt) (r : Resp) : Dev × Wr :=
  let d := d.modDesc c q x.idx fun y => { y with pkts := y.pkts.filter fun z => z.tag != k.tag }
  let z : Dev × Wr :=
    match k.kind with
    | .tileHead =>
      let d := if r.status = stOk then d.count p (prtR c 0x18) (min 3 x.lineN) else d
      (d.modDesc c q x.idx fun y => y.tileOutcome (d.snoop c) k.pos r.status, [])
    | .tileTail => (if r.status = stOk then d.count p (prtR c 0x18) 1 else d, [])
    | .wr =>
      if r.status = stOk then (d.count p (prtR c 0x18) (linesIn (x.dstAt k.pos).toNat k.size), [])
      else (d.modDesc c q x.idx fun y => y.fail k.pos (1#1 ++ r.status), [])
    | .rd =>
      if r.status ≠ stOk then (d.modDesc c q x.idx fun y => y.fail k.pos (1#1 ++ r.status), [])
      else if x.errAt.isSome then (d, [])
      else if x.op = 1 ∧ (d.ownPantry p c (x.dstAt k.pos)).isSome then d.deliver p c q x k.pos r.data false
      else (d.modDesc c q x.idx fun y => { y with buf := insertBuf k.pos r.data y.buf }, [])
  let w := z.1.settle p c q x.idx
  (w.1, z.2 ++ w.2)

/-- PUSH_RETRY: a refused tile of queue q is sent again from its header, 64 ticks after its refusal (R167). -/
def execPushRetry (c : CoreId) (q : BitVec 4) (s : State) : Out :=
  s.updW fun p m d =>
    if d.edgesHeld c then (d, []) else
    let due (r : PRetry) : Bool := !r.sent && reached (d.snoop c) r.at'
    match (d.descs c q.toNat).find? fun x => x.retry.any due with
    | none => (d, [])
    | some x =>
      match x.retry.find? due with
      | none => (d, [])
      | some r =>
        if d.offDie p c x.w2 && decide (64 < (d.core c).outLines + x.lineN) then (d, [])
        else match d.tileData p m c x r.tile with
          | (d1, some (.ok bs)) =>
            let d2 := d1.modDesc c q.toNat x.idx fun y => { y with retry := y.retry.map fun z => if z.tile == r.tile then { z with tries := z.tries + 1, sent := true } else z }
            let d3 := d2.sendHead p c q.toNat x r.tile bs
            (if x.lineN = 4 then d3.sendTail p c q.toNat x r.tile bs else d3, [])
          | (d1, some (.error _)) => (d1.modDesc c q.toNat x.idx fun y => y.fail (r.tile * x.tileBytes) 0x03).settle p c q.toNat x.idx
          | (d1, none) => (d1, [])

/-! ### Atomics of a core (R149, R150, R411, R413, R414) -/

/-- STATUS of a PRT.ATOM that a target has answered: its status with bit 7 set, OK among them (R88, R399). -/
def statusByte (st : BitVec 7) : BitVec 8 := 1#1 ++ st

/-- The porter writes RESULT, STATUS and DONE into a block; a double-bit error in the last word loses
STATUS and DONE and counts in CNT_ERR (R150); an atomic whose STATUS is written counts there under no rule, whatever the
status (DEDUCED, log entry 76). -/
def Dev.writeBlock (p : Part) (d : Dev) (c : CoreId) (block : Nat) (result : List Byte) (status : BitVec 8) : Dev × Wr :=
  let r := if result.isEmpty then (d, []) else
    (match d.pantryWrite p c (block + 40) result with
    | (d1, .ok ws) => (d1, ws)
    | (d1, .error _) => (d1, []))
  match r.1.pantryWrite p c (block + 56) [status, 1] with
  | (d1, .ok ws) => (d1, r.2 ++ ws)
  | (d1, .error _) => (d1.count p (prtR c 0x20) 1, r.2)

/-- An atomic ends with its final status; UNCERTAIN raises a Party-fatal fault (R414). With a status other than OK there is
no old value, and the bytes of RESULT stay as they are (DEDUCED, log entry 76). -/
def Dev.endAtom (p : Part) (d : Dev) (c : CoreId) (x : Atom) (st : BitVec 7) (data : List Byte) : Dev × Wr :=
  let d := d.modCore c fun k => { k with atoms := k.atoms.filter fun y => y.aseq != x.aseq }
  let d := if st = stUncertain then d.coreFault p c 3 0x0705 x.addr (x.aseq.zeroExtend 64) else d
  d.writeBlock p c x.block.toNat (if st = stOk then data.take (if x.op = 5 then 16 else 8) else []) (statusByte st)

/-- Tags of an atomic's attempts, in order. -/
def Atom.tags (x : Atom) : List (BitVec 12) := x.oldTags ++ [x.tag]
/-- How many of an atomic's attempts have ended with a retried status. -/
def Atom.ended (x : Atom) : Nat := ((x.bad.map Prod.fst).eraseDups).length
/-- An answer to an atomic: a final status ends it, whichever attempt it answers; a retried status ends its attempt, and the atomic
once all four have ended so (R413, R414). -/
def Dev.atomAnswer (p : Part) (d : Dev) (c : CoreId) (x : Atom) (r : Resp) : Dev × Wr :=
  if atomicRetried r.status then
    let x' := { x with bad := x.bad ++ [(x.tags.idxOf r.tag, r.status)] }
    if 4 ≤ x'.ended then
      d.endAtom p c x (if x'.bad.any fun y => outcomeUnknown y.2 then stUncertain else r.status) []
    else (d.modCore c fun k => { k with atoms := k.atoms.map fun y => if y.aseq == x.aseq then x' else y }, [])
  else d.endAtom p c x r.status r.data

/-- Send one attempt of an atomic (R277, R411). -/
def Dev.sendAtom (p : Part) (d : Dev) (c : CoreId) (x : Atom) : Dev :=
  d.sendReq p { src := d.coreSrc c, addr := x.addr, tag := x.tag, op := .atomic x.op x.a x.b x.attempt x.aseq }

/-- PRT.ATOM (R149, R150): DONE is written 0, and the porter reads the block and sends the request. -/
def execPrtAtom (c : CoreId) (ra : BitVec 6) (op : BitVec 4) (s : State) : Out :=
  issueW c [ra] [] s fun p m d =>
    let a := ((d.core c).getS ra).toNat
    let as := (d.core c).atoms
    if 6 ≤ op.toNat then (d.raiseExc p c 0x01 (BitVec.ofNat 64 (0xD4000000 + ra.toNat * 2 ^ 14 + op.toNat)), [])
    else match addrCheck a 64 64 with
    | some e => (d.raiseExc p c e (BitVec.ofNat 64 a), [])
    | none =>
      if 8 ≤ as.length ∨ as.any (fun x => decide (256 ≤ ((d.core c).aseq - x.aseq).toNat)) then
        (d.modCore c fun k => { k with step := k.st == .halt }, [])
      else match d.pantryWrite p c (a + 57) [0] with
      | (d1, .error w) => (d1.raiseBad p c w, [])
      | (d1, .ok ws) =>
        let q := (d1.core c).aseq
        let d2 := (d1.modCore c fun k => { k with aseq := k.aseq + 1 }).retire p c
        match d2.pantryRead p m c a 64 with
        | (d3, .error _) => let z := d3.writeBlock p c a [] 0x03; (z.1, ws ++ z.2)
        | (d3, .ok bs) =>
          let addr : W64 := BitVec.ofNat 64 (leNat (bs.take 8))
          if addr.toNat % (if op = 5 then 16 else 8) ≠ 0 then let z := d3.writeBlock p c a [] 0x01; (z.1, ws ++ z.2)
          else
            let t := d3.takeTag c
            let x : Atom := { block := BitVec.ofNat 22 a, aseq := q, tag := t.1, op := op, addr := addr
                              a := BitVec.ofNat 128 (leNat ((bs.drop 8).take 16)), b := BitVec.ofNat 128 (leNat ((bs.drop 24).take 16))
                              attempt := 0, sentT := d3.snoop c }
            ((t.2.modCore c fun k => { k with atoms := k.atoms ++ [x] }).sendAtom p c x, ws)

/-- ATOMIC_RETRY: an attempt without a final status 12,000 ticks after its send is sent again, at most
three times, under a tag of its own (R413; log entry 105). -/
def execAtomicRetry (c : CoreId) (aseq : BitVec 16) (s : State) : Out :=
  s.upd fun p _ d =>
    if d.edgesHeld c then d else
    match (d.core c).atoms.find? fun x => x.aseq == aseq with
    | none => d
    | some x =>
      if x.attempt ≠ 3 ∧ reached (d.snoop c) (x.sentT + 12000) then
        let t := d.takeTag c
        let x' := { x with attempt := x.attempt + 1, sentT := d.snoop c, tag := t.1, oldTags := x.tags }
        (t.2.modCore c fun k => { k with atoms := k.atoms.map fun y => if y.aseq == aseq then x' else y }).sendAtom p c x'
      else d

/-- The core a source number of this node names. -/
def srcCore (x : Src) : CoreId := ⟨(srcSite x).extractLsb' 0 4, srcUnit x⟩

/-- A response reaches a core: it answers the packet or the atomic of its tag; one that answers neither was
asked before a core reset and is discarded (R53, R398, R413). -/
def Dev.coreResponse (p : Part) (d : Dev) (r : Resp) : Dev × Wr :=
  let c := srcCore r.dst
  if !p.has c || (d.core c).st == .fenced then (d, [])
  else match (d.core c).pktOf r.tag with
    | some (q, x, k) => d.pktAnswer p c q x k r
    | none =>
      match (d.core c).atoms.find? fun x => x.tags.contains r.tag with
      | some x => d.atomAnswer p c x r
      | none => (d, [])

/-- ATOMIC_RESULT: the answer of this tag that is on its way to the core ends the atomic (R150). -/
def execAtomicResult (c : CoreId) (tag : BitVec 12) (s : State) : Out :=
  s.updW fun p _ d =>
    match d.net.find? (fun m => match m with | .resp r => r.dst == d.coreSrc c && r.tag == tag | _ => false),
          (d.core c).atoms.find? fun x => x.tags.contains tag with
    | some (.resp r), some x => if d.edgesHeld c || d.respWaits r then (d, []) else (d.recv (.resp r)).atomAnswer p c x r
    | _, _ => (d, [])

/-! ### Porter instructions (R148) -/

/-- PRT.DB and PRT.DBI: the tail moves; a queue whose EN is 0 raises exception 0x09. -/
def Dev.doorbell (p : Part) (d : Dev) (c : CoreId) (q : BitVec 4) (n : BitVec 16) : Dev :=
  if d.qEn p c q.toNat then (d.setTail p c q.toNat (d.qTail p c q.toNat + n)).retire p c
  else d.raiseExc p c 0x09 (q.zeroExtend 64)
/-- PRT.DB (R148). -/
def execPrtDb (c : CoreId) (q : BitVec 4) (ra : BitVec 6) (s : State) : Out :=
  issue c [ra] [] s fun p _ d => d.doorbell p c q (((d.core c).getS ra).extractLsb' 0 16)
/-- PRT.DBI (R148). An imm8 of 0 is reserved there; that a reserved operand raises 0x01 as the reserved codes of R129 do is
read by inference (DEDUCED, log entry 96). -/
def execPrtDbi (c : CoreId) (q : BitVec 4) (imm : BitVec 8) (s : State) : Out :=
  issue c [] [] s fun p _ d =>
    if imm = 0 then d.raiseExc p c 0x01 (BitVec.ofNat 64 (0xD1000000 + q.toNat * 2 ^ 20))
    else d.doorbell p c q (imm.zeroExtend 16)
/-- PRT.HEAD (R148). -/
def execPrtHead (c : CoreId) (q : BitVec 4) (rd : BitVec 6) (s : State) : Out :=
  issue c [rd] [] s fun p _ d => d.retireS p c rd ((d.qHead p c q.toNat).zeroExtend 32)
/-- The condition of PRT.WAIT: every request of the queue's descriptors has ended (R148, R404). -/
def Dev.prtIdle (p : Part) (d : Dev) (c : CoreId) (q : Nat) : Bool :=
  (d.descs c q).isEmpty
    && (d.qError p c q || !d.qEn p c q || d.qHead p c q == d.qTail p c q)

/-! ### Queue configuration (R90) -/

/-- Writing EN: at 0 a WAIT that has not reached its count completes ABORTED and the head moves past a failing descriptor; at 1
the error is cleared and the queue resumes from the head under the overflow rule (R90). -/
def Dev.setEn (p : Part) (d : Dev) (c : CoreId) (q : Nat) (en : Bool) : Dev × Wr :=
  let was := d.qEn p c q
  let d := d.setB p (prtReg c q 0) 0 en
  if en = was then (d, [])
  else if en then
    (((d.setF p (prtReg c q 0x18) 4 4 0).setF p (prtReg c q 0x18) 16 16 0).qOverflow p c q, [])
  else
    let cause := d.qCause p c q
    let d := if (cause = 1 ∨ cause = 4 ∨ cause = 3) ∧ d.qHead p c q = d.qErrIndex p c q then d.setHead p c q (d.qErrIndex p c q + 1) else d
    match (d.descs c q).find? fun x => x.phase == .waitLedger && !reached (d.snoop c) x.w1 with
    | some x =>
      let x := { x with status := 0x02, errAt := some 0 }
      (d.modDesc c q x.idx fun _ => x).endDesc p c q x
    | none => (d, [])

/-- A write of QCFG: DBASE, CBASE and LOG2SIZE change only while the queue is IDLE with EN at 0, and a
differing value raises a Notice otherwise (R90, R96); a write that carries them unchanged is no write to them and raises none
(DEDUCED, log entry 77). -/
def Dev.writeQcfg (p : Part) (d : Dev) (c : CoreId) (q : Nat) (v : W64) (lower upper : Bool) : Dev × Wr :=
  let a := prtReg c q 0
  let old := d.get p a
  let ok := !d.qEn p c q && d.qState p c q == 0
  let d1 := d.regStore p a v lower upper
  let new := d1.get p a
  -- the offset bits that must be zero
  let new := withBits (withBits new 8 22 (bits new 8 22 / 32 * 32)) 30 22 (bits new 30 22 / 16 * 16)
  let kept := withBits (withBits new 4 4 (bits old 4 4)) 8 44 (bits old 8 44)
  let d2 := d1.put p a (withBits (if ok then new else kept) 0 1 (bits old 0 1))
  let d3 := if !ok && new != kept then d2.noticeIgnored p a v else d2
  d3.setEn p c q (new.getLsbD 0)

/-- QCFG_EN. -/
def execQcfgEn (c : CoreId) (q : BitVec 4) (en : Bool) (s : State) : Out :=
  s.updW fun p _ d => if d.coreOpen p c then d.setEn p c q.toNat en else (d, [])
/-- QTAIL_WRITE. -/
def execQtailWrite (c : CoreId) (q : BitVec 4) (tail : BitVec 16) (s : State) : Out :=
  s.upd fun p _ d => if d.coreOpen p c then d.setTail p c q.toNat tail else d

end Sys2Proof.Machine
end

