-- ==== Sys2Proof/Machine/CoreWord.lean ====
section
/-! DEFINITION. Which instruction words are reserved or illegal (R127 to R129, and the tables of R131 to
R154), the command that a word spells with its fields as operands (R127, R128), and ILLEGAL_ENCODING. -/

namespace Sys2Proof.Machine

/-- Bits [lo + n - 1 : lo] of an instruction word. -/
def wf (w : W32) (lo n : Nat) : Nat := w.toNat / 2 ^ lo % 2 ^ n
/-- A field that must be zero. -/
def wz (w : W32) (lo n : Nat) : Bool := wf w lo n == 0

/-- Major 0x0 (R154). -/
def okSystem (w : W32) : Bool :=
  match wf w 22 6 with
  | 0 | 1 | 2 | 3 => wz w 0 22
  | 4 | 5 => wz w 0 16
  | 6 => wz w 10 6 && wz w 2 8
  | 7 => wz w 10 6 && wz w 2 8 && wf w 0 2 != 3
  | _ => false
/-- Major 0x1 (R131). -/
def okRR (w : W32) : Bool :=
  let f := wf w 0 6
  decide (f ≤ 0x12) && wz w 6 4 && (decide (f < 0x11) || wz w 10 6)
/-- Major 0x2 (R132). -/
def okImm (w : W32) : Bool :=
  let f := wf w 12 4
  decide (f ≤ 8) && (!(f == 4 || f == 5 || f == 6) || wz w 5 7)
/-- Major 0x6 (R136). -/
def okLs (w : W32) : Bool :=
  let f := wf w 12 4
  decide (f ≤ 4) || f == 8 || f == 9 || f == 10
/-- Major 0x7 (R137). -/
def okVl (w : W32) : Bool :=
  let f := wf w 24 4
  if f ≤ 2 then true else if f ≤ 4 then wz w 6 7 else f == 5 && wz w 0 13
/-- Major 0x8 (R138). -/
def okVa (w : W32) : Bool :=
  let ty := wf w 26 2
  let f := wf w 22 4
  decide (f ≤ 0xD) && !(ty == 3 && decide (f ≤ 2)) && (ty == 1 || ty == 2 || wz w 0 2)
    && (decide (f ≤ 2) || f == 0xB || wz w 2 5) && (!(f == 0xC || f == 0xD) || wz w 7 5)
/-- Major 0x9 (R139). -/
def okVm (w : W32) : Bool :=
  let f := wf w 22 6
  let vs1 := f != 0x15
  let vs2 := f == 0x07 || f == 0x08 || f == 0x0B || f == 0x0E || f == 0x0F || f == 0x10 || f == 0x12 || f == 0x13 || f == 0x14
  let aux := if f = 0x08 then true else if f = 0x09 then wz w 4 3 else if f = 0x0A ∨ f = 0x0B then wz w 6 1 else wz w 2 5
  let rm := f == 0x0A || f == 0x0C || f == 0x0D
  decide (f ≤ 0x16) && (vs1 || wz w 12 5) && (vs2 || wz w 7 5) && aux && (rm || wz w 1 1) && (f == 0x0A || wz w 0 1)
/-- Major 0xA (R143). -/
def okMx (w : W32) : Bool :=
  wz w 0 5 && (match wf w 24 4 with
  | 0 => wz w 21 3 && wz w 5 13
  | 1 => wz w 18 3 && wz w 5 2
  | 2 => wz w 8 1 && wz w 5 2
  | 3 => wz w 18 3 && wz w 7 2
  | 4 | 5 => wz w 18 1 && wz w 5 4
  | _ => false)
/-- Major 0xB (R142). -/
def okTd (w : W32) : Bool :=
  wz w 0 9 && (match wf w 24 4 with
  | 0 | 1 | 4 => true
  | 2 | 3 => wz w 9 6
  | _ => false)
/-- Major 0xC (R146); bit 20 of LOB.RDV is the business of exception 0x0A (R130). -/
def okLb (w : W32) : Bool :=
  wz w 0 7 && (match wf w 24 4 with
  | 0 => wz w 9 6 && wz w 8 1
  | 1 => wz w 15 6 && wz w 7 2
  | 2 => wz w 9 6
  | 3 => wz w 15 6 && wz w 9 6 && wz w 8 1
  | 4 => wz w 7 14
  | 5 => wz w 7 8
  | _ => false)
/-- Major 0xD (R148, R149). -/
def okPt (w : W32) : Bool :=
  match wf w 24 4 with
  | 0 => wz w 0 14
  | 1 => wz w 8 12 && wf w 0 8 != 0
  | 2 => wz w 14 6 && wz w 0 8
  | 3 => wz w 0 20
  | 4 => wz w 20 4 && wz w 8 6 && decide (wf w 0 8 < 6)
  | 5 => wz w 0 24
  | _ => false
/-- Major 0xE (R151). -/
def okSync (w : W32) : Bool :=
  match wf w 22 6 with
  | 0 => wz w 5 17
  | 1 | 2 => wz w 0 16
  | 3 => wz w 4 6
  | 4 => wz w 4 18
  | _ => false

/-- A word that raises exception 0x01 (R129). -/
def illegalWord (w : W32) : Bool :=
  !(match wf w 28 4 with
    | 0x0 => okSystem w
    | 0x1 => okRR w
    | 0x2 => okImm w
    | 0x3 => true
    | 0x4 => decide (wf w 24 4 ≤ 5)
    | 0x5 => decide (wf w 20 2 ≤ 1)
    | 0x6 => okLs w
    | 0x7 => okVl w
    | 0x8 => okVa w
    | 0x9 => okVm w
    | 0xA => okMx w
    | 0xB => okTd w
    | 0xC => okLb w
    | 0xD => okPt w
    | 0xE => okSync w
    | _ => false)

/-! ### The command that a word spells (R127, R128) -/

/-- Bits [lo + n - 1 : lo] of an instruction word as a field of `n` bits. -/
def wb (w : W32) (lo n : Nat) : BitVec n := w.extractLsb' lo n
/-- The RM and OVC bits of formats VA and VM, and of MX. -/
def wRm (w : W32) (bit : Nat) : Rm := if w.getLsbD bit then .sr else .rne
def wOvc (w : W32) (bit : Nat) : Ovc := if w.getLsbD bit then .inf else .sat

/-- Format R, major 0x1 (R131). -/
def decRR (c : CoreId) (w : W32) : Option Instr :=
  let rd := wb w 22 6
  let a := wb w 16 6
  let b := wb w 10 6
  match wf w 0 6 with
  | 0x00 => some (.add c rd a b) | 0x01 => some (.sub c rd a b) | 0x02 => some (.and c rd a b) | 0x03 => some (.or c rd a b)
  | 0x04 => some (.xor c rd a b) | 0x05 => some (.sll c rd a b) | 0x06 => some (.srl c rd a b) | 0x07 => some (.sra c rd a b)
  | 0x08 => some (.slt c rd a b) | 0x09 => some (.sltu c rd a b) | 0x0A => some (.mul c rd a b) | 0x0B => some (.mulh c rd a b)
  | 0x0C => some (.mulhu c rd a b) | 0x0D => some (.min c rd a b) | 0x0E => some (.max c rd a b) | 0x0F => some (.minu c rd a b)
  | 0x10 => some (.maxu c rd a b) | 0x11 => some (.clz c rd a) | 0x12 => some (.popc c rd a)
  | _ => none
/-- Format I, major 0x2 (R132). -/
def decImm (c : CoreId) (w : W32) : Option Instr :=
  let rd := wb w 22 6
  let a := wb w 16 6
  let i := wb w 0 12
  let sh := wb w 0 5
  match wf w 12 4 with
  | 0 => some (.addi c rd a i) | 1 => some (.andi c rd a i) | 2 => some (.ori c rd a i) | 3 => some (.xori c rd a i)
  | 4 => some (.slli c rd a sh) | 5 => some (.srli c rd a sh) | 6 => some (.srai c rd a sh) | 7 => some (.slti c rd a i) | 8 => some (.sltiu c rd a i)
  | _ => none
/-- Format B, major 0x4 (R134). -/
def decBranch (c : CoreId) (w : W32) : Option Instr :=
  let a := wb w 18 6
  let b := wb w 12 6
  let o := wb w 0 12
  match wf w 24 4 with
  | 0 => some (.beq c a b o) | 1 => some (.bne c a b o) | 2 => some (.blt c a b o) | 3 => some (.bge c a b o) | 4 => some (.bltu c a b o) | 5 => some (.bgeu c a b o)
  | _ => none
/-- Format J, major 0x5 (R135). -/
def decJump (c : CoreId) (w : W32) : Option Instr :=
  match wf w 20 2 with
  | 0 => some (.jal c (wb w 22 6) (wb w 0 20))
  | 1 => some (.jalr c (wb w 22 6) (wb w 14 6) (wb w 0 14))
  | _ => none
/-- Format I, major 0x6 (R136). -/
def decLs (c : CoreId) (w : W32) : Option Instr :=
  let rd := wb w 22 6
  let a := wb w 16 6
  let i := wb w 0 12
  match wf w 12 4 with
  | 0 => some (.lb c rd a i) | 1 => some (.lbu c rd a i) | 2 => some (.lh c rd a i) | 3 => some (.lhu c rd a i) | 4 => some (.lw c rd a i)
  | 8 => some (.sb c rd a i) | 9 => some (.sh c rd a i) | 10 => some (.sw c rd a i)
  | _ => none
/-- Format VL, major 0x7 (R137). -/
def decVl (c : CoreId) (w : W32) : Option Instr :=
  let v := wb w 19 5
  let r := wb w 13 6
  match wf w 24 4 with
  | 0 => some (.vld c v r (wb w 0 13)) | 1 => some (.vst c v r (wb w 0 13)) | 2 => some (.vldb c v r (wb w 0 13))
  | 3 => some (.vmvs c v r (wb w 0 6)) | 4 => some (.vmvv c v r (wb w 0 6)) | 5 => some (.vbcast c v r)
  | _ => none
/-- The type field of major 0x8 with its RM and OVC (R138). -/
def decTy (w : W32) : VMode :=
  match wf w 26 2 with
  | 0 => .fp32 | 1 => .bf16 (wRm w 1) (wOvc w 0) | 2 => .fp16 (wRm w 1) (wOvc w 0) | _ => .int32
/-- A floating type; INT32 is reserved for the funcs that use it. -/
def decFTy (w : W32) : FMode :=
  match decTy w with
  | .bf16 r o => .bf16 r o | .fp16 r o => .fp16 r o | _ => .fp32
/-- Format VA, major 0x8 (R138). -/
def decVa (c : CoreId) (w : W32) : Option Instr :=
  let ty := decTy w
  let fy := decFTy w
  let vd := wb w 17 5
  let a := wb w 12 5
  let b := wb w 7 5
  let x := wb w 2 5
  match wf w 22 4 with
  | 0x0 => some (.vfma c fy vd a b x) | 0x1 => some (.vfms c fy vd a b x) | 0x2 => some (.vfnma c fy vd a b x)
  | 0x3 => some (.vadd c ty vd a b) | 0x4 => some (.vsub c ty vd a b) | 0x5 => some (.vmul c ty vd a b) | 0x6 => some (.vmin c ty vd a b)
  | 0x7 => some (.vmax c ty vd a b) | 0x8 => some (.vceq c ty vd a b) | 0x9 => some (.vclt c ty vd a b) | 0xA => some (.vcle c ty vd a b)
  | 0xB => some (.vsel c ty vd a b x) | 0xC => some (.vabs c ty vd a) | 0xD => some (.vneg c ty vd a)
  | _ => none
/-- Format VM, major 0x9 (R139). -/
def decVm (c : CoreId) (w : W32) : Option Instr :=
  let vd := wb w 17 5
  let a := wb w 12 5
  let b := wb w 7 5
  match wf w 22 6 with
  | 0x00 => some (.vexp c vd a) | 0x01 => some (.vrcp c vd a) | 0x02 => some (.vrsqrt c vd a) | 0x03 => some (.vtanh c vd a)
  | 0x04 => some (.vrsum c vd a) | 0x05 => some (.vrmax c vd a) | 0x06 => some (.vrmin c vd a) | 0x07 => some (.vperm c vd a b)
  | 0x08 => some (.vperm2 c vd a b (wb w 2 5)) | 0x09 => some (.vsort c vd a (w.getLsbD 2) (w.getLsbD 3))
  | 0x0A => some (.vcvtt c vd a (wb w 2 4) (wRm w 1) (wOvc w 0)) | 0x0B => some (.vcvtf c vd a b (wb w 2 4))
  | 0x0C => some (.vcvti c vd a (wRm w 1)) | 0x0D => some (.vcvtif c vd a (wRm w 1))
  | 0x0E => some (.vand c vd a b) | 0x0F => some (.vor c vd a b) | 0x10 => some (.vxor c vd a b) | 0x11 => some (.vnot c vd a)
  | 0x12 => some (.vshl c vd a b) | 0x13 => some (.vshr c vd a b) | 0x14 => some (.vsra c vd a b) | 0x15 => some (.viota c vd) | 0x16 => some (.vmov c vd a)
  | _ => none
/-- Format MX, major 0xA (R143). -/
def decMx (c : CoreId) (w : W32) : Option Instr :=
  let ta := wb w 21 3
  let tb := wb w 18 3
  let arow := wb w 9 9
  match wf w 24 4 with
  | 0 => some (.mxLdw c tb)
  | 1 => some (.mxMul c ta arow (w.getLsbD 8) (w.getLsbD 7))
  | 2 => some (.mxOmul c ta tb arow (w.getLsbD 7))
  | 3 => some (.mxSt c ta arow (wRm w 6) (wOvc w 5))
  | 4 => some (.mxRdv c (wb w 19 5) arow)
  | 5 => some (.mxWrv c (wb w 19 5) arow)
  | _ => none
/-- Format TD, major 0xB (R142). -/
def decTd (c : CoreId) (w : W32) : Option Instr :=
  let th := wb w 21 3
  let a := wb w 15 6
  let b := wb w 9 6
  match wf w 24 4 with
  | 0 => some (.tdSetlo c th a b) | 1 => some (.tdSethi c th a b) | 2 => some (.tdBase c th a) | 3 => some (.tdSbase c th a) | 4 => some (.tdBadd c th a b)
  | _ => none
/-- Format LB, major 0xC (R146). -/
def decLb (c : CoreId) (w : W32) : Option Instr :=
  let l := wb w 21 3
  let r := wb w 15 6
  match wf w 24 4 with
  | 0 => some (.lobRdv c l r (w.getLsbD 7)) | 1 => some (.lobRdp c l (wb w 9 6)) | 2 => some (.lobHdr c l r (wb w 7 2))
  | 3 => some (.lobWait c l (w.getLsbD 7)) | 4 => some (.lobDrop c l) | 5 => some (.lobStat c l r)
  | _ => none
/-- Format PT, major 0xD (R148). -/
def decPt (c : CoreId) (w : W32) : Option Instr :=
  let q := wb w 20 4
  match wf w 24 4 with
  | 0 => some (.prtDb c q (wb w 14 6)) | 1 => some (.prtDbi c q (wb w 0 8)) | 2 => some (.prtHead c q (wb w 8 6))
  | 3 => some (.prtWait c q) | 4 => some (.prtAtom c (wb w 14 6) (wb w 0 4)) | 5 => some (.prtAwait c)
  | _ => none
/-- Format S, major 0xE (R151). -/
def decSync (c : CoreId) (w : W32) : Option Instr :=
  let ra := wb w 16 6
  match wf w 22 6 with
  | 0 => some (.fence c (wb w 0 5)) | 1 => some (.lwait c ra) | 2 => some (.lrd c ra)
  | 3 => some (.waitx c ra (wb w 10 6) (wb w 0 3) (w.getLsbD 3)) | 4 => some (.bar c (wb w 0 4))
  | _ => none
/-- Format S, major 0x0 (R154). -/
def decSystem (c : CoreId) (w : W32) : Option Instr :=
  let ra := wb w 16 6
  match wf w 22 6 with
  | 0 => some (.nop c) | 1 => some (.halt c) | 2 => some (.endProgram c) | 3 => some (.icinv c) | 4 => some (.seed c ra) | 5 => some (.srrd c ra)
  | 6 => some (.flgrd c ra (w.getLsbD 0) (w.getLsbD 1)) | 7 => some (.cid c ra (wb w 0 2))
  | _ => none

/-- The command that instruction word `w` spells at core `c`: the row of its major opcode and func, with the
fields of its format as operands (R127, R128); none for a word of R129, which
raises exception 0x01 as ILLEGAL_ENCODING, whatever its register fields hold: R130 gives 0x0A and 0x01 no order (DESIGN
CHOICE, log entry 96). -/
def decodeCore (c : CoreId) (w : W32) : Option Instr :=
  if illegalWord w then none
  else
    match wf w 28 4 with
    | 0x0 => decSystem c w
    | 0x1 => decRR c w
    | 0x2 => decImm c w
    | 0x3 => some (.lui c (wb w 22 6) (wb w 0 22))
    | 0x4 => decBranch c w
    | 0x5 => decJump c w
    | 0x6 => decLs c w
    | 0x7 => decVl c w
    | 0x8 => decVa c w
    | 0x9 => decVm c w
    | 0xA => decMx c w
    | 0xB => decTd c w
    | 0xC => decLb c w
    | 0xD => decPt c w
    | 0xE => decSync c w
    | _ => none

/-- The command that the word fetched at the program counter spells (R55, R127): what the core issues next. -/
def CoreSt.nextInstr (c : CoreId) (k : CoreSt) : Option Instr :=
  match k.fetched with
  | some (pc, w) => if pc = k.pc then decodeCore c w else none
  | none => none

/-- ILLEGAL_ENCODING: a reserved or illegal word reaches issue and raises exception 0x01 (R129, R51). -/
def execIllegalEncoding (c : CoreId) (word : W32) (s : State) : Out :=
  issue c [] [] s fun p _ d => if illegalWord word then d.raiseExc p c 0x01 (word.zeroExtend 64) else d.modCore c fun k => { k with step := k.st == .halt }

end Sys2Proof.Machine
end

