-- ==== Sys2Proof/Machine/Mxu.lean ====
section
/-! DEFINITION. Matrix and tile-define instructions, and the start and completion of a queued matrix
operation (R64 to R73, R103 to R108, R115 to R119, R125, R126, R142 to R145, R492). -/

namespace Sys2Proof.Machine

/-! ### Tile descriptors (R65) -/

abbrev TDesc := BitVec 128
def tdBase (t : TDesc) : Nat := t.toNat % 2 ^ 22
/-- Rows of the tile: the ROWS field plus one. -/
def tdRows (t : TDesc) : Nat := t.toNat / 2 ^ 22 % 2 ^ 9 + 1
/-- Elements per row: the COLS field plus one. -/
def tdCols (t : TDesc) : Nat := t.toNat / 2 ^ 31 % 2 ^ 7 + 1
def tdStride (t : TDesc) : Nat := t.toNat / 2 ^ 38 % 2 ^ 16
def tdFmt (t : TDesc) : BitVec 4 := t.extractLsb' 54 4
def tdScaled (t : TDesc) : Bool := t.getLsbD 58
def tdSbase (t : TDesc) : Nat := t.toNat / 2 ^ 64 % 2 ^ 22
def tdSgran (t : TDesc) : Nat := t.toNat / 2 ^ 86 % 4

/-- Bits of a descriptor that exist; [63:59], [127:88] and bits [4:0] of BASE and SBASE are zero (R142). -/
def tdClean (t : TDesc) : TDesc :=
  t &&& BitVec.ofNat 128 ((2 ^ 59 - 2 ^ 5) + (2 ^ 88 - 2 ^ 69))

/-- A tile-define instruction (R125, R142). -/
def tdSet (c : CoreId) (ss : List (BitVec 6)) (th : BitVec 3) (s : State) (f : CoreSt → TDesc) : Out :=
  issue c ss [] s fun p _ d => (d.modCore c fun k => k.setT th (tdClean (f k))).retire p c

/-- TD.SETLO: descriptor [31:0] takes s[sa], [63:32] takes s[sb]. -/
def execTdSetlo (c : CoreId) (th : BitVec 3) (sa sb : BitVec 6) (s : State) : Out :=
  tdSet c [sa, sb] th s fun k => (k.getT th).extractLsb' 64 64 ++ k.getS sb ++ k.getS sa
/-- TD.SETHI: descriptor [95:64] takes s[sa], [127:96] takes s[sb]. -/
def execTdSethi (c : CoreId) (th : BitVec 3) (sa sb : BitVec 6) (s : State) : Out :=
  tdSet c [sa, sb] th s fun k => k.getS sb ++ k.getS sa ++ (k.getT th).extractLsb' 0 64
/-- BASE or SBASE replaced. -/
def tdWith (t : TDesc) (lo v : Nat) : TDesc :=
  BitVec.ofNat 128 (t.toNat - t.toNat / 2 ^ lo % 2 ^ 22 * 2 ^ lo + v % 2 ^ 22 * 2 ^ lo)
/-- TD.BASE. -/
def execTdBase (c : CoreId) (th : BitVec 3) (sa : BitVec 6) (s : State) : Out :=
  tdSet c [sa] th s fun k => tdWith (k.getT th) 0 (k.getS sa).toNat
/-- TD.SBASE. -/
def execTdSbase (c : CoreId) (th : BitVec 3) (sa : BitVec 6) (s : State) : Out :=
  tdSet c [sa] th s fun k => tdWith (k.getT th) 64 (k.getS sa).toNat
/-- TD.BADD: BASE + s[sa] and SBASE + s[sb], modulo 2^22. -/
def execTdBadd (c : CoreId) (th : BitVec 3) (sa sb : BitVec 6) (s : State) : Out :=
  tdSet c [sa, sb] th s fun k =>
    let t := k.getT th
    tdWith (tdWith t 0 (tdBase t + (k.getS sa).toNat)) 64 (tdSbase t + (k.getS sb).toNat)

/-! ### Checks (R64, R66, R126, R144) -/

/-- The class of a pair of formats, none where R64 refuses the pair; FP32 is class 0. -/
def pairClass (a b : BitVec 4) : Option Nat :=
  let x := fmtClass a
  let y := fmtClass b
  if x = 0 ∨ y = 0 then none
  else if x = y then some x
  else if x = 16 ∨ y = 16 then none
  else some 8
/-- Activation row K and weight tile K of a class (R64). -/
def classK (cl : Nat) : Nat := if cl = 4 then 128 else 64

/-- Bytes of `c` elements of `w` bits (R101). -/
def rowBytes (c w : Nat) : Nat := (c * w + 7) / 8
/-- How a handle is used: activation or output tile, weight tile, or an MX.OMUL operand, which is checked
as an activation tile and scaled as a weight tile (R144). -/
inductive Role where
  | act | weight | omul | out
  deriving DecidableEq, Repr
/-- Does the role take the weight-tile layouts of R103 and R104? -/
def Role.wtLayout : Role → Bool | .weight => true | .omul => true | _ => false

/-- The scales a descriptor carries (R103). -/
def tdScale (t : TDesc) : ScaleKind :=
  let f := tdFmt t
  if fmtMx f then .block
  else if fmtOptScale f && tdScaled t then (if tdSgran t = 1 then .block else if tdSgran t = 2 then .row else .none)
  else .none
def ceil32 (n : Nat) : Nat := (n + 31) / 32
/-- Bytes of the scales (R104). -/
def scaleBytes (sk : ScaleKind) (wt : Bool) (rows cols : Nat) : Nat :=
  match sk with
  | .none => 0
  | .block => if wt then ceil32 rows * cols else rows * ceil32 cols
  | .row => if wt then 4 * cols else 4 * rows

/-- Checks 2 to 6 of R66 on a handle in its role under a class: the first that fails. -/
def tdCheck (t : TDesc) (role : Role) (cl : Nat) : Option Nat :=
  let f := tdFmt t
  let rb := rowBytes (tdCols t) (fmtBits f)
  let sb := scaleBytes (tdScale t) role.wtLayout (tdRows t) (tdCols t)
  let maxCols := match role with | .act => classK cl | _ => 64
  if maxCols < tdCols t ∨ (fmtBits f = 6 ∧ tdCols t % 4 ≠ 0) then some 2
  else if role = .weight ∧ classK cl < tdRows t then some 3
  else if tdStride t < rb ∨ tdStride t % 32 ≠ 0 then some 4
  else if 0x3FFFFF < tdBase t + (tdRows t - 1) * tdStride t + rb - 1 ∨ (sb ≠ 0 ∧ 0x3FFFFF < tdSbase t + sb - 1) then some 5
  else if (fmtMx f ∧ tdSgran t ≠ 1) ∨ (fmtOptScale f ∧ tdScaled t ∧ (tdSgran t = 0 ∨ tdSgran t = 3)) then some 6
  else none

/-- EXC_INFO of cause 0x04 (R576). -/
def info04 (check : Nat) (h : BitVec 3) : W64 := BitVec.ofNat 64 (check + h.toNat * 2 ^ 8)
/-- EXC_INFO of cause 0x06 (R576). -/
def info06 (m arow : Nat) : W64 := BitVec.ofNat 64 (m + arow * 2 ^ 32)
/-- EXC_INFO of cause 0x07 (R576). -/
def info07 (first second : BitVec 4) : W64 := BitVec.ofNat 64 (second.toNat + first.toNat * 2 ^ 8)

/-- Format and rows of a weight set. -/
abbrev WInfo := BitVec 4 × Nat
def tdInfo (t : TDesc) : WInfo := (tdFmt t, tdRows t)
def tileInfo (t : Tile) : WInfo := (t.fmt, t.rows)
/-- Active and shadow sets as an operation leaves them, in program order (R67, R145). -/
def afterOp (w : Option WInfo × Option WInfo) : MOp → Option WInfo × Option WInfo
  | .ldw tb => (w.1, some (tdInfo tb))
  | .mul _ _ swap _ _ => if swap && w.2.isSome then (w.2, none) else w
  | .omul .. => (none, w.2)
  | _ => w
/-- The weight sets that an instruction issued now will find, in program order. -/
def CoreSt.setsAtIssue (k : CoreSt) : Option WInfo × Option WInfo :=
  let w0 := (k.wActive.map tileInfo, k.wShadow.map tileInfo)
  let w1 := k.mrun.foldl (fun w r => match r.op with | .ldw tb => (w.1, some (tdInfo tb)) | _ => w) w0
  k.mq.foldl (fun w q => afterOp w q.op) w1

/-! ### Issue -/

/-- The matrix queue holds 8 entries (R48). -/
def CoreSt.mFull (k : CoreSt) : Bool := decide (8 ≤ k.mq.length)
/-- Enter an operation into the matrix queue and retire its instruction. -/
def Dev.pushM (p : Part) (d : Dev) (c : CoreId) (o : MOp) : Dev :=
  (d.modCore c fun k => { k with mq := k.mq ++ [⟨o, k.pc⟩] }).retire p c
/-- Issue of a matrix instruction: it stalls while the queue is full (R57). -/
def issueM (c : CoreId) (vs : List (BitVec 5)) (s : State) (f : Part → List Host.Cell → Dev → Dev) : Out :=
  s.upd fun p m d =>
    if ready p d c [] vs && !(d.core c).mFull then f p m (d.modCore c CoreSt.take) else d

/-- MX.LDW: weight tile tb for the shadow set (R67, R143). -/
def execMxLdw (c : CoreId) (tb : BitVec 3) (s : State) : Out :=
  issueM c [] s fun p _ d =>
    let t := (d.core c).getT tb
    if fmtReserved (tdFmt t) then d.raiseExc p c 0x04 (info04 1 tb)
    else if fmtClass (tdFmt t) = 0 then d.raiseExc p c 0x07 (info07 (tdFmt t) (tdFmt t))
    else match tdCheck t .weight (fmtClass (tdFmt t)) with
      | some n => d.raiseExc p c 0x04 (info04 n tb)
      | none => d.pushM p c (.ldw t)

/-- MX.MUL: rows arow to arow + M - 1, optionally swapping weight sets (R126, R143 to R145). Where no weight set is valid
its checks 2 to 6 are made under ta's own class (DEDUCED, log entry 74). -/
def execMxMul (c : CoreId) (ta : BitVec 3) (arow : BitVec 9) (swap acc : Bool) (s : State) : Out :=
  issueM c [] s fun p _ d =>
    let k := d.core c
    let t := k.getT ta
    let sets := k.setsAtIssue
    let w := if swap && sets.2.isSome then sets.2 else sets.1
    let cl := match w with
      | some x => pairClass (tdFmt t) x.1
      | none => if fmtClass (tdFmt t) = 0 then none else some (fmtClass (tdFmt t))
    if fmtReserved (tdFmt t) then d.raiseExc p c 0x04 (info04 1 ta)
    else match cl with
      | none =>
        -- with no weight set its format is open (log entry 6)
        (match w with
        | some x => d.raiseExc p c 0x07 (info07 (tdFmt t) x.1)
        | none => d.fresh.2.raiseExc p c 0x07 (info07 (tdFmt t) (d.fresh.1.extractLsb' 0 4)))
      | some cls =>
        match tdCheck t .act cls with
        | some n => d.raiseExc p c 0x04 (info04 n ta)
        | none =>
          match w with
          | none => d.raiseExc p c 0x05 (ta.zeroExtend 64)
          | some x =>
            if tdCols t ≠ x.2 then d.raiseExc p c 0x04 (info04 7 ta)
            else if 511 < arow.toNat + tdRows t - 1 then d.raiseExc p c 0x06 (info06 (tdRows t) arow.toNat)
            else d.pushM p c (.mul t arow swap acc ta)

/-- MX.OMUL: ta holds the transposed activations, tb the weights, K rows each (R126, R143, R144). -/
def execMxOmul (c : CoreId) (ta tb : BitVec 3) (arow : BitVec 9) (acc : Bool) (s : State) : Out :=
  issueM c [] s fun p _ d =>
    let a := (d.core c).getT ta
    let b := (d.core c).getT tb
    if fmtReserved (tdFmt a) then d.raiseExc p c 0x04 (info04 1 ta)
    else if fmtReserved (tdFmt b) then d.raiseExc p c 0x04 (info04 1 tb)
    else match pairClass (tdFmt a) (tdFmt b) with
      | none => d.raiseExc p c 0x07 (info07 (tdFmt a) (tdFmt b))
      | some cl =>
        match tdCheck a .omul cl, tdCheck b .omul cl with
        | some n, _ => d.raiseExc p c 0x04 (info04 n ta)
        | none, some n => d.raiseExc p c 0x04 (info04 n tb)
        | none, none =>
          if tdRows a ≠ tdRows b then d.raiseExc p c 0x04 (info04 7 ta)
          else if 511 < arow.toNat + tdCols a - 1 then d.raiseExc p c 0x06 (info06 (tdCols a) arow.toNat)
          else d.pushM p c (.omul a b arow acc)

/-- MX.ST: conversion of M rows to the output tile ta; with SR it reserves one draw per element at issue
(R70, R119, R143, R144). -/
def execMxSt (c : CoreId) (ta : BitVec 3) (arow : BitVec 9) (rm : Rm) (ovc : Ovc) (s : State) : Out :=
  issueM c [] s fun p _ d =>
    let t := (d.core c).getT ta
    if fmtReserved (tdFmt t) then d.raiseExc p c 0x04 (info04 1 ta)
    else match tdCheck t .out 0 with
      | some n => d.raiseExc p c 0x04 (info04 n ta)
      | none =>
        if 511 < arow.toNat + tdRows t - 1 then d.raiseExc p c 0x06 (info06 (tdRows t) arow.toNat)
        else
          let l := d.srState p c
          let d1 := match rm with
            | .rne => d
            | .sr => d.put p (coreR c 0x38) (lfsrSteps l (16 * (tdRows t * tdCols t)))
          d1.pushM p c (.st t arow rm ovc l)

/-- MX.RDV: accumulator row to v (R143). -/
def execMxRdv (c : CoreId) (v : BitVec 5) (arow : BitVec 9) (s : State) : Out :=
  issueM c [v] s fun p _ d => d.pushM p c (.rdv v arow)
/-- MX.WRV: v to accumulator row (R143). -/
def execMxWrv (c : CoreId) (v : BitVec 5) (arow : BitVec 9) (s : State) : Out :=
  issueM c [v] s fun p _ d => d.pushM p c (.wrv ((d.core c).lanes v) arow)

/-! ### Reading tiles -/

/-- Rows of packed bytes at BASE, each `rb` bytes, STRIDE apart. -/
def Dev.readRows (p : Part) (m : List Host.Cell) (d : Dev) (c : CoreId) (a stride rb : Nat) :
    Nat → Dev × Except Nat (List Nat)
  | 0 => (d, .ok [])
  | n + 1 =>
    match d.pantryRead p m c a rb with
    | (d1, .error w) => (d1, .error w)
    | (d1, .ok bs) =>
      match Dev.readRows p m d1 c (a + stride) stride rb n with
      | (d2, .error w) => (d2, .error w)
      | (d2, .ok rest) => (d2, .ok (leNat bs :: rest))

/-- The scales of a tile in the order of R104. -/
def decodeScales (sk : ScaleKind) (bs : List Byte) : List FV :=
  match sk with
  | .none => []
  | .block => bs.map fun b => e8m0 b.toNat
  | .row => (List.range (bs.length / 4)).map fun i => fp32.decode (leNat ((bs.drop (4 * i)).take 4))

/-- Read and decode a tile; the address of a word with a double-bit error where one is met (R60). -/
def Dev.readTile (p : Part) (m : List Host.Cell) (d : Dev) (c : CoreId) (t : TDesc) (wt : Bool) :
    Dev × Except Nat Tile :=
  let w := fmtBits (tdFmt t)
  match d.readRows p m c (tdBase t) (tdStride t) (rowBytes (tdCols t) w) (tdRows t) with
  | (d1, .error e) => (d1, .error e)
  | (d1, .ok rows) =>
    match d1.pantryRead p m c (tdSbase t) (scaleBytes (tdScale t) wt (tdRows t) (tdCols t)) with
    | (d2, .error e) => (d2, .error e)
    | (d2, .ok sb) =>
      (d2, .ok { fmt := tdFmt t, rows := tdRows t, cols := tdCols t, sk := tdScale t, sc := decodeScales (tdScale t) sb
                 el := rows.flatMap fun r => (List.range (tdCols t)).map fun i => fmtDecode (tdFmt t) (elemAt r w i) })

/-! ### Dependences and start (R71) -/

/-- Rows an operation writes, and rows it reads, as first row and count. -/
def MOp.writes : MOp → Nat × Nat
  | .mul t a _ _ _ => (a.toNat, tdRows t)
  | .omul t _ a _ => (a.toNat, tdCols t)
  | .wrv _ a => (a.toNat, 1)
  | _ => (0, 0)
def MOp.reads : MOp → Nat × Nat
  | .mul t a _ acc _ => if acc then (a.toNat, tdRows t) else (0, 0)
  | .omul t _ a acc => if acc then (a.toNat, tdCols t) else (0, 0)
  | .st t a _ _ _ => (a.toNat, tdRows t)
  | .rdv _ a => (a.toNat, 1)
  | _ => (0, 0)
/-- Do two row ranges meet? -/
def rowsMeet (a b : Nat × Nat) : Bool := decide (a.1 < b.1 + b.2) && decide (b.1 < a.1 + a.2) && a.2 != 0 && b.2 != 0
def MOp.isMul : MOp → Bool | .mul .. => true | _ => false
def MOp.isOmul : MOp → Bool | .omul .. => true | _ => false
def MOp.isLdw : MOp → Bool | .ldw .. => true | _ => false
def MOp.isSt : MOp → Bool | .st .. => true | _ => false
def MOp.isArray (o : MOp) : Bool := o.isMul || o.isOmul
def MOp.swaps : MOp → Bool | .mul _ _ s _ _ => s | _ => false

/-- May operation `o` start behind the incomplete operation `e` (R67, R71)? -/
def mayFollow (o e : MOp) : Bool :=
  -- resources
  !(o.isLdw && e.isLdw) && !(o.isSt && e.isSt)
  && !(o.isMul && e.isOmul) && !(o.isOmul && e.isMul)
  && !(o.swaps && e.isLdw)
  -- accumulator rows
  && ((o.isMul && e.isMul) || (o.isOmul && e.isOmul)
    || !(rowsMeet e.writes o.reads || rowsMeet e.writes o.writes || rowsMeet e.reads o.writes))

/-- Rest fraction in force at a W site (R493). -/
def Dev.restFrac (p : Part) (d : Dev) (site : Nat) : Nat := d.fld p (thmR site 8) 0 4

/-- Fraction the components of THM.REST call for (R493); 15 in an orderly stop (R500). -/
def Dev.restTarget (p : Part) (d : Dev) (w : Nat) : Nat :=
  if d.stopStep ≠ 0 then 15
  else min 15 (max (max (d.fld p (thmR w 8) 4 4) (d.fld p (thmR w 8) 8 4)) (max (d.fld p (thmR w 8) 12 4) (d.fld p (thmR w 8) 16 4)))
/-- A rise of the fraction, which takes effect at the start of an array operation of the site (R493; DESIGN CHOICE, log entry
110: at the first start of any of its cores). -/
def Dev.restRaise (p : Part) (d : Dev) (w : Nat) : Dev :=
  if d.restFrac p w < d.restTarget p w then d.setF p (thmR w 8) 0 4 (d.restTarget p w) else d
/-- Insert the rest that R492 asks for before an array operation, after `idle` idle cycles: the counter
falls by 16 - f a cycle, and the cycles still to wait count in MXU.CNT_REST (R72). -/
def Dev.insertRest (p : Part) (d : Dev) (c : CoreId) (idle : Nat) : Dev :=
  let f := d.restFrac p c.site.toNat
  let left := (d.core c).restCnt.toNat - idle * (16 - f)
  let wait := (left + (16 - f) - 1) / (16 - f)
  (d.modCore c fun k => { k with restCnt := 0 }).count p (mxuR c 0x110) wait
/-- An array operation occupies the array for `cyc` cycles from its start: the rest counter grows by f a cycle, so the next
operation rests even where it starts behind this one before its results stand (R69, R72, R492). -/
def Dev.occupy (p : Part) (d : Dev) (c : CoreId) (cyc : Nat) : Dev :=
  let f := d.restFrac p c.site.toNat
  d.modCore c fun k => { k with restCnt := BitVec.ofNat 32 (min 65535 (k.restCnt.toNat + f * cyc)) }
/-- Array cycles of an operation (R64, R69); the half cycle of a 4-bit MX.OMUL with an odd K counts as a whole one
(DEDUCED, log entry 72). -/
def MOp.cycles (o : MOp) (a w : Tile) : Nat :=
  let cl := (pairClass a.fmt w.fmt).getD 8
  match o with
  | .mul .. => a.rows * (if cl = 16 then 2 else 1)
  | .omul .. => if cl = 16 then a.rows * 2 else if cl = 4 then (a.rows + 1) / 2 else a.rows
  | _ => 0

/-- Mark rows unwritten. -/
def clearRows (w : SMap Bool) (a : Nat) : Nat → SMap Bool
  | 0 => w
  | n + 1 => clearRows (smSet false w a false) (a + 1) n

/-- An operation meets a double-bit error at word `e`: it is abandoned, the set it loads or uses becomes
invalid and the rows it writes unwritten, the operations queued behind it are discarded, and exception
0x08 names its instruction (R60). In a core that already stands in FAULT it replaces EXC and EXC_INFO and raises a
fault of its own (DEDUCED, log entry 73). -/
def Dev.abandon (p : Part) (d : Dev) (c : CoreId) (q : MQ) (e : Nat) (inj : Bool) : Dev :=
  let d := d.modCore c fun k =>
    let k := { k with mq := [], accWr := clearRows k.accWr q.op.writes.1 q.op.writes.2 }
    match q.op with
    | .ldw _ => { k with wShadow := none }
    | .mul .. => { k with wActive := none }
    | .omul .. => { k with wActive := none }
    | _ => k
  d.exception p c 0x08 (BitVec.ofNat 64 e) q.pc inj

/-- MATRIX_OP_START: the oldest queued operation starts when its resource is free and its accumulator
dependences are met, after the rest of an array operation; it reads its operands (R67, R71, R72, R145).
DEDUCED, log entry 22. -/
def execMatrixOpStart (c : CoreId) (idle : BitVec 32) (s : State) : Out :=
  s.upd fun p m d =>
    if d.edgesHeld c then d else
    match (d.core c).mq with
    | [] => d
    | q :: rest =>
      if !((d.core c).mrun.all fun r => mayFollow q.op r.op) then d
      else
        let started (d : Dev) (a w : Option Tile) : Dev :=
          let d := d.modCore c fun k => { k with mrun := k.mrun ++ [⟨q.op, q.pc, a, w⟩] }
          match q.op.isArray, a, w with
          | true, some x, some y => d.occupy p c (q.op.cycles x y)
          | _, _, _ => d
        let inj (e : Nat) : Bool := (d.mark (pantryAt c e)).getLsbD 2
        let d0 := d.modCore c fun k => { k with mq := rest }
        match q.op with
        | .ldw t =>
          let d1 := d0.modCore c fun k => { k with wShadow := none }
          (match d1.readTile p m c t true with
          | (d2, .error e) => d2.abandon p c q e (inj e)
          | (d2, .ok x) => started d2 none (some x))
        | .mul t _ swap _ _ =>
          let d1 := ((d0.insertRest p c idle.toNat).restRaise p c.site.toNat).modCore c fun k =>
            let k := { k with osMode := false }
            if swap && k.wShadow.isSome then { k with wActive := k.wShadow, wShadow := none } else k
          (match d1.readTile p m c t false with
          | (d2, .error e) => d2.abandon p c q e (inj e)
          | (d2, .ok x) => started d2 (some x) (d1.core c).wActive)
        | .omul ta tb _ _ =>
          let d1 := ((d0.insertRest p c idle.toNat).restRaise p c.site.toNat).modCore c fun k => { k with osMode := true, wActive := none }
          (match d1.readTile p m c ta true with
          | (d2, .error e) => d2.abandon p c q e (inj e)
          | (d2, .ok x) =>
            match d2.readTile p m c tb true with
            | (d3, .error e) => d3.abandon p c q e (inj e)
            | (d3, .ok y) => started d3 (some x) (some y))
        | _ => started d0 none none

/-! ### Arithmetic (R105 to R108) -/

/-- Element (r, i) of a tile, +0 beyond it (R144). -/
def Tile.at (t : Tile) (r i : Nat) : FV :=
  if r < t.rows ∧ i < t.cols then t.el.getD (r * t.cols + i) (.fin false 0 0) else .fin false 0 0
/-- The scale over element (r, i): none beyond the tile (R103, R104). -/
def Tile.scale (t : Tile) (wt : Bool) (r i : Nat) : Option FV :=
  if r < t.rows ∧ i < t.cols then
    match t.sk with
    | .none => none
    | .block => t.sc[if wt then r / 32 * t.cols + i else r * ceil32 t.cols + i / 32]?
    | .row => t.sc[if wt then i else r]?
  else none

def optScale (x : FV) : Option FV → FV | none => x | some s => x.mul s
/-- The elements under a scale that is NaN read as NaN (R102). -/
def underScale (xs : List FV) (s : Option FV) : List FV :=
  if s.any FV.isNan then xs.map fun _ => .nan else xs

/-- One segment: the exact sum of its products times its scales, rounded once (R102, R105, R108). DEDUCED, log entry 71. -/
def segment (a0 w0 : List FV) (sa sw : Option FV) : W32 × Events :=
  let a := underScale a0 sa
  let w := underScale w0 sw
  let prods := (a.zip w).map fun x => x.1.mul x.2
  let nanIn := a.any FV.isNan || w.any FV.isNan
  let bad := ((a.zip w).any fun x => madeNan [x.1, x.2] (x.1.mul x.2))
    || (prods.any (fun x => x == .inf false) && prods.any (fun x => x == .inf true))
  let sum := match prods with
    | [] => FV.fin false 0 0
    | x :: xs => xs.foldl FV.add x
  let scaled := optScale (optScale sum sa) sw
  let z := if nanIn then (nan32, {}) else to32 scaled
  (z.1, { z.2 with nanIn := nanIn, invalid := bad || (madeNan [sum] scaled && !nanIn) })

/-- One rounded FP32 addition of the accumulator (R106, R108); `acc` says that `x` came from a row. -/
def accAdd (x y : W32) (acc : Bool) : W32 × Events :=
  let a := val32 x
  let b := val32 y
  let r := a.add b
  let z := to32 r
  (z.1, { z.2 with nanIn := acc && a.isNan, invalid := madeNan [a, b] r })

/-- The segments of one output element, in ascending order of k. -/
def segments (a w : Nat → FV) (sa sw : Nat → Option FV) (kk : Nat) : List (W32 × Events) :=
  (List.range (ceil32 kk)).map fun j =>
    let n := min 32 (kk - 32 * j)
    let ks := (List.range n).map fun i => 32 * j + i
    segment (ks.map a) (ks.map w) (sa (32 * j)) (sw (32 * j))

/-- Chain the segments onto a running value, or start with the first (R106). -/
def chain (start : Option W32) (segs : List (W32 × Events)) : W32 × Events :=
  match start, segs with
  | none, [] => (0, {})
  | none, x :: xs => xs.foldl (fun r y => let z := accAdd r.1 y.1 false; (z.1, (r.2.or y.2).or z.2)) x
  | some v, [] => (v, {})
  | some v, x :: xs =>
    let z := accAdd v x.1 true
    xs.foldl (fun r y => let z := accAdd r.1 y.1 false; (z.1, (r.2.or y.2).or z.2)) (z.1, x.2.or z.2)

/-- An accumulator lane; +0.0 in a row not written (R68). -/
def CoreSt.accAt (k : CoreSt) (row lane : Nat) : W32 :=
  if smGet false k.accWr row then smGet 0 k.acc (64 * row + lane) else 0

/-- The value of element (m, n) of an MX.MUL. -/
def mulElem (k : CoreSt) (a w : Tile) (arow : Nat) (acc : Bool) (m n : Nat) : W32 × Events :=
  chain (if acc then some (k.accAt (arow + m) n) else none)
    (segments (fun i => a.at m i) (fun i => w.at i n) (fun i => a.scale false m i) (fun i => w.scale true i n) a.cols)
/-- The value of element (m, n) of an MX.OMUL. -/
def omulElem (k : CoreSt) (a b : Tile) (arow : Nat) (acc : Bool) (m n : Nat) : W32 × Events :=
  let z := chain none
    (segments (fun i => a.at i m) (fun i => b.at i n) (fun i => a.scale true i m) (fun i => b.scale true i n) a.rows)
  if acc then
    let y := accAdd (k.accAt (arow + m) n) z.1 true
    (y.1, z.2.or y.2)
  else z

/-- Write one row of 64 lanes, marking it written. -/
def CoreSt.putRow (k : CoreSt) (row : Nat) (xs : List W32) : CoreSt :=
  { k with accWr := smSet false k.accWr row true
           acc := landLanes k.acc ((xs.zipIdx).map fun x => (64 * row + x.2, x.1)) }

/-- Write `n` rows of computed elements. -/
def CoreSt.putRows (k : CoreSt) (f : Nat → Nat → W32 × Events) (row i : Nat) : Nat → CoreSt × Events
  | 0 => (k, {})
  | n + 1 =>
    let z := (List.range 64).map (f i)
    let r := CoreSt.putRows (k.putRow row (z.map Prod.fst)) f (row + 1) (i + 1) n
    (r.1, ((z.map Prod.snd).foldl Events.or {}).or r.2)

/-! ### Output conversion (R113 to R117) -/

/-- max_D as a magnitude and e_D (R115). -/
def maxD (c : BitVec 4) : Nat × Int :=
  match c.toNat with
  | 3 => (448, 8) | 7 => (448, 8) | 4 => (57344, 15) | 8 => (57344, 15) | 5 => (127, 6) | 6 => (7, 2)
  | 9 => (15, 2) | 10 => (28, 4) | _ => (6, 2)
/-- max_D of E2M3 is 7.5, held as 15 halves. -/
def maxDHalf (c : BitVec 4) : Bool := c.toNat == 9

/-- In-block saturation raises no flag (R116). -/
def Events.noOvf (e : Events) : Events := { e with ovfSat := false, ovfInf := false, intOvf := false }

/-- One element of a scaled group from the exact magnitude m * 2^e (above it when `st`), saturating (R116). A negative
INT8 or INT4 element saturates to the most negative integer, as R113 has it, and not to minus max_D (DESIGN CHOICE, log
entry 98). -/
def scaledElem (c : BitVec 4) (neg : Bool) (m : Nat) (e : Int) (st : Bool) (draw : Option (BitVec 16)) : Nat × Events :=
  let r := match fmtFloat c with
    | some f => f.roundFin neg m e draw .sat st
    | none => intConvert (fmtBits c) (.fin neg m e) draw st
  (r.1, Events.noOvf { r.2 with inexact := false })

/-- Is the magnitude m * 2^e below n * 2^f? -/
def magLt (m : Nat) (e : Int) (n : Nat) (f : Int) : Bool := (FV.fin false m e).lt (.fin false n f)
/-- The largest magnitude of a group of finite values. -/
def amax (xs : List FV) : Nat × Int :=
  xs.foldl (fun a x => match x with | .fin _ m e => if magLt a.1 a.2 m e then (m, e) else a | _ => a) (0, 0)

/-- A group of R115: its scale (E8M0 byte or FP32 word), its elements and events. The rounding of a row scale to FP32 raises
no flag (DEDUCED, log entry 75). -/
def convGroup (c : BitVec 4) (sk : ScaleKind) (xs : List W32) (draws : List (Option (BitVec 16))) : Nat × List Nat × Events :=
  let vs := xs.map val32
  let a := amax vs
  if vs.any FV.isNan || vs.any FV.isInf then
    (if sk = .block then 255 else 0x7FC00000, xs.map (fun _ => 0),
      if vs.any FV.isNan then { nanIn := true } else { invalid := true })
  else if a.1 = 0 then
    (if sk = .block then 0 else 0x3F800000,
      vs.map (fun v => match fmtFloat c with | some f => f.sign v.sgn | none => 0), {})
  else if sk = .block then
    let x := max (-127) (min 127 ((Nat.log2 a.1 : Int) + a.2 - (maxD c).2))
    let z := ((vs.zip draws).map fun y => match y.1 with
      | .fin neg m e => scaledElem c neg m (e - x) false y.2
      | _ => (0, {}))
    ((127 + x).toNat, z.map Prod.fst, (z.map Prod.snd).foldl Events.or {})
  else
    let s := (quot32 false a.1 (maxD c).1 (if maxDHalf c then a.2 + 1 else a.2)).1
    match val32 s with
    | .fin _ sm se =>
      let z := (((xs.zip vs).zip draws).map fun y => match y.1.2 with
        | .fin neg m e =>
          if sm = 0 then (Config.zeroScaleElem c y.1.1 % 2 ^ fmtBits c, ({} : Events))
          else if m = 0 then scaledElem c neg 0 0 false y.2
          else
            let q := quot m sm
            scaledElem c neg q.1 (e - se - 96) q.2 y.2
        | _ => (0, {}))
      (s.toNat, z.map Prod.fst, (z.map Prod.snd).foldl Events.or {})
    | _ => (s.toNat, xs.map (fun _ => 0), {})

/-- Cut a list into groups of `n` (by fuel). -/
def groupsOf {α : Type} (n : Nat) (l : List α) : Nat → List (List α)
  | 0 => []
  | f + 1 => if l.isEmpty then [] else l.take n :: groupsOf n (l.drop n) f

/-- One output row: its bytes, its scale bytes and events (R113 to R117). -/
def convRow (t : TDesc) (ovc : Ovc) (xs : List W32) (draws : List (Option (BitVec 16))) : List Byte × List Byte × Events :=
  let c := tdFmt t
  let w := fmtBits c
  let bytes (l : List Nat) : List Byte := leBytes (rowBytes l.length w) (packElems w l)
  match tdScale t with
  | .none =>
    if c = 0 then
      (bytesOf (xs.map fun x => if (val32 x).isNan then nan32 else x), [],
        { nanIn := xs.any fun x => (val32 x).isNan })
    else
      let z := (xs.zip draws).map fun x => fmtEncode c (val32 x.1) x.2 ovc
      (bytes (z.map Prod.fst), [], (z.map Prod.snd).foldl Events.or {})
  | .block =>
    let g := ((groupsOf 32 (xs.zip draws) 4).map fun l => convGroup c .block (l.map Prod.fst) (l.map Prod.snd))
    (bytes (g.flatMap fun x => x.2.1), g.map (fun x => BitVec.ofNat 8 x.1), g.foldl (fun e x => e.or x.2.2) {})
  | .row =>
    let g := convGroup c .row xs draws
    (bytes g.2.1, leBytes 4 g.1, g.2.2)

/-- Write runs of bytes to the pantry in order, stopping at a double-bit error (R60, R62). -/
def Dev.pantryWrites (p : Part) (d : Dev) (c : CoreId) : List (Nat × List Byte) → Dev × Wr × Option Nat
  | [] => (d, [], none)
  | (a, bs) :: r =>
    match d.pantryWrite p c a bs with
    | (d1, .error e) => (d1, [], some e)
    | (d1, .ok ws) =>
      let z := Dev.pantryWrites p d1 c r
      (z.1, ws ++ z.2.1, z.2.2)

/-- Columns 0 to COLS of an accumulator row. -/
def CoreSt.rowVals (k : CoreSt) (row n : Nat) : List W32 := (List.range n).map (k.accAt row)

/-- The rows and scales an MX.ST writes, with its events. -/
def stRuns (k : CoreSt) (t : TDesc) (arow : Nat) (rm : Rm) (ovc : Ovc) (lfsr : W64) : List (Nat × List Byte) × Events :=
  let n := tdCols t
  let draws : List (Option (BitVec 16)) := match rm with
    | .rne => List.replicate (tdRows t * n) none
    | .sr => (lfsrDraws lfsr (tdRows t * n)).1.map some
  let rows := (List.range (tdRows t)).map fun r => convRow t ovc (k.rowVals (arow + r) n) ((draws.drop (r * n)).take n)
  let data := (rows.zipIdx).map fun x => (tdBase t + x.2 * tdStride t, x.1.1)
  let scales := rows.flatMap fun x => x.2.1
  (data ++ (if scales.isEmpty then [] else [(tdSbase t, scales)]), rows.foldl (fun e x => e.or x.2.2) {})

/-! ### Completion (R69, R73) -/

/-- Record arithmetic events in MXU.FLAGS (R73). -/
def Dev.mxuFlags (p : Part) (d : Dev) (c : CoreId) (e : Events) : Dev :=
  d.put p (mxuR c 8) (d.get p (mxuR c 8) ||| BitVec.ofNat 64 e.mxu)

/-- An array operation has passed: rows and cycles count (R94). -/
def Dev.arrayDone (p : Part) (d : Dev) (c : CoreId) (rows cyc : Nat) : Dev :=
  (d.count p (mxuR c 0x100) rows).count p (mxuR c 0x108) cyc

/-- The resource an operation uses (R69). -/
def MOp.resource : MOp → Nat
  | .ldw .. => 0
  | .mul .. => 1
  | .omul .. => 1
  | .st .. => 2
  | .rdv .. => 3
  | .wrv .. => 4
/-- May started operation `i` complete now: operations of one resource complete in the order of their start, and those of
different resources in any order (R69, R71). -/
def CoreSt.mayEnd (k : CoreSt) (i : Nat) (o : MOp) : Bool := (k.mrun.take i).all fun e => e.op.resource != o.resource
/-- The bytes of a run cut at the lines of the pantry: each piece is one access (R62). -/
def lineCut (a : Nat) (bs : List Byte) : Nat → List (Nat × List Byte)
  | 0 => []
  | n + 1 =>
    let k := 128 - a % 128
    if bs.length ≤ k then [(a, bs)] else (a, bs.take k) :: lineCut (a + k) (bs.drop k) n
/-- The accesses of a list of runs (R60, R62). -/
def lineRuns (runs : List (Nat × List Byte)) : List (Nat × List Byte) :=
  runs.flatMap fun r => lineCut r.1 r.2 (r.2.length / 128 + 2)

/-- MATRIX_OP_COMPLETE: started operation `i`, 0 for the oldest, finishes writing the weight set, the accumulator, the
pantry or the v register, and its events are recorded (R67 to R71, R73, R122, R158). -/
def execMatrixOpComplete (o : StartedOp) (s : State) : Out :=
  let c := o.core
  let i := o.place
  s.updW fun p _ d =>
    if d.edgesHeld c then (d, []) else
    match (d.core c).mrun[i.toNat]? with
    | none => (d, [])
    | some r =>
      if !(d.core c).mayEnd i.toNat r.op then (d, []) else
      let d := d.modCore c fun k => { k with mrun := k.mrun.eraseIdx i.toNat }
      match r.op, r.a, r.w with
      | .ldw _, _, w => (d.modCore c fun k => { k with wShadow := w }, [])
      | .mul _ arow _ acc _, some a, some w =>
        let z := (d.core c).putRows (mulElem (d.core c) a w arow.toNat acc) arow.toNat 0 a.rows
        (((d.setCore c z.1).mxuFlags p c z.2).arrayDone p c a.rows (r.op.cycles a w), [])
      | .omul _ _ arow acc, some a, some b =>
        let z := (d.core c).putRows (omulElem (d.core c) a b arow.toNat acc) arow.toNat 0 a.cols
        (((d.setCore c z.1).mxuFlags p c z.2).arrayDone p c a.rows (r.op.cycles a b), [])
      | .st t arow rm ovc lfsr, _, _ =>
        let z := stRuns (d.core c) t arow.toNat rm ovc lfsr
        (match d.pantryWrites p c (lineRuns z.1) with
        | (d1, ws, none) => (d1.mxuFlags p c z.2, ws)
        | (d1, ws, some e) => (d1.abandon p c ⟨r.op, r.pc⟩ e ((d.mark (pantryAt c e)).getLsbD 2), ws))
      | .rdv v arow, _, _ =>
        (d.modCore c fun k => { k with v := landLanes k.v (laneWr v (k.rowVals arow.toNat 64)) }, [])
      | .wrv xs arow, _, _ => (d.modCore c fun k => k.putRow arow.toNat xs, [])
      | _, _, _ => (d, [])

end Sys2Proof.Machine
end

