-- ==== Sys2Proof/Machine/Sync.lean ====
section
/-! DEFINITION. Waits, barriers, system instructions, instruction fetch and the core state machine (R49 to
R56, R148 to R155, R209 to R214). -/

namespace Sys2Proof.Machine

/-! ### Barriers (R209 to R214, R221) -/

def barReg (w b off : Nat) : Nat := meshR w (0x100 + 0x20 * b + off)
def Dev.barMask (p : Part) (d : Dev) (w b : Nat) : W64 := d.get p (barReg w b 0)
def Dev.barExt (p : Part) (d : Dev) (w b : Nat) : Nat := d.fld p (barReg w b 8) 0 16
def Dev.barLost (p : Part) (d : Dev) (w b : Nat) : Bool := d.bit p (barReg w b 8) 16
def Dev.barGen (p : Part) (d : Dev) (w b : Nat) : W32 := BitVec.ofNat 32 (d.fld p (barReg w b 0x10) 0 32)
def Dev.barEpoch (p : Part) (d : Dev) (w b : Nat) : BitVec 8 := BitVec.ofNat 8 (d.fld p (barReg w b 0x10) 40 8)
def Dev.barExtCnt (p : Part) (d : Dev) (w b : Nat) : Nat := d.fld p (barReg w b 0x10) 48 16
/-- Members arrived in this generation. -/
def Dev.barArr (d : Dev) (w b : Nat) : W64 := smGet 0 d.barIn (16 * w + b)
/-- Set the members arrived and with them STAT.ARRIVED. -/
def Dev.setArr (p : Part) (d : Dev) (w b : Nat) (x : W64) : Dev :=
  ({ d with barIn := smSet 0 d.barIn (16 * w + b) x } : Dev).setF p (barReg w b 0x10) 32 7 (popCount x)
/-- The cores of a W die. -/
def dieCores (w : Nat) : List CoreId := (List.range 64).map fun i => ⟨BitVec.ofNat 4 w, BitVec.ofNat 6 i⟩
/-- Is the core in WAIT on barrier b? -/
def CoreSt.onBar (k : CoreSt) (b : Nat) : Bool :=
  match k.wait with | some (.bar x) => k.st == .wait && x.toNat == b | _ => false
/-- Is the core in WAIT on barrier b, or has it been released from it and not retired yet? -/
def CoreSt.waitsBar (k : CoreSt) (b : Nat) : Bool :=
  k.onBar b || (match k.wait with | some (.barDone x) => k.st == .wait && x.toNat == b | _ => false)
/-- A core's BAR retires: its pending arrival is cleared (R213). -/
def Dev.clearPending (d : Dev) (c : CoreId) (b : Nat) : Dev := d.modCore c fun k => { k with bars := smSet none k.bars b none }
/-- A waiting core leaves WAIT and its instruction retires (R50). -/
def Dev.wake (p : Part) (d : Dev) (c : CoreId) : Dev :=
  (d.modCore c fun k => { k with st := .run, wait := none }).retire p c
/-- A barrier releases a core that waits on it: its BAR retires, or stands released until the core's clock edges resume (R211,
R455). -/
def Dev.releaseCore (p : Part) (d : Dev) (b : Nat) (c : CoreId) : Dev :=
  if !(d.core c).onBar b then d
  else if d.edgesHeld c then d.modCore c fun k => { k with wait := some (.barDone (BitVec.ofNat 4 b)) }
  else (d.clearPending c b).wake p c
/-- Release every core that waits on a barrier (R211). -/
def Dev.release (p : Part) (d : Dev) (b : Nat) : List CoreId → Dev
  | [] => d
  | c :: cs => Dev.release p (d.releaseCore p b c) b cs
/-- Completion of a barrier, if its conditions hold: GEN advances, ARRIVED becomes 0, EXT is taken from
EXTCNT and the waiting cores retire. A barrier of external arrivals alone completes once per EXT of them (R211).
DEDUCED, log entry 23. -/
def Dev.barCheck (p : Part) (d : Dev) (w b : Nat) : Dev :=
  let mask := d.barMask p w b
  let ext := d.barExt p w b
  let cnt := d.barExtCnt p w b
  if mask &&& ~~~(d.barArr w b) = 0 ∧ ext ≤ cnt ∧ d.barLost p w b = false ∧ ¬(mask = 0 ∧ ext = 0) then
    let times := if mask = 0 then cnt / ext else 1
    let d1 := (d.setArr p w b 0).setF p (barReg w b 0x10) 0 32 ((d.barGen p w b).toNat + times)
    (d1.setF p (barReg w b 0x10) 48 16 (cnt - times * ext)).release p b (dieCores w)
  else d

/-- BAR as executed by core c: whether it retires at once (R210 to R213). -/
def Dev.barArrive (p : Part) (d : Dev) (c : CoreId) (b : Nat) : Dev × Bool :=
  let w := c.site.toNat
  let mask := d.barMask p w b
  let now := (d.barEpoch p w b, d.barGen p w b)
  if mask = 0 ∧ d.barExt p w b = 0 then (d.clearPending c b, true)
  else if !mask.getLsbD c.p.toNat then (d, false)
  else
    let arrive (d : Dev) : Dev × Bool :=
      let d1 := d.modCore c fun k => { k with bars := smSet none k.bars b (some now) }
      let d2 := (d1.setArr p w b (d1.barArr w b ||| BitVec.ofNat 64 (2 ^ c.p.toNat))).barCheck p w b
      if d2.barGen p w b = now.2 then (d2, false) else (d2.clearPending c b, true)
    match smGet none (d.core c).bars b with
    | none => arrive d
    | some r =>
      if r.1 ≠ now.1 then arrive (d.clearPending c b)
      else if r.2 ≠ now.2 then (d.clearPending c b, true)
      else (d, false)

/-- EXT_ARRIVE: ADD counts toward EXTCNT, which holds at 0xFFFF (R210). -/
def Dev.extArrive (p : Part) (d : Dev) (w b add : Nat) : Dev :=
  (d.setF p (barReg w b 0x10) 48 16 (min 0xFFFF (d.barExtCnt p w b + add))).barCheck p w b
/-- EXT_ARRIVE. -/
def execExtArrive (w b : BitVec 4) (add : BitVec 16) (s : State) : Out :=
  s.upd fun p _ d => d.extArrive p w.toNat b.toNat add.toNat

/-- A write to MASK or to CFG: accepted only while no core waits on the barrier; it clears ARRIVED, EXTCNT
and LOST and advances EPOCH; otherwise it is ignored with a Notice (R214). -/
def Dev.barWrite (p : Part) (d : Dev) (w b off : Nat) (v : W64) (lower upper : Bool) : Dev :=
  if (dieCores w).any (fun c => (d.core c).waitsBar b) then d.noticeIgnored p (barReg w b off) v
  else
    let d1 := (d.regStore p (barReg w b off) v lower upper).setB p (barReg w b 8) 16 false
    let e := (d1.barEpoch p w b).toNat + 1
    ((d1.setArr p w b 0).setF p (barReg w b 0x10) 48 16 0).setF p (barReg w b 0x10) 40 8 e
/-- BAR_MASK_WRITE: the MASK of a barrier, or its CFG (R214). -/
def execBarMaskWrite (w b : BitVec 4) (x : BarWrite) (s : State) : Out :=
  s.upd fun p _ d =>
    match x with
    | .mask m => d.barWrite p w.toNat b.toNat 0 m true true
    | .cfg ext clearLost => d.barWrite p w.toNat b.toNat 8 (BitVec.ofNat 64 (ext.toNat + if clearLost then 2 ^ 16 else 0)) true true

/-! ### Wait instructions (R148, R151 to R155, R173) -/

/-- Pantry accesses of a matrix operation still to be made (R152 bit 0). -/
def MOp.touchesPantry : MOp → Bool
  | .rdv .. => false
  | .wrv .. => false
  | _ => true
/-- Every earlier pantry access of LSU, vector and matrix instructions has completed. -/
def CoreSt.pantryQuiet (k : CoreSt) : Bool := !(k.mq.any fun q => q.op.touchesPantry) && !(k.mrun.any fun q => q.op.isSt)
/-- The conditions a FENCE mask selects (R152). -/
def Dev.fenceMet (p : Part) (d : Dev) (c : CoreId) (mask : BitVec 5) : Bool :=
  let k := d.core c
  (!mask.getLsbD 0 || k.pantryQuiet) && (!mask.getLsbD 1 || (k.mq.isEmpty && !k.mrun.any fun r => r.op.isArray))
    && (!mask.getLsbD 2 || k.vq.isEmpty) && (!mask.getLsbD 3 || (List.range 16).all (d.prtIdle p c))
    && (!mask.getLsbD 4 || k.atoms.isEmpty)
/-- The two conditions of WAITX as the word it writes (R153). -/
def Dev.waitxWord (p : Part) (d : Dev) (c : CoreId) (target : W64) (lobby : BitVec 3) : BitVec 2 :=
  (if reached (d.snoop c) target then 2 else 0) + (if d.lobReady p c lobby false then 1 else 0)
/-- Is the condition of a wait met, apart from BAR, whose release retires it (R155)? DEDUCED, log entry 25. -/
def Dev.waitMet (p : Part) (d : Dev) (c : CoreId) : WaitOn → Bool
  | .lobWait l whole => d.lobReady p c l whole
  | .prtWait q => d.prtIdle p c q.toNat
  | .prtAwait => (d.core c).atoms.isEmpty
  | .fence mask => d.fenceMet p c mask
  | .lwait target => reached (d.snoop c) target
  | .waitx target _ lobby all => if all then d.waitxWord p c target lobby == 3 else d.waitxWord p c target lobby != 0
  | .bar _ => false
  | .barDone _ => true
/-- What a wait writes as it retires (R153). -/
def Dev.waitWrite (p : Part) (d : Dev) (c : CoreId) : WaitOn → Dev
  | .waitx target rb lobby _ => d.modCore c fun k => k.setS rb ((d.waitxWord p c target lobby).zeroExtend 32)
  | .barDone b => d.clearPending c b.toNat
  | _ => d
/-- A wait instruction whose condition is unmet: RUN goes to WAIT, a STEP in HALT leaves it unretired (R50); in an
orderly stop the core is then halted (R500). -/
def Dev.park (d : Dev) (c : CoreId) (w : WaitOn) : Dev :=
  d.modCore c fun k =>
    if k.st = .run then (if d.stopStep = 0 then { k with st := .wait, wait := some w } else { k with st := .halt, ending := false }) else k
/-- Execute a wait instruction. -/
def Dev.waitFor (p : Part) (d : Dev) (c : CoreId) (w : WaitOn) : Dev :=
  if d.waitMet p c w then (d.waitWrite p c w).retire p c else d.park c w

/-- A synchronisation word for EXC_INFO (R128). -/
def syncWord (major func ra rb imm : Nat) : W64 :=
  BitVec.ofNat 64 (major * 2 ^ 28 + func * 2 ^ 22 + ra * 2 ^ 16 + rb * 2 ^ 10 + imm)

/-- LOB.WAIT (R173). -/
def execLobWait (c : CoreId) (l : BitVec 3) (whole : Bool) (s : State) : Out :=
  issue c [] [] s fun p _ d => d.waitFor p c (.lobWait l whole)
/-- PRT.WAIT (R148). -/
def execPrtWait (c : CoreId) (q : BitVec 4) (s : State) : Out := issue c [] [] s fun p _ d => d.waitFor p c (.prtWait q)
/-- PRT.AWAIT (R148). -/
def execPrtAwait (c : CoreId) (s : State) : Out := issue c [] [] s fun p _ d => d.waitFor p c .prtAwait
/-- FENCE (R152). -/
def execFence (c : CoreId) (mask : BitVec 5) (s : State) : Out := issue c [] [] s fun p _ d => d.waitFor p c (.fence mask)
/-- LWAIT (R151). -/
def execLwait (c : CoreId) (ra : BitVec 6) (s : State) : Out :=
  issue c [ra, ra + 1] [] s fun p _ d =>
    if badPair ra then d.raiseExc p c 0x0A (syncWord 0xE 1 ra.toNat 0 0)
    else d.waitFor p c (.lwait ((d.core c).getP ra))
/-- LRD (R151). -/
def execLrd (c : CoreId) (ra : BitVec 6) (s : State) : Out :=
  issue c [ra, ra + 1] [] s fun p _ d =>
    if badPair ra then d.raiseExc p c 0x0A (syncWord 0xE 2 ra.toNat 0 0)
    else (d.modCore c fun k => k.setP ra (d.snoop c)).retire p c
/-- WAITX (R153). -/
def execWaitx (c : CoreId) (ra rb : BitVec 6) (lobby : BitVec 3) (all : Bool) (s : State) : Out :=
  issue c [ra, ra + 1, rb] [] s fun p _ d =>
    if badPair ra then d.raiseExc p c 0x0A (syncWord 0xE 3 ra.toNat rb.toNat (lobby.toNat + if all then 8 else 0))
    else d.waitFor p c (.waitx ((d.core c).getP ra) rb lobby all)
/-- BAR (R210 to R213). -/
def execBar (c : CoreId) (b : BitVec 4) (s : State) : Out :=
  issue c [] [] s fun p _ d =>
    match d.barArrive p c b.toNat with
    | (d1, true) => d1.retire p c
    | (d1, false) => d1.park c (.bar b)

/-- WAIT_CONDITION_MET: a core in WAIT whose condition is met retires its wait instruction (R50). -/
def execWaitConditionMet (c : CoreId) (s : State) : Out :=
  s.upd fun p _ d =>
    if d.edgesHeld c then d else
    match (d.core c).st, (d.core c).wait with
    | .wait, some w => if d.waitMet p c w then (d.waitWrite p c w).wake p c else d
    | _, _ => d

/-! ### System instructions (R154) -/

/-- NOP. -/
def execNop (c : CoreId) (s : State) : Out := issue c [] [] s fun p _ d => d.retire p c
/-- HALT: retires, and RUN becomes HALT (R50). -/
def execHalt (c : CoreId) (s : State) : Out :=
  issue c [] [] s fun p _ d => (d.retire p c).modCore c fun k => { k with st := .halt }
/-- The vector and matrix queues are empty (R50). DEDUCED, log entry 20. -/
def CoreSt.queuesEmpty (k : CoreSt) : Bool := k.vq.isEmpty && k.mq.isEmpty
/-- END: retires, and RUN becomes IDLE once the vector and matrix queues are empty (R50). -/
def execEndProgram (c : CoreId) (s : State) : Out :=
  issue c [] [] s fun p _ d => (d.retire p c).modCore c fun k =>
    if k.st = .run then (if k.queuesEmpty then { k with st := .idle } else { k with ending := true }) else k
/-- PROGRAM_END_IDLE: the queues of a core whose END has retired are empty (R50). -/
def execProgramEndIdle (c : CoreId) (s : State) : Out :=
  s.upd fun _ _ d => if d.edgesHeld c then d else d.modCore c fun k =>
    if k.ending && k.st == .run && k.queuesEmpty then { k with st := .idle, ending := false } else k
/-- ICINV: the instruction cache is invalidated (R56). -/
def execIcinv (c : CoreId) (s : State) : Out :=
  issue c [] [] s fun p _ d => (d.modCore c fun k => { k with ic := [] }).retire p c
/-- SEED: CORE.SRLFSR from the pair; zero loads the reset value (R120). -/
def execSeed (c : CoreId) (ra : BitVec 6) (s : State) : Out :=
  issue c [ra, ra + 1] [] s fun p _ d =>
    if badPair ra then d.raiseExc p c 0x0A (syncWord 0 4 ra.toNat 0 0)
    else (d.setSr p c ((d.core c).getP ra)).retire p c
/-- SRRD: the pair from CORE.SRLFSR (R120). -/
def execSrrd (c : CoreId) (ra : BitVec 6) (s : State) : Out :=
  issue c [ra, ra + 1] [] s fun p _ d =>
    if badPair ra then d.raiseExc p c 0x0A (syncWord 0 5 ra.toNat 0 0)
    else (d.modCore c fun k => k.setP ra (d.srState p c)).retire p c
/-- FLGRD: MXU.FLAGS or VEC.FLAGS once that unit's queue is empty; `clear` clears every bit read (R154). -/
def execFlgrd (c : CoreId) (ra : BitVec 6) (vec clear : Bool) (s : State) : Out :=
  s.upd fun p _ d =>
    if ready p d c [ra] [] && (if vec then (d.core c).vq.isEmpty else (d.core c).mq.isEmpty) then
      let d := d.modCore c CoreSt.take
      let a := if vec then vecR c 8 else mxuR c 8
      let v := d.get p a
      let d := if clear then d.put p a 0 else d
      d.retireS p c ra (v.setWidth 32)
    else d
/-- CID: the source number with the physical core, the logical core number, or n (R154). Value 3 is reserved there;
that it raises 0x01 as the reserved codes of R129 do is read by inference (DEDUCED, log entry 96). -/
def execCid (c : CoreId) (ra : BitVec 6) (sel : BitVec 2) (s : State) : Out :=
  issue c [ra] [] s fun p _ d =>
    match sel.toNat with
    | 0 => d.retireS p c ra ((d.coreSrc c).zeroExtend 32)
    | 1 => d.retireS p c ra (BitVec.ofNat 32 (p.logical c.site.toNat c.p.toNat))
    | 2 => d.retireS p c ra (BitVec.ofNat 32 (p.nGood c.site.toNat))
    | _ => d.raiseExc p c 0x01 (syncWord 0 7 ra.toNat 0 3)

/-! ### Instruction fetch (R56, R60) -/

/-- INSTRUCTION_FETCH: the word at the program counter, through the direct-mapped cache of 128 lines of 128
bytes, or past it while IC_EN is 0; a double-bit error raises exception 0x08 (R51, R56, R60, R93). -/
def execInstructionFetch (c : CoreId) (s : State) : Out :=
  s.upd fun p m d =>
    let k := d.core c
    if !(p.has c && k.canIssue) || d.edgesHeld c then d
    else
      let a := k.pc.toNat
      let fail (d : Dev) (e : Nat) : Dev := d.raiseBad p c e
      let got (d : Dev) (bs : List Byte) : Dev := d.modCore c fun k => { k with fetched := some (k.pc, BitVec.ofNat 32 (leNat bs)) }
      if d.bit p (coreR c 0x48) 0 then
        let line := a / 128
        let ix := line % 128
        match smGet none k.ic ix with
        | some x =>
          if x.line.toNat = line then got d ((x.data.drop (a % 128)).take 4)
          else
            let d := d.count p (coreR c 0x118) 1
            (match d.pantryRead p m c (line * 128) 128 with
            | (d1, .error e) => fail d1 e
            | (d1, .ok bs) => got (d1.modCore c fun k => { k with ic := smSet none k.ic ix (some ⟨BitVec.ofNat 15 line, bs⟩) }) ((bs.drop (a % 128)).take 4))
        | none =>
          let d := d.count p (coreR c 0x118) 1
          (match d.pantryRead p m c (line * 128) 128 with
          | (d1, .error e) => fail d1 e
          | (d1, .ok bs) => got (d1.modCore c fun k => { k with ic := smSet none k.ic ix (some ⟨BitVec.ofNat 15 line, bs⟩) }) ((bs.drop (a % 128)).take 4))
      else
        match d.pantryRead p m c a 4 with
        | (d1, .error e) => fail d1 e
        | (d1, .ok bs) => got d1 bs

/-! ### Core control (R50, R53, R91, R182, R213) -/

/-- Does a register keep counts, which a core reset does not clear? -/
def isCounterAddr (p : Part) (a : Nat) : Bool :=
  match regFields p a with | some fs => fs.any (fun f => f.acc == .sat) | none => false
/-- Is the address one of the core's CORE, MXU, VEC, LOB or PRT blocks? -/
def isCoreBlk (c : CoreId) (a : Nat) : Bool :=
  ctlSite a == c.site.toNat && decide (0x100 ≤ ctlBlk a) && decide (ctlBlk a < 0x240) && ctlBlk a % 64 == c.p.toNat
/-- Return every register of those blocks but the counters to its reset value (R53, R182). -/
def Dev.dropCoreRegs (p : Part) (d : Dev) (c : CoreId) : Dev :=
  { d with ctl := d.ctl.filter fun e => !(isCoreBlk c e.1 && !isCounterAddr p e.1) }
/-- A core's own state after a core reset: everything gone but the ASEQ numbering, the tags, the rest
counter and the ledger snoop (R53, R91, R182, R213, R411). DEDUCED, log entry 21. -/
def CoreSt.afterReset (k : CoreSt) (st : CoreState) : CoreSt :=
  { st := st, restCnt := k.restCnt, prtTag := k.prtTag, aseq := k.aseq, snoopOff := k.snoopOff, snoopHold := k.snoopHold }
/-- Core reset (R53). -/
def Dev.coreReset (p : Part) (d : Dev) (c : CoreId) : Dev :=
  (d.dropCoreRegs p c).modCore c fun k => k.afterReset .reset

/-- START (R50); it also starts a core that a party teardown has left in RESET, once its site is ready (R419).
DEDUCED, log entry 24. -/
def CoreSt.start (k : CoreSt) (siteReady : Bool) : CoreSt :=
  if k.st = .idle ∨ (k.st = .reset ∧ k.heldReset ∧ siteReady) then { k with st := .run, heldReset := false } else k
def CoreSt.halt (k : CoreSt) : CoreSt :=
  if k.st = .run ∨ k.st = .wait then { k with st := .halt, wait := none, ending := false } else k
def CoreSt.resume (k : CoreSt) : CoreSt := if k.st = .halt then { k with st := .run, step := false } else k
def CoreSt.stepOne (k : CoreSt) : CoreSt := if k.st = .halt then { k with step := true } else k
/-- One write of CORE.CTRL: RESET alone, or START, HALT, RESUME, STEP in that order (R50); in an orderly stop no core
starts (R500). -/
def Dev.ctrlWrite (p : Part) (d : Dev) (c : CoreId) (start halt resume reset step : Bool) : Dev :=
  if !d.coreOpen p c then d
  else if reset then d.coreReset p c
  else d.modCore c fun k =>
    let k := if start && d.stopStep == 0 then k.start (d.siteReady p c.site.toNat) else k
    let k := if halt then k.halt else k
    let k := if resume then k.resume else k
    if step then k.stepOne else k

/-- CORE_START. -/
def execCoreStart (c : CoreId) (s : State) : Out := s.upd fun p _ d => d.ctrlWrite p c true false false false false
/-- CORE_HALT: a wait instruction is left unretired (R155). -/
def execCoreHalt (c : CoreId) (s : State) : Out := s.upd fun p _ d => d.ctrlWrite p c false true false false false
/-- CORE_RESUME. -/
def execCoreResume (c : CoreId) (s : State) : Out := s.upd fun p _ d => d.ctrlWrite p c false false true false false
/-- CORE_RESET. -/
def execCoreReset (c : CoreId) (s : State) : Out := s.upd fun p _ d => d.ctrlWrite p c false false false true false
/-- CORE_STEP. -/
def execCoreStep (c : CoreId) (s : State) : Out := s.upd fun p _ d => d.ctrlWrite p c false false false false true
/-- CORE_RESET_COMPLETE: RESET becomes IDLE once the core's site is ready (R50, R479), but a core in RESET by a party
teardown stays there (R419). -/
def execCoreResetComplete (c : CoreId) (s : State) : Out :=
  s.upd fun p _ d =>
    if p.has c && d.siteReady p c.site.toNat then d.modCore c fun k => if k.st = .reset ∧ !k.heldReset then { k with st := .idle } else k else d
/-- Invalidate the instruction cache, ignored in RUN and WAIT (R56, R93). -/
def Dev.icInvalidate (d : Dev) (c : CoreId) : Dev :=
  d.modCore c fun k => if k.st = .run ∨ k.st = .wait then k else { k with ic := [] }
/-- IC_INV. -/
def execIcInv (c : CoreId) (s : State) : Out := s.upd fun p _ d => if d.coreOpen p c then d.icInvalidate c else d

end Sys2Proof.Machine
end

