-- ==== Sys2Proof/Machine/Mesh.lean ====
section
/-! DEFINITION. The die mesh, read combining in the commons, the control network, and fencing a core in the
field (R188 to R222). -/

namespace Sys2Proof.Machine

/-! ### Data mesh (R191 to R193, R204, R217) -/

/-- The request or response a message is, ended with PATH_ERROR toward its requester by router `at'` (R193, R399). -/
def pathErrorOf (w : BitVec 4) (at' : BitVec 6) : Msg → Option Msg
  | .req r => some (.resp { dst := r.src, tag := r.tag, status := stPathError, from' := w.zeroExtend 5, node := gaNode r.addr, origin := some (at', false) })
  | .resp r => some (.resp { dst := r.dst, tag := r.tag, status := stPathError, from' := w.zeroExtend 5, node := r.node, origin := some (at', false) })
  | _ => none
/-- The core a response on this die is addressed to. -/
def respCore (d : Dev) (w : BitVec 4) : Msg → Option CoreId
  | .resp r => if srcNode r.dst = d.node ∧ (srcSite r.dst).toNat = w.toNat then some ⟨w, srcUnit r.dst⟩ else none
  | _ => none
/-- The first response of a combining entry has left its bank when the mesh forwards it, or a response that joined it
(R201). -/
def Dev.markLeft (d : Dev) (w : Nat) (m : Msg) : Dev :=
  let cast := (d.mcast.find? fun g => g.contains m).getD []
  { d with combine := d.combine.map fun e =>
      (e.1, if e.1 / 16 = w then e.2.map fun x => if m = .resp x.first ∨ .resp x.first ∈ cast then { x with left := true } else x else e.2) }

/-- Coordinates of a position of the 8 by 8 pattern (R188). -/
def posX (p : BitVec 6) : Nat := p.toNat % 8
def posY (p : BitVec 6) : Nat := p.toNat / 8
/-- Mesh hops between two positions. -/
def posHops (a b : BitVec 6) : Nat := (max (posX a) (posX b) - min (posX a) (posX b)) + (max (posY a) (posY b) - min (posY a) (posY b))
/-- Are two cores joined by a direct neighbour link (R189)? -/
def posAdjacent (a b : BitVec 6) : Bool := posHops a b == 1
/-- The 28 edge routers in ascending order of x and then of y. -/
def edgeRouters : List (BitVec 6) :=
  ((List.range 64).filter fun i => i / 8 == 0 || i / 8 == 7 || i % 8 == 0 || i % 8 == 7).map fun i => BitVec.ofNat 6 (i % 8 * 8 + i / 8)
/-- The edge router at which a lattice packet for position `t` enters the die: the nearest, then lower x, then lower y (R283). -/
def edgeEntry (t : BitVec 6) : BitVec 6 :=
  edgeRouters.foldl (fun b e => if posHops e t < posHops b t then e else b) 0
/-- The edge router that the lane plan gives to traffic between die `w` and another site (R190). -/
def planEdge (w other : Nat) : BitVec 6 := edgeRouters.getD (Config.edgeRouter w other % 28) 0
/-- The next router from `a` toward `b`: first along x, then along y (R191). -/
def nextRouter (a b : BitVec 6) : BitVec 6 :=
  if posX a < posX b then a + 1 else if posX b < posX a then a - 1
  else if posY a < posY b then a + 8 else if posY b < posY a then a - 8 else a

/-- Where a packet of die `w` enters its mesh and the router it goes to, and at each whether that is a core's. -/
structure MeshEnds where
  src : BitVec 6
  fromCore : Bool
  dst : BitVec 6
  toCore : Bool
  deriving DecidableEq, Repr

/-- The router of die `w` that a request of this node is for, and whether it is a core's. -/
def Dev.meshTarget (p : Part) (d : Dev) (w : Nat) (a : W64) : Option (BitVec 6 × Bool) :=
  if gaNode a ≠ d.node then none
  else
    let pl := d.place p (gaLocal a)
    if d.placeSite p pl = w then placeRouter pl else none
/-- The edge router at which traffic of site `from'` for position `t` enters die `w`; 31 stands for a shelf. DEDUCED, log
entry 83. -/
def Dev.meshEntry (d : Dev) (w from' : Nat) (t : BitVec 6) : BitVec 6 :=
  if (d.latEnds from' w 64).isSome then edgeEntry t else planEdge w from'
/-- The ends of a packet's path on the data mesh of die `w`; none where it does not cross that mesh (R190, R283). -/
def Dev.meshEnds (p : Part) (d : Dev) (w : Nat) : Msg → Option MeshEnds
  | .req r =>
    let site := (srcSite r.src).toNat
    let mine := srcNode r.src == d.node && site == w
    match d.meshTarget p w r.addr with
    | some (t, core) =>
      if mine then some ⟨srcUnit r.src, true, t, core⟩
      else some ⟨d.meshEntry w (if srcNode r.src = d.node then site else 31) t, false, t, core⟩
    | none =>
      if !mine then none
      else if gaNode r.addr ≠ d.node then some ⟨srcUnit r.src, true, planEdge w 31, false⟩
      else
        let to' := d.placeSite p (d.place p (gaLocal r.addr))
        if to' = w then none else some ⟨srcUnit r.src, true, planEdge w to', false⟩
  | .resp r =>
    let site := (srcSite r.dst).toNat
    let here := decide (srcNode r.dst = d.node) && site == w
    let out := planEdge w (if srcNode r.dst = d.node then site else 31)
    if r.from'.toNat = w then
      r.origin.map fun o => if here then ⟨o.1, o.2, srcUnit r.dst, true⟩ else ⟨o.1, o.2, out, false⟩
    else if here then some ⟨d.meshEntry w r.from'.toNat (srcUnit r.dst), false, srcUnit r.dst, true⟩
    else none
  | _ => none
/-- Where a packet stands that has entered the mesh of die `w`: a router, or none once it has left the mesh. -/
def Dev.hopOf (d : Dev) (w : BitVec 4) (m : Msg) : Option (Option (BitVec 6)) :=
  (d.hops.find? fun h => h.1 == w && h.2.1 == m).map fun h => h.2.2
/-- Requests and responses travel in two classes (R191). -/
def isResp : Msg → Bool | .resp _ => true | _ => false
/-- Is a core's power domain on: it is good and not fenced (R189, R216)? -/
def Dev.corePowered (p : Part) (d : Dev) (w : BitVec 4) (i : BitVec 6) : Bool :=
  p.has ⟨w, i⟩ && (d.core ⟨w, i⟩).st != .fenced
/-- Does a transfer use the direct link: between two adjacent cores of the die (R190)? -/
def MeshEnds.linked (e : MeshEnds) : Bool := e.fromCore && e.toCore && posAdjacent e.src e.dst
/-- Does a packet with ends `e` and of message `m`'s class that was sent before it go the same way and has not entered the
mesh of die `w` yet? Packets from one source to one destination arrive in the order sent (R191). -/
def Dev.sentBefore (p : Part) (d : Dev) (w : BitVec 4) (e : MeshEnds) (m : Msg) : Bool :=
  ((d.net ++ d.arrived.map fun x => x.2.2).takeWhile fun x => x != m).any fun x =>
    isResp x == isResp m && (d.hopOf w x).isNone && d.meshEnds p w.toNat x == some e
/-- May router `at'` of die `w` forward the packet, over a direct link or over the mesh? The packet is there: a new one
enters at its source, behind those sent before it. A transfer between adjacent cores uses their direct link, both of whose
power domains are on; every other one uses the mesh, where no packet of one class passes another of the same class and
destination that the router held before it (R189 to R191). -/
def Dev.meshReady (p : Part) (d : Dev) (w : BitVec 4) (at' : BitVec 6) (direct : Bool) (m : Msg) : Bool :=
  match d.meshEnds p w.toNat m with
  | none => false
  | some e =>
    let here := match d.hopOf w m with | some q => q == some at' | none => e.src == at' && !d.sentBefore p w e m
    let before := d.hops.takeWhile fun h => !(h.1 == w && h.2.1 == m)
    here && (e.linked == direct) &&
      (if direct then d.corePowered p w at' && d.corePowered p w e.dst
       else !(before.any fun h => h.1 == w && h.2.2 == some at' && isResp h.2.1 == isResp m &&
         (match d.meshEnds p w.toNat h.2.1 with | some f => f.dst == e.dst | none => false)))
/-- The seam that a hop between two positions crosses (R457). -/
def seamOf (a b : BitVec 6) : Option Nat :=
  match min (regionOf a.toNat) (regionOf b.toNat), max (regionOf a.toNat) (regionOf b.toNat) with
  | 0, 1 => some 0 | 2, 3 => some 1 | 0, 2 => some 2 | 1, 3 => some 3 | _, _ => none
/-- A packet crosses a seam: MAXOCC keeps the highest occupancy and CNT_BP counts the cycles held (R456, R457, R471). -/
def Dev.crossSeam (p : Part) (d : Dev) (w : Nat) (u : SeamUse) : Option Nat → Dev
  | none => d
  | some i =>
    let a := seamR w i
    (d.setF p (a 0) 8 4 (max (d.fld p (a 0) 8 4) u.occ.val)).count p (a 8) u.held.toNat
/-- The router a packet stands at after router `at'` has forwarded it, none where it leaves the mesh (R191). -/
def Dev.hopNext (p : Part) (d : Dev) (w : BitVec 4) (at' : BitVec 6) (direct : Bool) (m : Msg) : Option (BitVec 6) :=
  match d.meshEnds p w.toNat m with
  | some e => if direct || at' == e.dst then none else some (nextRouter at' e.dst)
  | none => none
/-- A packet stands at a router of the mesh of die `w`, or has left it. -/
def Dev.setHop (d : Dev) (w : BitVec 4) (m : Msg) (q : Option (BitVec 6)) : Dev :=
  { d with hops := (d.hops.filter fun h => !(h.1 == w && h.2.1 == m)) ++ [(w, m, q)] }
/-- The position to which a hop goes, for the seam it may cross. -/
def Dev.hopTo (p : Part) (d : Dev) (w : BitVec 4) (at' : BitVec 6) (direct : Bool) (m : Msg) : BitVec 6 :=
  match d.meshEnds p w.toNat m with
  | some e => if direct then e.dst else nextRouter at' e.dst
  | none => at'
/-- The packets that one hop moves: a multicast packet is one packet on the links that its branches share, and is replicated
where they part (R201). -/
def Dev.movesWith (p : Part) (d : Dev) (w : BitVec 4) (at' : BitVec 6) (m : Msg) : List Msg :=
  let to' := d.hopNext p w at' false m
  if to'.isNone then [m]
  else match d.mcast.find? fun g => g.contains m with
    | none => [m]
    | some g => m :: g.filter fun x => x != m && d.meshReady p w at' false x && d.hopNext p w at' false x == to'
/-- A packet of the die is lost to an uncorrectable link error: its transfer ends with PATH_ERROR (R193). -/
def Dev.loseHop (w : BitVec 4) (at' : BitVec 6) (d : Dev) (m : Msg) : Dev :=
  if d.net.contains m || d.arrived.any fun x => x.2.2 == m then
    (match pathErrorOf w at' m with
    | some e => (d.recv m).send e
    | none => d.recv m)
  else d.offMesh m
/-- A packet takes its hop; a response to a fenced core is discarded at that core's router (R191, R204, R217). -/
def Dev.takeHop (w : BitVec 4) (at' : BitVec 6) (next : Option (BitVec 6)) (d : Dev) (m : Msg) : Dev :=
  match respCore d w m with
  | some c => if c.p = at' ∧ (d.core c).st = .fenced then d.recv m else d.setHop w m next
  | none => d.setHop w m next
/-- MESH_PACKET: a router forwards a packet one hop, over a mesh link or a direct link; flits count by kind of link; a
corrected link error counts; an uncorrectable one discards the packet, ends its transfer with PATH_ERROR and raises a
Degraded fault; a response to a fenced core is discarded at that core's router; a seam it crosses notes it (R188 to R191,
R193, R201, R204, R217, R456, R457). -/
def execMeshPacket (w : BitVec 4) (at' : BitVec 6) (direct : Bool) (flits : BitVec 8) (m : Msg) (err : LinkErr) (seam : SeamUse) (s : State) : Out :=
  s.upd fun p _ d =>
    if d.held w.toNat at'.toNat || !d.meshReady p w at' direct m then d else
    let to' := d.hopTo p w at' direct m
    let next := d.hopNext p w at' direct m
    let all := if direct then [m] else d.movesWith p w at' m
    let d := if direct then d.count p (meshR w.toNat 0x48) flits.toNat else d.count p (meshR w.toNat 0x40) flits.toNat
    let d := (d.markLeft w.toNat m).crossSeam p w.toNat seam (seamOf at' to')
    let z := d.injTake p w.toNat 3 at'.toNat
    let d := z.1
    let err := if z.2 = 0 then err else if z.2 = 1 ∧ err = .none then .corrected else .uncorrectable
    match err with
    | .uncorrectable => all.foldl (Dev.loseHop w at') (d.fault p w.toNat at'.toNat 2 0x0201 (at'.zeroExtend 64) 0 (decide (z.2 ≠ 0)))
    | e => all.foldl (Dev.takeHop w at' next) (if e = .corrected then d.count p (meshR w.toNat 0x50) 1 else d)

/-! ### Combining entries (R200 to R203) -/

def combineKey (w bank : Nat) : Nat := 16 * w + bank
def Dev.entries (d : Dev) (w bank : Nat) : List CEntry := smGet [] d.combine (combineKey w bank)
def Dev.setEntries (d : Dev) (w bank : Nat) (l : List CEntry) : Dev :=
  { d with combine := smSet [] d.combine (combineKey w bank) l }
/-- Close every entry of a die's commons. -/
def Dev.closeAll (d : Dev) (w : Nat) : Nat → Dev
  | 0 => d
  | n + 1 => Dev.closeAll (d.setEntries w n []) w n
/-- COMBINE_WINDOW_END: the window of an entry ends (R202). -/
def execCombineWindowEnd (w bank : BitVec 4) (line : BitVec 18) (s : State) : Out :=
  s.upd fun _ _ d =>
    if d.held w.toNat (bankRouter bank.toNat).toNat then d
    else d.setEntries w.toNat bank.toNat ((d.entries w.toNat bank.toNat).filter fun e => e.line != line.toNat)
/-- A write of CMN.CFG: COMBINE_EN at 0 closes every entry (R202, R222). -/
def Dev.writeCmnCfg (p : Part) (d : Dev) (w : Nat) (v : W64) (lower upper : Bool) : Dev :=
  let d1 := d.regStore p (cmnR w 0) v lower upper
  if d1.bit p (cmnR w 0) 0 then d1 else d1.closeAll w 16
/-- COMBINE_EN. -/
def execCombineEn (w : BitVec 4) (en : Bool) (s : State) : Out :=
  s.upd fun p _ d => d.writeCmnCfg p w.toNat (if en then 1 else 0) true true

/-! ### Control network (R205 to R208) -/

/-- FENCED mask of a die (R221). -/
def Dev.fencedMask (p : Part) (d : Dev) (w : Nat) : W64 := d.get p (meshR w 0x10)
/-- Cores with a live control router: good and not fenced (R205). -/
def Dev.liveMask (p : Part) (d : Dev) (w : Nat) : W64 := p.mask w &&& ~~~(d.fencedMask p w)
/-- Neighbours in the 8 by 8 pattern of a set of positions, and the set itself (core p at x = p mod 8,
y = p div 8). -/
def spread (m : W64) : W64 :=
  m ||| ((m <<< 1) &&& 0xFEFEFEFEFEFEFEFE) ||| ((m >>> 1) &&& 0x7F7F7F7F7F7F7F7F) ||| (m <<< 8) ||| (m >>> 8)
/-- What `n` hops over live routers reach. -/
def flood (live m : W64) : Nat → W64
  | 0 => m
  | n + 1 => flood live (spread m &&& live) n
/-- The lowest position of a set, as a set. -/
def lowestOf (m : W64) : W64 := m &&& (0 - m)
/-- The positions whose controller links are in use: the lowest live core of each side (R205). -/
def linksInUse (live : W64) : W64 :=
  lowestOf (live &&& 0xFF) ||| lowestOf (live &&& 0xFF00000000000000)
    ||| lowestOf (live &&& 0x0101010101010101) ||| lowestOf (live &&& 0x8080808080808080)
/-- Live cores without a path to the die controller (R205). -/
def cutOff (live : W64) : W64 := live &&& ~~~(flood live (linksInUse live) 64)

/-- Set or read the route tables of a die. -/
def Dev.routeMask (d : Dev) (w : Nat) : W64 := smGet 0 d.routes w
def Dev.setRoutes (d : Dev) (w : Nat) (live : W64) : Dev := { d with routes := smSet 0 d.routes w live }
/-- Hops from position `i` to the nearest of the positions `t` over the routers `live`, if there is a way (R207). -/
def hopsTo (live t : W64) (i : BitVec 6) : Option Nat := (List.range 64).find? fun n => (flood live (t &&& live) n).getLsbD i.toNat
/-- The positions next to `i` in the 8 by 8 pattern. -/
def besides (i : BitVec 6) : List (BitVec 6) :=
  (if posX i < 7 then [i + 1] else []) ++ (if 0 < posX i then [i - 1] else []) ++
    (if posY i < 7 then [i + 8] else []) ++ (if 0 < posY i then [i - 8] else [])
/-- Where router `i` of die `w` sends a message for `dst` by tables computed from `live`: `some none` where it delivers the
message itself, to its core or over its link to the die controller; none where the tables hold no route. Of several next
routers on a route of fewest hops the table names one (R205, R207; DESIGN CHOICE, log entry 82). -/
def routeStep (w : Nat) (live : W64) (i : BitVec 6) (dst : Option (BitVec 6)) : Option (Option (BitVec 6)) :=
  let t : W64 := match dst with | some q => 1#64 <<< q.toNat | none => linksInUse live
  match hopsTo live t i with
  | none => none
  | some 0 => some none
  | some (n + 1) =>
    let l := (besides i).filter fun q => live.getLsbD q.toNat && hopsTo live t q == some n
    some (l[Config.routeChoice w i.toNat (match dst with | some q => q.toNat | none => 64) % l.length]?)
/-- Flits of a message of each class (R206). -/
def flitsOk (cls : BitVec 3) (flits : BitVec 4) : Bool :=
  match cls.toNat with
  | 1 => flits == 2 | 2 => flits == 8 | 3 => flits == 1 | 4 => decide (3 ≤ flits.toNat) && decide (flits.toNat ≤ 5) | _ => false
/-- A message enters live router `at'`, which fixes its route there (R207, R208). -/
def Dev.ctlEnter (p : Part) (d : Dev) (w : BitVec 4) (at' : BitVec 6) (dst : Option (BitVec 6)) (cls : BitVec 3) (flits : BitVec 4)
    (f : Option FaultRec) : Option Dev :=
  if !(d.liveMask p w.toNat).getLsbD at'.toNat then none
  else (routeStep w.toNat (d.routeMask w.toNat) at' dst).map fun n => { d with ctlHeld := d.ctlHeld ++ [⟨w, at', dst, n, cls, flits, f⟩] }
def Dev.fenceOf (d : Dev) (w : Nat) : Option Fence := smGet none d.fence w
def Dev.setFence (d : Dev) (w : Nat) (x : Option Fence) : Dev := { d with fence := smSet none d.fence w x }
/-- Does a control router of the cores that the fence in progress covers still hold a message (R208, R216)? -/
def Dev.undrained (d : Dev) (w : Nat) : Bool :=
  match d.fenceOf w with
  | some f => d.ctlHeld.any fun y => y.die.toNat == w && f.cores.any fun x => x.1 == y.at'
  | none => false
/-- The routers of a fence are removed from the tables once they have forwarded what they held (R207, R208). -/
def Dev.drainRoutes (p : Part) (d : Dev) (w : Nat) : Dev :=
  if (d.fenceOf w).isSome && !d.undrained w then d.setRoutes w (d.liveMask p w) else d
/-- A held message goes to another next router: the tables no longer lead over the one it had, or its core has been fenced. One
for a fenced core goes on to the die controller, which answers for that core (R217), and where no way is left over live
routers the die controller takes it at once: it is never lost (R208; DESIGN CHOICE, log entry 101). -/
def Dev.ctlReroute (p : Part) (d : Dev) (w : BitVec 4) (x : CtlMsg) : CtlMsg :=
  let live := d.liveMask p w.toNat
  let dst := match x.dst with | some q => if live.getLsbD q.toNat then some q else none | none => none
  match routeStep w.toNat (live ||| 1#64 <<< x.at'.toNat) x.at' dst with
  | some n => { x with dst := dst, next := n }
  | none => { x with dst := none, next := none }
/-- A message enters the router of its core, or from the die controller: one of class 2 is the oldest record of that core that
waits, on its way to the die controller (R206, R515, R517). -/
def Dev.ctlStart (p : Part) (d : Dev) (w : BitVec 4) (at' : BitVec 6) (dst : Option (BitVec 6)) (cls : BitVec 3) (flits : BitVec 4) : Option Dev :=
  if cls = 2 then
    match d.recOut.find? fun x => x.1 == ⟨w, at'⟩ && dst.isNone with
    | none => none
    | some x => Dev.ctlEnter p { d with recOut := d.recOut.erase x } w at' none cls flits (some x.2)
  else d.ctlEnter p w at' dst cls flits none
/-- A message is delivered: one that reaches the die controller counts, and a record goes on to K0 (R206, R221, R517). -/
def Dev.ctlArrive (p : Part) (d : Dev) (x : CtlMsg) : Dev :=
  if x.dst.isSome then d
  else
    let d1 := d.count p (meshR x.die.toNat 0x58) 1
    match x.fault with | some f => d1.sendRec f none | none => d1
/-- CONTROL_MESSAGE: a message enters its first router, or a router forwards one it holds. The classes have strict
priority, so a router forwards none while it holds one of a higher class. A held message goes on by the route it had when
it entered; where the next router has been fenced since, it is given a new one. A router that is being fenced
accepts none and forwards those it holds, and the tables lose it after that. One that is delivered to the die controller counts
(R205 to R208, R221). -/
def execControlMessage (w : BitVec 4) (at' : BitVec 6) (cls : BitVec 3) (flits : BitVec 4) (move : CtlMove) (s : State) : Out :=
  let dst := move.dst
  s.upd fun p _ d =>
    if !flitsOk cls flits then d
    else if move.enter then (d.ctlStart p w at' dst cls flits).getD d
    else
      match d.ctlHeld.find? fun x => x.die == w && x.at' == at' && x.cls == cls && x.dst == dst && x.flits == flits with
      | none => d
      | some x =>
        if d.ctlHeld.any fun y => y.die == w && y.at' == at' && decide (y.cls.toNat < cls.toNat) then d
        else
          let gone : Dev := { d with ctlHeld := d.ctlHeld.erase x }
          match x.next with
          | none => (gone.ctlArrive p x).drainRoutes p w.toNat
          | some q =>
            match gone.ctlEnter p w q dst cls flits x.fault with
            | some e => e.drainRoutes p w.toNat
            | none => { gone with ctlHeld := gone.ctlHeld ++ [d.ctlReroute p w x] }

/-! ### Fencing (R215 to R221) -/

def Dev.fenceWait (d : Dev) (w : Nat) : List (BitVec 6 × BitVec 4) := smGet [] d.fenceQ w
def Dev.setFenceWait (d : Dev) (w : Nat) (l : List (BitVec 6 × BitVec 4)) : Dev := { d with fenceQ := smSet [] d.fenceQ w l }
/-- A request to fence a core: one for a fused-out or fenced core has no effect and raises a Notice; another
is taken up when no fence is in progress (R215). -/
def Dev.fenceRequest (p : Part) (d : Dev) (w : Nat) (core : BitVec 6) (cause : Nat) : Dev :=
  if (d.liveMask p w).getLsbD core.toNat then d.setFenceWait w (d.fenceWait w ++ [(core, BitVec.ofNat 4 cause)])
  else d.fault p w core.toNat 0 0x0207 (core.zeroExtend 64) (BitVec.ofNat 64 cause)
/-- FENCE_REQ: MESH.FENCE_REQ written (R215, R221). -/
def execFenceReq (w : BitVec 4) (core : BitVec 6) (go : Bool) (s : State) : Out :=
  s.upd fun p _ d => if go then d.fenceRequest p w.toNat core 1 else d
/-- REGION_SUPPLY_FAULT: a supply or clock fault in a core's power domain (R215). -/
def execRegionSupplyFault (w : BitVec 4) (core : BitVec 6) (s : State) : Out :=
  s.upd fun p _ d => d.fenceRequest p w.toNat core 3

/-- A core leaves service: its queues, transfers and lobbies are gone and it reads FENCED; the die controller takes the records
it had not sent (R216, R517; DESIGN CHOICE, log entry 101). -/
def Dev.fenceCore (p : Part) (d : Dev) (w : Nat) (core : BitVec 6) : Dev :=
  let c : CoreId := ⟨BitVec.ofNat 4 w, core⟩
  let left : Dev := { d with
    records := d.records ++ (d.recOut.filter fun x => x.1 == c).map Prod.snd
    recOut := d.recOut.filter fun x => x.1 != c }
  ((left.dropCoreRegs p c).modCore c fun k => k.afterReset .fenced).setF p (meshR w 0x10) core.toNat 1 1
/-- Fence a list of cores. -/
def Dev.fenceCores (p : Part) (d : Dev) (w : Nat) : List (BitVec 6) → Dev
  | [] => d
  | c :: cs => Dev.fenceCores p (d.fenceCore p w c) w cs
/-- Positions of a set. -/
def positions (m : W64) : List (BitVec 6) := ((List.range 64).filter m.getLsbD).map (BitVec.ofNat 6)
/-- Give LOST to every barrier that has one of these cores as a member; answers those that gained it. -/
def Dev.loseBars (p : Part) (d : Dev) (w : Nat) (m : W64) : List Nat → Dev × List (BitVec 4)
  | [] => (d, [])
  | b :: bs =>
    if d.barMask p w b &&& m ≠ 0 ∧ d.barLost p w b = false then
      let z := Dev.loseBars p (d.setB p (barReg w b 8) 16 true) w m bs
      (z.1, BitVec.ofNat 4 b :: z.2)
    else Dev.loseBars p d w m bs

/-- FENCE_START: the oldest waiting request is taken up; the core and every live core it cuts off from the
die controller leave service, the route tables are computed afresh once their routers have drained, and barriers lose their members (R205, R207, R208,
R215, R216). -/
def execFenceStart (w : BitVec 4) (s : State) : Out :=
  s.upd fun p _ d =>
    let n := w.toNat
    match d.fenceOf n, d.fenceWait n with
    | none, (core, cause) :: rest =>
      let d := d.setFenceWait n rest
      if !(d.liveMask p n).getLsbD core.toNat then d.fault p n core.toNat 0 0x0207 (core.zeroExtend 64) (cause.zeroExtend 64)
      else
        let cut := cutOff (d.liveMask p n &&& ~~~(1#64 <<< core.toNat))
        let cores := (core, cause) :: (positions cut).map fun c => (c, 4#4)
        let states := cores.map fun x => (x.1, x.2, (d.core ⟨w, x.1⟩).st)
        let d1 := d.fenceCores p n (cores.map Prod.fst)
        let z := d1.loseBars p n (cut ||| (1#64 <<< core.toNat)) (List.range 16)
        let d2 := (z.1.setB p (meshR n 0x20) 0 true).setF p (meshR n 0x20) 8 6 core.toNat
        ((d2.setF p (meshR n 0x20) 16 4 cause.toNat).setFence n (some ⟨states, z.2⟩)).drainRoutes p n
    | _, _ => d

/-- Code of a core state (R49). -/
def stateCode : CoreState → Nat
  | .reset => 0 | .idle => 1 | .run => 2 | .wait => 3 | .halt => 4 | .fault => 5 | .fenced => 6
/-- The faults of a fence for each of its cores (R220). -/
def Dev.fenceFaults (p : Part) (d : Dev) (w : Nat) : List (BitVec 6 × BitVec 4 × CoreState) → Dev
  | [] => d
  | (c, cause, st) :: xs =>
    let d := d.fault p w c.toNat 2 0x0204 (cause.zeroExtend 64) (BitVec.ofNat 64 (stateCode st))
    let d := if st = .run ∨ st = .wait ∨ st = .halt ∨ st = .fault then
      d.fault p w c.toNat 3 0x0205 (cause.zeroExtend 64) (BitVec.ofNat 64 (stateCode st)) else d
    Dev.fenceFaults p d w xs
/-- One Party-fatal fault of the die per barrier that gained LOST (R220). -/
def Dev.lostFaults (p : Part) (d : Dev) (w : Nat) : List (BitVec 4) → Dev
  | [] => d
  | b :: bs => Dev.lostFaults p (d.fault p w 0 3 0x0206 (b.zeroExtend 64)) w bs

/-- Step 6 of the fence in progress at die `n` (R216, R220, R221). DEDUCED, log entry 27. -/
def Dev.fenceEnd (p : Part) (d : Dev) (n : Nat) : Dev :=
  match d.fenceOf n with
  | none => d
  | some f =>
    let d1 := (d.setB p (meshR n 0x20) 0 false).setF p (meshR n 0x20) 32 32 (lowT (d.dieCount n))
    let d2 := d1.setF p (meshR n 0) 8 7 (d1.fld p (meshR n 0) 8 7 + f.cores.length)
    ((d2.fenceFaults p n f.cores).lostFaults p n f.bars).setFence n none
/-- FENCE_COMPLETE: step 6 comes after the control routers have drained (R208, R216). -/
def execFenceComplete (w : BitVec 4) (s : State) : Out := s.upd fun p _ d => if d.undrained w.toNat then d else d.fenceEnd p w.toNat

end Sys2Proof.Machine
end

