-- ==== Sys2Proof/Machine/Memory.lean ====
section
/-! DEFINITION. The Larder dies: GDDR7 requests and channels, inline check, error records, INIT, MAP,
ownership and hand-off, and the exactly-once stores (R305 to R330, R396 to R422). -/

namespace Sys2Proof.Machine

/-! ### Channels and lines (R308 to R312, R325) -/

def chanIx (ch : ChanId) : Nat := 12 * ch.l.toNat + ch.k.val
def chanR (c off : Nat) : Nat := memR (c / 12) (c % 12) off
def Dev.chan (d : Dev) (c : Nat) : MemChan := smGet {} d.chans c
def Dev.setChan (d : Dev) (c : Nat) (x : MemChan) : Dev := { d with chans := smSet {} d.chans c x }
/-- Channel state: 0 OFF, 1 TRAIN, 2 OPEN, 3 RETRAIN, 4 SELF, 5 DOWN (R330). -/
def Dev.chanSt (p : Part) (d : Dev) (c : Nat) : Nat := d.fld p (chanR c 0) 0 3
def Dev.setChanSt (p : Part) (d : Dev) (c st : Nat) : Dev := d.setF p (chanR c 0) 0 3 st
/-- Memory key of a byte of a row of a bank of a sub-channel of the device of channel c (R308). -/
def devKey (c row bank sub byte : Nat) : Nat := c * 0x100000000 + ((row * 16 + bank) * 4 + sub) * 2048 + byte
/-- Sub-channel, column, row and bank of a channel line (R312). -/
def lineSub (lam : Nat) : Nat := lam % 4
def lineCol (lam : Nat) : Nat := lam / 4 % 16
def lineRow (lam : Nat) : Nat := lam / 1024
def lineBank (lam : Nat) : Nat := lam / 64 % 16 ^^^ lineRow lam % 16
/-- The channel line at a place. -/
def lineAt (row bank sub col : Nat) : Nat := row * 1024 + (bank ^^^ row % 16) * 64 + col * 4 + sub
/-- Memory key of byte `b` of channel line `lam` of channel c: where the device holds it. -/
def cellKey (c lam b : Nat) : Nat := devKey c (lineRow lam) (lineBank lam) (lineSub lam) (128 * lineCol lam + b)
/-- Memory key of the two check words of a channel line, four bytes of a check row of another bank (R313). -/
def checkKey (p : Part) (c lam : Nat) : Nat :=
  devKey c (p.checkedRows + lineRow lam / 32) (lineBank lam ^^^ 8) (lineSub lam) (64 * (lineRow lam % 32) + 4 * lineCol lam)
/-- The check words of a line: one for each 64-byte half (R317). -/
def lineCheck (lam : Nat) (line : List Byte) : List Byte :=
  leBytes 2 (Config.checkCode lam (line.take 64)).toNat ++ leBytes 2 (Config.checkCode lam (line.drop 64)).toNat
/-- Bytes as the device holds them where its listed memory stands for their difference from `base`; none differs where that is
empty. -/
def overBase (base bs : List Byte) : List Byte := if base.isEmpty then bs else (bs.zip base).map fun x => x.1 ^^^ x.2
/-- What the listed check words of a line differ from: those that INIT wrote, if it wrote any (R319). -/
def Dev.wordBase (d : Dev) (c lam : Nat) : List Byte :=
  if smGet false d.chkInit (c / 12) then lineCheck lam (List.replicate 128 0) else []
/-- What the listed bytes of a line differ from: in a check row, which is data only while CHECK is off, the check words of zeros
that INIT wrote there (R308, R313, R319). -/
def Dev.lineBase (p : Part) (d : Dev) (c lam : Nat) : List Byte :=
  if smGet false d.chkInit (c / 12) && decide (p.checkedRows ≤ lineRow lam) then
    (List.range 32).flatMap fun i =>
      let row := (lineRow lam - p.checkedRows) * 32 + 2 * lineCol lam + i / 16
      if row < p.checkedRows then lineCheck (lineAt row (lineBank lam ^^^ 8) (lineSub lam) (i % 16)) (List.replicate 128 0)
      else List.replicate 4 0
  else []
/-- Memory key of a local GDDR7 address. -/
def Dev.gddrKey (p : Part) (d : Dev) (a : Nat) : Nat :=
  let x := d.channelOf p a
  cellKey x.1 x.2 (a % 128)
/-- Local address of a channel line under the map (R310, R311). -/
def Dev.lineAddr (p : Part) (d : Dev) (c lam : Nat) : Nat :=
  let u := d.usable p
  let r := d.fld p (memcR 0 8) 8 8 * 0x2000000
  let inter := (u - r) / 128
  if lam < inter then (lam * 48 + c) * 128 else 48 * (u - r) + c * r + (lam - inter) * 128
def isOpen (p : Part) (d : Dev) : Bool := d.bit p (memcR 0 0) 0
def Dev.initBusy (p : Part) (d : Dev) (l : Nat) : Bool := d.bit p (memcR l 0x20) 0
def Dev.anyInit (p : Part) (d : Dev) : Bool := (List.range 4).any fun l => d.initBusy p l

/-! ### Error records (R323, R324) -/

def recR (l r off : Nat) : Nat := memcR l (0x1000 + 0x18 * r + off)
def Dev.recValid (p : Part) (d : Dev) (l r : Nat) : Bool := d.bit p (recR l r 0) 55
def Dev.recCorr (p : Part) (d : Dev) (l r : Nat) : Bool := d.fld p (recR l r 0) 52 2 == 1
/-- Ticks in a scrub period. -/
def Dev.scrubPeriod (p : Part) (d : Dev) (l : Nat) : Nat := d.fld p (memcR l 0x18) 0 8 * 4320000000000
/-- The corrected record to replace: the one whose first event is oldest. -/
def Dev.oldestCorr (p : Part) (d : Dev) (l : Nat) : Option Nat :=
  ((List.range 64).filter (d.recCorr p l)).foldl (fun b r => match b with
    | none => some r
    | some x => if elapsed d.now (d.get p (recR l x 8)) < elapsed d.now (d.get p (recR l r 8)) then some r else some x) none
/-- A corrected event counts toward WEAK (R324). -/
def Dev.weakEvent (p : Part) (d : Dev) (l k r a : Nat) (inj : Bool) : Dev :=
  let now := d.dieCount (16 + l)
  let log := ((smGet [] d.weakLog (64 * l + r)).filter fun t => decide (elapsed now t < d.scrubPeriod p l)) ++ [now]
  let d := { d with weakLog := smSet [] d.weakLog (64 * l + r) log }
  if 8 ≤ log.length ∧ d.bit p (recR l r 0) 54 = false then
    (d.setB p (recR l r 0) 54 true).fault p (16 + l) k 2 0x0506 (BitVec.ofNat 64 a) (BitVec.ofNat 64 log.length) inj
  else d
/-- Put an event on a new line into record r. -/
def Dev.newRecord (p : Part) (d : Dev) (l k r a ty : Nat) (inj : Bool) : Dev :=
  let now := d.dieCount (16 + l)
  let w := BitVec.ofNat 64 (a + k * 2 ^ 48 + ty * 2 ^ 52 + 2 ^ 55 + 2 ^ 56)
  let d := ((d.put p (recR l r 0) w).put p (recR l r 8) now).put p (recR l r 0x10) now
  let d : Dev := { d with weakLog := smSet [] d.weakLog (64 * l + r) [] }
  if ty = 1 then d.weakEvent p l k r a inj else d.fault p (16 + l) k 0 0x0503 (BitVec.ofNat 64 a) 1 inj
/-- Record an error event of a line: type 1 corrected, 2 uncorrectable, 3 uncorrectable found by scrub. A corrected
line whose record turns uncorrectable raises the Notice of R318 (log entry 33). -/
def Dev.memRecord (p : Part) (d : Dev) (l k a ty : Nat) (inj : Bool) : Dev :=
  let held := (List.range 64).find? fun r => d.recValid p l r && d.fld p (recR l r 0) 0 48 == a
  match held with
  | some r =>
    let old := d.fld p (recR l r 0) 52 2
    let d := d.setF p (recR l r 0) 56 8 (min 255 (d.fld p (recR l r 0) 56 8 + 1))
    let d := (d.put p (recR l r 0x10) (d.dieCount (16 + l))).setF p (recR l r 0) 52 2 (if ty = 1 ∧ old ≠ 1 then old else ty)
    if ty = 1 then d.weakEvent p l k r a inj
    else if old = 1 then d.fault p (16 + l) k 0 0x0503 (BitVec.ofNat 64 a) 1 inj else d
  | none =>
    match (List.range 64).find? fun r => !d.recValid p l r with
    | some r => d.newRecord p l k r a ty inj
    | none =>
      match d.oldestCorr p l with
      | some r => d.newRecord p l k r a ty inj
      | none => (d.count p (memcR l 0x100) 1).fault p (16 + l) k 0 0x0507 (BitVec.ofNat 64 a) (BitVec.ofNat 64 ty) inj

/-! ### One line against its device (R314, R317, R318) -/

/-- Is the line at this key uncorrectable: a mark, or check words that do not match (R318, R319)? -/
def Dev.lineBad (p : Part) (d : Dev) (key : Nat) : Bool :=
  d.checkOn p && ((d.mark key).getLsbD 1
    || (smGet false d.chkStale (key / 0x100000000 / 12) && !smGet false d.chkOk (key / 128)))
/-- What a code word of one 64-byte half makes of the bits that read inverted: `some false` when it corrects them, `some true`
when it detects them, none where R317 states neither. -/
def halfSeen (flips : List Nat) : Option Bool :=
  match flips with
  | [] | [_] => some false
  | [_, _] => some true
  | i :: rest => if rest.all fun j => j / 8 == i / 8 then some true else none
/-- The half of a line that a bit of its data or check words belongs to. -/
def halfOf (i : Nat) : Nat := if i < 1024 then i / 512 else (i - 1024) / 16
/-- Bits of a line that read inverted: those met, and the check bit that an injection inverted (R527, R528; log entry 89). -/
def Dev.inverted (d : Dev) (key : Nat) (met : List Nat) : List Nat :=
  let l := met.eraseDups.filter fun i => decide (i < 1056)
  if !(d.mark key).getLsbD 0 then l else if l.contains 1024 then l.filter (· != 1024) else 1024 :: l
/-- Bytes with bits inverted. -/
def flipBits (bs : List Byte) (flips : List Nat) : List Byte :=
  bs.zipIdx.map fun x => flips.foldl (fun b i => if i / 8 = x.2 then b ^^^ (1 <<< (i % 8)) else b) x.1
/-- A line as its check leaves it: uncorrectable, corrected, and the inverted bits that stay. -/
structure LineSeen where
  bad : Bool
  fixed : Bool
  stay : List Nat
/-- The check of a line (R317). Where the code states nothing of what it meets, a free bit for each half says whether it is
detected or stays. DEDUCED, log entry 89. -/
def Dev.checkSeen (p : Part) (d : Dev) (key : Nat) (met : List Nat) (wrong : Bool) : Dev × LineSeen :=
  if !d.checkOn p then (d, ⟨false, false, met⟩)
  else if d.lineBad p key || wrong then (d, ⟨true, false, []⟩)
  else
    let l := d.inverted key met
    let half (h : Nat) : List Nat := l.filter fun i => halfOf i == h
    let v0 := halfSeen (half 0)
    let v1 := halfSeen (half 1)
    let z : W64 × Dev := if v0.isNone || v1.isNone then d.fresh else (0, d)
    if v0.getD (z.1.getLsbD 0) || v1.getD (z.1.getLsbD 1) then (z.2, ⟨true, false, []⟩)
    else (z.2, ⟨false, (v0.isSome && !(half 0).isEmpty) || (v1.isSome && !(half 1).isEmpty),
      (if v0.isNone then half 0 else []) ++ if v1.isNone then half 1 else []⟩)
/-- A line's check has been read: an uncorrectable line is recorded and stays so until it is written whole, a corrected one is
written back, recorded and raised (R318, R322). Answers the inverted bits that stay, or none for an uncorrectable line. -/
def Dev.checkLine (p : Part) (d0 : Dev) (c a key : Nat) (met : List Nat) (wrong scrub : Bool) : Dev × Option (List Nat) :=
  let inj := (d0.mark key).getLsbD 2
  let z := d0.checkSeen p key met wrong
  let d := z.1
  if z.2.bad then
    let d1 := if d.lineBad p key then d else d.setMark key (d.mark key ||| 2)
    ((d1.count p (chanR c 0x120) 1).memRecord p (c / 12) (c % 12) a (if scrub then 3 else 2) inj, none)
  else if z.2.fixed then
    let d := ((d.setMark key 0).count p (chanR c 0x118) 1).memRecord p (c / 12) (c % 12) a 1 inj
    (d.fault p (16 + c / 12) (c % 12) 1 0x0502 (BitVec.ofNat 64 a) 0 inj, some z.2.stay)
  else (d, some z.2.stay)
/-- The other channel line that a read takes for line `lam`, if it does. -/
def elsewhere (x : MemEvent) (lam : Nat) : Option Nat :=
  match x.wrong with
  | some y => if y.toNat = lam then none else some y.toNat
  | none => none
/-- A line is read: the device, what its cells come to hold, and its 128 bytes, or none for an uncorrectable line. -/
def Dev.readLine (p : Part) (m : List Host.Cell) (d : Dev) (c lam a : Nat) (seen : MemEvent) : Dev × Wr × Option (List Byte) :=
  let key := cellKey c lam 0
  let other := elsewhere seen lam
  let z := d.checkLine p c a key (seen.flips.map BitVec.toNat) other.isSome false
  match z.2 with
  | none => (z.1, [], none)
  | some stay =>
    let base := d.lineBase p c lam
    let bs := flipBits (overBase base (Memory.read m key 128)) stay
    (match other with
    | some l => (z.1, [], some (overBase (d.lineBase p c l) (Memory.read m (cellKey c l 0) 128)))
    | none => (z.1, if stay.isEmpty then [] else [(key, overBase base bs)], some bs))
/-- A line is written with valid check words, but for an injected error (R314, R527): the device, and the cells of the check
words. -/
def Dev.freshLine (p : Part) (d : Dev) (c lam : Nat) (line : List Byte) : Dev × Wr :=
  let key := cellKey c lam 0
  let d := d.produce p (16 + c / 12) 8 (c % 12) key 128 1
  (if smGet false d.chkStale (c / 12) then { d with chkOk := smSet false d.chkOk (key / 128) true } else d,
    if d.checkOn p then [(checkKey p c lam, overBase (d.wordBase c lam) (lineCheck lam line))] else [])

/-- Signed 64-bit value. -/
def s64 (x : W64) : Int := x.toInt
/-- What an atomic stores, if it stores (R410). -/
def atomicNew (op : Nat) (old a b : BitVec 128) : Option (BitVec 128) :=
  let o : W64 := old.extractLsb' 0 64
  let x : W64 := a.extractLsb' 0 64
  match op with
  | 0 => some ((o + x).zeroExtend 128)
  | 1 => some (x.zeroExtend 128)
  | 2 => some ((if s64 x < s64 o then x else o).zeroExtend 128)
  | 3 => some ((if s64 o < s64 x then x else o).zeroExtend 128)
  | 4 => if o = x then some ((b.extractLsb' 0 64 : W64).zeroExtend 128) else none
  | _ => if old = a then some b else none
/-- Bytes an atomic acts on. -/
def atomicSize (op : Nat) : Nat := if op = 5 then 16 else 8
/-- An atomic on `old` bytes: the bytes it stores, if any. -/
def atomicBytes (op : Nat) (old : List Byte) (a b : BitVec 128) : Option (List Byte) :=
  (atomicNew op (BitVec.ofNat 128 (leNat old)) a b).map fun x => leBytes (atomicSize op) x.toNat
/-- Does the request name a defined, aligned atomic? -/
def atomicOk (op : BitVec 4) (addr : Nat) : Bool := decide (op.toNat < 6) && addr % atomicSize op.toNat == 0

/-! ### Shape of requests (R397) -/

/-- A READ or WRITE of n bytes at a: 16 to 512 bytes, on a 16-byte boundary, within a 512-byte block. -/
def shapeOk (a n : Nat) : Bool :=
  decide (16 ≤ n) && decide (n ≤ 512) && a % 16 == 0 && n % 16 == 0 && decide (a % 512 + n ≤ 512)
/-- The pieces of [a, a + n) line by line. -/
def lineParts (a n : Nat) : List (Nat × Nat) :=
  (List.range 5).filterMap fun i =>
    let lo := max a (a / 128 * 128 + 128 * i)
    let hi := min (a + n) (a / 128 * 128 + 128 * (i + 1))
    if lo < hi then some (lo, hi - lo) else none
/-- Bytes a request touches. -/
def reqSize (r : Req) : Nat :=
  match r.op with
  | .read n => 16 * n.toNat
  | .write data => data.length
  | .atomic op _ _ _ _ => atomicSize op.toNat
  | _ => 0

/-! ### Responses -/

/-- The response to a request of this node (R276, R278). -/
def Dev.respTo (p : Part) (d : Dev) (r : Req) (st : BitVec 7) (data : List Byte) : Resp :=
  let pl := d.place p (gaLocal r.addr)
  { dst := r.src, tag := r.tag, status := st, data := data, from' := BitVec.ofNat 5 (d.placeSite p pl), node := d.node, origin := placeRouter pl }
/-- Answer a request. -/
def Dev.answer (p : Part) (d : Dev) (r : Req) (st : BitVec 7) (data : List Byte := []) : Dev := d.send (.resp (d.respTo p r st data))

/-! ### Ownership (R406, R407, R418) -/

def ptyR (e off : Nat) : Nat := latcR (0xB0000 + 0x100 * e + off)
def Dev.ptySt (p : Part) (d : Dev) (e : Nat) : Nat := d.fld p (ptyR e 0x10) 0 2
def Dev.ptyNo (p : Part) (d : Dev) (e : Nat) : Nat := d.fld p (ptyR e 0) 0 16
/-- Is a party active: party 0, or an entry in ACTIVE (R407)? -/
def Dev.partyActive (p : Part) (d : Dev) (party : BitVec 16) : Bool :=
  party == 0 || (List.range 16).any fun e => d.ptySt p e == 1 && d.ptyNo p e == party.toNat
/-- Ownership of a region. -/
def Dev.region (d : Dev) (i : Nat) : Region := (smGet none d.regions i).getD { owner := d.node, party := 0, moving := false }
def Dev.setRegion (d : Dev) (i : Nat) (r : Region) : Dev :=
  { d with regions := smSet none d.regions i (if r = { owner := d.node, party := 0, moving := false } then none else some r) }
/-- The check of a write or atomic at local address a (R407). -/
def Dev.ownerCheck (p : Part) (d : Dev) (node : BitVec 16) (a : Nat) : Option (BitVec 7) :=
  let r := d.region (a / 0x200000)
  if r.moving then some stRegionMoving
  else if r.owner ≠ node then some stNotOwner
  else if d.partyActive p r.party && !r.cut then none else some stPartyAborted
/-- Count of refusals under R407. -/
def Dev.refuseOwner (p : Part) (d : Dev) (l : Nat) : Dev := d.count p (memcR l 0x118) 1

/-! ### Exactly-once stores (R411, R412, R415) -/

def Dev.store (d : Dev) (site : Nat) : List SEntry := smGet [] d.stores site
def Dev.setStore (d : Dev) (site : Nat) (l : List SEntry) : Dev := { d with stores := smSet [] d.stores site l }
def storeCap (site : Nat) : Nat := if isL site then 131072 else 32768
def Dev.cntAhit (p : Part) (d : Dev) (site : Nat) : Dev :=
  d.count p (if isL site then memcR (site - 16) 0x108 else cmnR site 0x140) 1
def Dev.cntAbusy (p : Part) (d : Dev) (site : Nat) : Dev :=
  d.count p (if isL site then memcR (site - 16) 0x110 else cmnR site 0x148) 1
/-- Release the finished entries of a source that an ASEQ leaves 256 or more behind (R412). -/
def Dev.releaseOld (d : Dev) (site : Nat) (src : Src) (aseq : BitVec 16) : Dev :=
  d.setStore site ((d.store site).filter fun e =>
    !(e.src == src && e.result.isSome && decide (256 ≤ (aseq - e.aseq).toNat) && decide ((aseq - e.aseq).toNat < 32768)))
/-- The store lookup of an arriving attempt: the device after it, and whether the attempt goes on to be
checked and performed (R412, R415). DEDUCED, log entry 35. -/
def Dev.storeLookup (p : Part) (d : Dev) (site : Nat) (r : Req) (attempt : BitVec 2) (aseq : BitVec 16) : Dev × Bool :=
  let d := d.releaseOld site r.src aseq
  match (d.store site).find? fun e => e.src == r.src && e.aseq == aseq with
  | some e =>
    let d := d.cntAhit p site
    (match e.result with
    | some (st, data, _) => (d.answer p r st data, false)
    | none => (d.setStore site ((d.store site).map fun x => if x.src == r.src && x.aseq == aseq then { x with waiting := x.waiting ++ [r] } else x), false))
  | none =>
    if attempt ≠ 0 ∧ elapsed (d.dieCount site) d.lastReset < 60000 then (d.answer p r stUncertain, false)
    else if storeCap site ≤ (d.store site).length then ((d.cntAbusy p site).answer p r stBusy, false)
    else (d.setStore site (d.store site ++ [{ src := r.src, aseq := aseq }]), true)
/-- Answer every attempt that waited. -/
def Dev.answerAll (p : Part) (d : Dev) (rs : List Req) (st : BitVec 7) (data : List Byte) : Dev :=
  rs.foldl (fun d r => d.answer p r st data) d
/-- An atomic has its result: the entry keeps it, and the attempt and those that waited are answered. -/
def Dev.storeResult (p : Part) (d : Dev) (site : Nat) (r : Req) (aseq : BitVec 16) (st : BitVec 7) (data : List Byte) : Dev :=
  let w := match (d.store site).find? fun e => e.src == r.src && e.aseq == aseq with | some e => e.waiting | none => []
  let d1 := d.setStore site ((d.store site).map fun e =>
    if e.src == r.src && e.aseq == aseq then { e with result := some (st, data, d.dieCount site), waiting := [] } else e)
  (d1.answer p r st data).answerAll p w st data

/-- STORE_ENTRY_RELEASE: an entry is released 60,000 ticks after its result was written (R412). -/
def execStoreEntryRelease (die : BitVec 5) (src : Src) (aseq : BitVec 16) (s : State) : Out :=
  s.upd fun _ _ d => d.setStore die.toNat ((d.store die.toNat).filter fun e =>
    !(e.src == src && e.aseq == aseq &&
      (match e.result with | some (_, _, t) => decide (60000 ≤ elapsed (d.dieCount die.toNat) t) | none => false)))

/-! ### Requests at an L die (R314, R315, R326) -/

/-- End a request with a status, through the store for an atomic. -/
def Dev.endReq (p : Part) (d : Dev) (site : Nat) (r : Req) (st : BitVec 7) (data : List Byte) : Dev :=
  match r.op with
  | .atomic _ _ _ _ aseq => d.storeResult p site r aseq st data
  | _ => d.answer p r st data
/-- Requests in a channel's queue. -/
def MemChan.held (x : MemChan) : Nat := (x.q.map GAcc.id).eraseDups.length
/-- The queue of every channel a request needs has room: each holds up to 256 requests (R321). -/
def Dev.roomFor (p : Part) (d : Dev) (parts : List (Nat × Nat)) : Bool :=
  parts.all fun x => decide ((d.chan (d.channelOf p x.1).1).held < 256)
/-- Does this request wait behind one that came to L die `site` earlier and stays in its receive buffers: one that touches a line
of it, or one for a channel of it whose queues have room, which is taken first (R315, R321)? -/
def Dev.waitsBehind (p : Part) (d : Dev) (site : Nat) (r : Req) (parts : List (Nat × Nat)) : Bool :=
  (d.arrived.takeWhile fun x => x.2.2 != .req r).any fun x => x.1 == site && (match x.2.2 with
    | .req y => (match d.place p (gaLocal y.addr) with
      | .gddr b =>
        let its := lineParts b (reqSize y)
        its.any fun u => parts.any fun w => u.1 / 128 == w.1 / 128
          || (d.roomFor p its && (d.channelOf p u.1).1 == (d.channelOf p w.1).1)
      | _ => false)
    | _ => false)
/-- A request stays in the lattice receive buffers of its L die, in arrival order (R321). -/
def Dev.stays (d : Dev) (site : Nat) (r : Req) : Dev :=
  if d.net.contains (.req r) then
    Dev.offMesh { d with net := d.net.erase (.req r), arrived := d.arrived ++ [(site, bodyVc (.req r), .req r)] } (.req r)
  else d
/-- Put the line accesses of a request into their channels' queues. -/
def Dev.enqueue (p : Part) (d : Dev) (id : Nat) : List (Nat × Nat) → Dev
  | [] => d
  | (a, n) :: r =>
    let c := (d.channelOf p a).1
    Dev.enqueue p (d.setChan c { d.chan c with q := (d.chan c).q ++ [⟨id, a, n⟩] }) id r
/-- Accept a request: its line accesses wait in the channels' queues; a write of whole lines is answered as
it enters them (R315). -/
def Dev.accept (p : Part) (d : Dev) (r : Req) (a : Nat) : Dev :=
  let parts := lineParts a (reqSize r)
  let whole := match r.op with | .write _ => parts.all fun x => x.2 == 128 | _ => false
  let g : GReq := { id := d.gnext, req := r, left := parts.length, answered := whole }
  let d1 := Dev.enqueue p { d with greqs := d.greqs ++ [g], gnext := d.gnext + 1 } d.gnext parts
  if whole then d1.answer p r stOk else d1
/-- A GDDR7 request arrives at its L die. One for a full queue, or for a line of one that waits, stays in the receive
buffers (R315, R321). -/
def Dev.gddrArrive (p : Part) (d : Dev) (r : Req) (a : Nat) : Dev :=
  let n := reqSize r
  let site := 16 + (d.channelOf p a).1 / 12
  let l := site - 16
  let parts := lineParts a n
  let down := parts.any fun x => d.chanSt p (d.channelOf p x.1).1 == 5
  let goes := d.roomFor p parts && !d.waitsBehind p site r parts
  let take (d : Dev) : Dev := d.recv (.req r)
  match r.op with
  | .read _ =>
    if !shapeOk a n then (take d).answer p r stBadRequest
    else if down then (take d).answer p r stChannelDown
    else if goes then (take d).accept p r a else d.stays site r
  | .write _ =>
    if !shapeOk a n then (take d).answer p r stBadRequest
    else match d.ownerCheck p (srcNode r.src) a with
      | some st => ((take d).refuseOwner p l).answer p r st
      | none =>
        if down then (take d).answer p r stChannelDown
        else if goes then (take d).accept p r a else d.stays site r
  | .atomic op _ _ attempt aseq =>
    if !goes then d.stays site r
    else
      let z := (take d).storeLookup p site r attempt aseq
      if !z.2 then z.1
      else if !atomicOk op a then z.1.storeResult p site r aseq stBadRequest []
      else match z.1.ownerCheck p (srcNode r.src) a with
        | some st => (z.1.refuseOwner p l).storeResult p site r aseq st []
        | none => if down then z.1.storeResult p site r aseq stChannelDown [] else z.1.accept p r a
  | _ => (take d).answer p r stBadRequest

/-- The bytes of a line with `bs` written at offset `off`. -/
def patched (line bs : List Byte) (off : Nat) : List Byte := line.take off ++ bs ++ line.drop (off + bs.length)
/-- A read-modify-write of a line: `f` makes the bytes to store from those read; a line read from elsewhere is stored back whole
(R314, R318). -/
def Dev.mergeLine (p : Part) (m : List Host.Cell) (d : Dev) (c lam : Nat) (x : GAcc) (seen : MemEvent)
    (f : List Byte → Option (List Byte)) : Dev × Wr × BitVec 7 × List Byte :=
  let off := x.addr % 128
  let z := (d.count p (chanR c 0x100) 1).readLine p m c lam (x.addr / 128 * 128) seen
  match z.2.2 with
  | none => (z.1, z.2.1, stDataError, [])
  | some line =>
    let old := (line.drop off).take x.n
    (match f old with
    | none => (z.1, z.2.1, stOk, old)
    | some bs =>
      let y := (z.1.count p (chanR c 0x108) 1).freshLine p c lam (patched line bs off)
      let base := d.lineBase p c lam
      (y.1, z.2.1 ++ (if (elsewhere seen lam).isSome then [(cellKey c lam 0, overBase base line)] else [])
        ++ [(cellKey c lam off, overBase (base.drop off) bs)] ++ y.2, stOk, old))
/-- One line access performed: the device, the bytes it writes, the status and the data read. DEDUCED, log entry 33. -/
def Dev.performLine (p : Part) (m : List Host.Cell) (d : Dev) (c : Nat) (r : Req) (x : GAcc) (seen : MemEvent := {}) :
    Dev × Wr × BitVec 7 × List Byte :=
  let lam := (d.channelOf p x.addr).2
  match r.op with
  | .read _ =>
    let z := (d.count p (chanR c 0x100) 1).readLine p m c lam (x.addr / 128 * 128) seen
    (match z.2.2 with
    | none => (z.1, z.2.1, stDataError, [])
    | some line => (z.1, z.2.1, stOk, (line.drop (x.addr % 128)).take x.n))
  | .write data =>
    let bs := (data.drop (x.addr - gaLocal r.addr)).take x.n
    if x.n = 128 then
      let z := (d.count p (chanR c 0x108) 1).freshLine p c lam bs
      (z.1, (cellKey c lam 0, overBase (d.lineBase p c lam) bs) :: z.2, stOk, [])
    else
      let z := d.mergeLine p m c lam x seen fun _ => some bs
      (z.1, z.2.1, z.2.2.1, [])
  | .atomic op a b _ _ => d.mergeLine p m c lam x seen fun old => atomicBytes op.toNat old a b
  | _ => (d, [], stBadRequest, [])

/-- A line access of request g has ended; when it was the last the request is answered. -/
def Dev.accessDone (p : Part) (d : Dev) (site : Nat) (g : GReq) (a : Nat) (st : BitVec 7) (data : List Byte) : Dev :=
  let g' := { g with left := g.left - 1, data := insertBuf a data g.data, status := if g.status = stOk then st else g.status }
  if g'.left = 0 then
    let d := { d with greqs := d.greqs.filter fun y => y.id != g.id }
    if g'.answered then d
    else d.endReq p site g.req g'.status (if g'.status = stOk then (g'.data.map Prod.snd).flatten else [])
  else { d with greqs := d.greqs.map fun y => if y.id == g.id then g' else y }

/-- Perform the access at the front of a channel's queue. -/
def Dev.serveChan (p : Part) (m : List Host.Cell) (d : Dev) (c : Nat) (seen : MemEvent) : Dev × Wr :=
  match (d.chan c).q with
  | [] => (d, [])
  | x :: rest =>
    let d := d.setChan c { d.chan c with q := rest }
    match d.greqs.find? fun g => g.id == x.id with
    | none => (d, [])
    | some g =>
      let z := d.performLine p m c g.req x seen
      (z.1.accessDone p (16 + c / 12) g x.addr z.2.2.1 z.2.2.2, z.2.1)

/-- The bursts of an access: attempts that fail their data CRC are made again, up to four times; a fifth, or 16 retries within
1,200,000 ticks, is a cause to retrain (R320, R321). A read meets an injected CRC error, which is one retry more and counts toward
neither (R527, R528). The device reports the corrections of its on-die ECC (R305, R330). -/
def Dev.bursts (p : Part) (d : Dev) (c : Nat) (reads : Bool) (seen : MemEvent) : Dev :=
  let now := d.dieCount (16 + c / 12)
  let fails := seen.crcFails.toNat
  let n := min fails 4
  let log := ((d.chan c).crc.filter fun t => decide (elapsed now t < 1200000)) ++ List.replicate n now
  let z := if reads then d.injTake p (16 + c / 12) 9 (c % 12) else (d, 0)
  let d := if z.2 = 0 then z.1 else z.1.count p (chanR c 0x110) 1
  ((d.count p (chanR c 0x110) n).count p (chanR c 0x128) seen.odecc.toNat).setChan c
    { d.chan c with crc := log, want := decide (5 ≤ fails) || decide (16 ≤ log.length) }
/-- Does the access at the front of a channel's queue read its line: all but a write of the whole line (R314)? -/
def Dev.accessReads (d : Dev) (c : Nat) : Bool :=
  match (d.chan c).q with
  | [] => false
  | x :: _ => (match d.greqs.find? fun g => g.id == x.id with
    | none => false
    | some g => (match g.req.op with | .write _ => x.n != 128 | _ => true))
/-- MEMORY_ACCESS: an OPEN channel performs its oldest request, or holds it after a fifth attempt that fails (R315, R320). -/
def execMemoryAccess (ch : ChanId) (seen : MemEvent) (s : State) : Out :=
  s.updW fun p m d =>
    let c := chanIx ch
    if d.chanSt p c ≠ 2 ∨ (d.chan c).want ∨ (d.chan c).q.isEmpty then (d, [])
    else
      let d := d.bursts p c (d.accessReads c) seen
      if 5 ≤ seen.crcFails.toNat then (d, []) else d.serveChan p m c seen

/-- REFRESH: a bank of a sub-channel is refreshed; a request for it waits. Nothing that software can read
changes (R307, R328). -/
def execRefresh (_ch : ChanId) (_sub : BitVec 2) (_bank : BitVec 4) (s : State) : Out := s.upd fun _ _ d => d

/-! ### Channel states (R321, R325, R326) -/

/-- Every access of a queue ends with CHANNEL_DOWN; the accesses its requests have on other channels stay (R326). -/
def Dev.dropQueue (p : Part) (d : Dev) (site : Nat) : List GAcc → Dev
  | [] => d
  | x :: xs =>
    Dev.dropQueue p (match d.greqs.find? fun g => g.id == x.id with
      | some g => d.accessDone p site g x.addr stChannelDown []
      | none => d) site xs
/-- A channel goes DOWN: its mask bit, the Degraded fault, and its held requests end (R325, R326). -/
def Dev.chanDown (p : Part) (d : Dev) (c : Nat) : Dev :=
  let q := (d.chan c).q
  let d := ((d.setChanSt p c 5).setB p (memcR 0 0x28) c true).setChan c { scrub := (d.chan c).scrub }
  (d.dropQueue p (16 + c / 12) q).fault p (16 + c / 12) (c % 12) 2 0x0505 (BitVec.ofNat 64 c)
/-- The memory lane group of a channel is out (R301). -/
def Dev.chanCut (d : Dev) (c : Nat) : Bool := d.roleOut (16 + c / 12) 4 (c % 12)
/-- RETRAIN: an OPEN channel with a cause enters RETRAIN and holds its requests (R320, R321). -/
def execRetrain (ch : ChanId) (s : State) : Out :=
  s.upd fun p _ d =>
    let c := chanIx ch
    if d.chanSt p c = 2 ∧ (d.chan c).want then (d.setChanSt p c 3).count p (chanR c 0x130) 1 else d
/-- The acknowledged writes in a channel's queue are performed and the rest of it is dropped (R327, R486, R500). -/
def Dev.flushQueue (p : Part) (c : Nat) : List GAcc → List Host.Cell → Dev → Dev × Wr
  | [], _, d => (d, [])
  | x :: xs, m, d =>
    match d.greqs.find? fun g => g.id == x.id with
    | none => Dev.flushQueue p c xs m d
    | some g =>
      if g.answered then
        let z := d.performLine p m c g.req x
        let y := Dev.flushQueue p c xs (applyWr m z.2.1) z.1
        (y.1, z.2.1 ++ y.2)
      else Dev.flushQueue p c xs m d
/-- A channel in OPEN performs its acknowledged writes and enters self refresh; one in RETRAIN keeps them, and nothing else,
until retraining ends (R327, R328, R500). -/
def Dev.intoSelf (p : Part) (m : List Host.Cell) (d : Dev) (c : Nat) : Dev × Wr :=
  let x := d.chan c
  if d.chanSt p c = 3 then
    (d.setChan c { x with selfDue := true, q := x.q.filter fun y => d.greqs.any fun g => g.id == y.id && g.answered }, [])
  else
    let z := d.flushQueue p c x.q m
    let d1 := z.1.setChan c { z.1.chan c with q := [] }
    (if d1.chanSt p c = 2 then d1.setChanSt p c 4 else d1, z.2)
/-- The same for a list of channels, after which the requests of no other stand at an L die. -/
def Dev.intoSelfs (p : Part) : List Nat → List Host.Cell → Dev → Dev × Wr
  | [], _, d => ({ d with greqs := d.greqs.filter fun g => d.chans.any fun x => x.2.q.any fun y => y.id == g.id }, [])
  | c :: cs, m, d =>
    let z := d.intoSelf p m c
    let y := Dev.intoSelfs p cs (applyWr m z.2) z.1
    (y.1, z.2 ++ y.2)
/-- RETRAIN_COMPLETE: OPEN again with a Corrected fault, or DOWN; a channel whose lane group has gone out meanwhile fails. After
a warm reset it performs what writes it holds and enters SELF, or OPEN where the boot step has been reached meanwhile (R321,
R325, R328). -/
def execRetrainComplete (ch : ChanId) (ok : Bool) (s : State) : Out :=
  s.updW fun p m d =>
    let c := chanIx ch
    if d.chanSt p c ≠ 3 then (d, [])
    else if !ok || d.chanCut c then (d.chanDown p c, [])
    else
      let raise (d : Dev) : Dev := d.fault p (16 + c / 12) (c % 12) 1 0x0504 (BitVec.ofNat 64 c)
      let d1 := d.setChan c { d.chan c with want := false, crc := [], selfDue := false }
      if (d.chan c).selfDue then
        let z := (d1.setChanSt p c (if d1.stopStep = 0 ∧ d1.bootReached p 5 then 2 else 4)).flushQueue p c (d.chan c).q m
        let d2 := z.1.setChan c { z.1.chan c with q := [] }
        (raise { d2 with greqs := d2.greqs.filter fun g => !(d.chan c).q.any fun y => y.id == g.id }, z.2)
      else (raise (d1.setChanSt p c 2), [])

/-- Rows of a bank that hold check words (R308). -/
def Dev.checkRows (p : Part) (d : Dev) : Nat := p.rows - d.dataRows p
/-- The lines whose check words the inverted bits of check row `row` of a bank lie in, each with those bits as bits of the line
(R313). -/
def Dev.rowHits (p : Part) (d : Dev) (row bank sub : Nat) (flips : List Nat) : List (Nat × List Nat) :=
  let at' (i : Nat) : Nat := lineAt ((row - d.dataRows p) * 32 + i / 512) (bank ^^^ 8) sub (i / 32 % 16)
  let hit := flips.eraseDups.filter fun i => decide (lineRow (at' i) < d.dataRows p)
  (hit.map at').eraseDups.map fun lam => (lam, (hit.filter fun i => at' i == lam).map fun i => 1024 + i % 32)
/-- PATROL_SCRUB_READ: an OPEN channel reads its next data line or check row at the lowest priority; a request queued for the
line makes it skip, and a fifth attempt that fails leaves it to be read after RETRAIN. An error in a check row is one of the
lines whose check words it holds (R313, R318, R320, R322). -/
def execPatrolScrubRead (x : ScrubRead) (s : State) : Out :=
  s.upd fun p _ d =>
    let c := chanIx x.ch
    let l := c / 12
    if d.chanSt p c ≠ 2 ∨ (d.chan c).want ∨ d.fld p (memcR l 0x18) 0 8 = 0 then d
    else
      let at' := (d.chan c).scrub
      let lines := d.usable p / 128
      let flips := x.seen.flips.map BitVec.toNat
      let a := d.lineAddr p c at'
      let skips := decide (at' < lines) && (d.chan c).q.any fun y => y.addr / 128 == a / 128
      let d0 := if skips then d else d.bursts p c true x.seen
      let d1 :=
        if skips then d
        else if at' < lines then (d0.checkLine p c a (cellKey c at' 0) flips (elsewhere x.seen at').isSome true).1
        else
          let u := at' - lines
          (d.rowHits p (d.dataRows p + u / 64) (u / 4 % 16) (u % 4) flips).foldl
            (fun d y => (d.checkLine p c (d.lineAddr p c y.1) (cellKey c y.1 0) y.2 false true).1) d0
      if !skips && decide (5 ≤ x.seen.crcFails.toNat) then d0
      else if lines + d1.checkRows p * 64 ≤ at' + 1 then
        (d1.setChan c { d1.chan c with scrub := 0 }).setF p (chanR c 0) 32 16 (d1.fld p (chanR c 0) 32 16 + 1)
      else d1.setChan c { d1.chan c with scrub := at' + 1 }

/-! ### INIT, OPEN, MAP, TIMING, records (R309, R319, R323, R328 to R330) -/

/-- INIT begins while OPEN is 0 (R319). -/
def Dev.memInit (p : Part) (d : Dev) (l : Nat) : Dev := if isOpen p d then d else d.setB p (memcR l 0x20) 0 true
/-- MEM_INIT. -/
def execMemInit (l : BitVec 2) (s : State) : Out := s.upd fun p _ d => d.memInit p l.toNat
/-- Memory keys of an L die's devices. -/
def dieRange (l : Nat) : Nat × Nat := (12 * l * 0x100000000, 12 * (l + 1) * 0x100000000)
/-- INIT has run on an L die, whose range is blanked beside it: no line carries a mark, every check word matches, and with CHECK on
the check rows hold the check words of zeros (R319). -/
def Dev.initDone (p : Part) (d : Dev) (l : Nat) : Dev :=
  let keep (k : Nat) : Bool := !(decide ((dieRange l).1 ≤ k) && decide (k < (dieRange l).2))
  let d1 : Dev := { d with ecc := d.ecc.filter (fun e => keep e.1), chkOk := d.chkOk.filter (fun e => keep (e.1 * 128))
                           chkStale := smSet false d.chkStale l false, chkInit := smSet false d.chkInit l (d.checkOn p) }
  (d1.setB p (memcR l 0x20) 0 false).setB p (memcR l 0x20) 2 false
/-- INIT_COMPLETE: every data line of the die's twelve channels holds zeros with valid check words (R319). -/
def execInitComplete (l : BitVec 2) (s : State) : Out :=
  s.updC fun p _ d => if d.initBusy p l.toNat then (d.initDone p l.toNat, [], [dieRange l.toNat]) else (d, [], [])
/-- A write of CTRL.OPEN: at L0, ignored with a Notice while any INIT runs and it would open; elsewhere ignored
(R328, R329). DEDUCED, log entry 32. -/
def Dev.writeOpen (p : Part) (d : Dev) (l : Nat) (open' : Bool) : Dev :=
  if l ≠ 0 then d
  else if open' && d.anyInit p then d.noticeIgnored p (memcR 0 0) 1
  else d.setB p (memcR 0 0) 0 open'
/-- MEM_OPEN. -/
def execMemOpen (l : BitVec 2) (open' : Bool) (s : State) : Out := s.upd fun p _ d => d.writeOpen p l.toNat open'
/-- A write of MAP at L0: accepted only while OPEN is 0 and no INIT runs; a LOCAL beyond the usable capacity is
reserved (R16, R309, R319). -/
def Dev.writeMap (p : Part) (d : Dev) (l : Nat) (v : W64) (lower upper : Bool) : Dev :=
  if l ≠ 0 then d
  else if isOpen p d || d.anyInit p then d.noticeIgnored p (memcR 0 8) v
  else
    let was := d.checkOn p
    let d1 := d.regStore p (memcR 0 8) v lower upper
    let d1 : Dev := if !was && d1.checkOn p then { d1 with chkStale := [(0, true), (1, true), (2, true), (3, true)], chkOk := [] } else d1
    if d1.usable p / 0x2000000 < d1.fld p (memcR 0 8) 8 8 then (d1.setF p (memcR 0 8) 8 8 0).noticeReserved p (memcR 0 8) v else d1
/-- MAP_WRITE. -/
def execMapWrite (l : BitVec 2) (value : W64) (s : State) : Out := s.upd fun p _ d => d.writeMap p l.toNat value true true
/-- Fields of TIMING: low bit and width. -/
def timingFields : List (Nat × Nat) := [(0, 8), (8, 8), (16, 8), (24, 12), (36, 16)]
/-- Each field raised to the standard's limit for the bin (R330). -/
def limitTiming (v lim : W64) : W64 :=
  timingFields.foldl (fun w f => withBits w f.1 f.2 (max (bits v f.1 f.2) (bits lim f.1 f.2))) 0
/-- A write of TIMING: accepted only in TRAIN or DOWN (R330). -/
def Dev.writeTiming (p : Part) (d : Dev) (c : Nat) (v : W64) (lower upper : Bool) : Dev :=
  if d.chanSt p c = 1 ∨ d.chanSt p c = 5 then
    let d1 := d.regStore p (chanR c 8) v lower upper
    d1.put p (chanR c 8) (limitTiming (d1.get p (chanR c 8)) (Config.timingLimit (d.fld p (chanR c 0) 4 2)))
  else d.noticeIgnored p (chanR c 8) v
/-- TIMING_WRITE. -/
def execTimingWrite (ch : ChanId) (value : W64) (s : State) : Out := s.upd fun p _ d => d.writeTiming p (chanIx ch) value true true
/-- REC_VALID_WRITE: 0 frees a record, 1 is ignored; any write zeroes COUNT (R15, R323, R329). -/
def execRecValidWrite (l : BitVec 2) (r : BitVec 6) (valid : Bool) (s : State) : Out :=
  s.upd fun p _ d =>
    let d1 := d.setF p (recR l.toNat r.toNat 0) 56 8 0
    if valid then d1 else d1.setB p (recR l.toNat r.toNat 0) 55 false

/-! ### Hand-off (R408, R409, R422) -/

/-- The status a hand-off command is refused with, if it is: the owner's node may hand a region over unless its party was torn
down, and none is accepted while an L die is in fall-back (R408, R419, R421). DEDUCED, log entry 34. -/
def Dev.handoffRefused (p : Part) (d : Dev) (l : Nat) (src : Src) (v : W64) : Option (BitVec 7) :=
  let first := bits v 0 17
  let n := bits v 17 10 + 1
  if l ≠ 0 then some stBadRequest
  else if ¬((srcNode src = d.node ∧ (srcSite src).toNat = 20) ∨ (List.range n).all (fun i => (d.region (first + i)).owner == srcNode src && !(d.region (first + i)).cut)) then some stNotOwner
  else if p.regions < first + n ∨ 48 * d.usable p < (first + n) * 0x200000 then some stNoTarget
  else if d.handoff.isSome then some stRegionMoving
  else if (List.range 4).any fun x => d.inFallback p (16 + x) then some stSiteDown
  else none
/-- Set or clear the regions of a run. -/
def Dev.setRun (d : Dev) (f : Region → Region) (first : Nat) : Nat → Dev
  | 0 => d
  | n + 1 => Dev.setRun (d.setRegion first (f (d.region first))) f (first + 1) n
/-- Accept a hand-off: MOVING is set for the run (R409). -/
def Dev.handoffStart (p : Part) (d : Dev) (v : W64) (answer : Option Req) : Dev :=
  let first := bits v 0 17
  let nm1 := bits v 17 10
  let h : HandOff := ⟨first, nm1, v.extractLsb' 32 16, v.extractLsb' 48 16, answer, false⟩
  let d1 := Dev.setRun { d with handoff := some h } (fun r => { r with moving := true }) first (nm1 + 1)
  d1.put p (memcR 0 0x38) (BitVec.ofNat 64 (1 + first * 2 ^ 8 + nm1 * 2 ^ 25))
/-- HANDOFF_WRITE: an accepted command begins the hand-off; any other changes nothing (R408). -/
def execHandoffWrite (l : BitVec 2) (src : Src) (value : W64) (s : State) : Out :=
  s.upd fun p _ d => match d.handoffRefused p l.toNat src value with
    | some _ => d
    | none => d.handoffStart p value none
/-- Is a write or atomic of the run still to be performed? -/
def Dev.runBusy (d : Dev) (h : HandOff) : Bool :=
  d.greqs.any fun g => (match g.req.op with | .read _ => false | _ => true) &&
    decide (h.first ≤ gaLocal g.req.addr / 0x200000) && decide (gaLocal g.req.addr / 0x200000 ≤ h.first + h.nm1)
/-- The hand-off that the executing host command waits for has ended with a status. -/
def Dev.hostAnswered (d : Dev) (st : BitVec 7) : Dev :=
  match d.hostQ with
  | c :: r => if c.begun then { d with hostQ := { c with done := some st } :: r } else d
  | [] => d
/-- The answer to a hand-off goes to whoever asked for it. -/
def Dev.handoffAnswer (p : Part) (d : Dev) (h : HandOff) (st : BitVec 7) : Dev :=
  match h.answer with
  | some r => d.answer p r st
  | none => if h.host then d.hostAnswered st else d
/-- HANDOFF_COMPLETE: once every accepted write and atomic of the run has been performed, the new owner and
party are written, MOVING clears and the CWRITE is answered (R409). -/
def execHandoffComplete (s : State) : Out :=
  s.upd fun p _ d => match d.handoff with
    | none => d
    | some h =>
      if d.runBusy h then d
      else
        let d1 := Dev.setRun { d with handoff := none } (fun _ => { owner := h.owner, party := h.party, moving := false }) h.first (h.nm1 + 1)
        let d2 := d1.put p (memcR 0 0x38) (BitVec.ofNat 64 (h.first * 2 ^ 8 + h.nm1 * 2 ^ 25))
        d2.handoffAnswer p h stOk

end Sys2Proof.Machine
end

