-- ==== Sys2Proof/Machine/Bank.lean ====
section
/-! DEFINITION. The photonic weight banks: feed windows, vectors, output tiles, weight loads, calibration,
power monitors and reset (R223 to R263). -/

namespace Sys2Proof.Machine

/-! ### Access -/

def Dev.bank (d : Dev) (b : Nat) : BankSt := smGet {} d.banks b
def Dev.setBank (d : Dev) (b : Nat) (x : BankSt) : Dev := { d with banks := smSet {} d.banks b x }
def Dev.modBank (d : Dev) (b : Nat) (f : BankSt → BankSt) : Dev := d.setBank b (f (d.bank b))
def Dev.bch (d : Dev) (b ch : Nat) : BankCh := smGet {} (d.bank b).ch ch
def Dev.setBch (d : Dev) (b ch : Nat) (x : BankCh) : Dev := d.modBank b fun k => { k with ch := smSet {} k.ch ch x }
/-- Register of channel ch (R262). -/
def chR (b ch off : Nat) : Nat := pwbR b (0x200 + 0x40 * ch + off)
/-- STATE.STATE (R238): 0 PARKED, 1 IDLE, 2 LOADING, 3 READY, 4 STALLED, 5 CAL, 6 FAILED. -/
def Dev.bankShown (p : Part) (d : Dev) (b : Nat) : Nat := d.fld p (pwbR b 8) 0 4
/-- The state that a bank acts by: STATE, but PARKED from the start of a reset on (R239, R258; log entry 37). -/
def Dev.bankState (p : Part) (d : Dev) (b : Nat) : Nat := if (d.bank b).parking.isSome then 0 else d.bankShown p b
def Dev.setBankState (p : Part) (d : Dev) (b st : Nat) : Dev := d.setF p (pwbR b 8) 0 4 st
def Dev.wvalid (p : Part) (d : Dev) (b : Nat) : Bool := d.bit p (pwbR b 8) 4
def Dev.bankEpoch (p : Part) (d : Dev) (b : Nat) : Nat := d.fld p (pwbR b 8) 32 32
/-- EPOCH advances by one, modulo 2^32. -/
def Dev.nextEpoch (p : Part) (d : Dev) (b : Nat) : Dev := d.setF p (pwbR b 8) 32 32 (d.bankEpoch p b + 1)
/-- Source number of bank b (R235). -/
def Dev.bankSrc (d : Dev) (b : Nat) : Src := mkSrc d.node 0x1F (BitVec.ofNat 6 b)
/-- Channel EN and its error cause. -/
def Dev.chEn (p : Part) (d : Dev) (b ch : Nat) : Bool := d.bit p (chR b ch 0) 0
def Dev.chCause (p : Part) (d : Dev) (b ch : Nat) : Nat := d.fld p (chR b ch 0x20) 4 4
/-- A channel runs: enabled and not in ERROR. -/
def Dev.chRun (p : Part) (d : Dev) (b ch : Nat) : Bool := d.chEn p b ch && d.chCause p b ch == 0
/-- Next tile SEQ of a channel. -/
def Dev.chSeq (p : Part) (d : Dev) (b ch : Nat) : BitVec 16 := BitVec.ofNat 16 (d.fld p (chR b ch 0x10) 32 16)
/-- SEQ that the incomplete tile of a channel will take. -/
def Dev.chNext (p : Part) (d : Dev) (b ch : Nat) : BitVec 16 := d.chSeq p b ch + BitVec.ofNat 16 (d.bch b ch).tiles.length
/-- The incomplete tiles' SEQ of all eight channels. -/
def Dev.chNexts (p : Part) (d : Dev) (b : Nat) : List (BitVec 16) := (List.range 8).map (d.chNext p b)
/-- A tile of the channel has been refused and is resent (R236). -/
def BankCh.retrying (x : BankCh) : Bool := x.sent.any BSent.refused
/-- Output lines computed and not yet accepted (R262). -/
def BankCh.out (x : BankCh) : Nat :=
  x.lines.length + (x.tiles.map fun t => t.lines.length).sum + (x.sent.map fun t => t.lines.length).sum

/-! ### Rings of a bank (R226, R254) -/

def bankRing (b r : Nat) : Nat := 4160 * b + r
def Dev.ring (d : Dev) (i : Nat) : RingSt := smGet {} d.rings i
def Dev.setRing (d : Dev) (i : Nat) (x : RingSt) : Dev := { d with rings := smSet {} d.rings i x }
/-- Rings of index lo to hi - 1 that have left TRACK. -/
def Dev.offTrack (d : Dev) (lo hi : Nat) : List (Nat × RingSt) :=
  d.rings.filter fun e => decide (lo ≤ e.1) && decide (e.1 < hi) && e.2.ph != .track
def Dev.bankTrack (d : Dev) (b : Nat) : Bool := (d.offTrack (4160 * b) (4160 * (b + 1))).isEmpty
/-- The first ring of a bank that is lost. -/
def Dev.bankLost (d : Dev) (b : Nat) : Option (Nat × RingSt) := (d.offTrack (4160 * b) (4160 * (b + 1))).find? fun e => e.2.ph == .fail
def Dev.bankRingFail (d : Dev) (b : Nat) : Bool := (d.bankLost b).isSome
/-- Forget what rings lo to hi - 1 recorded: they track, or are off. -/
def Dev.plainRings (d : Dev) (lo hi : Nat) : Dev :=
  { d with rings := d.rings.filter fun e => !(decide (lo ≤ e.1) && decide (e.1 < hi)) }

/-! ### Thermal neighbours and lanterns (R27, R224, R242) -/

/-- W sites adjacent to Wn in the package (R27). -/
def wNeighbours (n : Nat) : List Nat :=
  let r := n / 4 % 2
  (if n % 4 = 0 then [] else [n - 1]) ++ (if n % 4 = 3 then [] else [n + 1]) ++ (if r = 0 then [n + 4] else [n - 4])
/-- Thermal neighbours of bank b (R242). -/
def bankNeighbours (b : Nat) : List Nat :=
  (if b % 2 = 0 then b + 1 else b - 1) :: (wNeighbours (b / 2)).flatMap fun n => [2 * n, 2 * n + 1]
/-- Lantern input of bank b (R224). -/
def bankLantern (b : Nat) : Nat :=
  let n := b / 2
  if n % 4 < 2 then n / 4 * 2 + n % 4 else 8 + n / 4 * 2 + (n % 4 - 2)
/-- State of lantern g (R339, R365): 0 ABSENT, 1 PRESENT, 2 WARM, 3 LIT, 4 FAULT. -/
def Dev.ltnSt (p : Part) (d : Dev) (g : Nat) : Nat := d.fld p (ltnR g 0x408) 0 3
/-- The state of a ring's lock machine: in PARK while its bank is parked (R254). -/
def Dev.ringPh (p : Part) (d : Dev) (i : Nat) : RingPh :=
  if i < 133120 ∧ d.bankShown p (i / 4160) = 0 then .park else (d.ring i).ph

/-! ### Feed windows (R231 to R233, R257) -/

/-- A write at offset `off` of the feed window of channel ch: the status it ends with; none where it is held
back for lack of room. -/
def Dev.feedWrite (p : Part) (d : Dev) (src : Src) (b ch off : Nat) (data : List Byte) : Dev × Option (BitVec 7) :=
  let st := d.bankState p b
  let notice := d.fault p 31 b 0 0x0308 (BitVec.ofNat 64 (pwbR b (0x80000 + 0x10000 * ch + off))) (stBankOffline.zeroExtend 64)
  if srcNode src ≠ d.node ∨ (srcSite src).toNat ≠ b / 2 then (d, some stNoTarget)
  else if src.toNat ≠ d.fld p (chR b ch 0) 10 27 then (notice, some stBankOffline)
  else if d.roleOut (b / 2) 3 (b % 2) || !d.chRun p b ch || !(st == 2 || st == 3 || st == 4 || st == 5) then (d, some stBankOffline)
  else if off % 128 ≠ 0 ∨ data.length ≠ 128 then (notice, some stBankOffline)
  else
    let x := d.bch b ch
    if 64 ≤ x.feed.length then (d, none)
    else (d.setBch b ch { x with feed := x.feed ++ [data] }, some stOk)
/-- FEED_LINE: a write arrives at a feed window. -/
def execFeedLine (src : Src) (b : BitVec 5) (ch : BitVec 3) (offset : BitVec 16) (data : List Byte) (s : State) : Out :=
  s.upd fun p _ d => (d.feedWrite p src b.toNat ch.toNat offset.toNat data).1

/-! ### Vectors (R227 to R230, R233, R234) -/

/-- The clamped input element and whether it was clamped (R227). -/
def inputElem (x : Byte) : Int × Bool :=
  if x.toInt < -32 then (-32, true) else if 31 < x.toInt then (31, true) else (x.toInt, false)
/-- The weight a byte stands for (R228). -/
def weightElem (q : Byte) : Int := if q.toInt = -128 then -127 else q.toInt
/-- 127 times the sum S_j of R229. -/
def dotRow (q : List Byte) (x : List Int) : Int := ((q.zip x).map fun e => weightElem e.1 * e.2).sum
/-- An integer as an exact value, in units of 2^e. -/
def intFV (n : Int) (e : Int) : FV := .fin (decide (n < 0)) n.natAbs e
/-- y_j from S_j + e_j in units of 2^-20 (R229): clip, then two FP32 products; with whether it was clipped.
DESIGN CHOICE, log entry 15. -/
def bankOut (sIn c : W32) (range : Nat) (v : Int) : W32 × Bool :=
  let fs : Int := 2048 * 2 ^ 20 / 2 ^ range
  let w := if v < -fs then -fs else if fs < v then fs else v
  let k := (to32 ((val32 sIn).mul (val32 c))).1
  ((to32 ((val32 k).mul (intFV w (-20)))).1, w != v)
/-- Do the conditions of R247 hold for bank b: calibrated within 60 minutes and 15 K, its base between 25 and 105 C, every
comb line between -6 and +3 dBm at stage P1, and its site rising by less than 12 K/ms? -/
def Dev.bankPrecise (p : Part) (d : Dev) (b : Nat) : Bool :=
  let temp (lo : Nat) : Int := (BitVec.ofNat 16 (d.fld p (pwbR b 0x58) lo 16)).toInt
  let lines := smGet [] (d.bank b).levels 1
  (match (d.bank b).calT with | some t => decide (elapsed d.now t ≤ 4320000000000) | none => false) &&
    decide (400 ≤ temp 0) && decide (temp 0 ≤ 1680) && decide ((temp 0 - temp 16).natAbs ≤ 240) &&
    !lines.isEmpty && lines.all (fun x => decide (-600 ≤ x.toInt) && decide (x.toInt ≤ 300)) &&
    decide ((BitVec.ofNat 16 (d.fld p (thmR (b / 2) 0) 32 16)).toInt < 192)
/-- Analog error e_j of the next vector, in units of 2^-20: at most 0.12 FS either way while the conditions of R247
hold. -/
def Dev.bankError (p : Part) (d : Dev) (b j : Nat) : Int :=
  let raw := Config.analogError b j (d.bank b).vectors
  let most : Int := 2048 * 2 ^ 20 / 2 ^ d.fld p (pwbR b 0x10) 1 3 * 12 / 100
  if d.bankPrecise p b then max (-most) (min most raw) else raw
/-- Is the size of an FP32 word at most n / m? -/
def fpAtMost (w : W32) (n m : Nat) : Bool :=
  match val32 w with
  | .fin _ k e => if 0 ≤ e then decide (k * 2 ^ e.toNat * m ≤ n) else decide (k * m ≤ n * 2 ^ (-e).toNat)
  | _ => false
/-- May a probe window have these figures: 5.0 effective bits, |mean| of 0.008 FS and |d| of 0.12 FS (R247)? -/
def figuresOk (x : ProbeStats) (range : Nat) : Bool :=
  decide (80 ≤ x.enob.toNat) && fpAtMost x.mean 2048 (125 * 2 ^ range) && fpAtMost x.maxAbs (3 * 2048) (25 * 2 ^ range)
/-- The 64 outputs of one vector in output order, the count of clips. -/
def bankOutputs (p : Part) (d : Dev) (b : Nat) (x : List Int) : List W32 × Nat :=
  let k := d.bank b
  let sIn : W32 := BitVec.ofNat 32 (d.fld p (pwbR b 0x18) 0 32)
  let range := d.fld p (pwbR b 0x10) 1 3
  let ys := (List.range 64).map fun j =>
    bankOut sIn (k.c.getD j 0) range
      ((dotRow ((k.q.drop (64 * j)).take 64) x * 2 ^ 20).fdiv 127 + d.bankError p b j)
  (ys.map Prod.fst, (ys.filter Prod.snd).length)
/-- Outputs as bytes in OUT_FMT (R229): 128 bytes of BF16, or 64 of E4M3. -/
def bankBytes (e4 : Bool) (ys : List W32) : List Byte :=
  if e4 then ys.map fun y => BitVec.ofNat 8 (e4m3.convert (val32 y) none .sat).1
  else ys.flatMap fun y => leBytes 2 (bf16.convert (val32 y) none .sat).1
/-- The incomplete tile of a channel has gained its last line. -/
def BankCh.close (x : BankCh) (last : Bool) : BankCh :=
  { x with lines := [], tiles := x.tiles ++ [⟨x.lines, x.epoch, last, x.tidx⟩], tidx := if last then 0 else x.tidx + 1 }
/-- A computed output line joins the tile (R235): `n` lines a tile, `tiles` tiles a coach. -/
def BankCh.addLine (x : BankCh) (n tiles : Nat) (l : List Byte) : BankCh :=
  let y := { x with lines := x.lines ++ [l] }
  if n ≤ y.lines.length then y.close (decide (tiles ≤ y.tidx + 1)) else y
/-- The epoch of a tile is taken when its first vector enters. DEDUCED, log entry 36. -/
def BankCh.enter (x : BankCh) (epoch : BitVec 16) : BankCh :=
  if x.lines.isEmpty && x.part.isNone then { x with epoch := epoch } else x
/-- The channel takes the outputs of a vector (R234). `later` says which vector of its line it was. -/
def BankCh.takeOut (x : BankCh) (n tiles : Nat) (e4 later : Bool) (bs : List Byte) : BankCh :=
  if e4 then
    (if later then { x with part := none }.addLine n tiles (x.part.getD (List.replicate 64 0) ++ bs)
    else { x with part := some bs })
  else
    let y := match x.part with
      | some h => { x with part := none }.addLine n tiles (h ++ List.replicate 64 0)
      | none => x
    y.addLine n tiles bs
/-- May a channel give the bank a vector now? -/
def Dev.chFeeds (p : Part) (d : Dev) (b ch : Nat) : Bool :=
  d.chRun p b ch && !(d.bch b ch).feed.isEmpty && !(d.bch b ch).retrying
/-- The channel whose turn it is: the one in the middle of a line, else the next in rotation (R231). -/
def Dev.bankTurn (p : Part) (d : Dev) (b : Nat) : Option Nat :=
  match (List.range 8).find? fun i => d.chFeeds p b i && (d.bch b i).half with
  | some i => some i
  | none => ((List.range 8).map fun i => ((d.bank b).rot + 1 + i) % 8).find? (d.chFeeds p b)
/-- A vector slot passes: one of every 2^PROBE_LOG2 is followed by a probe slot (R248). -/
def Dev.probeSlot (p : Part) (d : Dev) (b : Nat) : Dev :=
  let n := d.fld p (pwbR b 0x10) 8 4
  let k := d.bank b
  if n = 0 then d
  else if k.slots + 2 < 2 ^ n then d.setBank b { k with slots := k.slots + 1 }
  else (d.setBank b { k with slots := 0, probes := k.probes + 1 }).count p (pwbR b 0x108) 1
/-- BANK_VECTOR: a READY bank takes the next vector of the channel whose turn it is (R229, R230, R233). -/
def execBankVector (b : BitVec 5) (ch : BitVec 3) (s : State) : Out :=
  s.upd fun p _ d =>
    let n := b.toNat
    let c := ch.toNat
    if d.bankState p n ≠ 3 ∨ d.bankTurn p n ≠ some c then d
    else
      let x := d.bch n c
      let line := x.feed.headD []
      let el := ((if x.half then line.drop 64 else line.take 64).map inputElem)
      let z := bankOutputs p d n (el.map Prod.fst)
      let e4 := d.bit p (pwbR n 0x10) 0
      let y := (x.enter (BitVec.ofNat 16 (d.bankEpoch p n))).takeOut (d.fld p (chR n c 0) 1 2 + 1)
        (d.fld p (chR n c 0) 48 12 + 1) e4 x.half (bankBytes e4 z.1)
      let y := { y with half := !x.half, feed := if x.half then x.feed.drop 1 else x.feed }
      let d := ((d.setBch n c y).modBank n fun k => { k with vectors := k.vectors + 1, rot := if x.half then c else k.rot }).probeSlot p n
      ((d.count p (pwbR n 0x100) 1).count p (pwbR n 0x110) (el.filter Prod.snd).length).count p (pwbR n 0x118) z.2

/-! ### Output tiles (R235 to R237) -/

/-- Header of an output tile (R161, R235). -/
def bankHeader (b : Nat) (t : BTile) (seq coach due : Nat) : BitVec 128 :=
  BitVec.ofNat 128 (seq + (t.lines.length - 1) * 2 ^ 16 + (if t.tidx = 0 then 2 ^ 18 else 0) + (if t.last then 2 ^ 19 else 0)
    + b * 2 ^ 24 + coach * 2 ^ 32 + t.tidx % 2 ^ 16 * 2 ^ 64 + t.epoch.toNat * 2 ^ 80
    + (if t.last then due else 0) * 2 ^ 96)
/-- Send the packets of an output tile (R162). -/
def Dev.bankPush (p : Part) (d : Dev) (b ch : Nat) (x : BSent) : Dev :=
  let req (tag : BitVec 12) (op : ReqOp) : Req := { src := d.bankSrc b, addr := d.get p (chR b ch 8), tag := tag, op := op, bulk := true }
  let d1 := d.sendReq p (req x.head (.push (hdrSeq x.hdr) 0 (some x.hdr) (x.lines.take 3)))
  if x.lines.length = 4 then d1.sendReq p (req x.tail (.push (hdrSeq x.hdr) 3 none (x.lines.drop 3))) else d1
/-- Send the oldest complete tile: SEQ, COACH and DUE are taken and advance (R235). -/
def Dev.bankSend (p : Part) (d : Dev) (b ch : Nat) : Dev :=
  let x := d.bch b ch
  match x.tiles with
  | [] => d
  | t :: rest =>
    let seq := d.chSeq p b ch
    let h := bankHeader b t seq.toNat (d.fld p (chR b ch 0x10) 0 32) (d.fld p (chR b ch 0x18) 0 32)
    let tg := (d.bank b).tag
    let y : BSent := { hdr := h, lines := t.lines, head := tg, tail := tg + 1 }
    let d1 := (d.setBch b ch { x with tiles := rest, sent := x.sent ++ [y] }).modBank b fun k => { k with tag := k.tag + 2 }
    let d2 := d1.setF p (chR b ch 0x10) 32 16 (seq.toNat + 1)
    let d3 := if t.last then
      (d2.setF p (chR b ch 0x10) 0 32 (d2.fld p (chR b ch 0x10) 0 32 + 1)).setF p (chR b ch 0x18) 0 32
        (d2.fld p (chR b ch 0x18) 0 32 + d2.fld p (chR b ch 0x18) 32 32) else d2
    d3.bankPush p b ch y
/-- OUTPUT_TILE_SEND. -/
def execOutputTileSend (b : BitVec 5) (ch : BitVec 3) (s : State) : Out :=
  s.upd fun p _ d => if d.chRun p b.toNat ch.toNat && !(d.bch b.toNat ch.toNat).retrying then d.bankSend p b.toNat ch.toNat else d
/-- A channel enters ERROR: its output and feed buffer are discarded (R236). -/
def Dev.chError (p : Part) (d : Dev) (b ch cause : Nat) : Dev :=
  ((d.setBch b ch {}).setF p (chR b ch 0x20) 4 4 cause).fault p 31 b 0 0x0307 (BitVec.ofNat 64 ch) (BitVec.ofNat 64 cause)
/-- The answer to an output tile's header packet (R236). -/
def Dev.tileAnswer (p : Part) (d : Dev) (b ch : Nat) (t : BSent) (st : BitVec 7) : Dev :=
  let x := d.bch b ch
  if st = stOk then d.setBch b ch { x with sent := x.sent.filter fun y => y.hdr != t.hdr }
  else if !pushRetried st then d.chError p b ch 1
  else if 4096 ≤ t.tries then d.chError p b ch 2
  else d.setBch b ch { x with sent := x.sent.map fun y => if y.hdr == t.hdr then { y with refused := true, due := some (d.now + 64) } else y }
/-- BANK_TILE_RETRY: a refused tile is sent again 64 ticks after its refusal (R236). -/
def execBankTileRetry (b : BitVec 5) (ch : BitVec 3) (s : State) : Out :=
  s.upd fun p _ d =>
    let n := b.toNat
    let c := ch.toNat
    let x := d.bch n c
    match x.sent.find? fun y => match y.due with | some t => reached d.now t | none => false with
    | none => d
    | some t =>
      let tg := (d.bank n).tag
      let t' := { t with head := tg, tail := tg + 1, due := none, tries := t.tries + 1 }
      let d1 := (d.setBch n c { x with sent := x.sent.map fun y => if y.hdr == t.hdr then t' else y }).modBank n fun k => { k with tag := k.tag + 2 }
      (d1.count p (pwbR n 0x140) 1).bankPush p n c t'
/-- A write of 1 to CTRL.FLUSH (R237). -/
def Dev.bankFlush (p : Part) (d : Dev) (b ch : Nat) : Dev :=
  let x := d.bch b ch
  let ls := match x.part with
    | some h => x.lines ++ [h ++ List.replicate 64 0]
    | none => x.lines
  if !d.chRun p b ch || ls.isEmpty then d
  else
    let d1 := d.setBch b ch ({ x with lines := ls, part := none }.close true)
    if x.tiles.isEmpty && !x.retrying then d1.bankSend p b ch else d1
/-- FLUSH. -/
def execFlush (b : BitVec 5) (ch : BitVec 3) (s : State) : Out := s.upd fun p _ d => d.bankFlush p b.toNat ch.toNat

/-- EN written (R257, R262): 0 discards buffer and output; 1 starts the channel and ends ERROR. -/
def Dev.writeChEn (p : Part) (d : Dev) (b ch : Nat) (en : Bool) : Dev :=
  if en then
    (if d.chEn p b ch then d
    else ((d.setB p (chR b ch 0) 0 true).setF p (chR b ch 0x20) 4 4 0).setBch b ch {})
  else (d.setB p (chR b ch 0) 0 false).setBch b ch {}
/-- CH_EN. -/
def execChEn (b : BitVec 5) (ch : BitVec 3) (en : Bool) (s : State) : Out := s.upd fun p _ d => d.writeChEn p b.toNat ch.toNat en
/-- A write of CH[c].CFG: every field but EN only while EN is 0 (R262). DEDUCED, log entry 38. -/
def Dev.writeChCfg (p : Part) (d : Dev) (b ch : Nat) (v : W64) (lower upper : Bool) : Dev :=
  let a := chR b ch 0
  let old := d.get p a
  match regFields p a with
  | none => d
  | some fs =>
    let new := fieldsWritten fs old v lower upper
    let d1 :=
      if !d.chEn p b ch then d.put p a (withBits new 0 1 0)
      else if withBits new 0 1 1 = old then d else d.noticeIgnored p a v
    if lower then d1.writeChEn p b ch (new.getLsbD 0) else d1
/-- A write of DEST or COACH: only while EN is 0 (R262). -/
def Dev.writeChIdle (p : Part) (d : Dev) (b ch a : Nat) (v : W64) (lower upper : Bool) : Dev :=
  if d.chEn p b ch then d.noticeIgnored p a v else d.regStore p a v lower upper

/-! ### States (R239) -/

/-- A load ends with a result (R243, R245). -/
def Dev.loadEnd (p : Part) (d : Dev) (b result : Nat) : Dev :=
  let d1 := ((d.setB p (pwbR b 0x28) 0 false).setF p (pwbR b 0x28) 4 4 result).setF p (pwbR b 0x28) 32 32 (lowT d.now)
  d1.modBank b fun k => { k with load := none }
/-- The bank goes FAILED (R239); a load or calibration in progress ends, and so does the wait of a calibration (R251, R508). -/
def Dev.bankOut (p : Part) (d : Dev) (b : Nat) : Dev :=
  let d1 := d.setBankState p b 6
  (if d1.bit p (pwbR b 0x28) 0 then d1.loadEnd p b 4 else d1).setF p (pwbR b 0x30) 0 2 0
/-- A bank fails because ring r is lost: the context is that of R255, with the ring's own line and no interval where it was
not found on a wrong one. -/
def Dev.bankRingLoss (p : Part) (d : Dev) (b r : Nat) (x : RingSt) : Dev :=
  let f := x.found.getD (r % 64, 0, 0)
  (d.bankOut p b).fault p 31 b 2 0x0302 (BitVec.ofNat 64 r) (BitVec.ofNat 64 f.1) false f.2.1 f.2.2
/-- Leave a load or calibration: READY where weights are valid, STALLED where a ring is off TRACK besides,
IDLE otherwise; FAILED where a ring is lost. -/
def Dev.bankResume (p : Part) (d : Dev) (b : Nat) : Dev :=
  match d.bankLost b with
  | some e => d.bankRingLoss p b (e.1 - 4160 * b) e.2
  | none =>
  if d.wvalid p b then d.setBankState p b (if d.bankTrack b then 3 else 4)
  else d.setBankState p b 1

/-- LANTERN_INPUT_LOST: the input is below its alarm level (R239, R256). -/
def Dev.bankDark (p : Part) (d : Dev) (b : Nat) : Dev :=
  if d.bankState p b = 0 ∨ d.bankState p b = 6 then d
  else (d.bankOut p b).fault p 31 b 2 0x0301 (BitVec.ofNat 64 (bankLantern b))
def execLanternInputLost (b : BitVec 5) (s : State) : Out := s.upd fun p _ d => d.bankDark p b.toNat
/-- Loss above which the segment into a stage alarms, in 0.01 dB (R256). -/
def alarmAbove (stage : Nat) : Int := match stage with | 1 => 700 | 2 => 600 | 3 => 800 | _ => 300
/-- PMON_ALARM: a stage is measured, for every line and in total, with `minLine` the weakest of the 64. A segment whose
loss in total exceeds its threshold sets the ALARM of the downstream stage; a total at P0 below -3 dBm per line is a lost
input (R256; DEDUCED, log entry 84). -/
def execPmonAlarm (b : BitVec 5) (stage : Fin 5) (total : BitVec 16) (lines : List (BitVec 16)) (minLine : BitVec 6) (s : State) : Out :=
  s.upd fun p _ d =>
    let n := b.toNat
    let a := pwbR n (0x60 + 8 * stage.val)
    let min := lines.getD minLine.toNat 0
    if lines.length ≠ 64 ∨ lines.any fun x => decide (x.toInt < min.toInt) then d
    else
      let known := !(smGet [] (d.bank n).levels (stage.val - 1)).isEmpty
      let before := (BitVec.ofNat 16 (d.fld p (pwbR n (0x58 + 8 * stage.val)) 0 16)).toInt
      let d1 := ((d.setF p a 0 16 total.toNat).setF p a 16 16 min.toNat).setF p a 32 6 minLine.toNat
      let d2 := d1.modBank n fun k => { k with levels := smSet [] k.levels stage.val lines }
      if stage.val = 0 then (if total.toInt < 1506 then d2.bankDark p n else d2)
      else if known ∧ alarmAbove stage.val < before - total.toInt then
        (d2.setB p a 40 true).fault p 31 n 2 0x0306 (BitVec.ofNat 64 (stage.val - 1)) (total.zeroExtend 64)
      else d2
/-- STALL_CLEAR: every ring is in TRACK again and re-verified (R239). -/
def execStallClear (b : BitVec 5) (s : State) : Out :=
  s.upd fun p _ d =>
    if d.bankState p b.toNat = 4 ∧ d.bankTrack b.toNat then (d.setBankState p b.toNat 3).nextEpoch p b.toNat else d
/-- Put rings lo to lo + n - 1 into one state. -/
def Dev.ringsTo (d : Dev) (lo n : Nat) (x : RingSt) : Dev :=
  { d with rings := (d.rings.filter fun e => decide (e.1 < lo)) ++ (List.range n).map (fun i => (lo + i, x)) ++
      d.rings.filter fun e => decide (lo + n ≤ e.1) }
/-- BANK_UNPARK: PARKED to IDLE once boot has reached its step and the lantern input is present, but not under a die held
out (R483); the 4,160 loops start from
PARK with a sweep each, to lock at zero weight (R239, R254). DEDUCED, log entry 37. -/
def Dev.bankUnpark (p : Part) (d : Dev) (b : Nat) : Dev :=
  if d.bankShown p b = 0 ∧ (d.bank b).parking = none ∧ !d.heldOut p (b / 2) ∧ d.bootReached p 7 ∧ d.ltnSt p (bankLantern b) = 3 then
    let d1 := ((d.setBankState p b 1).ringsTo (4160 * b) 4160 { ph := .sweep }).setF p (pwbR b 0x50) 0 13 0
    (d1.count p (pwbR b 0x128) 4160).modBank b fun k => { k with lockT := d.now, lockSeq := d.chNexts p b, fed := [] }
  else d
def execBankUnpark (b : BitVec 5) (s : State) : Out := s.upd fun p _ d => d.bankUnpark p b.toNat

/-! ### Weight loads (R240 to R245) -/

/-- No thermal neighbour is in one of these states. -/
def Dev.quietAround (p : Part) (d : Dev) (b : Nat) (sts : List Nat) : Bool :=
  (bankNeighbours b).all fun n => !sts.contains (d.bankState p n)
def Dev.canCal (p : Part) (d : Dev) (b : Nat) : Bool :=
  d.bit p (pwbR b 0x30) 1 && (d.bankState p b == 1 || d.bankState p b == 3) && d.quietAround p b [2, 5]
def Dev.canLoad (p : Part) (d : Dev) (b : Nat) : Bool :=
  d.bit p (pwbR b 0x28) 1 && (d.bankState p b == 1 || d.bankState p b == 3) && d.quietAround p b [2] && !d.canCal p b

/-- A load request (R241). -/
def Dev.loadRequest (p : Part) (d : Dev) (b : Nat) : Dev :=
  let st := d.bankState p b
  let a := pwbR b 0
  if st = 0 ∨ st = 6 then (d.setF p (pwbR b 0x28) 4 4 4).noticeIgnored p a 1
  else if d.bit p (pwbR b 0x28) 0 || d.bit p (pwbR b 0x28) 1 then d.noticeIgnored p a 1
  else d.setB p (pwbR b 0x28) 1 true
/-- PWB_LOAD. -/
def execPwbLoad (b : BitVec 5) (s : State) : Out := s.upd fun p _ d => d.loadRequest p b.toNat
/-- Send the reads of an image's lines. -/
def Dev.imageReads (p : Part) (d : Dev) (b : Nat) (src : W64) : List Nat → Dev
  | [] => d
  | i :: is =>
    let tg := (d.bank b).tag
    let d1 := d.modBank b fun k => { k with tag := k.tag + 1, load := k.load.map fun l => { l with reads := l.reads ++ [(tg, i)] } }
    Dev.imageReads p (d1.sendReq p { src := d.bankSrc b, addr := src + BitVec.ofNat 64 (128 * i), tag := tg, op := .read 8, bulk := true }) b src is
/-- LOAD_START: a requested load starts; banks that wait start in ascending order (R242, R243, R245). -/
def execLoadStart (b : BitVec 5) (s : State) : Out :=
  s.upd fun p _ d =>
    let n := b.toNat
    if !d.canLoad p n || (bankNeighbours n).any fun m => decide (m < n) && d.canLoad p m then d
    else
      let src := d.get p (pwbR n 0x20)
      let d1 := ((d.setB p (pwbR n 0x28) 1 false).setB p (pwbR n 0x28) 0 true).setBankState p n 2
      if src.toNat % 128 ≠ 0 ∨ gaNode src ≠ d.node then (d1.loadEnd p n 1).bankResume p n
      else (d1.modBank n fun k => { k with load := some {} }).imageReads p n src (List.range 34)
/-- Weight of ring r of a bank under weights `q` (R226, R228): none of a modulator, and zero while no weights stand. -/
def ringWeight (q : List Byte) (r : Nat) : Int := if r < 64 then 0 else weightElem (q.getD (r - 64) 0)
/-- Is a trim field a two's complement number (R263, R510)? -/
def trimSigned (a lo : Nat) : Bool :=
  let off := ctlOff a
  if ctlBlk a = 4 then
    (if off < 0x2000 then lo == 0
    else if isBase (ctlSite a) then (if off < 0x10000 then lo == 16 else lo == 40)
    else true)
  else if off < 0x48200 then lo == 40 else decide (16 ≤ lo)
/-- A field's value as an integer. -/
def trimVal (w : W64) (f : Field) (signed : Bool) : Int :=
  let v := bits w f.lo f.width
  if signed && decide (2 ^ (f.width - 1) ≤ v) then (v : Int) - 2 ^ f.width else v
/-- The live word `k` of 64 steps from `a` to `b`: each field in a straight line (R504). -/
def trimAt (p : Part) (addr : Nat) (a b : W64) (k : Nat) : W64 :=
  match regFields p addr with
  | none => b
  | some fs => fs.foldl (fun w f =>
      let s := trimSigned addr f.lo
      let x := trimVal a f s
      let y := trimVal b f s
      withBits w f.lo f.width ((x + ((y - x) * k).fdiv 64) % 2 ^ f.width).toNat) 0
/-- The live value of a trim (R504). -/
def Dev.liveTrim (p : Part) (d : Dev) (a : Nat) : W64 :=
  match smGet none d.slews a with
  | some x => trimAt p a x.live (d.get p a) x.steps
  | none => d.get p a
/-- Change of the heater power of quadrant `k` from weights `old` to `new` (R244). -/
def Dev.rampChange (p : Part) (d : Dev) (b : Nat) (old new : List Byte) (k : Nat) : Int :=
  (((List.range 4160).filter fun r => Config.quadrant r % 4 == k).map fun r =>
    let trim := d.liveTrim p (pwbR b (0x40000 + 8 * r))
    Config.heaterPower r trim (ringWeight new r) - Config.heaterPower r trim (ringWeight old r)).sum
/-- Loops of a bank take up a step of a thermal neighbour's ramp, stated by quadrant (R244, R498). -/
def BankSt.feed (k : BankSt) (change : List Int) : BankSt :=
  { k with fed := (List.range 4).map fun i => k.fed.getD i 0 + change.getD i 0 }
/-- A ledger tick at a bank: CNT_STALL, and the steps of a load's ramp, each 300 ticks after the one before. The thermal
neighbours have the change of every step before it is made (R244, R261). -/
def Dev.bankTick (p : Part) (d : Dev) (b : Nat) : Dev :=
  let k := d.bank b
  let held := [2, 4, 5].contains (d.bankState p b) && k.ch.any fun e => !e.2.feed.isEmpty
  let d1 := if held then d.count p (pwbR b 0x148) 1 else d
  match k.load with
  | none => d1
  | some l =>
    if !l.ready || decide (64 ≤ l.steps) || decide (elapsed d.now l.rampT < 300 * (l.steps + 1)) then d1
    else (bankNeighbours b).foldl (fun d n => d.modBank n fun k => k.feed l.change)
      (d1.setBank b { k with load := some { l with steps := l.steps + 1 } })
/-- The live XT of ring r times the power change fed forward to its quadrant, in 2^-14 uW (R263, R498). -/
def Dev.ringCoupling (p : Part) (d : Dev) (b r : Nat) : Int :=
  (BitVec.ofNat 8 (bits (d.liveTrim p (pwbR b (0x40000 + 8 * r))) 40 8)).toInt * (d.bank b).fed.getD (Config.quadrant r % 4) 0
/-- An answer to a read of the image (R243, R245): with the last line the checker takes the new weights and the ramp of
the heaters begins (R244). -/
def Dev.imageAnswer (p : Part) (d : Dev) (b : Nat) (l : BankLoad) (i : Nat) (r : Resp) : Dev :=
  if r.status ≠ stOk then (d.loadEnd p b 2).bankResume p b
  else
    let got := insertBuf i r.data l.got
    let reads := l.reads.filter fun x => x.2 != i
    if reads.isEmpty then
      let q := ((got.map Prod.snd).flatten).take 4096
      let l' : BankLoad := { got := got, ready := true, rampT := d.now, change := (List.range 4).map (d.rampChange p b (d.bank b).q q) }
      (d.modBank b fun k => { k with load := some l' }).count p (pwbR b 0x110) (q.filter fun x => x == 0x80).length
    else d.modBank b fun k => { k with load := some { reads := reads, got := got } }
/-- Column scales of an image. -/
def imageScales (bs : List Byte) : List W32 := (List.range 64).map fun j => BitVec.ofNat 32 (leNat ((bs.drop (4096 + 4 * j)).take 4))
/-- LOAD_COMPLETE: the 64 steps of the ramp are made, every ring tracks, and verification ends (R243, R245). -/
def execLoadComplete (b : BitVec 5) (verified : Bool) (s : State) : Out :=
  s.upd fun p _ d =>
    let n := b.toNat
    match (d.bank n).load with
    | none => d
    | some l =>
      if d.bankState p n ≠ 2 ∨ !l.ready ∨ l.steps ≠ 64 ∨ !d.bankTrack n then d
      else if verified then
        let bs := (l.got.map Prod.snd).flatten
        let d1 := (d.loadEnd p n 0).modBank n fun k => { k with q := bs.take 4096, c := imageScales bs }
        ((((d1.setB p (pwbR n 8) 4 true).nextEpoch p n).setBankState p n 3).count p (pwbR n 0x130) 1)
      else
        let d1 := (d.loadEnd p n 3).modBank n fun k => { k with q := [], c := [] }
        ((d1.setB p (pwbR n 8) 4 false).setBankState p n 1).fault p 31 n 2 0x0305 (BitVec.ofNat 64 n)

/-- A response addressed to a bank: to an image read or to an output tile's header packet (R236, R243). -/
def Dev.bankResponse (p : Part) (d : Dev) (r : Resp) : Dev :=
  let b := (srcUnit r.dst).toNat
  if 32 ≤ b then d
  else
    let asRead := match (d.bank b).load with
      | some l => (l.reads.find? fun (x : BitVec 12 × Nat) => x.1 == r.tag).map fun x => (l, x.2)
      | none => none
    match asRead with
    | some (l, i) => d.imageAnswer p b l i r
    | none =>
      match (List.range 8).find? fun c => (d.bch b c).sent.any fun (t : BSent) => t.head == r.tag with
      | none => d
      | some c =>
        match (d.bch b c).sent.find? fun (t : BSent) => t.head == r.tag with
        | some t => d.tileAnswer p b c t r.status
        | none => d

/-! ### Calibration and probes (R248 to R251) -/

/-- A calibration request (R251). -/
def Dev.calRequest (p : Part) (d : Dev) (b : Nat) : Dev :=
  let st := d.bankState p b
  if st = 0 ∨ st = 6 ∨ d.bit p (pwbR b 0x30) 0 ∨ d.bit p (pwbR b 0x30) 1 then d.noticeIgnored p (pwbR b 0) 2
  else d.setB p (pwbR b 0x30) 1 true
/-- PWB_CAL. -/
def execPwbCal (b : BitVec 5) (s : State) : Out := s.upd fun p _ d => d.calRequest p b.toNat
/-- CAL_START: a requested calibration starts (R239, R249, R251). -/
def execCalStart (b : BitVec 5) (s : State) : Out :=
  s.upd fun p _ d =>
    let n := b.toNat
    if !d.canCal p n || (bankNeighbours n).any fun m => decide (m < n) && d.canCal p m then d
    else ((d.setB p (pwbR n 0x30) 1 false).setB p (pwbR n 0x30) 0 true).setBankState p n 5
/-- The word a trim holds after a write of `v`: defined fields only, DACG zero where the ring has none. -/
def trimWord (p : Part) (a : Nat) (old v : W64) (lower upper : Bool) : W64 :=
  match regFields p a with
  | none => old
  | some fs =>
    let w := fieldsWritten fs old v lower upper
    if hasDacg a then w else withBits w 48 16 0
/-- Write calibration results to a trim array at once (R504). DESIGN CHOICE, log entry 40. -/
def Dev.calTrims (p : Part) (d : Dev) (b : Nat) : List (BitVec 13 × W64) → Dev
  | [] => d
  | (i, v) :: r =>
    let a := pwbR b (0x40000 + 8 * i.toNat)
    Dev.calTrims p (if i.toNat < 4224 then { d.put p a (trimWord p a (d.get p a) v true true) with slews := smSet none d.slews a none } else d) b r
/-- CAL_COMPLETE (R249). -/
def execCalComplete (b : BitVec 5) (trims : List (BitVec 13 × W64)) (s : State) : Out :=
  s.upd fun p _ d =>
    let n := b.toNat
    if d.bankState p n ≠ 5 then d
    else
      let d1 := ((d.calTrims p n trims).setB p (pwbR n 0x30) 0 false).setF p (pwbR n 0x30) 32 32 (lowT d.now)
      let d2 := (d1.setF p (pwbR n 0x58) 16 16 (d1.fld p (pwbR n 0x58) 0 16)).count p (pwbR n 0x138) 1
      let d3 : Dev := { d2 with deferred := d2.deferred.map fun x => { x with calibrated := x.calibrated ++ x.banks.filter (· == n) } }
      (d3.modBank n fun k => { k with calT := some d.now }).bankResume p n
/-- A cause for auto-calibration (R250). -/
def Dev.autoCause (p : Part) (d : Dev) (b : Nat) : Dev :=
  if d.bit p (pwbR b 0x10) 12 && (d.bank b).autoCause.isNone then d.modBank b fun k => { k with autoCause := some d.now } else d
/-- A channel stands between coaches. -/
def BankCh.between (x : BankCh) : Bool := x.tidx == 0 && x.lines.isEmpty && x.part.isNone
/-- AUTO_CAL: the calibration is requested at the end of the coach in hand on every running channel, or 240,000
ticks after the cause (R250, R251). -/
def execAutoCal (b : BitVec 5) (s : State) : Out :=
  s.upd fun p _ d =>
    let n := b.toNat
    match (d.bank n).autoCause with
    | none => d
    | some t =>
      if 240000 ≤ elapsed d.now t ∨ (List.range 8).all (fun c => !d.chRun p n c || (d.bch n c).between) then
        (d.modBank n fun k => { k with autoCause := none }).calRequest p n
      else d
/-- PROBE_WINDOW: 4,096 probes of a READY bank end (R248); while the conditions of R247 hold, and no fault is injected,
its figures are within the bounds of R247. -/
def execProbeWindow (b : BitVec 5) (st : ProbeStats) (s : State) : Out :=
  s.upd fun p _ d =>
    let n := b.toNat
    if d.bankState p n ≠ 3 ∨ d.fld p (pwbR n 0x10) 8 4 = 0 then d
    else if d.bankPrecise p n ∧ !figuresOk st (d.fld p (pwbR n 0x10) 1 3) ∧ d.injBits 31 12 n = 0 then d
    else
      let w := d.fld p (pwbR n 0x48) 48 16 + 1
      let d1 := d.put p (pwbR n 0x40) (st.mean ++ st.rms)
      let d2 := d1.put p (pwbR n 0x48) (BitVec.ofNat 64 (st.maxAbs.toNat + st.enob.toNat * 2 ^ 32 + st.worst.toNat * 2 ^ 40 + 2 ^ 47 + w % 2 ^ 16 * 2 ^ 48))
      let z := ((d2.count p (pwbR n 0x108) (4096 - (d.bank n).probes)).modBank n fun k => { k with probes := 0 }).injTake p 31 12 n
      let d3 := z.1
      if z.2 ≠ 0 ∨ st.enob.toNat < d3.fld p (pwbR n 0x10) 16 8 then
        (d3.fault p 31 n 0 0x0304 (BitVec.ofNat 64 n) (st.enob.zeroExtend 64) (decide (z.2 ≠ 0))).autoCause p n
      else d3

/-! ### Reset (R258 to R260) -/

/-- Register words of a bank that a bank reset keeps: counters and trims. -/
def bankKept (a : Nat) : Bool := (decide (0x100 ≤ ctlOff a) && decide (ctlOff a < 0x150)) || decide (0x40000 ≤ ctlOff a)
/-- A bank reset: weights, buffers and registers go; EPOCH, counters and trims stay. The heaters ramp to park level, and
STATE keeps its code until they are there (R258 to R260). -/
def Dev.bankReset (p : Part) (d : Dev) (b : Nat) : Dev :=
  let k := d.bank b
  let shown := d.bankShown p b
  let epoch := d.bankEpoch p b
  let track := d.fld p (pwbR b 0x50) 0 13
  let aborted := d.bit p (pwbR b 0x28) 0 || d.bit p (pwbR b 0x28) 1
  let d1 : Dev := { d with ctl := d.ctl.filter fun e => ctlSite e.1 != 31 || ctlBlk e.1 != 0x40 + b || bankKept e.1 }
  let d2 := ((d1.setF p (pwbR b 8) 32 32 epoch).setF p (pwbR b 8) 0 4 shown).setF p (pwbR b 0x50) 0 13 track
  let d3 := if aborted then d2.setF p (pwbR b 0x28) 4 4 4 else d2
  d3.modBank b fun _ => { tag := k.tag, vectors := k.vectors, calT := k.calT
                          parking := if shown = 0 then none else some (k.parking.getD d.now) }
/-- PWB_RESET. -/
def execPwbReset (b : BitVec 5) (s : State) : Out := s.upd fun p _ d => d.bankReset p b.toNat
/-- The heaters are at park level: the loops stop and the bank is in PARKED (R258). -/
def Dev.bankParked (p : Part) (d : Dev) (b : Nat) : Dev :=
  (((d.setBankState p b 0).setF p (pwbR b 0x50) 0 13 0).plainRings (4160 * b) (4160 * (b + 1))).modBank b fun k => { k with parking := none, fed := [] }
/-- PARK_COMPLETE: the ramp of 19,200 ticks is over (R258). -/
def execParkComplete (b : BitVec 5) (s : State) : Out :=
  s.upd fun p _ d =>
    match (d.bank b.toNat).parking with
    | none => d
    | some t => if 19200 ≤ elapsed d.now t then d.bankParked p b.toNat else d

end Sys2Proof.Machine
end

