-- ==== Sys2Proof/Machine/Path.lean ====
section
/-! DEFINITION. Path choice in the routing stage: route entries and sets, bundles, hashes, the choice of
neighbour and port, and random intermediate boards (R366, R367, R370 to R377, R395). -/

namespace Sys2Proof.Machine

/-! ### CRC-32 (R275, R376) -/

/-- One bit of a reflected CRC-32 with polynomial 0x04C1_1DB7 (log entry 10). -/
def crcBit (c : W32) : W32 := if c.getLsbD 0 then (c >>> 1) ^^^ 0xEDB88320 else c >>> 1
/-- One byte. -/
def crcByte (c : W32) (b : Byte) : W32 :=
  crcBit (crcBit (crcBit (crcBit (crcBit (crcBit (crcBit (crcBit (c ^^^ b.zeroExtend 32))))))))
/-- CRC-32 of a run of bytes. -/
def crc32 (bs : List Byte) : W32 := ~~~(bs.foldl crcByte 0xFFFFFFFF)

/-! ### Fabric packets (R346, R369) -/

/-- Payload bytes of a message body, in whole 16-byte units (R277). -/
def bodyPayload : Body → Nat
  | .req r =>
    match r.op with
    | .read _ => 0
    | .write data => (data.length + 15) / 16 * 16
    | .atomic .. => 48
    | .push _ _ hdr lines => (if hdr.isSome then 16 else 0) + 128 * lines.length
    | .cread => 0
    | .cwrite .. => 16
  | .resp _ r => (r.data.length + 15) / 16 * 16
  | .record _ => 0
  | .probe => 0
/-- Bytes of a fabric packet: a 64-byte header and its payload; an E2EACK carries 16 bytes. -/
def fabSize (x : FabPkt) : Nat := 64 + match x.body with | some b => bodyPayload b | none => 16
/-- Virtual channel of a message, with the body it travels as. -/
def msgBody : Msg → Option Body
  | .req r => some (.req r)
  | .resp r => some (.resp (srcNode r.dst) r)
  | .record f => some (.record f)
  | _ => none
/-- The message a delivered body is. -/
def bodyMsg : Body → Option Msg
  | .req r => some (.req r)
  | .resp _ r => some (.resp r)
  | .record f => some (.record f)
  | .probe => none
/-- Code of a virtual channel (R276). -/
def vcCode : Vc → Nat | .req => 0 | .rsp => 1 | .ctl => 2 | .bulk => 3

/-! ### Tables (R371, R372, R395) -/

def rtR (off : Nat) : Nat := latcR (0x90000 + off)
def boardOf (node : BitVec 16) : Nat := node.toNat / 8
/-- State of port f (R364): 6 is UP. -/
def Dev.portSt (p : Part) (d : Dev) (f : Nat) : Nat := d.fld p (portR f 8) 0 4
def Dev.portUp (p : Part) (d : Dev) (f : Nat) : Bool := d.portSt p f == 6
def Dev.peerNode (p : Part) (d : Dev) (f : Nat) : Nat := d.fld p (portR f 0x18) 0 16
def nbrR (i : Nat) : Nat := rtR (0x100 + 8 * i)
/-- Ports of neighbour i's bundle, in ascending order (R343, R371). -/
def Dev.bundle (p : Part) (d : Dev) (i : Nat) : List Nat :=
  if d.bit p (nbrR i) 24 then (List.range 64).filter fun f => d.portUp p f && d.peerNode p f == d.fld p (nbrR i) 0 16 else []
/-- The neighbour that port f belongs to. -/
def Dev.nbrOf (p : Part) (d : Dev) (f : Nat) : Option Nat :=
  (List.range 16).find? fun i => d.bit p (nbrR i) 24 && d.peerNode p f == d.fld p (nbrR i) 0 16
/-- Route entry of a board, or of a position of the own board (R372). -/
def boardR (b : Nat) : Nat := latcR (0xA0000 + 8 * b)
def posR (j : Nat) : Nat := rtR (0x200 + 8 * j)
def Dev.routeEntry (p : Part) (d : Dev) (x : FabPkt) : W64 :=
  let b := if x.phase then boardOf x.dnode else x.iboard.toNat
  if b = boardOf d.node then d.get p (posR (x.dnode.toNat % 8)) else d.get p (boardR b)
/-- Usable neighbours of set ALT of an entry, in ascending index (R373). -/
def Dev.usableSet (p : Part) (d : Dev) (e : W64) (alt : Nat) : List Nat :=
  (List.range 16).filter fun i => (decide (alt < 3) && e.getLsbD (16 * alt + i)) && !(d.bundle p i).isEmpty
/-- The first usable set from ALT on (R373). -/
def Dev.routeAlt (p : Part) (d : Dev) (e : W64) (alt : Nat) : Option Nat :=
  if e.getLsbD 48 then (List.range 3).find? fun a => decide (alt ≤ a) && !(d.usableSet p e a).isEmpty else none

/-! ### Choice (R376, R377) -/

def le2 (x : BitVec 16) : List Byte := [x.extractLsb' 0 8, x.extractLsb' 8 8]
/-- H of R376 and R377; a FLAGGED push adds its tile SEQ. -/
def pathHash (x : FabPkt) : Nat :=
  let tail : List Byte := match x.body with
    | some (.req r) => (match r.op with | .push seq .. => if x.ord then le2 seq else [] | _ => [])
    | _ => []
  (crc32 (le2 x.snode ++ le2 x.dnode ++ [x.chan] ++ tail)).toNat
/-- Is a packet spread by load (FLAGGED, and no push)? -/
def byLoad (x : FabPkt) : Bool :=
  x.ord && match x.body with
    | some (.req r) => (match r.op with | .push .. => false | _ => true)
    | _ => true
def Dev.port (d : Dev) (f : Nat) : PortSt := smGet {} d.ports f
def Dev.setPort (d : Dev) (f : Nat) (x : PortSt) : Dev := { d with ports := smSet {} d.ports f x }
def Dev.modPort (d : Dev) (f : Nat) (g : PortSt → PortSt) : Dev := d.setPort f (g (d.port f))
/-- Bytes that a port's transit queue of a virtual channel holds. -/
def PortSt.load (x : PortSt) (vc : Vc) : Nat := ((x.tq.filter fun y => y.vc == vc).map fabSize).sum
/-- The first element of a list with the least key. -/
def leastBy (key : Nat → Nat) : List Nat → Option Nat
  | [] => none
  | a :: l => match leastBy key l with
    | some b => if key b < key a then some b else some a
    | none => some a
/-- The neighbour and port a packet leaves by, with its set (R373, R377). -/
def Dev.pickPort (p : Part) (d : Dev) (x : FabPkt) : Option (Nat × Nat) :=
  let e := d.routeEntry p x
  match d.routeAlt p e x.alt.toNat with
  | none => none
  | some alt =>
    let ns := d.usableSet p e alt
    let load (f : Nat) : Nat := (d.port f).load x.vc
    let f := if byLoad x then
        (leastBy (fun i => ((d.bundle p i).map load).sum) ns).bind fun i => leastBy load (d.bundle p i)
      else
        let h := pathHash x
        (ns[h % ns.length]?).bind fun i => (d.bundle p i)[h / 256 % (d.bundle p i).length]?
    f.map fun f => (alt, f)

/-- Boards that may be drawn as IBOARD, in ascending order (R376). -/
def Dev.interBoards (p : Part) (d : Dev) : List Nat :=
  (d.ctl.filterMap fun e =>
    if ctlSite e.1 = 31 ∧ ctlBlk e.1 = 0x20 ∧ 0xA0000 ≤ ctlOff e.1 ∧ ctlOff e.1 < 0xB0000 ∧ (d.get p e.1).getLsbD 49
    then some ((ctlOff e.1 - 0xA0000) / 8) else none)
/-- RMODE of a channel. -/
def Dev.chanMode (p : Part) (d : Dev) (c : BitVec 8) : Bool := d.bit p (rtR (0x300 + 8 * (c.toNat / 64))) (c.toNat % 64)
/-- Key of the board drawn for a tile: destination node, channel and source. -/
def drawKey (dnode : BitVec 16) (r : Req) : Nat := (dnode.toNat * 256 + r.chan.toNat) * 2 ^ 27 + r.src.toNat
/-- The board drawn for the tile that a packet is the second packet of (R162, R376). -/
def Dev.tileBoard (d : Dev) (dnode : BitVec 16) (body : Body) : Option (BitVec 13) :=
  match body with
  | .req r =>
    (match r.op with
    | .push seq _ none _ => (match smGet none d.tileDraw (drawKey dnode r) with
      | some y => if y.1 = seq then some y.2 else none
      | none => none)
    | _ => none)
  | _ => none
/-- A packet has left with its board: the first packet of a 4-line tile leaves it for the second (R162, R376). -/
def Dev.noteDraw (d : Dev) (dnode : BitVec 16) (x : FabPkt) : Dev :=
  match x.body with
  | some (.req r) =>
    (match r.op with
    | .push seq _ hdr _ =>
      let more := match hdr with | some h => hdrNl h == 3 && x.ord && x.rmode | none => false
      { d with tileDraw := smSet none d.tileDraw (drawKey dnode r) (if more then some (seq, x.iboard) else none) }
    | _ => d)
  | _ => d
/-- Target site of a body at its destination node (R369). -/
def Dev.bodySite (p : Part) (d : Dev) : Body → BitVec 5
  | .req r => BitVec.ofNat 5 (d.placeSite p (d.place p (gaLocal r.addr)))
  | .resp _ r => srcSite r.dst
  | .record _ | .probe => 0
/-- The header of a packet that leaves this node, without its sequence numbers (R369, R370, R375, R376); and
the LFSR after its draw. -/
def Dev.startPkt (p : Part) (d : Dev) (dnode : BitVec 16) (body : Body) : FabPkt × W32 :=
  let hdr : BitVec 8 × Bool × Bool := match body with | .req r => (r.chan, r.ord, r.flag) | _ => (0, false, false)
  let x : FabPkt := { vc := bodyVc body, lseq := 0, rpl := false, dnode := dnode, snode := d.node, iboard := 0, phase := true
                      rmode := false, alt := 0, ord := hdr.2.1, flag := hdr.2.2, erpl := false, hops := 0, chan := hdr.1
                      eseq := 0, cseq := 0, pred := 0, epoch := 0, body := some body, dsite := d.bodySite p body }
  let bs := d.interBoards p
  if !d.chanMode p hdr.1 || bs.isEmpty then (x, d.routeLfsr)
  else
    let l := Config.routeLfsrStep d.routeLfsr
    let z : BitVec 13 × W32 := if !x.ord then (BitVec.ofNat 13 (bs.getD (pathHash x % bs.length) 0), d.routeLfsr)
      else match d.tileBoard dnode body with
        | some b => (b, d.routeLfsr)
        | none => (BitVec.ofNat 13 (bs.getD (l.toNat % bs.length) 0), l)
    let b := z.1.toNat
    ({ x with rmode := true, iboard := z.1, phase := b == boardOf d.node || b == boardOf dnode }, z.2)

end Sys2Proof.Machine
end

