-- ==== Sys2Proof/Machine/Wire.lean ====
section
/-! DEFINITION. What stands on the wires: slot control words, lattice and fabric packets with their CRC, control messages
of a port and switch notices (R274 to R278, R295, R345 to R347, R369, R411). -/

namespace Sys2Proof.Machine

/-- A word made of fields that do not overlap, each with its lowest bit, its width and its value. -/
def packed : List (Nat × Nat × Nat) → Nat
  | [] => 0
  | (lo, n, v) :: fs => v % 2 ^ n * 2 ^ lo + packed fs
def ofBool (b : Bool) : Nat := if b then 1 else 0

/-! ### Slot control words (R274) -/

/-- The 128-bit slot control word: what an endpoint releases, bids for, grants (trunk and grantee), stops and acknowledges
(NAK, sender, LSEQ). -/
def slotWord (rel : BitVec 16) (bid : Option Nat) (grants : List (Nat × Nat)) (stop : BitVec 4)
    (acks : List (Bool × Nat × BitVec 10)) : BitVec 128 :=
  let grant (i : Nat) : List (Nat × Nat × Nat) := match grants[i]? with
    | some g => [(22 + 10 * i, 1, 1), (23 + 10 * i, 4, g.1), (27 + 10 * i, 5, g.2)]
    | none => []
  let ack (i : Nat) : List (Nat × Nat × Nat) := match acks[i]? with
    | some a => [(64 + 17 * i, 1, 1), (65 + 17 * i, 1, ofBool a.1), (66 + 17 * i, 5, a.2.1), (71 + 17 * i, 10, a.2.2.toNat)]
    | none => []
  BitVec.ofNat 128 (packed ([(0, 16, rel.toNat), (16, 5, bid.getD 0), (21, 1, ofBool bid.isSome), (42, 4, stop.toNat)]
    ++ grant 0 ++ grant 1 ++ ack 0 ++ ack 1 ++ ack 2))
/-- Is trunk t released? -/
def SlotWord.rel (w : SlotWord) (t : Nat) : Bool := decide (t < 16) && w.word.getLsbD t
/-- The endpoint bid for. -/
def SlotWord.bid (w : SlotWord) : Option Nat := if w.word.getLsbD 21 then some (w.word.extractLsb' 16 5).toNat else none
/-- STOP, by virtual channel. -/
def SlotWord.stop (w : SlotWord) : BitVec 4 := w.word.extractLsb' 42 4
/-- Grant i: trunk and grantee. -/
def SlotWord.grant (w : SlotWord) (i : Nat) : Option (Nat × Nat) :=
  if w.word.getLsbD (22 + 10 * i) then some ((w.word.extractLsb' (23 + 10 * i) 4).toNat, (w.word.extractLsb' (27 + 10 * i) 5).toNat) else none
/-- Acknowledgement entry i: NAK, sender, LSEQ. -/
def SlotWord.ack (w : SlotWord) (i : Nat) : Option (Bool × Nat × BitVec 10) :=
  if w.word.getLsbD (64 + 17 * i) then
    some (w.word.getLsbD (65 + 17 * i), (w.word.extractLsb' (66 + 17 * i) 5).toNat, w.word.extractLsb' (71 + 17 * i) 10)
  else none

/-! ### Bodies (R276 to R278, R411) -/

/-- TYPE; 0, which is never sent, for what the table of types does not hold. -/
def bodyType : Body → Nat
  | .req r =>
    match r.op with
    | .read _ => 1
    | .write _ => 2
    | .atomic .. => 3
    | .push .. => 4
    | .cread => 5
    | .cwrite .. => 6
  | .resp _ r => if r.data.isEmpty then 9 else 8
  | .record _ | .probe => 0
/-- Types that are sent: any other is discarded as though its CRC had failed (R277). -/
def sentTypes : List Nat := [1, 2, 3, 4, 5, 6, 8, 9]
/-- Origin site and its core, or bank of site 0x1F. DEDUCED, log entry 86: SCORE of a response is zero. -/
def bodyOrigin : Body → Nat × Nat
  | .req r =>
    let s := (srcSite r.src).toNat
    (s, if isW s || isBase s then (srcUnit r.src).toNat else 0)
  | .resp _ r => (r.from'.toNat, 0)
  | .record _ | .probe => (0, 0)
/-- LEN: payload in units of 16 bytes; of a READ, what it asks for. -/
def bodyLen : Body → Nat
  | .req r => match r.op with | .read n => n.toNat | _ => bodyPayload (.req r) / 16
  | b => bodyPayload b / 16
def bodyTag : Body → BitVec 12
  | .req r => r.tag
  | .resp _ r => r.tag
  | .record _ | .probe => 0
/-- NODE in a packet of the lattice of node `nd`: the own node, the destination node toward a shelf, the origin node from
one. -/
def bodyNode (nd : BitVec 16) : Body → BitVec 16
  | .req r => if gaNode r.addr = nd then srcNode r.src else gaNode r.addr
  | .resp _ r => if srcNode r.dst = nd then r.node else srcNode r.dst
  | .record _ | .probe => nd
/-- CHAN, ORD and FLAG; CHAN is used only toward and from a shelf. -/
def bodyOrder (nd : BitVec 16) : Body → Nat × Bool × Bool
  | .req r => (if gaNode r.addr = nd ∧ srcNode r.src = nd then 0 else r.chan.toNat, r.ord, r.flag)
  | _ => (0, false, false)
/-- OPER: a local address, a control-space address, the layout of a PUSH or that of a response. -/
def bodyOper : Body → Nat
  | .req r =>
    let a := gaLocal r.addr
    match r.op with
    | .read _ | .write _ | .atomic .. => a
    | .cread | .cwrite .. => a % 2 ^ 40
    | .push seq first _ _ =>
      let w := (a - 0x400000000000) / 0x1000000
      packed [(0, 6, w % 64), (6, 3, (a % 0x1000000 - 0x400000) / 0x10000), (9, 2, first.toNat), (11, 16, seq.toNat), (27, 5, w / 64)]
  | .resp _ r => packed [(0, 7, r.status.toNat), (7, 6, (srcUnit r.dst).toNat), (13, 5, (srcSite r.dst).toNat)]
  | .record _ | .probe => 0
/-- Bytes filled with zeros to a whole number of 16-byte units. -/
def padded (bs : List Byte) : List Byte := bs ++ List.replicate ((16 - bs.length % 16) % 16) 0
/-- Payload. -/
def bodyBytes : Body → List Byte
  | .req r =>
    match r.op with
    | .read _ | .cread => []
    | .write data => padded data
    | .atomic op a b attempt aseq =>
      [op.zeroExtend 8, attempt.zeroExtend 8] ++ leBytes 2 aseq.toNat ++ List.replicate 12 0 ++ leBytes 16 a.toNat ++ leBytes 16 b.toNat
    | .push _ _ hdr lines => (match hdr with | some h => leBytes 16 h.toNat | none => []) ++ lines.flatten
    | .cwrite v lower upper => leBytes 8 v.toNat ++ leBytes 8 (packed [(0, 1, ofBool lower), (1, 1, ofBool upper)])
  | .resp _ r => padded r.data
  | .record _ | .probe => []

/-! ### Lattice packets (R275, R276) -/

/-- The 16-byte header of a packet of the lattice of node `nd`. -/
def latHeader (nd : BitVec 16) (k : LatPkt) : BitVec 128 :=
  let b := k.body
  let o := bodyOrder nd b
  BitVec.ofNat 128 (packed [(0, 5, k.dst.val), (5, 5, (bodyOrigin b).1), (10, 6, (bodyOrigin b).2), (16, 4, bodyType b), (20, 2, vcCode k.vc),
    (22, 6, bodyLen b), (28, 10, k.lseq.toNat), (38, 16, (bodyNode nd b).toNat), (54, 12, (bodyTag b).toNat), (66, 48, bodyOper b),
    (114, 8, o.1), (122, 1, ofBool o.2.1), (123, 1, ofBool o.2.2), (124, 1, ofBool k.rpl)])
/-- Header and payload. -/
def latBytes (nd : BitVec 16) (k : LatPkt) : List Byte := leBytes 16 (latHeader nd k).toNat ++ bodyBytes k.body
/-- Bytes with their CRC-32 after them. -/
def withCrc (bs : List Byte) : List Byte := bs ++ leBytes 4 (crc32 bs).toNat
/-- Does the CRC-32 at the end of a run of bytes hold? -/
def crcHolds (bs : List Byte) : Bool :=
  decide (4 ≤ bs.length) && leNat (bs.drop (bs.length - 4)) == (crc32 (bs.take (bs.length - 4))).toNat
/-- The bytes of a packet in its slot. -/
def latImage (nd : BitVec 16) (k : LatPkt) : List Byte := withCrc (latBytes nd k)
/-- Do the bytes received pass as packet `k`: their CRC holds, their TYPE is one that is sent, and they are its bytes? -/
def latGood (nd : BitVec 16) (k : LatPkt) (got : List Byte) : Bool :=
  crcHolds got && sentTypes.contains ((got.getD 2 0).toNat % 16) && got.take (got.length - 4) == latBytes nd k

/-! ### Fabric packets (R346, R369) -/

/-- TYPE of a fabric packet: those of R277, and 0xA for E2EACK. -/
def fabType (x : FabPkt) : Nat := match x.body with | some b => bodyType b | none => 10
/-- Payload of a fabric packet; an E2EACK holds its base and map (R388). -/
def fabPayload (x : FabPkt) : List Byte :=
  match x.body with
  | some b => bodyBytes b
  | none => leBytes 8 x.ackBase.toNat ++ leBytes 8 x.ackMap.toNat
/-- Header bytes 8 to 63. -/
def fabHeader (x : FabPkt) : List Byte :=
  let o := match x.body with | some b => bodyOrigin b | none => (0, 0)
  leBytes 2 x.dnode.toNat ++ leBytes 2 x.snode.toNat
    ++ leBytes 2 (packed [(0, 13, x.iboard.toNat), (13, 1, ofBool x.phase), (14, 1, ofBool x.rmode)])
    ++ leBytes 1 (packed [(0, 2, x.alt.toNat), (2, 1, ofBool x.ord), (3, 1, ofBool x.flag), (4, 1, ofBool x.erpl)])
    ++ leBytes 1 x.hops.toNat ++ leBytes 1 (fabType x) ++ leBytes 1 x.chan.toNat
    ++ leBytes 2 (packed [(0, 5, o.1), (5, 6, o.2), (11, 5, x.dsite.toNat)])
    ++ leBytes 4 x.eseq.toNat ++ leBytes 4 x.cseq.toNat ++ leBytes 4 x.pred.toNat ++ leBytes 2 x.epoch.toNat
    ++ leBytes 2 (match x.body with | some b => (bodyTag b).toNat | none => 0)
    ++ leBytes 6 (match x.body with | some b => bodyOper b | none => 0) ++ List.replicate 22 0
/-- Link fields, with the CRC given. -/
def fabLink (x : FabPkt) (crc : Nat) : List Byte :=
  let len := match x.body with | some b => bodyLen b | none => 1
  leBytes 4 (packed [(0, 1, 1), (1, 2, vcCode x.vc), (3, 6, len), (9, 12, x.lseq.toNat), (21, 1, ofBool x.rpl)]) ++ leBytes 4 crc
/-- A fabric packet's bytes: the CRC is taken over the whole packet with its own field zero. -/
def fabImage (x : FabPkt) : List Byte :=
  let rest := fabHeader x ++ fabPayload x
  fabLink x (crc32 (fabLink x 0 ++ rest)).toNat ++ rest
/-- Does the CRC in bytes 4 to 7 of a packet hold? -/
def fabCrcHolds (got : List Byte) : Bool :=
  leNat ((got.drop 4).take 4) == (crc32 (got.take 4 ++ List.replicate 4 0 ++ got.drop 8)).toNat
/-- Do the bytes received pass as packet `x`? -/
def fabGood (x : FabPkt) (got : List Byte) : Bool :=
  fabCrcHolds got && (10 :: sentTypes).contains ((got.getD 16 0).toNat % 16) && got == fabImage x
/-- Fields of the 20 control bits of a link block (R345). KIND: 0 IDLE, 1 DATA, 2 DATA with a packet head at byte 0, 3 CTRL. -/
def blockKind (c : BitVec 20) : Nat := (c.extractLsb' 0 2).toNat
def blockAckv (c : BitVec 20) : Bool := c.getLsbD 2
def blockNak (c : BitVec 20) : Bool := c.getLsbD 3
def blockAseq (c : BitVec 20) : BitVec 12 := c.extractLsb' 4 12
def blockStop (c : BitVec 20) : BitVec 4 := c.extractLsb' 16 4
/-- Control bits made of those fields. -/
def blockCtrl (kind : Nat) (ackv nak : Bool) (aseq : BitVec 12) (stop : Nat) : BitVec 20 :=
  BitVec.ofNat 20 (packed [(0, 2, kind), (2, 1, ofBool ackv), (3, 1, ofBool nak), (4, 12, aseq.toNat), (16, 4, stop)])
/-- The distinct symbols of a block's codeword that are in error. -/
def symbolErrs (b : LinkBlock) : List Nat := (b.errs.map BitVec.toNat).eraseDups.filter fun s => decide (s < 544)
/-- The lane that carries symbol s: of all sixteen, or at half width of the eight lowest good ones (R344, R358). -/
def symbolLane (halfWidth : Bool) (good : List Nat) (s : Nat) : Nat := if halfWidth then good.getD (s % 8) 0 else s % 16
/-! ### The data bytes of blocks (R346) -/

/-- Bytes of the packet whose 64-byte header this is: a READ and a CREAD have no payload, whatever LEN says (R276). -/
def headSize (h : List Byte) : Nat :=
  let type := (h.getD 16 0).toNat % 16
  64 + if type = 1 ∨ type = 5 then 0 else 16 * (leNat (h.take 2) / 8 % 64)
/-- Read `n` 16-byte words of data bytes: the headers that become whole, and where the bytes stand then. `part` is the
beginning of a header, `rest` the bytes of a packet still to come. A word with a zero first byte where a head would stand
is fill, as is the rest of the block. -/
def readHeads : Nat → List Byte → Nat → List Byte → List (List Byte) × List Byte × Nat
  | 0, part, rest, _ => ([], part, rest)
  | n + 1, part, rest, bs =>
    if part.isEmpty && decide (0 < rest) then readHeads n [] (rest - 16) (bs.drop 16)
    else if part.isEmpty && bs.headD 0 == 0 then ([], [], 0)
    else
      let h := part ++ bs.take 16
      if h.length < 64 then readHeads n h 0 (bs.drop 16)
      else
        let z := readHeads n [] (headSize h - 64) (bs.drop 16)
        (h :: z.1, z.2)
/-- Fill up to `room` data bytes with packets back to back: the bytes, the packets that wait on, and whether the first of
those has begun. -/
def fillBlock : Nat → List (List Byte) → List Byte × List (List Byte) × Bool
  | _, [] => ([], [], false)
  | room, x :: xs =>
    if room = 0 then ([], x :: xs, false)
    else if x.length ≤ room then
      let z := fillBlock (room - x.length) xs
      (x ++ z.1, z.2)
    else (x.take room, x.drop room :: xs, true)

/-! ### The codeword of a block (R344) -/

/-- Multiply by x in GF(2^10) with x^10 + x^3 + 1. -/
def gfDouble (a : BitVec 10) : BitVec 10 := if a.getLsbD 9 then (a <<< 1) ^^^ 9 else a <<< 1
/-- a times b, over the lowest `n` bits of b. -/
def gfMul (a b : BitVec 10) : Nat → BitVec 10
  | 0 => 0
  | n + 1 => gfMul (gfDouble a) (b >>> 1) n ^^^ (if b.getLsbD 0 then a else 0)
/-- The generator, highest coefficient first, as the product of x - 2^i for i below n. -/
def rsGen : Nat → BitVec 10 → List (BitVec 10)
  | 0, _ => [1]
  | n + 1, root =>
    let g := rsGen n (gfDouble root)
    List.zipWith (fun a b => a ^^^ gfMul b root 10) (g ++ [0]) (0 :: g)
/-- The thirty check symbols of a message, by long division. -/
def rsCheck (gen : List (BitVec 10)) (msg : List (BitVec 10)) : List (BitVec 10) :=
  msg.foldl (fun r m =>
    let q := m ^^^ r.headD 0
    List.zipWith (fun a g => a ^^^ gfMul g q 10) (r.drop 1 ++ [0]) (gen.drop 1)) (List.replicate 30 0)
/-- The 514 message symbols of a block: its data bytes and then its control bits, each with the lowest bit first (DESIGN CHOICE,
log entry 104: the rule gives the bits no order). -/
def blockSymbols (ctrl : BitVec 20) (data : List Byte) : List (BitVec 10) :=
  let w := leNat data + ctrl.toNat * 2 ^ 5120
  (List.range 514).map fun i => BitVec.ofNat 10 (w / 2 ^ (10 * i))
/-- The RS(544,514) codeword of a block. -/
def blockCodeword (ctrl : BitVec 20) (data : List Byte) : List (BitVec 10) :=
  let m := blockSymbols ctrl data
  m ++ rsCheck (rsGen 30 1) m

/-- LSEQ of the packet whose head stands at byte 0 of a block, if one does (V is 1). -/
def headLseq (data : List Byte) : Option (BitVec 12) :=
  let w := BitVec.ofNat 32 (leNat (data.take 4))
  if w.getLsbD 0 then some (w.extractLsb' 9 12) else none

/-! ### Control messages of a port (R347) -/

/-- Two bytes of a message as a word. -/
def half (bs : List Byte) (i : Nat) : BitVec 16 := BitVec.ofNat 16 (leNat ((bs.drop i).take 2))
/-- Contents of IDENT and IDENT_ACK after the type. -/
def identBytes (i : Ident) : List Byte :=
  le2 i.node ++ [i.port.zeroExtend 8, i.vmax ++ i.vmin, i.brev] ++ le2 i.good ++ leBytes 4 i.rcid.toNat
def ctrlHead : PortMsg → List Byte
  | .train good => 1 :: le2 good ++ List.replicate 5 0 ++ (List.range 504).map Config.trainPattern
  | .ident i => 2 :: identBytes i
  | .identAck i => 3 :: identBytes i
  | .leave reason => [4, reason]
  | .abort lseq => 5 :: le2 (lseq.zeroExtend 16)
/-- The 640 data bytes of a CTRL block. -/
def ctrlBytes (m : PortMsg) : List Byte := withCrc (ctrlHead m ++ List.replicate (636 - (ctrlHead m).length) 0)
def identOf (bs : List Byte) : Ident :=
  let v := bs.getD 4 0
  { node := half bs 1, port := (bs.getD 3 0).extractLsb' 0 6, vmin := v.extractLsb' 0 4, vmax := v.extractLsb' 4 4, brev := bs.getD 5 0
    good := half bs 6, rcid := BitVec.ofNat 32 (leNat ((bs.drop 8).take 4)) }
/-- The message the data bytes of a CTRL block carry: none where the CRC fails or the type is not listed. -/
def ctrlMsgOf (bs : List Byte) : Option PortMsg :=
  if bs.length ≠ 640 ∨ crcHolds bs = false then none
  else match (bs.getD 0 0).toNat with
    | 1 => some (.train (half bs 1))
    | 2 => some (.ident (identOf bs))
    | 3 => some (.identAck (identOf bs))
    | 4 => some (.leave (bs.getD 1 0))
    | 5 => some (.abort ((half bs 1).extractLsb' 0 12))
    | _ => none

/-! ### Voted wires (R295) -/

/-- Two-out-of-three vote of every bit. -/
def vote3 {n : Nat} (a b c : BitVec n) : BitVec n := (a &&& b) ||| (a &&& c) ||| (b &&& c)
/-- The first of three that differs from the vote. -/
def outvoted {n : Nat} (a b c : BitVec n) : Option Nat :=
  let v := vote3 a b c
  if a ≠ v then some 0 else if b ≠ v then some 1 else if c ≠ v then some 2 else none
/-- The 12 bits of a notice: the endpoint, the plane, the kind of event (1 for a fall-back) and check bits. DESIGN CHOICE,
log entry 87: the manual gives no positions and no check code. -/
def noticeWord (e : Nat) (plane fallback : Bool) : BitVec 12 :=
  let w : BitVec 7 := BitVec.ofNat 7 (packed [(0, 5, e), (5, 1, ofBool plane), (6, 1, ofBool fallback)])
  Config.noticeCheck w ++ w

end Sys2Proof.Machine
end

