-- ==== Sys2Proof/Machine/Lattice.lean ====
section
/-! DEFINITION. The Gelbix lattice: the timetable and reservation, the link layer of pairs, plane health,
switch-over, fall-back, the voted control wiring and the die-to-die lanes (R264 to R304). -/

namespace Sys2Proof.Machine

/-! ### Registers of endpoints and pairs (R303, R304) -/

def pairR (a b : Nat) : Nat := latR a (0x100 + 8 * b)
def Dev.pairNext (p : Part) (d : Dev) (a b : Nat) : BitVec 10 := BitVec.ofNat 10 (d.fld p (pairR a b) 0 10)
def Dev.pairOut (p : Part) (d : Dev) (a b : Nat) : Nat := d.fld p (pairR a b) 32 10
def Dev.pairPlane (p : Part) (d : Dev) (a b : Nat) : Bool := d.bit p (pairR a b) 48
def Dev.pairDown (p : Part) (d : Dev) (a b : Nat) : Bool := d.bit p (pairR a b) 49
/-- Next LSEQ that a expects from b. -/
def Dev.pairExpect (p : Part) (d : Dev) (a b : Nat) : BitVec 10 := BitVec.ofNat 10 (d.fld p (pairR a b) 52 10)
/-- Is a plane healthy at an endpoint (R285)? -/
def Dev.planeOk (p : Part) (d : Dev) (e : Nat) (plane : Bool) : Bool := d.bit p (latR e 0) (if plane then 1 else 0)
def Dev.dormant (p : Part) (d : Dev) (e : Nat) : Bool := d.bit p (latR e 0) 5
def Dev.switching (p : Part) (d : Dev) (e : Nat) : Bool := d.bit p (latR e 0) 4
/-- The base carries the endpoint: its site, or BASE for a shelf. -/
def epSite (e : Nat) : Nat := if e < 23 then e else 31

/-! ### Loss of a plane at an endpoint (R265, R285, R286, R288) -/

/-- Ring index of a lattice ring among the calibration words of R510. -/
def latRing (e : Nat) (plane : Bool) (t k : Nat) : Nat := 200000 + ((2 * e + (if plane then 1 else 0)) * 16 + t) * 64 + k
/-- Rings of an endpoint's plane all in TRACK. -/
def Dev.planeTracks (d : Dev) (e : Nat) (plane : Bool) : Bool := (d.offTrack (latRing e plane 0 0) (latRing e plane 15 63 + 1)).isEmpty
/-- Lantern input that lights trunk t of a plane (R265, R338). -/
def trunkLantern (plane : Bool) (t : Nat) : Nat := if plane then (t + 8) % 16 else t
/-- Do all trunks of a plane have their light (R265)? -/
def Dev.planeLit (p : Part) (d : Dev) (plane : Bool) : Bool := (List.range 16).all fun t => d.ltnSt p (trunkLantern plane t) == 3
/-- Is every lattice access group of a site out (R302)? -/
def Dev.accessOut (d : Dev) (e : Nat) : Bool := d.rolesOut.any fun x => x.1 == e && x.2.1 == 1
/-- Does phase 2 of a recalibration keep the pair on plane B (R507)? -/
def Dev.onB (d : Dev) (a b : Nat) : Bool :=
  match d.recal with
  | some r => r.phase == 2 && r.eps.contains a && r.eps.contains b
  | none => false
/-- The plane that R286 selects for a pair, or R507 in its phase 2; none where there is no common healthy plane. -/
def Dev.selectPlane (p : Part) (d : Dev) (a b : Nat) : Option Bool :=
  if d.onB a b && d.planeOk p a true && d.planeOk p b true then some true
  else if d.planeOk p a false && d.planeOk p b false then some false
  else if d.planeOk p a true && d.planeOk p b true then some true else none
/-- Send a notice on the strobes to every other endpoint (R295). -/
def Dev.strobe (d : Dev) (e : Nat) (plane fallback : Bool) : Dev :=
  d.sendAll (List.replicate 24 (.notice (Fin.ofNat 25 e) plane fallback))
/-- A plane becomes unhealthy at an endpoint; outside fall-back a switch-over begins where the other plane is healthy, for the
pairs that use the lost one, and with none of them to report the redundancy lost (R285, R288 step 1, R292). One that
LAT.CTRL.RETURN began reports the loss too. -/
def Dev.planeLost (p : Part) (d : Dev) (e : Nat) (plane : Bool) (cause : Nat) : Dev :=
  if !d.planeOk p e plane then d
  else
    let a := latR e 0
    let d1 := ((d.setB p a (if plane then 1 else 0) false).setF p a 8 4 cause).setB p a 12 plane
    let d2 := d1.setF p a 32 32 (lowT d.now)
    let d3 : Dev := { d2 with losses := (d2.losses.filter fun x => x != e) ++ [e], returning := d2.returning.filter fun x => x != e, planeErr := smSet 0 d2.planeErr (2 * e + (if plane then 1 else 0)) d.slotNext }
    if !d.inFallback p e && d3.planeOk p e (!plane) then (d3.setB p a 4 true).strobe e plane false else d3
/-- A lantern has left LIT: the taps of its trunk on each plane read no light, at every endpoint (R265, R285, R340).
DEDUCED, log entry 41. -/
def Dev.trunksDark (p : Part) (d : Dev) : Dev :=
  (List.range 25).foldl (fun d e => if d.dormant p e then d else (d.planeLost p e false 2).planeLost p e true 2) d
/-- Failures at an endpoint on a plane as sender or as receiver that stand in the last 1,024 slots. -/
def Dev.failsOf (d : Dev) (e : Nat) (plane tx : Bool) : List LatFail :=
  d.latFails.filter fun y => y.ep == e && y.plane == plane && y.tx == tx && decide (d.slotNext < y.slot + 1024)
/-- The distinct peers they name. -/
def failPeers (l : List LatFail) : Nat := (l.map LatFail.peer).eraseDups.length
/-- A failure is counted; three distinct peers within 1,024 slots make the plane unhealthy: code 3 for CRC failures, 4 for
NAKs and timeouts, 5 where the last was a probe's (R285, R291). -/
def Dev.noteFail (p : Part) (d : Dev) (x : LatFail) : Dev :=
  let d1 : Dev := { d with latFails := (d.latFails.filter fun y => decide (d.slotNext < y.slot + 1024)) ++ [x] }
  if failPeers (d1.failsOf x.ep x.plane x.tx) < 3 then d1
  else d1.planeLost p x.ep x.plane (if x.probe then 5 else if x.tx then 4 else 3)

/-! ### Timetable (R269) -/

/-- Destination assigned to endpoint e on trunk t in slot k. -/
def assigned (k t e : Nat) : Nat := (e + 1 + (16 * k + t) % 24) % 25

/-! ### What waits for the lattice (R279) -/

/-- Source and destination endpoints of a message that waits in the network, if it travels on the lattice. -/
def Dev.msgEnds (p : Part) (d : Dev) : Msg → Option (Nat × Nat)
  | .req r =>
    if srcNode r.src ≠ d.node then none
    else if gaNode r.addr = d.node then d.reqEnds p r (d.place p (gaLocal r.addr))
    else some (endpointOf (srcSite r.src).toNat,
      match d.pickPort p (d.startPkt p (gaNode r.addr) (.req r)).1 with | some (_, f) => if f < 32 then 23 else 24 | none => 23)
  | .resp r =>
    if srcNode r.dst = d.node then
      d.latEnds r.from'.toNat (srcSite r.dst).toNat
        (if isBase r.from'.toNat || isBase (srcSite r.dst).toNat then (srcUnit r.dst).toNat else 64)
    else some (endpointOf r.from'.toNat,
      match d.pickPort p (d.startPkt p (srcNode r.dst) (.resp (srcNode r.dst) r)).1 with | some (_, f) => if f < 32 then 23 else 24 | none => 23)
  | _ => none
/-- The endpoint at which a message that came from another node leaves the lattice. -/
def Dev.shelfDest (p : Part) (d : Dev) : Msg → Nat
  | .req r => endpointOf (d.placeSite p (d.place p (gaLocal r.addr)))
  | .resp r => endpointOf (srcSite r.dst).toNat
  | _ => 23
/-- A message that waits to be launched. -/
structure LatWait where
  src : Nat
  dst : Nat
  vc : Vc
  body : Body
  msg : Msg
  /-- It stands at a shelf, or in the network. -/
  shelf : Bool
  deriving DecidableEq, Repr
/-- Is request `b` of another node ordered behind request `a`: of one STRICT stream, or `b` flagged in one FLAGGED stream
(R381, R386, R402)? -/
def streamBehind (a b : Req) : Bool := srcNode a.src == srcNode b.src && a.chan == b.chan && a.ord == b.ord && (!b.ord || b.flag)
/-- Requests of another node that the lattice has taken over and that are not performed yet: launched, delivered, or in the queue
of a channel. -/
def Dev.underWay (d : Dev) : List Req :=
  let req (m : Msg) : Option Req := match m with | .req a => some a | .lattice _ k => (match k.body with | .req a => some a | _ => none) | _ => none
  d.net.filterMap (fun m => match m with | .lattice .. => req m | _ => none)
    ++ d.latReplay.filterMap (fun s => (bodyMsg s.pkt.body).bind req)
    ++ d.arrived.filterMap (fun x => req x.2.2)
    ++ (d.greqs.filter fun g => !g.answered || g.left != 0).map GReq.req
/-- Does a message at a shelf wait for one before it: for one that stands there, or for one that the lattice has taken over and
that its target, at whichever endpoint, has not performed yet (R386)? -/
def Dev.waitsTurn (d : Dev) (before : List (Nat × Msg)) (m : Msg) : Bool :=
  match m with
  | .req b => (before.any fun x => match x.2 with | .req a => streamBehind a b | _ => false) || d.underWay.any fun a => streamBehind a b
  | _ => false
/-- Every message that waits for the lattice, oldest first; a shelf hands the requests of a stream over in their order. -/
def Dev.latWaiting (p : Part) (d : Dev) : List LatWait :=
  (d.net.filterMap fun m => match d.msgEnds p m, msgBody m with
    | some (a, b), some body => if d.onMesh m then none else some ⟨a, b, bodyVc body, body, m, false⟩
    | _, _ => none)
  ++ d.shelf.zipIdx.filterMap fun z => match msgBody z.1.2 with
    | some body => if d.waitsTurn (d.shelf.take z.2) z.1.2 then none else some ⟨z.1.1, d.shelfDest p z.1.2, bodyVc body, body, z.1.2, true⟩
    | none => none

/-! ### Slots (R268 to R274, R281, R282) -/

/-- STOP bits an endpoint gave in the word of a slot. -/
def Dev.stopAt (d : Dev) (slot ep : Nat) : BitVec 4 :=
  match d.latWords.find? fun w => w.slot == slot && w.ep == ep with | some w => w.stop | none => 0
/-- STOP bits in force in slot k from endpoint b (R274, R282). -/
def Dev.stopInForce (d : Dev) (k b : Nat) : BitVec 4 := if k < 4 then 0 else d.stopAt (k - 4) b
/-- Buffers of a virtual channel in use at an endpoint. -/
def Dev.buffersUsed (d : Dev) (e : Nat) (vc : Vc) : Nat := (d.arrived.filter fun x => x.1 == e && x.2.1 == vc).length
/-- STOP bits an endpoint asserts: set below 96 free buffers of 192, cleared at 128 (R282). DEDUCED, log entry 42. -/
def Dev.stopNow (d : Dev) (k e : Nat) : BitVec 4 :=
  let old := if k = 0 then 0 else d.stopAt (k - 1) e
  BitVec.ofNat 4 (([Vc.req, Vc.rsp, Vc.ctl, Vc.bulk].map fun vc =>
    let u := d.buffersUsed e vc
    if 96 < u ∨ (64 < u ∧ old.getLsbD (vcCode vc)) then 2 ^ vcCode vc else 0).sum)
/-- Does a pair launch nothing because it is to change plane: at step 5 of a switch-over of its sender, or of its receiver,
whose notice has come (R288, R290, R292)? -/
def Dev.pairHeld (p : Part) (d : Dev) (a b : Nat) : Bool :=
  d.noticed.contains (a, b, d.pairPlane p a b) || (d.switching p a && d.selectPlane p a b != some (d.pairPlane p a b))
/-- Does a pair launch on a plane now: the plane carries it, the sender has it healthy, and the pair is neither down nor
held (R271, R286, R288)? -/
def Dev.pairRuns (p : Part) (d : Dev) (a b : Nat) (plane : Bool) : Bool :=
  d.pairPlane p a b == plane && !d.pairDown p a b && d.planeOk p a plane && !d.dormant p a && !d.dormant p b && !d.pairHeld p a b
/-- Packets awaiting retransmission on a pair. -/
def Dev.pairDue (d : Dev) (a b : Nat) : Option LatSent :=
  d.latReplay.find? fun s => s.due && s.pkt.src.val == a && s.pkt.dst.val == b
/-- Replay entries of one sender. -/
def Dev.replayOf (d : Dev) (a : Nat) : Nat := (d.latReplay.filter fun s => s.pkt.src.val == a).length
def passKey (a b : Nat) (vc : Vc) : Nat := (25 * a + b) * 4 + vcCode vc
/-- The new packet that takes an assignment of the pair, by the order of R271. -/
def Dev.pairPick (p : Part) (d : Dev) (k a b : Nat) (q : List LatWait) : Option LatWait :=
  let stop := d.stopInForce k b
  let room := decide (d.pairOut p a b < 512) && decide (d.replayOf a < 1024)
  let able := q.filter fun x => x.src == a && x.dst == b && !stop.getLsbD (vcCode x.vc)
  if !room then none
  else
    let order := [Vc.ctl, Vc.rsp, Vc.req, Vc.bulk]
    let starved := order.find? fun vc => decide (16 ≤ smGet 0 d.latPassed (passKey a b vc)) && able.any fun x => x.vc == vc
    let vc := match starved with | some v => some v | none => order.find? fun vc => able.any fun x => x.vc == vc
    vc.bind fun v => able.find? fun x => x.vc == v
/-- Note which channels of a pair with packets waiting were passed over (R271). -/
def Dev.notePass (d : Dev) (a b : Nat) (q : List LatWait) (took : Option Vc) : Dev :=
  let upd (m : SMap Nat) (vc : Vc) : SMap Nat :=
    let key := passKey a b vc
    if took = some vc then smSet 0 m key 0
    else if q.any fun x => x.src == a && x.dst == b && x.vc == vc then smSet 0 m key (smGet 0 m key + 1)
    else smSet 0 m key 0
  { d with latPassed := [Vc.req, Vc.rsp, Vc.ctl, Vc.bulk].foldl upd d.latPassed }
/-- A packet leaves an endpoint; an injected error spoils its CRC (R527). -/
def Dev.sendLat (p : Part) (d : Dev) (e : Nat) (plane : Bool) (pkt : LatPkt) : Dev :=
  let z := d.injTake p 31 5 e
  let m : Msg := .lattice plane pkt
  if z.2 = 0 then z.1.send m else { z.1.send m with corrupt := z.1.corrupt ++ [m] }
/-- Launch on the pair in slot k: a due retransmission, else a new packet; answers whether anything went. -/
def Dev.launch (p : Part) (d : Dev) (k a b : Nat) (plane : Bool) (q : List LatWait) : Dev × Bool :=
  match d.pairDue a b with
  | some s =>
    let pkt := { s.pkt with rpl := true }
    let d1 : Dev := { d with latReplay := d.latReplay.map fun y => if y == s then { y with pkt := pkt, slot := k, tries := y.tries + 1, due := false } else y }
    ((((d1.sendLat p a plane pkt).count p (latR a 0x200) 1).count p (latR a 0x228) 1).notePass a b q none, true)
  | none =>
    match d.pairPick p k a b q with
    | none => (d.notePass a b q none, false)
    | some x =>
      let l := d.pairNext p a b
      let pkt : LatPkt := { dst := Fin.ofNat 25 b, src := Fin.ofNat 25 a, vc := x.vc, lseq := l, rpl := false, body := x.body }
      let d1 : Dev := if x.shelf then { d with shelf := d.shelf.erase (a, x.msg) } else Dev.offMesh { d with net := d.net.erase x.msg } x.msg
      let d2 : Dev := { d1 with latReplay := d1.latReplay ++ [{ pkt := pkt, slot := k }] }
      let d3 := (d2.setF p (pairR a b) 0 10 (l.toNat + 1)).setF p (pairR a b) 32 10 (d2.pairOut p a b + 1)
      (((d3.sendLat p a plane pkt).count p (latR a 0x200) 1).notePass a b q (some x.vc), true)
/-- The word an endpoint sent on a plane in a slot. -/
def Dev.wordAt (d : Dev) (slot e : Nat) (plane : Bool) : Option SlotWord :=
  d.latWords.find? fun w => w.slot == slot && w.ep == e && w.plane == plane
/-- Is the assignment of endpoint e on trunk t in slot k released on a plane (R273)? -/
def Dev.released (d : Dev) (k t e : Nat) (plane : Bool) : Bool :=
  decide (4 ≤ k) && match d.wordAt (k - 4) e plane with | some w => w.rel t | none => false
/-- The receiver whose grant for trunk t in slot k endpoint e holds: of two, the lower-numbered (R273). -/
def Dev.grantFor (d : Dev) (k t e : Nat) (plane : Bool) : Option Nat :=
  leastBy id ((d.latGrants.filter fun g => g.slot == k && g.plane == plane && g.trunk == t && g.to' == e).map SlotGrant.recv)
/-- Was the assignment of endpoint a on trunk t in slot k granted to another? -/
def Dev.grantedAway (d : Dev) (k t a : Nat) (plane : Bool) : Bool :=
  d.latGrants.any fun g => g.slot == k && g.plane == plane && g.trunk == t && g.recv == assigned k t a && g.to' != a
/-- One trunk of one endpoint in slot k on one plane: its own assignment, or one granted to it (R271, R273). -/
def Dev.trunkStep (p : Part) (d : Dev) (k t a : Nat) (plane : Bool) (q : List LatWait) : Dev :=
  let own := assigned k t a
  if d.dormant p a || d.inFallback p a then d
  else if d.released k t a plane then
    let d1 := if d.pairPlane p a own == plane && !d.grantedAway k t a plane then d.count p (latR a 0x218) 1 else d
    match d1.grantFor k t a plane with
    | some b => if d1.pairRuns p a b plane then
        (let z := d1.launch p k a b plane q; if z.2 then z.1.count p (latR a 0x210) 1 else z.1) else d1
    | none => d1
  else if d.pairRuns p a own plane then
    let z := d.launch p k a own plane q
    if z.2 then z.1 else z.1.count p (latR a 0x218) 1
  else if d.pairPlane p a own == plane then d.count p (latR a 0x218) 1 else d
/-- The trunks of an endpoint. -/
def Dev.trunks (p : Part) (k a : Nat) (plane : Bool) (d : Dev) : Dev :=
  (List.range 16).foldl (fun d t => d.trunkStep p k t a plane (d.latWaiting p)) d
/-- Assignments of endpoint a to b in a slot. -/
def shareOf (k a b : Nat) : Nat := ((List.range 16).filter fun t => assigned k t a == b).length
/-- What waits at an endpoint for one destination: packets queued, those due to be sent again, and, while the pair is held,
all that are not acknowledged. -/
def Dev.backlog (p : Part) (d : Dev) (e b : Nat) (q : List LatWait) : Nat :=
  (q.filter fun x => x.src == e && x.dst == b).length
    + (d.latReplay.filter fun s => (s.due || d.pairHeld p e b) && s.pkt.src.val == e && s.pkt.dst.val == b).length
/-- The slot control word of an endpoint on a plane in slot k: what it releases and bids for in slot k + 4, its grants and
STOP bits, and the oldest acknowledgements that wait. Of several destinations whose backlog is too large the word bids for the
one with the largest, and of equals for the lowest (DESIGN CHOICE, log entry 102). Both planes' words say the same, so that what they reserve holds
through a switch-over (R272, R273, R274, R287). -/
def Dev.makeWord (p : Part) (d : Dev) (k e : Nat) (plane : Bool) (q : List LatWait) (grants : List SlotGrant) : SlotWord :=
  let idle (t : Nat) : Bool := d.dormant p e || d.backlog p e (assigned (k + 4) t e) q == 0
  let fuller := (List.range 25).filter fun b => b != e && !d.pairDown p e b && !d.dormant p b && decide (shareOf (k + 4) e b < d.backlog p e b q)
  let bid := fuller.foldl (fun best b => match best with
      | none => some b
      | some x => if d.backlog p e x q < d.backlog p e b q then some b else some x) none
  { slot := k, ep := e, plane := plane
    word := slotWord (BitVec.ofNat 16 (((List.range 16).map fun t => if idle t then 2 ^ t else 0).sum))
      (if d.dormant p e then none else bid)
      ((grants.filter fun g => g.recv == e && g.plane == plane).map fun g => (g.trunk, g.to'))
      (d.stopNow k e)
      (((d.latAcks.filter fun x => x.1 == e).take 3).map fun x => (x.2.2.1, x.2.1, x.2.2.2)) }
/-- The grants a receiver makes in slot k from the words of slot k - 1: on each trunk whose assigned sender has
released, to one bidder that released the same trunk, by a rotating priority; at most two, or one without RSV2 (R273,
R484). Of more trunks the lowest are granted, and the priority of slot k begins at endpoint k mod 25 (DESIGN CHOICE, log
entry 102). -/
def Dev.makeGrants (p : Part) (d : Dev) (k r : Nat) (plane : Bool) : List SlotGrant :=
  let target := k + 3
  let word (e : Nat) : Option SlotWord := d.wordAt (k - 1) e plane
  let rel (e t : Nat) : Bool := match word e with | some w => w.rel t | none => false
  let bids (e : Nat) : Bool := match word e with | some w => w.bid == some r | none => false
  let senders := (List.range 25).map fun i => (k + i) % 25
  let one (t : Nat) : Option SlotGrant :=
    match (List.range 25).find? fun a => a != r && assigned target t a == r with
    | none => none
    | some a => if rel a t then (senders.find? fun e => e != r && bids e && rel e t).map fun e => ⟨target, plane, t, e, r⟩ else none
  ((List.range 16).filterMap one).take (if d.bit p (idR 20 0x118) 1 then 2 else 1)
/-- An endpoint receives an acknowledgement entry: cumulative up to LSEQ; a NAK waits for the sender's retransmission and
counts as a failure, but for one that an injected error has caused (R274, R281, R285, R528). -/
def Dev.takeAck (p : Part) (d : Dev) (recv sender : Nat) (nak : Bool) (l : BitVec 10) : Dev :=
  let out := d.pairOut p sender recv
  let old : BitVec 10 := d.pairNext p sender recv - BitVec.ofNat 10 out
  let done := (l + 1 - old).toNat
  if out < done then d
  else
    let d1 : Dev := { d with latReplay := d.latReplay.filter fun s => !(s.pkt.src.val == sender && s.pkt.dst.val == recv && decide ((s.pkt.lseq - old).toNat < done)) }
    let d2 := (d1.setF p (pairR sender recv) 16 10 l.toNat).setF p (pairR sender recv) 32 10 (out - done)
    if nak then
      let d3 : Dev := { d2 with latNaks := (d2.latNaks.filter fun x => x != (sender, recv)) ++ [(sender, recv)] }
      if d3.latInj.contains (recv, sender) then d3
      else Dev.noteFail p d3
        { slot := d.slotNext, ep := sender, plane := d.pairPlane p sender recv, tx := true, peer := recv, probe := false }
    else d2
/-- Mark the unacknowledged packets of a pair due for retransmission. -/
def Dev.resendPair (d : Dev) (a b : Nat) : Dev :=
  { d with latReplay := d.latReplay.map fun s => if s.pkt.src.val = a ∧ s.pkt.dst.val = b then { s with due := true } else s }
/-- An acknowledgement of endpoint b to sender a waits for its word: one entry per sender, cumulative; a NAK stays while its
LSEQ does (R281). -/
def Dev.addAck (d : Dev) (b a : Nat) (nak : Bool) (l : BitVec 10) : Dev :=
  if d.latAcks.any fun x => x.1 == b && x.2.1 == a then
    { d with latAcks := d.latAcks.map fun x => if x.1 = b ∧ x.2.1 = a then (b, a, nak || (x.2.2.1 && x.2.2.2 == l), l) else x }
  else { d with latAcks := d.latAcks ++ [(b, a, nak, l)] }
/-- The acknowledgement entries of one endpoint's word: the three oldest that wait. -/
def Dev.sendAcks (p : Part) (d : Dev) (e : Nat) : Dev :=
  let mine := (d.latAcks.filter fun x => x.1 == e).take 3
  mine.foldl (fun d x => ({ d with latAcks := d.latAcks.erase x }).takeAck p e x.2.1 x.2.2.1 x.2.2.2) d
/-- STOP bits that pairs show: those in force toward each sender (R303). -/
def Dev.showStops (p : Part) (d : Dev) (k : Nat) : Dev :=
  (List.range 25).foldl (fun d b =>
    let st := (d.stopInForce k b).toNat
    (List.range 25).foldl (fun d a => if a ≠ b ∧ d.fld p (pairR a b) 42 4 ≠ st then d.setF p (pairR a b) 42 4 st else d) d) d
/-- Slot k begins; slot 0 fixes the lattice origin (R268, R304). -/
def Dev.slotStep (p : Part) (d : Dev) (k : Nat) : Dev :=
  let eps := List.range 25
  let d := if k = 0 then d.put p (latcR 0x80008) d.now else d
  let d := (d.put p (latcR 0x80000) (BitVec.ofNat 64 k)).showStops p k
  let d := eps.foldl (fun d a => (d.trunks p k a false).trunks p k a true) d
  let q := d.latWaiting p
  let grants := if k = 0 then [] else eps.flatMap fun r => d.makeGrants p k r false ++ d.makeGrants p k r true
  let words := eps.flatMap fun e => [d.makeWord p k e false q grants, d.makeWord p k e true q grants]
  let d := eps.foldl (fun d e => d.sendAcks p e) d
  let d := eps.foldl (fun d e => if d.stopNow k e ≠ 0 then d.count p (latR e 0x238) 1 else d) d
  { d with slotNext := k + 1
           latWords := (d.latWords.filter fun w => decide (k < w.slot + 5)) ++ words
           latGrants := (d.latGrants.filter fun g => decide (k ≤ g.slot)) ++ grants }
/-- SLOT: a slot begins once the lattice has been started by boot (R268, R269, R478). -/
def execSlot (s : State) : Out :=
  s.upd fun p _ d => if d.bootReached p 7 then d.slotStep p d.slotNext else d

/-! ### Link layer (R280, R281) -/

/-- LATTICE_PACKET: a packet's bytes are received, checked and delivered in LSEQ order; bytes whose CRC fails, or whose
TYPE is never sent, are discarded with a NAK and counted (R277, R280, R285). -/
def execLatticePacket (plane : Bool) (pkt : LatPkt) (got : List Byte) (s : State) : Out :=
  s.upd fun p _ d =>
    let a := pkt.src.val
    let b := pkt.dst.val
    let spoilt := d.corrupt.contains (.lattice plane pkt)
    let ok := latGood d.node pkt got && !spoilt
    let d : Dev := { d.recv (.lattice plane pkt) with corrupt := d.corrupt.erase (.lattice plane pkt) }
    if d.inFallback p b || d.dormant p b then d
    else
      let exp := d.pairExpect p b a
      if !ok then
        let d1 := (d.count p (latR b 0x220) 1).addAck b a true (exp - 1)
        -- an injected error counts toward no trigger of R285, neither here nor at the sender (R528)
        if spoilt then { d1 with latInj := (b, a) :: d1.latInj.erase (b, a) }
        else Dev.noteFail p { d1 with latInj := d1.latInj.erase (b, a) } { slot := d.slotNext, ep := b, plane := plane, tx := false, peer := a, probe := false }
      else if pkt.lseq = exp then
        let d := ((d.setF p (pairR b a) 52 10 (exp.toNat + 1)).count p (latR b 0x208) 1)
        let d := Dev.addAck { d with latInj := d.latInj.erase (b, a) } b a false pkt.lseq
        match bodyMsg pkt.body with
        | some m => { d with arrived := d.arrived ++ [(b, pkt.vc, m)] }
        | none => d
      else if (exp - 1 - pkt.lseq).toNat < 512 then d.addAck b a false (exp - 1)
      else d.addAck b a true (exp - 1)
/-- LATTICE_RETRANSMIT: after a NAK that has come, or 256 slots without acknowledgement of its oldest packet, a sender sends
from the oldest unacknowledged LSEQ; after 8 retransmissions of one LSEQ the pair moves to the other plane alone
where both ends have it healthy. A timeout counts as a failure (R281, R285, R286). -/
def execLatticeRetransmit (src dst : Fin 25) (nak : Bool) (s : State) : Out :=
  s.upd fun p _ d =>
    let a := src.val
    let b := dst.val
    match d.latReplay.find? fun x => x.pkt.src == src && x.pkt.dst == dst with
    | none => d
    | some x =>
      if (nak && !d.latNaks.contains (a, b)) || (!nak && (x.due || decide (d.slotNext < x.slot + 256))) then d
      else
        let pl := d.pairPlane p a b
        let d1 := if 8 ≤ x.tries ∧ d.planeOk p a (!pl) ∧ d.planeOk p b (!pl) then
          (d.setF p (pairR a b) 48 1 (if !pl then 1 else 0)).setB p (pairR a b) 50 true else d
        let d2 := Dev.resendPair { d1 with latNaks := d1.latNaks.filter fun y => y != (a, b) } a b
        if nak || d2.latInj.contains (b, a) then d2 else d2.noteFail p { slot := d.slotNext, ep := a, plane := pl, tx := true, peer := b, probe := false }

/-! ### Plane health (R285 to R292) -/

/-- Does a trigger of R285 stand: a ring off its line (1), a tap below its alarm level, which the command reports (2),
failures with three peers (3 to 5), or no access group left (7)? LAT.CTRL.FORCE (6) is a command of its own. -/
def Dev.triggered (d : Dev) (e : Nat) (plane : Bool) (cause : Nat) : Bool :=
  match cause with
  | 1 => !d.planeTracks e plane
  | 2 => true
  | 3 => decide (3 ≤ failPeers (d.failsOf e plane false))
  | 4 => decide (3 ≤ failPeers (d.failsOf e plane true))
  | 5 => [false, true].any fun tx => decide (3 ≤ failPeers (d.failsOf e plane tx)) && (d.failsOf e plane tx).any LatFail.probe
  | 7 => d.accessOut e
  | _ => false
/-- PLANE_UNHEALTHY: a trigger of R285 that stands takes effect. -/
def execPlaneUnhealthy (e : Fin 25) (plane : Bool) (cause : BitVec 4) (s : State) : Out :=
  s.upd fun p _ d => if d.triggered e.val plane cause.toNat then d.planeLost p e.val plane cause.toNat else d
/-- Have the triggers of a plane cleared at an endpoint: its rings are in TRACK, every trunk has its light, an access group
is there, and 1,024 slots have passed without an error (R285)? -/
def Dev.planeClear (p : Part) (d : Dev) (e : Nat) (plane : Bool) : Bool :=
  d.planeTracks e plane && d.planeLit p plane && !d.accessOut e
    && decide (smGet 0 d.planeErr (2 * e + (if plane then 1 else 0)) + 1024 ≤ d.slotNext)
/-- PLANE_HEALTHY: the taps report power above the alarm level, and every other trigger has cleared (R285). -/
def execPlaneHealthy (e : Fin 25) (plane : Bool) (s : State) : Out :=
  s.upd fun p _ d =>
    if d.bootReached p 7 && !d.planeOk p e.val plane && !d.dormant p e.val && d.planeClear p e.val plane
    then Dev.setB p { d with latFails := d.latFails.filter fun y => !(y.ep == e.val && y.plane == plane) } (latR e.val 0) (if plane then 1 else 0) true
    else d
/-- Move one ordered pair to its selected plane; answers whether it moved. -/
def Dev.movePair (p : Part) (d : Dev) (a b : Nat) : Dev × Bool :=
  match d.selectPlane p a b with
  | none => (d, false)
  | some pl =>
    if d.pairPlane p a b = pl ∧ !d.bit p (pairR a b) 50 then (d, false)
    else (((d.setF p (pairR a b) 48 1 (if pl then 1 else 0)).setB p (pairR a b) 50 false).resendPair a b, d.pairPlane p a b != pl)
/-- Apply R286 to every pair of an endpoint but those with a peer that is still switching, whose own step 5 moves them;
answers how many peers' pairs moved (R290). -/
def Dev.movePairs (p : Part) (d : Dev) (e : Nat) : List Nat → Dev × Nat
  | [] => (d, 0)
  | f :: fs =>
    if f = e ∨ d.inFallback p f ∨ d.switching p f then Dev.movePairs p d e fs
    else
      let z1 := d.movePair p e f
      let z2 := z1.1.movePair p f e
      let z3 := Dev.movePairs p z2.1 e fs
      (z3.1, z3.2 + (if z1.2 || z2.2 then 1 else 0))
/-- SWITCH_OVER: step 5 of a switch-over (R288). -/
def execSwitchOver (e : Fin 25) (gap : BitVec 5) (s : State) : Out :=
  s.upd fun p _ d =>
    let n := e.val
    let a := latR n 0
    if !d.switching p n then d
    else
      let quiet := d.returning.contains n
      let d1 := d.setB p a 4 false
      let d2 : Dev := { d1 with returning := d1.returning.filter fun x => x != n, noticed := d1.noticed.filter fun x => x.2.1 != n }
      if !d2.planeOk p n false && !d2.planeOk p n true then d2
      else
        let z := d2.movePairs p n (List.range 25)
        let w := BitVec.ofNat 64 (min gap.toNat 16 + z.2 * 2 ^ 8 + lowT d.now * 2 ^ 32)
        let d3 := (z.1.put p (latR n 0x10) w).count p (latR n 0x230) 1
        if quiet then d3
        else d3.fault p 31 n 2 0x0401 (BitVec.ofNat 64 (d.fld p a 8 4)) (BitVec.ofNat 64 (d.fld p a 12 1)) false (BitVec.ofNat 64 z.2)
/-- SWITCH_NOTICE: a notice arrives at endpoint `at'` on three strobes: it launches to e on that plane no more; for a
fall-back its pair is DOWN. A strobe line in error is outvoted; where the vote is no such notice, nothing is taken (R288,
R293, R295). -/
def execSwitchNotice (at' e : Fin 25) (plane fallback : Bool) (strobes : Strobes) (s : State) : Out :=
  s.upd fun p _ d =>
    let d := d.recv (.notice e plane fallback)
    let d := match outvoted strobes.s0 strobes.s1 strobes.s2 with
      | some i => d.fault p 31 at'.val 1 0x0404 (BitVec.ofNat 64 i) 0
      | none => d
    if vote3 strobes.s0 strobes.s1 strobes.s2 ≠ noticeWord e.val plane fallback then d
    else if fallback then
      (if d.inFallback p e.val ∧ at' ≠ e then (d.setB p (pairR at'.val e.val) 49 true).setB p (pairR e.val at'.val) 49 true else d)
    else if d.switching p e.val ∧ at' ≠ e then { d with noticed := (at'.val, e.val, plane) :: d.noticed.erase (at'.val, e.val, plane) } else d
/-- May endpoint a probe its pair with b now: in the slot that has begun an own assignment of the pair stands idle on the
other plane, neither granted to another sender nor used by a grant of its own, and the pair has had no probe in these 1,024 slots (R291)? -/
def Dev.probeOpen (p : Part) (d : Dev) (a b : Nat) : Bool :=
  let k := d.slotNext - 1
  let pl := !d.pairPlane p a b
  decide (0 < d.slotNext) && !d.dormant p a && !d.dormant p b
    && ((List.range 16).any fun t => assigned k t a == b && !d.grantedAway k t a pl && (d.grantFor k t a pl).isNone)
    && smGet 0 d.probed (25 * a + b) != k / 1024 + 1
/-- LATTICE_PROBE: a probe goes on the plane that does not carry the pair; one that fails is counted at both ends and
remembered for that plane (R285, R291). -/
def execLatticeProbe (src dst : Fin 25) (ok : Bool) (s : State) : Out :=
  s.upd fun p _ d =>
    let a := src.val
    let b := dst.val
    let pl := !d.pairPlane p a b
    if !d.probeOpen p a b then d
    else
      let d1 : Dev := { d.count p (latR a 0x200) 1 with probed := smSet 0 d.probed (25 * a + b) ((d.slotNext - 1) / 1024 + 1) }
      if ok then d1
      else
        let i : Nat := if pl then 1 else 0
        let d2 : Dev := { d1.count p (latR b 0x220) 1 with
          planeErr := smSet 0 (smSet 0 d1.planeErr (2 * a + i) d.slotNext) (2 * b + i) d.slotNext }
        (d2.noteFail p { slot := d.slotNext, ep := b, plane := pl, tx := false, peer := a, probe := true }).noteFail p
          { slot := d.slotNext, ep := a, plane := pl, tx := true, peer := b, probe := true }
/-- LAT.CTRL.FORCE: ignored with a Notice during a switch-over of the endpoint (R285, R290). -/
def Dev.latForce (p : Part) (d : Dev) (e : Nat) (plane : Bool) : Dev :=
  if d.switching p e then d.noticeIgnored p (latR e 8) (if plane then 3 else 1) else d.planeLost p e plane 6
/-- FORCE. -/
def execLatForce (e : Fin 25) (plane : Bool) (s : State) : Out := s.upd fun p _ d => d.latForce p e.val plane
/-- The pairs of an endpoint that R286 would move begin a switch-over with no fault, and a notice for each plane that one of
them leaves (R292, R507); one that is switching already moves them at its own step 5. -/
def Dev.beginReturn (p : Part) (d : Dev) (e : Nat) : Dev :=
  if d.switching p e then d
  else
    let leaves (pl : Bool) : Bool := (List.range 25).any fun f => f != e && !d.inFallback p f &&
      d.selectPlane p e f == some (!pl) && (d.pairPlane p e f == pl || d.pairPlane p f e == pl)
    if (leaves false || leaves true) && !d.inFallback p e then
      let d1 : Dev := { d.setB p (latR e 0) 4 true with returning := e :: d.returning }
      let d2 := if leaves false then d1.strobe e false false else d1
      if leaves true then d2.strobe e true false else d2
    else d
/-- LAT.CTRL.RETURN (R290, R292). -/
def Dev.latReturn (p : Part) (d : Dev) (e : Nat) : Dev :=
  if d.switching p e then d.noticeIgnored p (latR e 8) 4 else d.beginReturn p e
/-- RETURN. DEDUCED, log entry 41. -/
def execLatReturn (e : Fin 25) (s : State) : Out := s.upd fun p _ d => d.latReturn p e.val

/-! ### Fall-back (R293 to R297, R400) -/

/-- Must an endpoint enter fall-back, no switch-over of it being in progress: neither plane is healthy, or it stands in a
crossed pair and its loss came later (R286, R290, R293)? Answers whether it is by the crossed rule. -/
def Dev.mustFall (p : Part) (d : Dev) (e : Nat) : Option Bool :=
  if d.inFallback p e || d.dormant p e || d.switching p e || !d.bootReached p 7 then none
  else if !d.planeOk p e false && !d.planeOk p e true then some false
  else if (List.range 25).any fun f => f != e && !d.inFallback p f && !d.dormant p f && (d.planeOk p f false || d.planeOk p f true)
      && (d.selectPlane p e f).isNone && decide (d.losses.findIdx (fun x => x == f) < d.losses.findIdx (fun x => x == e)) then some true
  else none
/-- Does a packet of a descriptor travel to or from the endpoint over the lattice? -/
def Dev.pktTarget (x : Desc) (k : PPkt) : W64 :=
  match k.kind with
  | .rd => x.srcAt k.pos
  | .wr => x.dstAt k.pos
  | _ => x.w2
/-- A request from core c to an address whose lattice path touches endpoint e. -/
def Dev.touches (p : Part) (d : Dev) (e : Nat) (c : CoreId) (a : W64) : Bool :=
  if gaNode a = d.node then
    match d.latEnds c.site.toNat (d.placeSite p (d.place p (gaLocal a))) 64 with
    | some (x, y) => x == e || y == e
    | none => false
  else endpointOf c.site.toNat == e
/-- The core a cores' index names. -/
def ixCore (i : Nat) : CoreId := ⟨BitVec.ofNat 4 (i / 64), BitVec.ofNat 6 i⟩
/-- Does a message carry the request of this source and tag? -/
def reqIs (src : Src) (tag : BitVec 12) : Msg → Bool
  | .req r => r.src == src && r.tag == tag
  | _ => false
/-- Does a lattice packet in a replay buffer carry it? -/
def LatSent.carries (s : LatSent) (src : Src) (tag : BitVec 12) : Bool :=
  match s.pkt.body with | .req r => r.src == src && r.tag == tag | _ => false
/-- Has the receiver of an unacknowledged packet delivered it (R280)? -/
def Dev.latDelivered (p : Part) (d : Dev) (s : LatSent) : Bool :=
  decide (0 < (d.pairExpect p s.pkt.dst.val s.pkt.src.val - s.pkt.lseq).toNat) &&
    decide ((d.pairExpect p s.pkt.dst.val s.pkt.src.val - s.pkt.lseq).toNat < 512)
/-- Is a request of this source and tag queued or unacknowledged at the link, and not yet performed: it waits to be launched, or
stands in a replay buffer and has not been delivered or still waits where it was (R294)? -/
def Dev.linkHeld (p : Part) (d : Dev) (src : Src) (tag : BitVec 12) : Bool :=
  (d.net.any (reqIs src tag)) || (d.shelf.any fun x => reqIs src tag x.2) ||
    d.latReplay.any fun s => s.carries src tag && (!d.latDelivered p s || d.arrived.any fun x => reqIs src tag x.2.2)
/-- The status that a fall-back gives an atomic: UNCERTAIN once a request of it, of this attempt or of an earlier one, has been
acknowledged at the link or performed (R294, R400). -/
def Dev.fallStatus (p : Part) (d : Dev) (src : Src) (tag : BitVec 12) : Option (BitVec 2) → BitVec 7
  | some attempt => if attempt ≠ 0 || !d.linkHeld p src tag then stUncertain else stSiteDown
  | none => stSiteDown
/-- Do the two ends of a message's lattice path touch endpoint e? -/
def Dev.endsTouch (p : Part) (d : Dev) (e : Nat) (m : Msg) : Bool :=
  match d.msgEnds p m with | some (a, b) => a == e || b == e | none => false
/-- Does a request of this source and tag wait for the lattice, or ride it, on a path that touches endpoint e? -/
def Dev.waitsAt (p : Part) (d : Dev) (e : Nat) (src : Src) (tag : BitVec 12) : Bool :=
  (d.net.any fun m => reqIs src tag m && d.endsTouch p e m) ||
    d.latReplay.any fun s => s.carries src tag && (s.pkt.src.val == e || s.pkt.dst.val == e)
/-- The answers that a fall-back of e gives the cores for what they have outstanding over it (R294, R398, R400). -/
def Dev.fallAnswers (p : Part) (d : Dev) (e : Nat) : List Msg :=
  d.cores.flatMap fun x =>
    let c := ixCore x.1
    let src := d.coreSrc c
    let ends (tag : BitVec 12) (a : W64) : Bool := d.touches p e c a || d.waitsAt p e src tag
    let answer (tag : BitVec 12) (st : BitVec 7) : Msg := .resp { dst := src, tag := tag, status := st, from' := srcSite src, node := d.node }
    (x.2.prt.flatMap fun q => q.2.flatMap fun y => y.pkts.filterMap fun k =>
      if ends k.tag (Dev.pktTarget y k) then some (answer k.tag stSiteDown) else none)
    ++ x.2.atoms.filterMap fun k =>
      if ends k.tag k.addr then some (answer k.tag (d.fallStatus p src k.tag (some k.attempt))) else none
/-- The attempt of an atomic request. -/
def reqAttempt (r : Req) : Option (BitVec 2) := match r.op with | .atomic _ _ _ n _ => some n | _ => none
/-- Other requesters than cores of this node. -/
def Dev.notCore (d : Dev) (x : Src) : Bool := !(srcNode x == d.node && isW (srcSite x).toNat)
/-- The requests of other requesters over endpoint e, of this node and of others, that have no answer: queued, at a shelf, in a
replay buffer, delivered or in a channel's queue (R294). -/
def Dev.fallReqs (p : Part) (d : Dev) (e : Nat) : List Req :=
  let of (m : Msg) (hit : Bool) : Option Req := match m with
    | .req r => if d.notCore r.src && !onWiring r && (hit || d.endsTouch p e m) then some r else none
    | _ => none
  (d.net.filterMap fun m => of m false)
    ++ (d.shelf.filterMap fun x => of x.2 (x.1 == e || d.shelfDest p x.2 == e))
    ++ (d.latReplay.filterMap fun s => (bodyMsg s.pkt.body).bind fun m => of m (s.pkt.src.val == e || s.pkt.dst.val == e))
    ++ (d.arrived.filterMap fun x => of x.2.2 (x.1 == e && !srcNode' d x.2.2))
    ++ d.greqs.filterMap fun g => of (.req g.req) (srcNode g.req.src != d.node && d.shelfDest p (.req g.req) == e)
where
  /-- Is the message a request of this node? -/
  srcNode' (d : Dev) (m : Msg) : Bool := match m with | .req r => srcNode r.src == d.node | _ => false
/-- The answers that a fall-back of e gives them, and the requesters whose response is lost (R294, R398, R400). -/
def Dev.fallOthers (p : Part) (d : Dev) (e : Nat) : List Msg :=
  let answer (src : Src) (tag : BitVec 12) (st : BitVec 7) : Msg :=
    .resp { dst := src, tag := tag, status := st, from' := if srcNode src = d.node then srcSite src else 0x1F, node := d.node }
  let lost := d.net.filterMap fun m => match m with
    | .resp r => if d.notCore r.dst && d.endsTouch p e m then some (r.dst, r.tag) else none
    | _ => none
  let reqs := d.fallReqs p e
  ((reqs.map fun r => (r.src, r.tag)) ++ lost).eraseDups.map fun x =>
    answer x.1 x.2 (match reqs.find? fun r => r.src == x.1 && r.tag == x.2 with
      | some r => d.fallStatus p r.src r.tag (reqAttempt r)
      | none => stSiteDown)
/-- Does a message that waits for the lattice, or a packet on it, touch endpoint e? -/
def Dev.msgTouches (p : Part) (d : Dev) (e : Nat) (m : Msg) : Bool :=
  match m with
  | .lattice _ pkt => pkt.src.val == e || pkt.dst.val == e
  | .req r => !onWiring r && d.endsTouch p e m
  | m => d.endsTouch p e m
/-- Mark every pair with e down. -/
def Dev.downPairs (p : Part) (d : Dev) (e : Nat) (on : Bool) : Dev :=
  (List.range 25).foldl (fun d f =>
    if f = e then d else
      let b := on || d.inFallback p f
      (d.setB p (pairR e f) 49 b).setB p (pairR f e) 49 b) d
/-- FALL_BACK: an endpoint with no usable plane enters fall-back: what is queued or unacknowledged for it is
discarded, requesters of every node get SITE_DOWN, an atomic acknowledged at the link UNCERTAIN, and a hand-off run of an L die
stays MOVING (R286, R293, R294, R296, R400, R421). What a shelf endpoint's ports do stands with the ports. -/
def Dev.fallBack (p : Part) (d : Dev) (e : Nat) (crossed : Bool) : Dev :=
  let a := latR e 0
  let ans := d.fallAnswers p e ++ d.fallOthers p e
  let d1 := (((d.setB p a 2 true).setB p a 3 crossed).setB p a 4 false).downPairs p e true
  let unacked := d.latReplay.filterMap fun s => if s.pkt.src.val == e || s.pkt.dst.val == e then bodyMsg s.pkt.body else none
  let d2 : Dev := { d1 with
    net := (d1.net.filter fun m => !d.msgTouches p e m) ++ ans
    arrived := d1.arrived.filter fun x => !(unacked.contains x.2.2 && (match x.2.2 with | .req _ => true | _ => false))
    shelf := d1.shelf.filter fun x => !(x.1 == e || d.shelfDest p x.2 == e)
    latReplay := d1.latReplay.filter fun s => !(s.pkt.src.val == e || s.pkt.dst.val == e)
    latAcks := d1.latAcks.filter fun x => !(x.1 == e || x.2.1 == e)
    latNaks := d1.latNaks.filter fun x => !(x.1 == e || x.2 == e)
    latInj := d1.latInj.filter fun x => !(x.1 == e || x.2 == e)
    noticed := d1.noticed.filter fun x => !(x.1 == e || x.2.1 == e)
    returning := d1.returning.filter fun x => x != e }
  let d3 := match d2.handoff with
    | some h => if 16 ≤ e ∧ e < 20 then
        (let d' : Dev := { d2 with handoff := none }
         let d' := d'.put p (memcR 0 0x38) (BitVec.ofNat 64 (h.first * 2 ^ 8 + h.nm1 * 2 ^ 25 + 0x18 * 2))
         d'.handoffAnswer p h stSiteDown) else d2
    | none => d2
  (d3.strobe e false true).fault p 31 e (if e < 23 then 3 else 2) (if e < 23 then 0x0402 else 0x0403) (BitVec.ofNat 64 e)
/-- LAT.CTRL.RESUME while one plane is healthy: the endpoint leaves fall-back, its pairs restart at LSEQ 0 (R297). -/
def Dev.latResume (p : Part) (d : Dev) (e : Nat) : Dev :=
  if d.inFallback p e && (d.planeOk p e false || d.planeOk p e true) then
    let a := latR e 0
    let d1 := ((d.setB p a 2 false).setB p a 3 false).downPairs p e false
    let clear (d : Dev) (x y : Nat) : Dev :=
      let w := d.get p (pairR x y)
      let w := withBits (withBits (withBits (withBits w 0 10 0) 16 10 0) 32 10 0) 52 10 0
      let pl := match d.selectPlane p x y with | some b => (if b then 1 else 0) | none => bits w 48 1
      d.put p (pairR x y) (withBits (withBits w 48 1 pl) 50 1 0)
    let d2 := (List.range 25).foldl (fun d f => if f = e then d else clear (clear d e f) f e) d1
    { d2 with latReplay := d2.latReplay.filter fun s => !(s.pkt.src.val == e || s.pkt.dst.val == e)
              latAcks := d2.latAcks.filter fun x => !(x.1 == e || x.2.1 == e)
              latNaks := d2.latNaks.filter fun x => !(x.1 == e || x.2 == e)
              latInj := d2.latInj.filter fun x => !(x.1 == e || x.2 == e)
              noticed := d2.noticed.filter fun x => !(x.1 == e || x.2.1 == e)
              net := d2.net.filter fun m => match m with
                | .lattice _ k => !(k.src.val == e || k.dst.val == e)
                | .resp _ => !d.endsTouch p e m
                | _ => true }
  else d
/-- RESUME. -/
def execLatResume (e : Fin 25) (s : State) : Out := s.upd fun p _ d => d.latResume p e.val

/-! ### Die-to-die lanes (R298 to R302) -/

def laneR (e g : Nat) : Nat := latR e (0x1000 + 8 * g)
def roleR (e r : Nat) : Nat := latR e (0x300 + 8 * r)
/-- Is every group of a role toward an index out or absent (R302)? DEDUCED, log entry 43. -/
def Dev.allOut (p : Part) (d : Dev) (e role index : Nat) : Bool :=
  (List.range 768).all fun g =>
    let w := d.get p (laneR e g)
    !(bits w 0 3 == role && (bits w 8 5 == index || role == 1)) || decide (2 ≤ bits w 13 2)
/-- What the loss of a whole role does (R302). -/
def Dev.roleLost (p : Part) (d : Dev) (e role index : Nat) : Dev :=
  let d1 : Dev := { d with rolesOut := (e, role, index) :: d.rolesOut }
  if role = 1 then (d1.planeLost p e false 7).planeLost p e true 7
  else if role = 3 then d1.fault p 31 e 2 0x0407 (BitVec.ofNat 64 (2 * e + index)) (BitVec.ofNat 64 role)
  else d1
/-- A lane of a group fails with `good` lanes left: a spare takes it; or the group narrows to its 8 best lanes; or it goes
out. A memory group with no spare takes its channel out of service (R301, R302, R325). -/
def Dev.laneFailed (p : Part) (d : Dev) (e g good : Nat) : Dev :=
  let a := laneR e g
  let role := d.fld p a 0 3
  let index := d.fld p a 8 5
  let width := d.fld p a 13 2
  let spares := d.fld p a 16 2
  let ctx := BitVec.ofNat 64 g
  if 23 ≤ e ∨ 768 ≤ g ∨ 2 ≤ width ∨ 5 ≤ role then d
  else
    let d : Dev := { d with lanesBad := smSet 0 d.lanesBad (768 * e + g) (smGet 0 d.lanesBad (768 * e + g) + 1) }
    if spares < 2 then
      let d1 := (d.setF p a 16 2 (spares + 1)).setF p (roleR e role) 48 10 (d.fld p (roleR e role) 48 10 + 1)
      d1.fault p 31 e 1 0x0405 ctx (BitVec.ofNat 64 role)
    else if role ≠ 4 ∧ 8 ≤ good then
      if width = 1 then d.fault p 31 e 2 0x0406 ctx (BitVec.ofNat 64 role)
      else ((d.setF p a 13 2 1).setF p (roleR e role) 16 10 (d.fld p (roleR e role) 16 10 + 1)).fault p 31 e 2 0x0406 ctx (BitVec.ofNat 64 role)
    else
      let d1 := (d.setF p a 13 2 2).setF p (roleR e role) 32 10 (d.fld p (roleR e role) 32 10 + 1)
      let d2 := if width = 1 then d1.setF p (roleR e role) 16 10 (d1.fld p (roleR e role) 16 10 - 1) else d1
      let d3 := d2.fault p 31 e 2 0x0407 ctx (BitVec.ofNat 64 role)
      if role = 4 then
        let d4 : Dev := { d3 with rolesOut := (e, 4, index) :: d3.rolesOut }
        let c := 12 * (e - 16) + index
        (if 16 ≤ e ∧ e < 20 ∧ index < 12 ∧ (d4.chanSt p c = 1 ∨ d4.chanSt p c = 2) then d4.chanDown p c else d4)
      else if d3.allOut p e role index then d3.roleLost p e role index else d3
/-- A lane of a UCIe module of a berth fails: each half of the module has two lanes to repair it with; with no more of them the
module narrows to x32, its other half, and goes out where that half cannot carry it either (R298, R446). The repair is UCIe's:
PRESUMED, log entry 107. -/
def Dev.moduleFailed (p : Part) (d : Dev) (e g half : Nat) : Dev :=
  let a := laneR e g
  let role := d.fld p a 0 3
  let width := d.fld p a 13 2
  let ctx := BitVec.ofNat 64 g
  let key (h : Nat) : Nat := 2 * (768 * e + g) + h
  let n := smGet 0 d.halfBad (key half) + 1
  if 768 ≤ g ∨ 2 ≤ width ∨ 5 ≤ role then d
  else
    let d : Dev := { d with halfBad := smSet 0 d.halfBad (key half) n }
    let other := smGet 0 d.halfBad (key (1 - half))
    if n ≤ 2 then
      let d1 := (d.setF p a 16 2 (max n (min 2 other))).setF p (roleR e role) 48 10 (d.fld p (roleR e role) 48 10 + 1)
      d1.fault p 31 e 1 0x0405 ctx (BitVec.ofNat 64 role)
    else if other ≤ 2 then
      (if width = 1 then d
       else ((d.setF p a 13 2 1).setF p (roleR e role) 16 10 (d.fld p (roleR e role) 16 10 + 1)).fault p 31 e 2 0x0406 ctx (BitVec.ofNat 64 role))
    else
      let d1 := (d.setF p a 13 2 2).setF p (roleR e role) 32 10 (d.fld p (roleR e role) 32 10 + 1)
      let d2 := if width = 1 then d1.setF p (roleR e role) 16 10 (d1.fld p (roleR e role) 16 10 - 1) else d1
      let d3 := d2.fault p 31 e 2 0x0407 ctx (BitVec.ofNat 64 role)
      if d3.allOut p e role (d3.fld p a 8 5) then d3.roleLost p e role (d3.fld p a 8 5) else d3
/-- LANE_FAIL: a lane loses lock, or has failed otherwise (R301). -/
def execLaneFail (site : BitVec 5) (g : BitVec 10) (goodLanes : LanesLeft) (s : State) : Out :=
  s.upd fun p _ d =>
    if isG site.toNat then d.moduleFailed p site.toNat g.toNat (if goodLanes.upper then 1 else 0)
    else d.laneFailed p site.toNat g.toNat goodLanes.good.toNat
/-- Lanes of a group: 16 and 2 spare; of a UCIe module 64 and 4 to repair with (R298, R446; log entry 107). -/
def groupLanes (e : Nat) : Nat := if isG e then 68 else 18
/-- FLIT_RETRY: a flit fails its CRC on a lane and is sent again within its group; the eighth such error of a lane within
1 ms fails the lane (R298, R301, R303). The retry of a flit that an injection spoilt is such a command too (DESIGN CHOICE, log
entry 111). -/
def execFlitRetry (site : BitVec 5) (lane : LaneId) (s : State) : Out :=
  s.upd fun p _ d =>
    let e := site.toNat
    let g := lane.group.toNat
    if 23 ≤ e ∨ 768 ≤ g ∨ groupLanes e ≤ lane.lane.toNat then d
    else
      let key := (768 * e + g) * 128 + lane.lane.toNat
      let z := d.injTake p e 4 g
      let d1 := z.1.setF p (laneR e g) 48 16 (min 0xFFFF (d.fld p (laneR e g) 48 16 + 1))
      let times := ((smGet [] d.flitErrs key).filter fun t => decide (elapsed d.now t < 1200000)) ++ [d.now]
      -- an injected error counts toward no lane's failure (R528)
      if z.2 ≠ 0 then d1
      else if times.length < 8 then { d1 with flitErrs := smSet [] d.flitErrs key times }
      else
        let d2 : Dev := { d1 with flitErrs := smSet [] d.flitErrs key [] }
        if isG e then d2.moduleFailed p e g (if lane.lane.toNat < 34 then 0 else 1)
        else d2.laneFailed p e g (17 - smGet 0 d.lanesBad (768 * e + g))

/-! ### The lane plan at a cold start (R300) -/

/-- A group with failed lanes at a cold start: one or two take its spares; with more, a reserve group of its direction that
is not among the failing takes its role, or, where none is left, the role is short: answers that role. A berth's module with more
narrows to x32 while a half of it is left (R446; log entry 107). -/
def Dev.repairGroup (p : Part) (d : Dev) (bad : List Nat) (e g n : Nat) : Dev × Option (Nat × Nat) :=
  let a := laneR e g
  let role := d.fld p a 0 3
  let index := d.fld p a 8 5
  if 23 ≤ e ∨ 768 ≤ g ∨ n = 0 ∨ 2 ≤ d.fld p a 13 2 ∨ 5 ≤ role then (d, none)
  else if n ≤ 2 then
    let d1 := (d.setF p a 16 2 n).setF p (roleR e role) 48 10 (d.fld p (roleR e role) 48 10 + n)
    (if isG e then { d1 with halfBad := smSet 0 d1.halfBad (2 * (768 * e + g)) n }
     else { d1 with lanesBad := smSet 0 d1.lanesBad (768 * e + g) n }, none)
  else if isG e ∧ n ≤ 34 then
    let d1 := ((d.setF p a 13 2 1).setF p (roleR e role) 16 10 (d.fld p (roleR e role) 16 10 + 1)).fault p 31 e 2 0x0406 (BitVec.ofNat 64 g) (BitVec.ofNat 64 role)
    ({ d1 with halfBad := smSet 0 d1.halfBad (2 * (768 * e + g)) n }, none)
  else
    let free := if role = 0 then none else (List.range 768).find? fun h =>
      d.fld p (laneR e h) 0 3 == 0 && d.fld p (laneR e h) 13 2 == 0 && d.bit p (laneR e h) 3 == d.bit p a 3 && !bad.contains h
    match free with
    | some h =>
      let d1 := (d.setF p (laneR e h) 0 3 role).setF p (laneR e h) 8 5 index
      let d2 := ((d1.setF p a 0 3 0).setF p a 8 5 0).setF p a 13 2 2
      (d2.setF p (roleR e 0) 32 10 (d2.fld p (roleR e 0) 32 10 + 1), none)
    | none =>
      let d1 := (d.setF p a 13 2 2).setF p (roleR e role) 32 10 (d.fld p (roleR e role) 32 10 + 1)
      (d1, if role = 0 then none else some (role, index))
/-- The lane plan repairs a site, and each role that stays short raises one Degraded fault. DEDUCED, log entry 88. -/
def Dev.repairLanes (p : Part) (d : Dev) (fails : List (Nat × Nat × Nat)) : Dev :=
  let bad (e : Nat) : List Nat := (fails.filter fun x => x.1 == e && decide (2 < x.2.2)).map fun x => x.2.1
  let z : Dev × List (Nat × Nat × Nat) := fails.foldl (fun z x =>
    let y := z.1.repairGroup p (bad x.1) x.1 x.2.1 x.2.2
    (y.1, z.2 ++ match y.2 with | some r => [(x.1, r.1, r.2)] | none => [])) (d, [])
  let d1 := (z.2.map fun x => (x.1, x.2.1)).eraseDups.foldl (fun d x => d.fault p 31 x.1 2 0x0407 (BitVec.ofNat 64 x.1) (BitVec.ofNat 64 x.2)) z.1
  z.2.eraseDups.foldl (fun d x => if d.allOut p x.1 x.2.1 x.2.2 then d.roleLost p x.1 x.2.1 x.2.2 else d) d1

end Sys2Proof.Machine
end

