-- ==== Sys2Proof/Machine/Route.lean ====
section
/-! DEFINITION. The routing stage: injection, routing and delivery of fabric packets, transit queues, stream
order, end-to-end delivery and draining (R366 to R395). -/

namespace Sys2Proof.Machine

/-! ### State of the routing stage (R394, R395) -/

/-- 0 RUN, 1 DRAINING, 2 DRAINED, 3 DRAIN_FAIL. -/
def Dev.rtState (p : Part) (d : Dev) : Nat := d.fld p (rtR 8) 0 2
def Dev.setRt (p : Part) (d : Dev) (st : Nat) : Dev := d.setF p (rtR 8) 0 2 st
def streamKey (node : BitVec 16) (chan : BitVec 8) (ord : Bool) : Nat := (node.toNat * 256 + chan.toNat) * 2 + (if ord then 1 else 0)
def Dev.tx (d : Dev) (k : Nat) : Option TxStream := smGet none d.txStreams k
def Dev.setTx (d : Dev) (k : Nat) (x : Option TxStream) : Dev := { d with txStreams := smSet none d.txStreams k x }
def Dev.rx (d : Dev) (k : Nat) : Option RxStream := smGet none d.rxStreams k
def Dev.setRx (d : Dev) (k : Nat) (x : Option RxStream) : Dev := { d with rxStreams := smSet none d.rxStreams k x }
/-- Packets in the hold store. -/
def Dev.heldCount (d : Dev) : Nat := (d.rxStreams.map fun e => match e.2 with | some x => x.held.length | none => 0).sum
/-- The statuses of R373, R385 and R389 for the requester of a discarded packet; a response has none. -/
def Dev.tellRequester (d : Dev) (x : FabPkt) (st : BitVec 7) : Dev :=
  match x.body with
  | some (.req r) => d.send (.resp { dst := r.src, tag := r.tag, status := st })
  | _ => d
/-- A packet without a route is discarded (R373). -/
def Dev.noRoute (p : Part) (d : Dev) (x : FabPkt) : Dev := (d.count p (rtR 0x410) 1).tellRequester x stNoRoute

/-! ### Transit queues (R378, R379) -/

/-- Free slots of a virtual channel's transit queue. -/
def PortSt.free (x : PortSt) (vc : Vc) : Nat := 8 - (x.tq.filter fun y => y.vc == vc).length
/-- A ring field, at bit `lo`, of the neighbour that a port belongs to; 0 for none (R371). -/
def Dev.ringOf (p : Part) (d : Dev) (lo : Nat) (f : Option Nat) : Nat :=
  ((f.bind fun n => d.nbrOf p n).map fun i => d.fld p (nbrR i) lo 4).getD 0
/-- Free slots a packet needs that goes out on ring `out` and goes on with ring `inn` (R378). -/
def slotsFor (out inn : Nat) : Nat := if out = 0 ∨ out = inn then 1 else 2
/-- Free slots a packet that goes on with ring `ring` needs at port f. -/
def Dev.slotsNeeded (p : Part) (d : Dev) (f ring : Nat) : Nat := slotsFor (d.ringOf p 16 (some f)) ring
/-- Put a packet in a transit queue. -/
def Dev.enq (d : Dev) (f : Nat) (x : FabPkt) : Dev := d.modPort f fun y => { y with tq := y.tq ++ [x] }
/-- Route a packet that this stage holds: the device after it, or none where its transit queue does not admit it. -/
def Dev.routeOut (p : Part) (d : Dev) (x : FabPkt) : Option Dev :=
  match d.pickPort p x with
  | none => some (d.noRoute p x)
  | some (alt, f) =>
    if (d.port f).free x.vc < d.slotsNeeded p f x.ring.toNat then none
    else some ((d.count p (rtR 0x408) (alt - x.alt.toNat)).enq f { x with alt := BitVec.ofNat 2 alt })
/-- Packets handed back to the routing stage are routed again (R355, R390). -/
def Dev.reroute (p : Part) (d : Dev) : List FabPkt → Dev
  | [] => d
  | x :: xs =>
    match d.routeOut p { x with rpl := false, lseq := 0 } with
    | some d1 => Dev.reroute p d1 xs
    | none => Dev.reroute p { d with rerouted := d.rerouted ++ [x] } xs
/-- Send an E2EACK to a source node; where no transit queue takes it, it stays due (R388). -/
def Dev.sendAck (p : Part) (d : Dev) (node : BitVec 16) : Dev :=
  let r := smGet {} d.rxNodes node.toNat
  let map : W64 := BitVec.ofNat 64 (((r.got.filterMap fun e =>
    let i := (e - r.base - 1).toNat
    if i < 64 then some (2 ^ i) else none)).sum)
  let x : FabPkt := { vc := .ctl, lseq := 0, rpl := false, dnode := node, snode := d.node, iboard := 0, phase := true, rmode := false
                      alt := 0, ord := false, flag := false, erpl := false, hops := 0, chan := 0, eseq := 0, cseq := 0, pred := 0
                      epoch := 0, body := none, ackBase := r.base, ackMap := map }
  match d.routeOut p x with
  | some d1 => { d1 with ackDue := d1.ackDue.filter fun y => y != node }
  | none => { d with ackDue := (d.ackDue.filter fun y => y != node) ++ [node] }
/-- The acknowledgements that are due go as soon as a transit queue takes them (R388). -/
def Dev.flushAcks (p : Part) (d : Dev) : Dev := d.ackDue.foldl (fun d n => d.sendAck p n) d
/-- The virtual channel whose packet a port launches next: CTL, RSP, REQ, BULK, but one passed over 16 times first,
and none that is stopped (R271, R379). -/
def Dev.nextVc (p : Part) (d : Dev) (f : Nat) : Option Vc :=
  let x := d.port f
  let stop := d.fld p (portR f 0x28) 16 4
  let able (vc : Vc) : Bool := (x.tq.any fun y => y.vc == vc) && !(BitVec.ofNat 4 stop).getLsbD (vcCode vc)
  let order := [Vc.ctl, Vc.rsp, Vc.req, Vc.bulk]
  match order.find? fun vc => decide (16 ≤ smGet 0 x.passed (vcCode vc)) && able vc with
  | some vc => some vc
  | none => order.find? able
/-- A port sends a block, with its latest acknowledgement, a NAK where a loss is to be reported, and its STOP bits: a CTRL block
where it is given the data bytes of a message, else a DATA block of the packets that wait, and an IDLE one where none
does. An injection puts 8 or 16 of its symbols in error (R345, R346, R348, R349, R351, R527). -/
def Dev.sendBlock (p : Part) (d : Dev) (f : Nat) (msg : Option (List Byte)) : Dev :=
  let x := d.port f
  let stop := d.fld p (portR f 0x28) 20 4
  let z := d.injTake p 31 7 f
  let kind := match msg with | some _ => 3 | none => if x.out.isEmpty then 0 else if x.outPart then 1 else 2
  let b := if msg.isSome then (([] : List Byte), x.out, x.outPart) else fillBlock 640 x.out
  let data := match msg with | some bs => bs | none => b.1 ++ List.replicate (640 - b.1.length) 0
  let d1 := z.1.setPort f { x with
    sent := blockCtrl kind x.ackv x.nak (x.expect - 1) stop, sentData := data, sentErrs := 8 * z.2, nak := false, out := b.2.1, outPart := b.2.2 }
  if stop = 0 then d1 else d1.count p (portR f 0x238) 1
/-- The codeword of the block a port sent last, without the symbols that an injection put in error (R344). -/
def PortSt.codeword (x : PortSt) : List (BitVec 10) := blockCodeword x.sent x.sentData
/-- A control message goes in a CTRL block (R345, R347). -/
def Dev.sendPort (p : Part) (d : Dev) (f : Nat) (m : PortMsg) : Dev :=
  (d.sendBlock p f (some (ctrlBytes m))).send (.port (BitVec.ofNat 6 f) m)
/-- LEAVE goes in four consecutive blocks (R354). -/
def Dev.sendLeave (p : Part) (d : Dev) (f : Nat) (reason : BitVec 8) : Dev :=
  (List.range 4).foldl (fun d _ => d.sendPort p f (.leave reason)) d
/-- A packet leaves a port, its bytes behind those that wait for blocks; an injected error spoils its CRC (R346, R527). -/
def Dev.sendFab (p : Part) (d : Dev) (f : Nat) (x : FabPkt) : Dev :=
  let z := d.injTake p 31 6 f
  let m : Msg := .fabric (BitVec.ofNat 6 f) { x with ring := 0 }
  let z := (z.1.modPort f fun y => { y with out := y.out ++ [fabImage x] }, z.2)
  if z.2 = 0 then z.1.send m else { z.1.send m with corrupt := z.1.corrupt ++ [m] }
/-- TRANSIT_LAUNCH: an UP port launches the next packet of its transit queues within the limits of its link (R349,
R351, R379). -/
def execTransitLaunch (f : BitVec 6) (s : State) : Out :=
  s.upd fun p _ d =>
    let n := f.toNat
    let x := d.port n
    if !d.portUp p n then d
    else match d.nextVc p n with
    | none => d
    | some vc =>
      match x.tq.find? fun y => y.vc == vc with
      | none => d
      | some y =>
        if 1024 ≤ d.fld p (portR n 0x28) 0 11 ∨ 131072 < ((x.replay.map fun z => fabSize z.pkt).sum) + fabSize y then d
        else
          let l := d.fld p (portR n 0x28) 32 12
          let y' := { y with lseq := BitVec.ofNat 12 l, rpl := false }
          let pass := [Vc.req, Vc.rsp, Vc.ctl, Vc.bulk].foldl (fun m v =>
            if v = vc then smSet 0 m (vcCode v) 0
            else if x.tq.any fun z => z.vc == v then smSet 0 m (vcCode v) (smGet 0 m (vcCode v) + 1) else smSet 0 m (vcCode v) 0) x.passed
          let d1 := d.setPort n { x with tq := x.tq.erase y, passed := pass, replay := x.replay ++ [{ pkt := y', first := d.now, last := d.now }] }
          let d2 := (d1.setF p (portR n 0x28) 32 12 (l + 1)).setF p (portR n 0x28) 0 11 (d1.fld p (portR n 0x28) 0 11 + 1)
          let d3 := ((d2.count p (portR n 0x200) 1).sendFab p n y').sendBlock p n none
          (Dev.reroute p { d3 with rerouted := [] } d3.rerouted).flushAcks p

/-! ### Injection (R368 to R370, R376, R382, R383, R387, R389) -/

/-- Bytes in the end-to-end replay store. -/
def Dev.e2eBytes (d : Dev) : Nat := (d.e2e.map fun x => fabSize x.pkt).sum
/-- Number a packet within its stream: STRICT by CSEQ; FLAGGED by epoch, with the flag forced before the count of
an epoch overflows (R382, R383). -/
def numberPkt (t : TxStream) (x : FabPkt) (now : W64) : FabPkt × TxStream :=
  if !x.ord then ({ x with cseq := t.cseq }, { t with cseq := t.cseq + 1, last := now })
  else if x.flag || t.n == 0xFFFFFFFF then
    ({ x with flag := true, epoch := t.epoch, pred := t.n }, { t with epoch := t.epoch + 1, n := 0, last := now })
  else ({ x with epoch := t.epoch }, { t with n := t.n + 1, last := now })
/-- The stage takes a packet from the lattice; it stays with the lattice where the stage is not in RUN, its store is
full, or its transit queue does not admit it. -/
def Dev.inject (p : Part) (d : Dev) (dnode : BitVec 16) (body : Body) : Dev :=
  let z := d.startPkt p dnode body
  let k := streamKey dnode z.1.chan z.1.ord
  let take (d : Dev) : Dev := match bodyMsg body with | some m => d.recv m | none => d
  if d.rtState p ≠ 0 ∨ d.stopStep ≠ 0 ∨ 8388608 < d.e2eBytes + fabSize z.1 then d
  else if (d.tx k).isNone && decide (16384 ≤ d.txStreams.length) then (take d).count p (rtR 0x430) 1
  else if (d.pickPort p z.1).isNone then (take d).noRoute p z.1
  else
    let y := numberPkt ((d.tx k).getD {}) z.1 d.now
    let es := smGet 0 d.eseq dnode.toNat
    let x := { y.1 with eseq := es }
    match d.routeOut p x with
    | none => d
    | some d1 =>
      let d2 := ((take d1).setTx k (some y.2)).noteDraw dnode x
      { d2 with routeLfsr := z.2, eseq := smSet 0 d2.eseq dnode.toNat (es + 1), e2e := d2.e2e ++ [{ pkt := x, last := d.now, first := d.now }] }
/-- FABRIC_INJECT: a lattice packet for another node reaches a shelf (R370). -/
def execFabricInject (e : Fin 25) (dnode : BitVec 16) (body : Body) (s : State) : Out :=
  s.upd fun p _ d => if 23 ≤ e.val then d.inject p dnode body else d

/-! ### Receive buffers (R351) -/

/-- A port's STOP bits follow the room of its receive buffers: set below 80 KiB free, cleared at 96 KiB. -/
def Dev.refreshStop (p : Part) (d : Dev) (f : Nat) : Dev :=
  [Vc.req, Vc.rsp, Vc.ctl, Vc.bulk].foldl (fun d vc =>
    let used := (((d.port f).rx.filter fun y => y.vc == vc).map fabSize).sum
    if 49152 < used then d.setF p (portR f 0x28) (20 + vcCode vc) 1 1
    else if used ≤ 32768 then d.setF p (portR f 0x28) (20 + vcCode vc) 1 0 else d) d

/-! ### Delivery (R381 to R388) -/

/-- Is an ESEQ one that has been received (R387)? -/
def RxNode.has (r : RxNode) (e : W32) : Bool := decide (2 ^ 31 ≤ (e - r.base).toNat) || r.got.contains e
/-- The lowest ESEQ not received moves up over those received. -/
def RxNode.settle (r : RxNode) : Nat → RxNode
  | 0 => r
  | n + 1 => if r.got.contains r.base then RxNode.settle { base := r.base + 1, got := r.got.erase r.base } n else r
/-- An ESEQ is received. -/
def RxNode.take (r : RxNode) (e : W32) : RxNode := RxNode.settle { r with got := r.got ++ [e] } (r.got.length + 1)
/-- The request that a packet of the fabric answers has its answer (R405). -/
def Dev.answered (d : Dev) (x : FabPkt) : Dev :=
  match x.body with
  | some (.resp _ r) =>
    (match d.awaited.find? fun y => y.pkt.dnode == x.snode && (match y.pkt.body with
        | some (.req q) => q.src == r.dst && q.tag == r.tag
        | _ => false) with
    | some y => { d with awaited := d.awaited.erase y }
    | none => d)
  | _ => d
/-- Hand a packet to the lattice at shelf endpoint e, with the channel, mode and flag of the fabric header (R370, R381, R383).
While its way is in fall-back a request gets SITE_DOWN, unless it travels on the voted wiring, and a response is lost (R294). -/
def Dev.handOver (p : Part) (d0 : Dev) (e : Nat) (x : FabPkt) : Dev :=
  let d := d0.answered x
  let m := match x.body.bind bodyMsg with
    | some (.req r) => some (Msg.req { r with chan := x.chan, ord := x.ord, flag := x.flag })
    | m => m
  match m with
  | some m =>
    let down := d.inFallback p e || d.inFallback p (d.shelfDest p m)
    (match m with
    | .req r => if down && !onWiring r then d.send (.resp { dst := r.src, tag := r.tag, status := stSiteDown, from' := 0x1F, node := d.node })
        else { d with shelf := d.shelf ++ [(e, m)] }
    | .resp _ => if down then d else { d with shelf := d.shelf ++ [(e, m)] }
    | _ => { d with shelf := d.shelf ++ [(e, m)] })
  | none => d
/-- The held packet of a STRICT stream whose turn it is. -/
def RxStream.dueStrict (x : RxStream) : Option (FabPkt × W64) := x.held.find? fun h => h.1.cseq == x.cseq
/-- Count of delivered unflagged packets of an epoch. -/
def RxStream.countOf (x : RxStream) (e : BitVec 16) : Nat :=
  match x.counts.find? fun c => c.1 == e with | some c => c.2 | none => 0
/-- The held flagged packet of the oldest open epoch whose predecessors have all been delivered (R384). -/
def RxStream.dueFlagged (x : RxStream) : Option (FabPkt × W64) :=
  x.held.find? fun h => h.1.epoch == x.epoch && x.countOf x.epoch == h.1.pred.toNat
/-- The oldest open epoch closes. -/
def RxStream.closeEpoch (x : RxStream) : RxStream :=
  { x with epoch := x.epoch + 1, counts := x.counts.filter fun c => c.1 != x.epoch }
/-- Release held packets whose turn has come. -/
def Dev.releaseHeld (p : Part) (d : Dev) (e k : Nat) (ord : Bool) : Nat → Dev
  | 0 => d
  | n + 1 =>
    match d.rx k with
    | none => d
    | some x =>
      match (if ord then x.dueFlagged else x.dueStrict) with
      | none => d
      | some h =>
        let x1 := { x with held := x.held.erase h }
        let x2 := if ord then x1.closeEpoch else { x1 with cseq := x1.cseq + 1 }
        Dev.releaseHeld p ((d.setRx k (some x2)).handOver p e h.1) e k ord n
/-- What the destination does with a new packet of a stream. -/
inductive Turn where
  | deliver (x : RxStream) | hold | drop | late
  deriving DecidableEq, Repr
/-- The turn of a packet (R382, R384). -/
def turnOf (x : RxStream) (k : FabPkt) : Turn :=
  if !k.ord then
    (if k.cseq = x.cseq then .deliver { x with cseq := x.cseq + 1 }
    else if (k.cseq - x.cseq).toNat < 2 ^ 31 then .hold else .late)
  else
    let dist := (k.epoch - x.epoch).toNat
    if 32768 ≤ dist then (if k.flag then .late else .deliver x)
    else if 4 ≤ dist then .drop
    else if !k.flag then
      .deliver { x with counts := (x.counts.filter fun c => c.1 != k.epoch) ++ [(k.epoch, x.countOf k.epoch + 1)] }
    else if dist = 0 ∧ x.countOf x.epoch = k.pred.toNat then .deliver x.closeEpoch
    else .hold
/-- A packet for this node arrives at the stage by a port of shelf endpoint e (R381 to R388). DEDUCED, log entry 48. -/
def Dev.deliverPkt (p : Part) (d : Dev) (e : Nat) (x : FabPkt) : Dev :=
  let r := smGet {} d.rxNodes x.snode.toNat
  let k := streamKey x.snode x.chan x.ord
  let again : Dev := match d.rx k with | some c => d.setRx k (some { c with last := d.now }) | none => d
  if r.has x.eseq then again.sendAck p x.snode
  else if 4096 < (x.eseq - r.base).toNat then again
  else if (d.rx k).isNone && decide (16384 ≤ d.rxStreams.length) then d.count p (rtR 0x430) 1
  else
    let ctx := { ((d.rx k).getD {}) with last := d.now }
    let seen (d : Dev) : Dev := { d with rxNodes := smSet {} d.rxNodes x.snode.toNat (r.take x.eseq) }
    match turnOf ctx x with
    | .deliver c => ((((seen d).setRx k (some c)).handOver p e x).releaseHeld p e k x.ord (c.held.length + 1)).sendAck p x.snode
    | .hold =>
      if 1024 ≤ d.heldCount then (d.setRx k (some ctx)).count p (rtR 0x430) 1
      else ((seen d).setRx k (some { ctx with held := ctx.held ++ [(x, d.now)] })).sendAck p x.snode
    | .drop => d.setRx k (some ctx)
    | .late => (((seen d).setRx k (some ctx)).tellRequester x stOrderLost).sendAck p x.snode
/-- Does an end-to-end acknowledgement cover an ESEQ? -/
def ackCovers (base : W32) (map : W64) (e : W32) : Bool :=
  decide (2 ^ 31 ≤ (e - base).toNat) ||
    (decide (0 < (e - base).toNat) && decide ((e - base).toNat ≤ 64) && map.getLsbD ((e - base).toNat - 1))
/-- A packet leaves the end-to-end replay store: a source context lives on from then (R385). -/
def Dev.touchTx (d : Dev) (x : FabPkt) : Dev :=
  let k := streamKey x.dnode x.chan x.ord
  match d.tx k with | some c => d.setTx k (some { c with last := d.now }) | none => d
/-- Is it a request? -/
def E2eSent.asks (x : E2eSent) : Bool := match x.pkt.body with | some (.req _) => true | _ => false
/-- An end-to-end acknowledgement reaches the source: what it covers leaves the store, and a request goes on waiting for its answer
(R388, R389, R405). -/
def Dev.takeE2eAck (d : Dev) (x : FabPkt) : Dev :=
  let out (y : E2eSent) : Bool := y.pkt.dnode == x.snode && ackCovers x.ackBase x.ackMap y.pkt.eseq
  (d.e2e.filter out).foldl (fun d y => d.touchTx y.pkt)
    { d with e2e := d.e2e.filter fun y => !out y, awaited := d.awaited ++ (d.e2e.filter out).filter E2eSent.asks }
/-- E2EACK. -/
def execE2eack (x : FabPkt) (s : State) : Out := s.upd fun _ _ d => if x.body.isNone && x.dnode == d.node then d.takeE2eAck x else d
/-- A packet as the stage sees it: hops counted, and phase 1 from the first package of its boards (R375).
DEDUCED, log entry 47. -/
def Dev.atStage (d : Dev) (x : FabPkt) : FabPkt × Bool :=
  let b := boardOf d.node
  let sw := !x.phase && (x.iboard.toNat == b || boardOf x.dnode == b)
  ({ x with hops := x.hops + 1, phase := x.phase || sw }, sw)
/-- The stage takes packet x from port f: what it becomes, or none where its transit queue does not admit it. -/
def Dev.takeFrom (p : Part) (d : Dev) (f : Nat) (x : FabPkt) : Option Dev :=
  let z := d.atStage x
  if x.hops = 63 then some ((d.count p (rtR 0x418) 1).fault p 31 63 0 0x0701 (x.dnode.zeroExtend 64) (x.snode.zeroExtend 64))
  else if z.1.dnode = d.node ∧ z.1.phase then
    some (if x.body.isNone then d.takeE2eAck z.1 else d.deliverPkt p (if f < 32 then 23 else 24) z.1)
  else if (d.pickPort p z.1).isNone then some (d.noRoute p z.1)
  else (d.routeOut p { z.1 with ring := if z.2 then 0 else BitVec.ofNat 4 (d.ringOf p 20 (some f)) }).map fun d => d.count p (rtR 0x400) 1
/-- Has the header of packet x arrived at port f as that of the expected packet, and not its tail? -/
def Dev.headCame (d : Dev) (f : Nat) (x : FabPkt) : Bool :=
  let y := d.port f
  x.lseq == y.expect && !y.resync && y.cut.isNone && y.head.contains (x.lseq, fabHeader x)
/-- ROUTE_PACKET: the first packet of its virtual channel in the port's receive buffer that can go on is taken; behind them comes
the packet whose header alone has arrived, which goes on toward another port only. In an orderly stop the stage admits none
(R352, R372 to R375, R378, R391). -/
def execRoutePacket (f : BitVec 6) (x : FabPkt) (s : State) : Out :=
  s.upd fun p _ d =>
    let n := f.toNat
    let q := (d.port n).rx.filter fun y => y.vc == x.vc
    let first := q.find? fun y => (d.takeFrom p n y).isSome
    if d.stopStep ≠ 0 then d
    else if first == some x then
      let d1 := d.modPort n fun y => { y with rx := y.rx.erase x }
      ((d1.takeFrom p n x).getD d).refreshStop p n
    else if first.isNone && d.headCame n x && x.hops != 63 then
      let z := d.atStage x
      if (z.1.dnode == d.node && z.1.phase) || (d.pickPort p z.1).isNone then d
      else match d.takeFrom p n x with
        | some d1 => d1.modPort n fun y => { y with cut := some z.1 }
        | none => d
    else d
/-- HOLD_EXPIRY: a packet held for 12 us ends every hold of its stream (R385). -/
def execHoldExpiry (snode : BitVec 16) (chan : BitVec 8) (ord : Bool) (s : State) : Out :=
  s.upd fun p _ d =>
    let k := streamKey snode chan ord
    match d.rx k with
    | none => d
    | some x =>
      if !(x.held.any fun h => decide (14400 ≤ elapsed d.now h.2)) then d
      else
        let d1 := x.held.foldl (fun d h => d.tellRequester h.1 stOrderLost) d
        let top := x.held.foldl (fun t h => if ord then (if (h.1.epoch - x.epoch).toNat < t then t else (h.1.epoch - x.epoch).toNat)
          else (if (h.1.cseq - x.cseq).toNat < t then t else (h.1.cseq - x.cseq).toNat)) 0
        let x1 : RxStream := if ord then
            { x with held := [], epoch := x.epoch + BitVec.ofNat 16 (top + 1), counts := x.counts.filter fun c => decide (top < (c.1 - x.epoch).toNat) }
          else { x with held := [], cseq := x.cseq + BitVec.ofNat 32 (top + 1) }
        ((d1.setRx k (some x1)).count p (rtR 0x430) x.held.length).fault p 31 63 0 0x0703 (snode.zeroExtend 64) (chan.zeroExtend 64)
/-- CONTEXT_RELEASE (R385). -/
def execContextRelease (tx : Bool) (node : BitVec 16) (chan : BitVec 8) (ord : Bool) (s : State) : Out :=
  s.upd fun _ _ d =>
    let k := streamKey node chan ord
    if tx then
      match d.tx k with
      | none => d
      | some x =>
        if 240000 ≤ elapsed d.now x.last ∧ !(d.e2e.any fun y => y.pkt.dnode == node && y.pkt.chan == chan && y.pkt.ord == ord) then d.setTx k none else d
    else
      match d.rx k with
      | none => d
      | some x => if 120000 ≤ elapsed d.now x.last ∧ x.held.isEmpty then d.setRx k none else d

/-! ### End-to-end retransmission (R389, R417) -/

/-- The store's entry of a destination and ESEQ. -/
def Dev.e2eFind (d : Dev) (node : BitVec 16) (eseq : W32) : Option E2eSent :=
  d.e2e.find? fun x => x.pkt.dnode == node && x.pkt.eseq == eseq
/-- E2E_RETRANSMIT: 3 us after its last send, at most twice, over a path chosen afresh. -/
def execE2eRetransmit (node : BitVec 16) (eseq : W32) (s : State) : Out :=
  s.upd fun p _ d =>
    match d.e2eFind node eseq with
    | none => d
    | some x =>
      if 2 ≤ x.tries ∨ elapsed d.now x.last < 3600 then d
      else match x.pkt.body with
      | none => d
      | some body =>
        let z := d.startPkt p node body
        let y := { x.pkt with erpl := true, alt := 0, iboard := z.1.iboard, rmode := z.1.rmode, phase := z.1.phase }
        if (d.pickPort p y).isNone then (Dev.touchTx { d with e2e := d.e2e.erase x } y).noRoute p y
        else match d.routeOut p y with
        | none => d
        | some d1 =>
          { (d1.count p (rtR 0x420) 1).noteDraw node y with
            routeLfsr := z.2, e2e := d1.e2e.map fun w => if w == x then { x with pkt := y, last := d.now, tries := x.tries + 1 } else w }
/-- A remote timeout toward a node: the fault of R417, at the first and then at most once per ms. -/
def Dev.remoteTimeout (p : Part) (d : Dev) (node : BitVec 16) : Dev :=
  let raise (n : Nat) (d : Dev) : Dev :=
    ({ d with timeouts := smSet none d.timeouts node.toNat (some (d.now, 0)) }).fault p 31 63 3 0x0704 (node.zeroExtend 64) (BitVec.ofNat 64 n)
  match smGet none d.timeouts node.toNat with
  | none => raise 1 d
  | some (t, n) =>
    if 1200000 ≤ elapsed d.now t then raise (n + 1) d
    else { d with timeouts := smSet none d.timeouts node.toNat (some (t, n + 1)) }
/-- A request that was acknowledged end to end and has no answer 9 us after its first send ends too, so that no fence waits longer
(R405). That it ends as REMOTE_TIMEOUT is DEDUCED (log entry 105). -/
def Dev.answerLost (d : Dev) (node : BitVec 16) (eseq : W32) : Dev :=
  match d.awaited.find? fun x => x.pkt.dnode == node && x.pkt.eseq == eseq with
  | none => d
  | some x =>
    if elapsed d.now x.first < 10800 then d
    else Dev.tellRequester { d with awaited := d.awaited.erase x } x.pkt stRemoteTimeout
/-- E2E_GIVE_UP: after two retransmissions and a further 3 us (R389, R417), or with no answer by then (R405). -/
def execE2eGiveUp (node : BitVec 16) (eseq : W32) (s : State) : Out :=
  s.upd fun p _ d =>
    match d.e2eFind node eseq with
    | none => d.answerLost node eseq
    | some x =>
      if x.tries < 2 ∨ elapsed d.now x.last < 3600 then d
      else
        let d1 := ((Dev.touchTx { d with e2e := d.e2e.erase x } x.pkt).count p (rtR 0x428) 1).tellRequester x.pkt stRemoteTimeout
        match x.pkt.body with
        | some (.req _) => d1.remoteTimeout p node
        | _ => d1

/-! ### Draining and tables (R393, R394) -/

/-- The conditions of DRAINED. -/
def Dev.drained (d : Dev) : Bool := d.e2e.isEmpty && d.rerouted.isEmpty && (d.ports.all fun x => x.2.tq.isEmpty) && d.heldCount == 0
/-- RT_CTRL.DRAIN. -/
def Dev.drain (p : Part) (d : Dev) : Dev := if d.rtState p = 0 then { d.setRt p 1 with drainT := d.now } else d
/-- RT_CTRL.RESUME. -/
def Dev.rtResume (p : Part) (d : Dev) : Dev := if d.rtState p = 2 ∨ d.rtState p = 3 then d.setRt p 0 else d
/-- DRAIN. -/
def execDrain (s : State) : Out := s.upd fun p _ d => d.drain p
/-- RT_RESUME. -/
def execRtResume (s : State) : Out := s.upd fun p _ d => d.rtResume p
/-- DRAIN_COMPLETE. -/
def execDrainComplete (s : State) : Out :=
  s.upd fun p _ d => if (d.rtState p = 1 ∨ d.rtState p = 3) ∧ d.drained then d.setRt p 2 else d
/-- DRAIN_FAIL: 10 ms in DRAINING. -/
def execDrainFail (s : State) : Out :=
  s.upd fun p _ d =>
    if d.rtState p = 1 ∧ !d.drained ∧ 12000000 ≤ elapsed d.now d.drainT then (d.setRt p 3).fault p 31 63 0 0x0702 else d
/-- Is an offset one of the routing tables: neighbours, positions, channel modes, boards? -/
def isRouteTable (off : Nat) : Bool :=
  (decide (0x90100 ≤ off) && decide (off < 0x90180)) || (decide (0x90200 ≤ off) && decide (off < 0x90240))
    || (decide (0x90300 ≤ off) && decide (off < 0x90320)) || (decide (0xA0000 ≤ off) && decide (off < 0xB0000))
/-- A write of a routing table: only in DRAINED (R393). -/
def Dev.writeRouteTable (p : Part) (d : Dev) (a : Nat) (v : W64) (lower upper : Bool) : Dev :=
  if d.rtState p = 2 then d.regStore p a v lower upper else d.noticeIgnored p a v
/-- ROUTING_TABLE_WRITE. -/
def execRoutingTableWrite (addr : BitVec 40) (value : W64) (s : State) : Out :=
  s.upd fun p _ d =>
    let a := canonAddr addr.toNat
    if ctlSite a = 31 ∧ ctlBlk a = 0x20 ∧ isRouteTable (ctlOff a) then d.writeRouteTable p a value true true else d

end Sys2Proof.Machine
end

