-- ==== Sys2Proof/Machine/Port.lean ====
section
/-! DEFINITION. Optical fabric ports: lanterns, the link layer, leaving a link, identity and width, the port state
machine and route cards (R332 to R365). -/

namespace Sys2Proof.Machine

/-! ### State of a port (R359, R364) -/

/-- STATE: 0 OFF, 1 DISABLED, 2 DARK, 3 LOCK, 4 ALIGN, 5 IDENT, 6 UP, 7 MISMATCH, 8 UNLISTED, 9 INCOMPAT,
10 NOPEER, 11 DOWN. -/
def Dev.setPortSt (p : Part) (d : Dev) (f st : Nat) : Dev :=
  ((d.setF p (portR f 8) 0 4 st).setF p (portR f 8) 32 32 (lowT d.now)).modPort f fun x => { x with since := d.now }
def Dev.listed (p : Part) (d : Dev) (f : Nat) : Bool := d.bit p (portR f 0x10) 24
def Dev.portDisabled (p : Part) (d : Dev) (f : Nat) : Bool := d.bit p (portR f 0) 0
def Dev.portLit (p : Part) (d : Dev) (f : Nat) : Bool := d.ltnSt p (f / 4) == 3
/-- States from IDENT on in which a port that leaves sends LEAVE (R354). DEDUCED, log entry 45. -/
def leaves (st : Nat) : Bool := decide (5 ≤ st) && decide (st ≤ 9)
/-- A fault of a port: its index and a value (R515, R516). -/
def Dev.portFault (p : Part) (d : Dev) (f cls code : Nat) (v : Nat := 0) : Dev :=
  d.fault p 31 f cls code (BitVec.ofNat 64 f) (BitVec.ofNat 64 v)
/-- The fault of leaving UP with a cause (R362). -/
def Dev.leaveFault (p : Part) (d : Dev) (f cause : Nat) : Dev :=
  if cause = 8 then d else if cause = 3 ∨ cause = 7 then d.portFault p f 0 0x0605 cause else d.portFault p f 2 0x0604 cause
/-- Are two packets one, but for what a link and a hop write? -/
def samePkt (a b : FabPkt) : Bool :=
  decide ({ a with lseq := 0, rpl := false, alt := 0, ring := 0 } = { b with lseq := 0, rpl := false, alt := 0, ring := 0 })
/-- The copy of a lost packet at one port: an ABORT ends one that has been launched, one that waits goes (R352). -/
def Dev.endCopy (p : Part) (d : Dev) (y : FabPkt) (g : Nat) : Dev :=
  let x := d.port g
  match x.replay.find? fun z => samePkt z.pkt y && !z.aborted with
  | some z =>
    ((d.setPort g { x with replay := x.replay.map fun w => if w == z then { w with aborted := true } else w }).count p (portR g 0x240) 1).sendPort p g
      (.abort z.pkt.lseq)
  | none => if x.tq.any (samePkt y) then d.setPort g { x with tq := x.tq.eraseP (samePkt y) } else d
/-- A packet that port f has passed on without its tail is lost: its copy ends wherever it stands (R352). -/
def Dev.loseCopy (p : Part) (d : Dev) (f : Nat) : Dev :=
  match (d.port f).cut with
  | none => d
  | some y =>
    let d1 := d.modPort f fun x => { x with cut := none }
    (List.range 64).foldl (fun d g => d.endCopy p y g) { d1 with rerouted := d1.rerouted.eraseP (samePkt y) }
/-- A packet is lost at port f: every later one is discarded until it comes again, and a NAK reports it (R348). -/
def Dev.loseRx (p : Part) (d : Dev) (f : Nat) : Dev :=
  (d.loseCopy p f).modPort f fun y => if y.resync then { y with head := [] } else { y with resync := true, nak := true, ackv := true, head := [] }
/-- A port stops being UP for state `st`: what it has not had acknowledged, and its transit queues, go back to the
routing stage (R355, R390); in an orderly stop, whose routing stage admits none, they are lost (R391). -/
def Dev.portDrop (p : Part) (d : Dev) (f st : Nat) : Dev :=
  let d := d.loseCopy p f
  let x := d.port f
  let d1 := (d.setPortSt p f st).count p (portR f 0x248) 1
  let d2 := (d1.setF p (portR f 0x28) 0 11 0).modPort f fun y =>
    { y with replay := [], tq := [], passed := [], nak := false, nakIn := false, resync := false, ackv := false, head := [], sentAck := false, gotAck := false
             out := [], outPart := false, inPos := none }
  if d.stopStep ≠ 0 then d2 else d2.reroute p ((x.replay.filter fun z => !z.aborted).map LinkSent.pkt ++ x.tq)
/-- A port leaves UP for state `st` with a cause (R353, R355, R362). -/
def Dev.leaveUp (p : Part) (d : Dev) (f cause st : Nat) : Dev :=
  ((d.setF p (portR f 8) 4 4 cause).portDrop p f st).leaveFault p f cause
/-- The rings of a port that failed or are parked sweep again as it begins to lock (R333, R359). -/
def Dev.sweepPort (d : Dev) (f : Nat) : Dev :=
  { d with rings := d.rings.map fun e =>
      if 400000 + 32 * f ≤ e.1 ∧ e.1 < 400000 + 32 * (f + 1) ∧ (e.2.ph = .fail ∨ e.2.ph = .park) then (e.1, { e.2 with ph := .sweep }) else e }
/-- The port begins to lock (R359). -/
def Dev.portLock (p : Part) (d : Dev) (f : Nat) : Dev :=
  ((d.setPortSt p f 3).sweepPort f).modPort f fun x => { x with sentAck := false, gotAck := false }

/-- One evaluation of the rows of R359 that hold by level: LISTED and DISABLE, the lantern, the boot step. `cause` is
why an UP port would leave. -/
def Dev.portRow (p : Part) (d : Dev) (f cause : Nat) : Dev :=
  let st := d.portSt p f
  if !d.listed p f || d.portDisabled p f then
    if st = 1 then d
    else
      let d := if st = 6 then d.leaveUp p f cause 1 else d.setPortSt p f 1
      let d := if leaves st then d.sendLeave p f 2 else d
      d.modPort f fun x => { x with lit := false }
  else if st ≠ 0 ∧ st ≠ 1 ∧ st ≠ 2 ∧ !d.portLit p f then
    (if st = 6 then d.leaveUp p f 8 2 else d.setPortSt p f 2)
  else if st = 0 then (if d.bootReached p 8 && d.stopStep == 0 then d.setPortSt p f 2 else d)
  else if st = 1 then d.setPortSt p f 2
  else if st = 2 ∧ d.portLit p f then (d.setB p (portR f 0x18) 36 false).portLock p f
  else d
/-- The rows by level until none of them holds: at most OFF or DISABLED, DARK, LOCK. -/
def Dev.portEval (p : Part) (d : Dev) (f cause : Nat) : Dev := ((d.portRow p f cause).portRow p f cause).portRow p f cause
/-- Evaluate a list of ports. -/
def Dev.portsEval (p : Part) (d : Dev) (fs : List Nat) (cause : Nat) : Dev := fs.foldl (fun d f => d.portEval p f cause) d

/-! ### Lanterns (R336, R339, R340) -/

/-- STATE and, where one is given, CAUSE of lantern g. -/
def Dev.setLtn (p : Part) (d : Dev) (g st : Nat) (cause : Option Nat := none) : Dev :=
  let a := ltnR g 0x408
  let d := (d.setF p a 0 3 st).setF p a 32 32 (lowT d.now)
  match cause with | some c => d.setF p a 4 4 c | none => d
/-- The ports of lantern g. -/
def ltnPorts (g : Nat) : List Nat := [4 * g, 4 * g + 1, 4 * g + 2, 4 * g + 3]
/-- Lantern g has left LIT: its loss is counted and raised, its ports go to DARK, its lattice trunks lose their light, and
where its output ends its banks lose their input (R340). -/
def Dev.ltnLost (p : Part) (d : Dev) (g cause : Nat) (dark : Bool) : Dev :=
  let d1 := (d.count p (ltnR g 0x418) 1).fault p 31 (4 * g) 2 0x0601 (BitVec.ofNat 64 g) (BitVec.ofNat 64 cause)
  let d2 := (d1.portsEval p (ltnPorts g) 8).trunksDark p
  if dark then ((List.range 32).filter fun b => bankLantern b == g).foldl (fun d b => d.bankDark p b) d2 else d2
/-- PRESENT to WARM (R339). -/
def Dev.ltnWarm (p : Part) (d : Dev) (g : Nat) : Dev :=
  if d.stopStep = 0 ∧ d.ltnSt p g = 1 ∧ smGet false d.ltnId g ∧ d.bit p (ltnR g 0x400) 0 ∧ d.bootReached p 7 then d.setLtn p g 2 else d
/-- Lantern g enters FAULT. -/
def Dev.ltnFail (p : Part) (d : Dev) (g cause : Nat) (dark : Bool) : Dev :=
  let lit := d.ltnSt p g == 3
  let d1 : Dev := { d.setLtn p g 4 (some cause) with ltnOff := smSet false d.ltnOff g false }
  if lit then d1.ltnLost p g cause dark else d1.fault p 31 (4 * g) 2 0x0601 (BitVec.ofNat 64 g) (BitVec.ofNat 64 cause)
/-- LANTERN_INSERTED: the module pulls the presence contact low. The base takes the level it finds at its next poll (R336,
R575). -/
def execLanternInserted (g : BitVec 4) (s : State) : Out := s.upd fun _ _ d => { d with ltnPres := smSet false d.ltnPres g.toNat true }
/-- LANTERN_REMOVED: the presence contact rises; the next poll takes it up. -/
def execLanternRemoved (g : BitVec 4) (s : State) : Out := s.upd fun _ _ d => { d with ltnPres := smSet false d.ltnPres g.toNat false }
/-- The presence signal of lantern g is found asserted: ABSENT to PRESENT (R339). -/
def Dev.ltnCame (p : Part) (d : Dev) (g : Nat) : Dev :=
  if d.ltnSt p g = 0 then { d.setLtn p g 1 with ltnId := smSet false d.ltnId g false } else d
/-- The presence signal of lantern g is found lost: ABSENT, and R340 where it was LIT (R339). -/
def Dev.ltnGone (p : Part) (d : Dev) (g : Nat) : Dev :=
  let st := d.ltnSt p g
  if st = 0 then d
  else
    let d1 : Dev := { d.setLtn p g 0 (some 1) with ltnId := smSet false d.ltnId g false, ltnOff := smSet false d.ltnOff g false }
    if st = 3 then d1.ltnLost p g 1 true else d1
/-- Does the base run, so that it polls: it has power, is not held in reset, and boot has come to its power-up (R478, R501)? -/
def Dev.baseUp (p : Part) (d : Dev) : Bool := !d.dead && decide (d.stopStep < 8) && d.bootReached p 3
/-- LANTERN_POLL: the presence level is taken, and readings are stored; low power or a laser alarm ends LIT (R336, R339, R575).
DEDUCED, log entry 46. -/
def execLanternPoll (g : BitVec 4) (avg min : BitVec 16) (minLine : BitVec 6) (temp : BitVec 16) (alarm : Bool) (s : State) : Out :=
  s.upd fun p _ d0 =>
    let n := g.toNat
    if !d0.baseUp p then d0
    else if !smGet false d0.ltnPres n then d0.ltnGone p n
    else
      let d := d0.ltnCame p n
      let d1 := (d.put p (ltnR n 0x410) (BitVec.ofNat 64 (avg.toNat + min.toNat * 2 ^ 16 + minLine.toNat * 2 ^ 32))).setF p (ltnR n 0x408) 8 16 temp.toNat
      if d1.ltnSt p n ≠ 3 then d1
      else if avg.toInt < 600 ∨ min.toInt < 300 then d1.ltnFail p n 4 false
      else if alarm then d1.ltnFail p n 5 true
      else d1
/-- IDENTITY_READ: a module in PRESENT is read; then it may warm (R339). -/
def execIdentityRead (g : BitVec 4) (ok : Bool) (s : State) : Out :=
  s.upd fun p _ d =>
    let n := g.toNat
    if d.ltnSt p n ≠ 1 ∨ smGet false d.ltnId n then d
    else if ok then Dev.ltnWarm p { d with ltnId := smSet false d.ltnId n true } n
    else d.ltnFail p n 2 false
/-- LANTERN_WARM_CHECK: the 64 lines of a warm lantern are checked; they must be found within 60,000,000 ticks of enable (R337,
R339). -/
def execLanternWarmCheck (g : BitVec 4) (ok : Bool) (s : State) : Out :=
  s.upd fun p _ d =>
    let n := g.toNat
    let warm := (lowT d.now + 2 ^ 32 - d.fld p (ltnR n 0x408) 32 32) % 2 ^ 32
    if d.ltnSt p n ≠ 2 then d
    else if ok && decide (warm ≤ 60000000) then (d.setLtn p n 3).portsEval p (ltnPorts n) 8
    else d.ltnFail p n 3 false
/-- What a write of LTN.CTRL.EN does (R339). -/
def Dev.ltnEnabled (p : Part) (d : Dev) (g : Nat) (en : Bool) : Dev :=
  let st := d.ltnSt p g
  if en then
    if st = 4 ∧ smGet false d.ltnOff g then
      { d.setLtn p g 1 with ltnId := smSet false d.ltnId g false, ltnOff := smSet false d.ltnOff g false }
    else d.ltnWarm p g
  else if st = 4 then { d with ltnOff := smSet false d.ltnOff g true }
  else if st = 1 then d
  else if st = 2 then d.setLtn p g 1
  else if st = 3 then (d.setLtn p g 1).ltnLost p g 0 true
  else d
/-- A write of LTN.CTRL. -/
def Dev.writeLtnCtrl (p : Part) (d : Dev) (g : Nat) (v : W64) (lower upper : Bool) : Dev :=
  let d1 := d.regStore p (ltnR g 0x400) v lower upper
  if lower then d1.ltnEnabled p g (d1.bit p (ltnR g 0x400) 0) else d1
/-- LTN_EN. -/
def execLtnEn (g : BitVec 4) (en : Bool) (s : State) : Out :=
  s.upd fun p _ d => d.writeLtnCtrl p g.toNat (if en then 1 else 0) true true

/-! ### Link blocks and delivery (R344 to R352) -/

/-- Lane register of port f. -/
def portLane (f w : Nat) : Nat := portR f (0x100 + 8 * w)
/-- A port in DISABLED receives light: a Notice once per entry (R359). -/
def Dev.portLight (p : Part) (d : Dev) (f : Nat) : Dev :=
  if d.portSt p f = 1 ∧ !(d.port f).lit then (d.modPort f fun x => { x with lit := true }).portFault p f 0 0x0607 else d
/-- Corrected symbol errors of lane w in the last 1 ms (R358). -/
def Dev.symRecent (d : Dev) (f w : Nat) : List W64 := (smGet [] (d.port f).symT w).filter fun t => decide (elapsed d.now t < 1200000)
/-- One corrected symbol error on lane w. -/
def Dev.symErr (p : Part) (d : Dev) (f w : Nat) : Dev :=
  let log := d.symRecent f w ++ [d.now]
  (d.setF p (portLane f w) 48 16 (min 0xFFFF (d.fld p (portLane f w) 48 16 + 1))).modPort f fun x => { x with symT := smSet [] x.symT w log }
/-- Good receive lanes, in ascending order. -/
def Dev.goodLanes (p : Part) (d : Dev) (f : Nat) : List Nat := (List.range 16).filter fun w => d.bit p (portLane f w) 40
/-- The ACK, NAK and STOP bits of a block reach the sender side (R345, R349, R351). -/
def Dev.takeLinkAck (p : Part) (d : Dev) (f : Nat) (c : BitVec 20) : Dev :=
  let d := d.setF p (portR f 0x28) 16 4 (blockStop c).toNat
  if !blockAckv c then d
  else
    let r := (d.port f).replay
    let d1 := if r.any fun z => z.pkt.lseq == blockAseq c then
        let rest := (r.dropWhile fun z => z.pkt.lseq != blockAseq c).drop 1
        ((d.modPort f fun x => { x with replay := rest }).setF p (portR f 0x28) 0 11 rest.length).setF p (portR f 0x28) 48 12 (blockAseq c).toNat
      else d
    if blockNak c then (d1.count p (portR f 0x230) 1).modPort f fun x => { x with nakIn := !x.replay.isEmpty } else d1
/-- The data bytes of a DATA block are read: one of KIND 0b10 begins with a packet head, and ends the discarding after a loss where
that is the expected packet's; every header that has become whole is kept, until its packet is delivered (R345, R346, R348,
R352, R378). -/
def Dev.takeHead (d : Dev) (f : Nat) (b : LinkBlock) : Dev :=
  let x := d.port f
  let kind := blockKind b.ctrl
  let pos := if kind = 2 then some ([], 0) else if kind = 1 then x.inPos else none
  match pos with
  | none => d
  | some (part, rest) =>
    let z := readHeads 40 part rest b.data
    let resync := x.resync && !(kind == 2 && headLseq b.data == some x.expect)
    let heads := z.1.filterMap fun h => (headLseq h).map fun l => (l, h.drop 8)
    d.setPort f { x with resync := resync, inPos := some z.2, head := if resync then [] else x.head ++ heads }
/-- LINK_BLOCK: a block with up to 15 symbol errors is corrected, one with more is discarded with all it holds; in UP its
control bits act, and a block is sent in turn (R344, R345, R348 to R351). DEDUCED, log entry 91. -/
def execLinkBlock (f : BitVec 6) (b : LinkBlock) (s : State) : Out :=
  s.upd fun p _ d =>
    let n := f.toNat
    let st := d.portSt p n
    let errs := symbolErrs b
    if b.data.length ≠ 640 then d
    else if st = 1 then d.portLight p n
    else if !leaves st then d
    else if 15 < errs.length then
      let d1 := d.count p (portR n 0x218) 1
      if st = 6 then ((d1.loseRx p n).modPort n fun x => { x with inPos := none }).sendBlock p n none else d1
    else
      let d1 := d.modPort n fun x => { x with blockT := d.now }
      let lanes := errs.map (symbolLane (d.bit p (portR n 8) 13) (d.goodLanes p n))
      let d2 := if errs.isEmpty then d1 else lanes.foldl (fun d w => d.symErr p n w) (d1.count p (portR n 0x210) 1)
      if st = 6 then ((d2.takeLinkAck p n b.ctrl).takeHead n b).sendBlock p n none else d2
/-- FABRIC_PACKET: in UP, the packet of the expected LSEQ is delivered; one whose bytes fail its CRC is lost, as is one that
does not come, and those after it are discarded until a block begins with it again; one already delivered is discarded and
acknowledged again (R346, R348, R352). -/
def execFabricPacket (f : BitVec 6) (x : FabPkt) (got : List Byte) (s : State) : Out :=
  s.upd fun p _ d =>
    let n := f.toNat
    let y := d.port n
    if !d.portUp p n then d
    else if !fabGood x got then (d.count p (portR n 0x220) 1).loseRx p n
    else if y.resync then d
    else if x.lseq = y.expect then
      let z := { y with expect := y.expect + 1, nak := false, ackv := true, head := y.head.filter (fun h => h.1 != x.lseq), cut := none, rx := if y.cut.isSome then y.rx else y.rx ++ [x] }
      ((d.setPort n z).count p (portR n 0x208) 1).refreshStop p n
    else if (x.lseq - y.expect).toNat < 2048 then d.loseRx p n
    else d
/-- ABORT: the named copy is discarded and its LSEQ acknowledged (R352). -/
def execAbort (f : BitVec 6) (block : List Byte) (s : State) : Out :=
  s.upd fun p _ d =>
    let n := f.toNat
    match ctrlMsgOf block with
    | some (.abort lseq) =>
      if !d.portUp p n then d
      else
        let d1 := d.count p (portR n 0x240) 1
        if (d1.port n).expect = lseq then
          (d1.loseCopy p n).modPort n fun y => { y with expect := lseq + 1, nak := false, ackv := true, resync := false, head := [] }
        else d1
    | _ => d
/-- PORT_RETRANSMIT: after a NAK, or 600 ns from the oldest packet's last launch, every packet is sent again, the first at the
head of a block; of an aborted one the ABORT is, and counts (R349, R352, R364). -/
def execPortRetransmit (f : BitVec 6) (nak : Bool) (s : State) : Out :=
  s.upd fun p _ d =>
    let n := f.toNat
    let x := d.port n
    let due := if nak then x.nakIn else match x.replay with | z :: _ => decide (720 ≤ elapsed d.now z.last) | [] => false
    if !d.portUp p n || !due then d
    else
      let again := x.replay.map fun z => { z with pkt := { z.pkt with rpl := true }, last := d.now }
      let copies := (again.filter fun z => !z.aborted).length
      let d1 := d.setPort n { x with replay := again, nakIn := false, out := [], outPart := false }
      let d2 := ((d1.count p (portR n 0x200) copies).count p (portR n 0x228) copies).count p (portR n 0x240) (again.length - copies)
      (again.foldl (fun d z => if z.aborted then d.sendPort p n (.abort z.pkt.lseq) else d.sendFab p n z.pkt) d2).sendBlock p n none
/-- ACK_DEADLINE: the oldest packet has gone 1.5 us from its first launch (R350). -/
def execAckDeadline (f : BitVec 6) (s : State) : Out :=
  s.upd fun p _ d =>
    let n := f.toNat
    match (d.port n).replay with
    | z :: _ => if d.portUp p n && decide (1800 ≤ elapsed d.now z.first) then d.leaveUp p n 1 11 else d
    | [] => d
/-- BLOCK_LOSS: no correctable block for 64 block times (R350, R359). -/
def execBlockLoss (f : BitVec 6) (s : State) : Out :=
  s.upd fun p _ d =>
    let n := f.toNat
    let st := d.portSt p n
    if elapsed d.now (d.port n).blockT < 384 then d
    else if st = 6 then d.leaveUp p n 2 11
    else if st = 5 ∨ st = 7 ∨ st = 8 then d.setPortSt p n 11
    else d
/-- LEAVE: the partner leaves; where this end's own LEAVE for RETRAIN is still going out, both go DOWN with cause 3 (R354,
R359, R363). -/
def execLeave (f : BitVec 6) (block : List Byte) (s : State) : Out :=
  s.upd fun p _ d =>
    let n := f.toNat
    let st := d.portSt p n
    match ctrlMsgOf block with
    | some (.leave _) =>
      if st = 6 then d.leaveUp p n 3 11
      else if st = 5 ∨ st = 7 ∨ st = 8 then d.setPortSt p n 11
      else if st = 3 then
        (match (d.port n).leftT with
        | some (t, up) =>
          if 24 < elapsed d.now t then d
          else
            let d1 := (d.setPortSt p n 11).modPort n fun x => { x with leftT := none }
            if up then d1.setF p (portR n 8) 4 4 3 else d1
        | none => d)
      else d
    | _ => d

/-! ### Training, identity and width (R347, R356 to R361) -/

/-- Receive good-lane mask of port f. -/
def Dev.goodMask (p : Part) (d : Dev) (f : Nat) : Nat :=
  ((List.range 16).map fun w => if d.bit p (portLane f w) 40 then 2 ^ w else 0).sum
/-- Write the receive good-lane mask. -/
def Dev.setGood (p : Part) (d : Dev) (f : Nat) (m : BitVec 16) : Dev :=
  (List.range 16).foldl (fun d w => d.setB p (portLane f w) 40 (m.getLsbD w)) d
/-- Number of lanes of a mask. -/
def laneCount (m : BitVec 16) : Nat := ((List.range 16).filter m.getLsbD).length
/-- Highest version this port announces (R357, R484). -/
def Dev.ownVmax (p : Part) (d : Dev) (f : Nat) : Nat := min (d.fld p (portR f 0) 4 4) (if p.baseGB && d.bit p (idR 20 0x118) 0 then 2 else 1)
/-- This package's route card identifier, as FW.RCID shows it: that of the card in K0's store, 0 for none (R544, R552). -/
def Dev.ownRcid (_ : Part) (d : Dev) : Nat := match d.nv.card with | some c => leNat (c.take 4) | none => 0
/-- What port f announces (R347). -/
def Dev.identOf (p : Part) (d : Dev) (f : Nat) : Ident :=
  { node := d.node, port := BitVec.ofNat 6 f, vmin := 1, vmax := BitVec.ofNat 4 (d.ownVmax p f)
    brev := if p.baseGB then 1 else 0, good := BitVec.ofNat 16 (d.goodMask p f), rcid := BitVec.ofNat 32 (d.ownRcid p) }
/-- The agreed version with a partner's range, if one is common (R357). -/
def Dev.agreed (p : Part) (d : Dev) (f vmin vmax : Nat) : Option Nat :=
  let v := min (d.ownVmax p f) vmax
  if v < 1 ∨ v < vmin then none else some v
/-- Outcomes of R356. -/
inductive IdentRow where
  | incompat | match' | mismatch | unlisted
  deriving DecidableEq, Repr
/-- The rows of R356 for a partner's node, port and versions. DEDUCED, log entry 44. -/
def Dev.compare (p : Part) (d : Dev) (f node port vmin vmax : Nat) : IdentRow :=
  let e := portR f 0x10
  if (d.agreed p f vmin vmax).isNone then .incompat
  else if d.listed p f && d.fld p e 0 16 == node && d.fld p e 16 6 == port then .match'
  else if node = d.node.toNat ∨ (List.range 64).any (fun g => d.listed p g && d.fld p (portR g 0x10) 0 16 == node) then .mismatch
  else .unlisted
/-- Enter MISMATCH, UNLISTED or INCOMPAT, with the fault that is raised once until the port is next UP (R362). -/
def Dev.identFail (p : Part) (d : Dev) (f st : Nat) : Dev :=
  let again := d.portSt p f == st
  let d1 := (if again then d else d.setPortSt p f st).modPort f fun x =>
    { x with sentAck := false, gotAck := false, refreshT := if again then x.refreshT else d.now }
  if (d.port f).faulted then d1 else (d1.modPort f fun x => { x with faulted := true }).portFault p f 2 0x0602 st
/-- The port enters UP (R348, R356, R362). -/
def Dev.enterUp (p : Part) (d : Dev) (f : Nat) : Dev :=
  let d1 := (d.setPortSt p f 6).put p (portR f 0x28) 0
  let d2 := d1.modPort f fun x =>
    { x with expect := 0, nak := false, nakIn := false, resync := false, ackv := false, head := [], cut := none, inPos := none, out := [], outPart := false, leftT := none, replay := [], passed := [], faulted := false, noPeer := false
             refreshT := d.now, blockT := d.now }
  let d3 := d2.refreshStop p f
  if d3.bit p (portR f 8) 12 || d3.bit p (portR f 8) 13 then d3.portFault p f 2 0x0606 else d3
/-- Apply an outcome of the comparison in IDENT, MISMATCH or UNLISTED (R356, R359); half width needs version 2
(R358). -/
def Dev.applyIdent (p : Part) (d : Dev) (f node port vmin vmax : Nat) : Dev :=
  let d := match d.agreed p f vmin vmax with | some v => d.setF p (portR f 8) 8 4 v | none => d
  match d.compare p f node port vmin vmax with
  | .incompat => d.identFail p f 9
  | .mismatch => d.identFail p f 7
  | .unlisted => d.identFail p f 8
  | .match' =>
    if d.fld p (portR f 8) 8 4 = 1 ∧ (d.bit p (portR f 8) 12 ∨ d.bit p (portR f 8) 13) then d.setPortSt p f 11
    else
      let d1 := if (d.port f).sentAck then d
        else (d.sendPort p f (.identAck (d.identOf p f))).modPort f fun x => { x with sentAck := true, ackT := d.now, refreshT := d.now }
      if (d1.port f).gotAck then d1.enterUp p f else d1
/-- PEER and PEER_RC take the contents of an IDENT; a route card identifier that differs is noted (R356, R364). -/
def Dev.recordPeer (p : Part) (d : Dev) (f : Nat) (i : Ident) : Dev :=
  let w : Nat := i.node.toNat + i.port.toNat * 2 ^ 16 + i.vmin.toNat * 2 ^ 24 + i.vmax.toNat * 2 ^ 28
    + i.brev.toNat % 16 * 2 ^ 32 + 2 ^ 36 + i.good.toNat * 2 ^ 40
  let old := d.get p (portR f 0x20)
  let diff := i.rcid.toNat != d.ownRcid p
  let new : W64 := BitVec.ofNat 64 (i.rcid.toNat + if diff then 2 ^ 32 else 0)
  let d1 := (d.put p (portR f 0x18) (BitVec.ofNat 64 w)).put p (portR f 0x20) new
  if diff && old != new then d1.portFault p f 0 0x0607 i.rcid.toNat else d1
/-- An IDENT or IDENT_ACK is received (R356, R359, R363). -/
def Dev.takeIdent (p : Part) (d : Dev) (f : Nat) (i : Ident) (ack : Bool) : Dev :=
  let st := d.portSt p f
  let go (d : Dev) : Dev :=
    (d.modPort f fun x => { x with gotAck := x.gotAck || ack }).applyIdent p f i.node.toNat i.port.toNat i.vmin.toNat i.vmax.toNat
  if !leaves st then d
  else
    let node := d.peerNode p f
    let port := d.fld p (portR f 0x18) 16 6
    let d1 := d.recordPeer p f i
    if st = 9 then d1
    else if st = 6 then
      if node = i.node.toNat ∧ port = i.port.toNat ∧ d1.agreed p f i.vmin.toNat i.vmax.toNat = some (d1.fld p (portR f 8) 8 4) then d1
      else go (d1.leaveUp p f 5 5)
    else go d1
/-- TRAIN: in ALIGN, the partner's receive good-lane mask (R347). -/
def execTrain (f : BitVec 6) (block : List Byte) (s : State) : Out :=
  s.upd fun p _ d => match ctrlMsgOf block with
    | some (.train good) => if d.portSt p f.toNat = 4 then (d.setF p (portR f.toNat 0x18) 40 16 good.toNat).modPort f.toNat fun x => { x with trained := true } else d
    | _ => d
/-- IDENT. -/
def execIdent (f : BitVec 6) (block : List Byte) (s : State) : Out :=
  s.upd fun p _ d => match ctrlMsgOf block with | some (.ident i) => d.takeIdent p f.toNat i false | _ => d
/-- IDENT_ACK. -/
def execIdentAck (f : BitVec 6) (block : List Byte) (s : State) : Out :=
  s.upd fun p _ d => match ctrlMsgOf block with | some (.identAck i) => d.takeIdent p f.toNat i true | _ => d
/-- PORT_RINGS_TRACK: transmit and receive rings track, and the partner's line quarter is known (R333, R359). -/
def execPortRingsTrack (f : BitVec 6) (rxq : BitVec 2) (s : State) : Out :=
  s.upd fun p _ d =>
    let n := f.toNat
    if d.portSt p n = 3 ∧ (d.offTrack (400000 + 32 * n) (400000 + 32 * (n + 1))).isEmpty then
      let d1 := ((d.setPortSt p n 4).setF p (portR n 8) 16 2 rxq.toNat).modPort n fun x => { x with trained := false }
      let d2 := (List.range 16).foldl (fun d w => d.setF p (portLane n w) 32 6 (16 * rxq.toNat + w)) d1
      d2.sendPort p n (.train (BitVec.ofNat 16 (d2.goodMask p n)))
    else d
/-- Is a receive lane good, with its power in 0.01 dBm: -9 dBm or above, and fewer than 1,024 corrected symbol errors in the last
1 ms (R358)? -/
def Dev.laneGood (d : Dev) (f lane : Nat) (rx : BitVec 16) : Bool := decide (-900 ≤ rx.toInt) && decide ((d.symRecent f lane).length < 1024)
/-- The receive lanes that are good: those the codeword locked on, by the power each was measured with last (R358). -/
def Dev.lockGood (p : Part) (d : Dev) (f : Nat) (locked : BitVec 16) : BitVec 16 :=
  BitVec.ofNat 16 ((List.range 16).map fun w =>
    if locked.getLsbD w && d.laneGood f w (BitVec.ofNat 16 (d.fld p (portLane f w) 16 16)) then 2 ^ w else 0).sum
/-- CODEWORD_LOCK: with the lanes aligned and the partner's TRAIN received, widths are chosen from the good lanes of both
receivers, the partner's as its TRAIN named them, and IDENT is sent (R347, R358, R359). -/
def execCodewordLock (f : BitVec 6) (locked : BitVec 16) (deskewed : Bool) (s : State) : Out :=
  s.upd fun p _ d =>
    let n := f.toNat
    if d.portSt p n ≠ 4 ∨ !deskewed ∨ !(d.port n).trained then d
    else
      let rxGood := d.lockGood p n locked
      let txGood : BitVec 16 := BitVec.ofNat 16 (d.fld p (portR n 0x18) 40 16)
      let d1 := d.setGood p n rxGood
      let ver := d1.fld p (portR n 8) 8 4
      let v := if ver = 0 then d1.ownVmax p n else ver
      let low := min (laneCount rxGood) (laneCount txGood)
      if low < 8 ∨ (low < 16 ∧ v < 2) then d1.setPortSt p n 11
      else
        let d2 := ((d1.setPortSt p n 5).setB p (portR n 8) 12 (laneCount txGood != 16)).setB p (portR n 8) 13 (laneCount rxGood != 16)
        (d2.modPort n fun x => { x with blockT := d.now, sentAck := false, gotAck := false }).sendPort p n (.ident (d2.identOf p n))
/-- LANE_NOT_GOOD: a lane's powers are measured; when it stops being good an UP port leaves with cause 4 and retrains at once
(R358, R364). -/
def execLaneNotGood (f : BitVec 6) (x : LaneSeen) (s : State) : Out :=
  s.upd fun p _ d =>
    let n := f.toNat
    let a := portLane n x.lane.toNat
    let good := d.laneGood n x.lane.toNat x.rx
    let was := d.bit p a 40
    let d1 := ((d.setF p a 0 16 x.tx.toNat).setF p a 16 16 x.rx.toNat).setB p a 40 good
    if d1.portUp p n && was && !good then (d1.leaveUp p n 4 11).portLock p n else d1
/-- PORT_STATE_TIMEOUT: 10 ms in LOCK, ALIGN, DOWN or NOPEER (R359, R362). -/
def execPortStateTimeout (f : BitVec 6) (s : State) : Out :=
  s.upd fun p _ d =>
    let n := f.toNat
    let st := d.portSt p n
    if elapsed d.now (d.port n).since < 12000000 then d
    else if st = 3 ∨ st = 4 then
      let d1 := d.setPortSt p n 10
      if (d.port n).noPeer || !d.listed p n then d1 else (d1.modPort n fun x => { x with noPeer := true }).portFault p n 2 0x0603
    else if st = 10 ∨ st = 11 then d.portLock p n
    else d
/-- IDENT_ACK_TIMEOUT: 10 ms from sending IDENT_ACK without receiving one (R356). -/
def execIdentAckTimeout (f : BitVec 6) (s : State) : Out :=
  s.upd fun p _ d =>
    let n := f.toNat
    let st := d.portSt p n
    let x := d.port n
    if (st = 5 ∨ st = 7 ∨ st = 8) ∧ x.sentAck ∧ !x.gotAck ∧ 12000000 ≤ elapsed d.now x.ackT then d.identFail p n 7 else d
/-- IDENT_REFRESH: every millisecond in UP, MISMATCH and UNLISTED (R360). -/
def execIdentRefresh (f : BitVec 6) (s : State) : Out :=
  s.upd fun p _ d =>
    let n := f.toNat
    let st := d.portSt p n
    let x := d.port n
    if (st = 6 ∨ st = 7 ∨ st = 8) ∧ 1200000 ≤ elapsed d.now x.refreshT then
      (d.modPort n fun y => { y with refreshT := d.now }).sendPort p n
        (if st = 6 ∨ x.sentAck then .identAck (d.identOf p n) else .ident (d.identOf p n))
    else d

/-! ### Control (R342, R353, R354, R359) -/

/-- CTRL.RETRAIN: leave and retrain (R354, R359). -/
def Dev.portRetrain (p : Part) (d : Dev) (f : Nat) : Dev :=
  let st := d.portSt p f
  if leaves st then
    let d1 := if st = 6 then d.leaveUp p f 7 11 else d
    ((d1.sendLeave p f 3).portLock p f).modPort f fun x => { x with leftT := some (d.now, st == 6) }
  else d
/-- A write of PORT.CTRL (R357, R359, R364). -/
def Dev.writePortCtrl (p : Part) (d : Dev) (f : Nat) (v : W64) (lower upper : Bool) : Dev :=
  let d1 := d.regStore p (portR f 0) v lower upper
  if !lower then d1
  else
    let d2 := d1.portEval p f 7
    if v.getLsbD 1 then d2.portRetrain p f else if d2.portSt p f = 9 then d2.portLock p f else d2
/-- PORT_DISABLE: DISABLE is written; `light` says whether the port receives light. -/
def execPortDisable (f : BitVec 6) (disable light : Bool) (s : State) : Out :=
  s.upd fun p _ d =>
    let n := f.toNat
    let d1 := (d.setB p (portR n 0) 0 disable).portEval p n 7
    if light then d1.portLight p n else d1
/-- PORT_RETRAIN. -/
def execPortRetrain (f : BitVec 6) (s : State) : Out := s.upd fun p _ d => d.portRetrain p f.toNat
/-- A byte of a run, zero past its end. -/
def byteAt (bs : List Byte) (i : Nat) : Byte := bs.getD i 0
/-- Entry of port f in a route card (R544). -/
def cardEntry (c : CardBytes) (f : Nat) : Nat := leNat ((c.drop (16 + 4 * f)).take 4)
def entryListed (e : Nat) : Bool := e / 2 ^ 24 % 2 == 1
def entryNode (e : Nat) : Nat := e % 2 ^ 16
/-- A group of a card whose listed ports name more than one node (R342). -/
def cardBadGroup (c : CardBytes) : Option Nat :=
  (List.range 16).find? fun g =>
    (ltnPorts g).any fun a => (ltnPorts g).any fun b =>
      entryListed (cardEntry c a) && entryListed (cardEntry c b) && entryNode (cardEntry c a) != entryNode (cardEntry c b)
/-- A port re-applies its comparison to the identity it holds (R342, R363). -/
def Dev.reCompare (p : Part) (d : Dev) (f : Nat) : Dev :=
  let st := d.portSt p f
  let w := d.get p (portR f 0x18)
  let node := bits w 0 16
  let port := bits w 16 6
  let vmin := bits w 24 4
  let vmax := bits w 28 4
  if !w.getLsbD 36 then d
  else if st = 6 then (if d.compare p f node port vmin vmax = .match' then d else d.leaveUp p f 6 11)
  else if st = 5 ∨ st = 7 ∨ st = 8 then d.applyIdent p f node port vmin vmax
  else d
/-- A port compares the card identifier its partner gave with its own: one that has come to differ is recorded and raises a Notice
(R356, R362). -/
def Dev.noteRcid (p : Part) (d : Dev) (f id : Nat) : Dev :=
  let a := portR f 0x20
  let diff := d.fld p a 0 32 != id
  if !d.bit p (portR f 0x18) 36 then d
  else
    let d1 := d.setB p a 32 diff
    if diff && !d.bit p a 32 then d1.portFault p f 0 0x0607 (d.fld p a 0 32) else d1
/-- The base installs a route card: refused with a Notice where one group names two nodes, and otherwise copied to every
EXPECT, after which every port compares again (R342). Answers whether it was accepted. -/
def Dev.installCard (p : Part) (d : Dev) (c : CardBytes) : Dev × Bool :=
  match cardBadGroup c with
  | some g => (d.fault p 31 (4 * g) 0 0x0607 (BitVec.ofNat 64 (4 * g)) (BitVec.ofNat 64 (leNat (c.take 4))), false)
  | none =>
    let d1 := (List.range 64).foldl (fun d f => d.put p (portR f 0x10) (BitVec.ofNat 64 (cardEntry c f % 2 ^ 22 + cardEntry c f / 2 ^ 24 % 2 * 2 ^ 24))) d
    let id := leNat (c.take 4)
    ((List.range 64).foldl (fun d f =>
      ((d.noteRcid p f id).portEval p f 6).reCompare p f) d1, true)

/-- FALL_BACK: an endpoint with no usable plane; the ports of a shelf endpoint go down (R293, R296). -/
def execFallBack (e : Fin 25) (s : State) : Out :=
  s.upd fun p _ d =>
    match d.mustFall p e.val with
    | none => d
    | some crossed =>
      let d1 := d.fallBack p e.val crossed
      if e.val < 23 then d1
      else ((List.range 32).map fun k => 32 * (e.val - 23) + k).foldl (fun d f =>
        let st := d.portSt p f
        if st = 0 ∨ st = 1 ∨ st = 2 then d else if st = 6 then d.portDrop p f 11 else d.setPortSt p f 11) d1

end Sys2Proof.Machine
end

