-- ==== Sys2Proof/Machine/Rings.lean ====
section
/-! DEFINITION. The lock machine of the rings of banks, lattice and ports (R252 to R255, R267). -/

namespace Sys2Proof.Machine

/-- A bank ring leaves TRACK for `ph`: NTRACK falls and LOCK records ring, cause and count (R254, R261). What its identity
checks have found stays on record. -/
def Dev.bankRingOut (p : Part) (d : Dev) (b r cause : Nat) (ph : RingPh) (found : Option (Nat × W64 × W64)) : Dev :=
  let a := pwbR b 0x50
  let d1 := (d.setF p a 0 13 (d.fld p a 0 13 - 1)).setF p a 16 13 r
  let d2 := ((d1.setF p a 29 2 cause).setF p a 32 32 (lowT d.now)).setRing (bankRing b r) { d.ring (bankRing b r) with ph := ph, found := found }
  if d2.bankState p b = 3 then d2.setBankState p b 4 else d2
/-- A bank ring is back in TRACK. -/
def Dev.bankRingIn (p : Part) (d : Dev) (b r : Nat) : Dev :=
  let a := pwbR b 0x50
  (d.setF p a 0 13 (d.fld p a 0 13 + 1)).setRing (bankRing b r) { d.ring (bankRing b r) with ph := .track, found := none }
/-- A relock sweep begins on a ring found wrong: CNT_MISLOCK and CNT_RELOCK (R254, R261). -/
def Dev.bankSweep (p : Part) (d : Dev) (b : Nat) : Dev := (d.count p (pwbR b 0x120) 1).count p (pwbR b 0x128) 1
/-- Are the loops of this bank on: it is not parked (R238, R253, R258)? -/
def Dev.bankLocks (p : Part) (d : Dev) (b : Nat) : Bool := d.bankShown p b != 0
/-- The suspect range of a channel: tiles from `lo` to the last before the stall; a range held is widened (R255).
DEDUCED, log entry 39. -/
def Dev.suspect (p : Part) (d : Dev) (b ch : Nat) (lo hi : BitVec 16) : Dev :=
  let a := chR b ch 0x28
  let w := d.get p a
  let last := hi - 1
  if lo = hi then d
  else if w.getLsbD 32 then
    let old := BitVec.ofNat 16 (bits w 0 16)
    let top := BitVec.ofNat 16 (bits w 16 16)
    let f := if (lo - old).toNat < 32768 then old else lo
    let t := if (last - top).toNat < 32768 then last else top
    d.put p a (BitVec.ofNat 64 (f.toNat + t.toNat * 2 ^ 16 + 2 ^ 32))
  else d.put p a (BitVec.ofNat 64 (lo.toNat + last.toNat * 2 ^ 16 + 2 ^ 32))
/-- Suspect ranges of every channel since `from'`. -/
def Dev.suspects (p : Part) (d : Dev) (b : Nat) (from' : List (BitVec 16)) : Dev :=
  (List.range 8).foldl (fun d ch => d.suspect p b ch (from'.getD ch (d.chNext p b ch)) (d.chNext p b ch)) d
/-- Index of a lattice or port ring, and the plane of an endpoint that a lattice ring belongs to. -/
def ringIx : Ring → Nat
  | .bank b r => bankRing b.toNat r.val
  | .lattice e plane t k => latRing e.val plane t.toNat k.toNat
  | .port f k => 400000 + 32 * f.toNat + k.toNat
/-- A ring that is no bank ring leaves TRACK; a lattice ring makes its plane unhealthy (R267, R285). -/
def Dev.otherOut (p : Part) (d : Dev) (r : Ring) (ph : RingPh) : Dev :=
  let d1 := d.setRing (ringIx r) { ph := ph }
  match r with
  | .lattice e plane _ _ => d1.planeLost p e.val plane 1
  | _ => d1
/-- Rings of trunk optics and ports are locked from the boot step of lanterns and ring lock on (R478). -/
def Dev.otherLocks (p : Part) (d : Dev) : Bool := d.bootReached p 7

/-- RING_DISTURBANCE: a loop error beyond the capture range; the ring leaves TRACK for VERIFY (R253, R254). -/
def execRingDisturbance (r : Ring) (s : State) : Out :=
  s.upd fun p _ d =>
    if (d.ring (ringIx r)).ph ≠ .track then d
    else match r with
    | .bank b k => if d.bankLocks p b.toNat then d.bankRingOut p b.toNat k.val 3 .verify none else d
    | r => if d.otherLocks p then d.otherOut p r .verify else d
/-- What an identity check finds on a bank ring in TRACK (R252, R254, R255): no range is written in IDLE and CAL, and a
failed bank reports none (R257). -/
def Dev.bankIdentity (p : Part) (d : Dev) (b k : Nat) (found : RingId) : Dev :=
  let x := d.ring (bankRing b k)
  let st := d.bankState p b
  match found with
  | .right => d.setRing (bankRing b k) { cleanT := some d.now, cleanSeq := d.chNexts p b }
  | w =>
    let line : Nat := match w with | .wrongLine l => l.toNat | _ => k % 64
    let cause : Nat := match w with | .wrongLine _ => 1 | _ => 2
    let from' := if x.cleanT.isSome then x.cleanSeq else (d.bank b).lockSeq
    let t := x.cleanT.getD (d.bank b).lockT
    let d1 := if st = 2 ∨ st = 3 ∨ st = 4 then d.suspects p b from' else d
    ((d1.bankRingOut p b k cause .sweep (some (line, t, d.now))).bankSweep p b).fault p 31 b 1 0x0303
      (BitVec.ofNat 64 k) (BitVec.ofNat 64 line) false t d.now
/-- IDENTITY_CHECK. -/
def execIdentityCheck (r : Ring) (found : RingId) (s : State) : Out :=
  s.upd fun p _ d =>
    if (d.ring (ringIx r)).ph ≠ .track then d
    else match r with
    | .bank b k => if d.bankLocks p b.toNat then d.bankIdentity p b.toNat k.val found else d
    | r => if found = .right ∨ !d.otherLocks p then d else d.otherOut p r .sweep
/-- SWEEP_END: the right pilot is found on pass `found` of the window, the first of which has been counted when it began,
or three passes have found none: ring loss (R239, R254, R261). -/
def execSweepEnd (r : Ring) (found : Option (Fin 3)) (s : State) : Out :=
  s.upd fun p _ d =>
    let i := ringIx r
    if (d.ring i).ph ≠ .sweep then d
    else match r with
    | .bank b k =>
      let n := b.toNat
      if !d.bankLocks p n then d
      else
        let d1 := d.count p (pwbR n 0x128) (match found with | some j => j.val | none => 2)
        match found with
        | some _ => d1.bankRingIn p n k.val
        | none =>
          let x := { d.ring i with ph := .fail }
          let d2 := d1.setRing i x
          let st := d.bankState p n
          if st = 1 ∨ st = 2 ∨ st = 4 then d2.bankRingLoss p n k.val x else d2
    | _ => d.setRing i (if found.isSome then {} else { ph := .fail })
/-- RING_VERIFY: pilot and heater window of a suspect ring are right, or it is swept (R254). -/
def execRingVerify (r : Ring) (ok : Bool) (s : State) : Out :=
  s.upd fun p _ d =>
    let i := ringIx r
    if (d.ring i).ph ≠ .verify then d
    else match r with
    | .bank b k => if ok then d.bankRingIn p b.toNat k.val else (d.setRing i { d.ring i with ph := .sweep }).bankSweep p b.toNat
    | _ => d.setRing i (if ok then {} else { ph := .sweep })

end Sys2Proof.Machine
end

