-- ==== Sys2Proof/Machine/Party.lean ====
section
/-! DEFINITION. The party table: start, teardown and the anchor probes (R418 to R423). -/

namespace Sys2Proof.Machine

/-- STATE of entry e: 0 FREE, 1 ACTIVE, 2 ABORTING, 3 ABORTED. -/
def Dev.setPty (p : Part) (d : Dev) (e st : Nat) : Dev := d.setF p (ptyR e 0x10) 0 2 st
/-- Member cores of entry e on W die n. -/
def Dev.ptyMask (p : Part) (d : Dev) (e n : Nat) : W64 := d.get p (ptyR e (0x80 + 8 * n))
def Dev.isMember (p : Part) (d : Dev) (e : Nat) (c : CoreId) : Bool := (d.ptyMask p e c.site.toNat).getLsbD c.p.toNat
/-- Do requests to a core's windows get PARTY_ABORTED: is it a member of an entry in ABORTING or ABORTED (R419)? -/
def Dev.tornDown (p : Part) (d : Dev) (c : CoreId) : Bool :=
  (List.range 16).any fun e => decide (2 ≤ d.ptySt p e) && d.isMember p e c
/-- Anchor node of entry e, and the entry's index there. -/
def Dev.ptyAnchor (p : Part) (d : Dev) (e : Nat) : BitVec 16 := BitVec.ofNat 16 (d.fld p (ptyR e 0) 16 16)

/-- CTRL.START (R418). -/
def Dev.ptyStart (p : Part) (d : Dev) (e : Nat) : Dev :=
  if d.ptySt p e ≠ 0 then d
  else if d.ptyNo p e ≠ 0 ∧ !((List.range 16).any fun f => f != e && d.ptySt p f != 0 && d.ptyNo p f == d.ptyNo p e) then
    let d1 := (d.setPty p e 1).setF p (ptyR e 0x10) 32 32 (lowT d.now)
    { d1 with probeT := smSet 0 d1.probeT e d.now, probeOut := d1.probeOut.filter fun x => x != e }
  else d.noticeIgnored p (ptyR e 8)
/-- Reset the good, unfenced member cores of entry e on W die n; they stay in RESET (R53, R419). -/
def Dev.ptyResetCores (p : Part) (d : Dev) (e n : Nat) : Dev :=
  (positions (d.ptyMask p e n)).foldl (fun d k =>
    let c : CoreId := ⟨BitVec.ofNat 4 n, k⟩
    if p.has c ∧ (d.core c).st ≠ .fenced then (d.coreReset p c).modCore c fun x => { x with heldReset := true } else d) d
/-- The core whose source number is `x`, if it is a core of this package. -/
def Dev.srcIsCore (d : Dev) (x : Src) : Option CoreId :=
  if srcNode x = d.node ∧ (srcSite x).toNat < 16 then some ⟨(srcSite x).truncate 4, srcUnit x⟩ else none
/-- Does channel ch of bank b name a member core of entry e as PRODUCER or DEST? -/
def Dev.chNamesMember (p : Part) (d : Dev) (e b ch : Nat) : Bool :=
  let prod : Src := BitVec.ofNat 27 (d.fld p (chR b ch 0) 10 27)
  let dest := d.get p (chR b ch 8)
  let member (c : Option CoreId) : Bool := match c with | some c => d.isMember p e c | none => false
  member (d.srcIsCore prod) ||
    (gaNode dest == d.node && member (match d.place p (gaLocal dest) with | .lobby c _ _ => some c | _ => none))
/-- Bank channels that name a member core stop (R419). -/
def Dev.ptyStopChannels (p : Part) (d : Dev) (e : Nat) : Dev :=
  (List.range 256).foldl (fun d i => if d.chNamesMember p e (i / 8) (i % 8) then d.writeChEn p (i / 8) (i % 8) false else d) d
/-- An ACTIVE entry begins its teardown with a cause (R418, R419). -/
def Dev.ptyAbort (p : Part) (d : Dev) (e cause : Nat) : Dev :=
  if d.ptySt p e ≠ 1 then d
  else
    let d1 := (d.setPty p e 2).setF p (ptyR e 0x10) 4 4 cause
    let d2 : Dev := { d1 with probeOut := d1.probeOut.filter fun x => x != e }
    let no := BitVec.ofNat 16 (d.ptyNo p e)
    let d3 : Dev := { d2 with regions := d2.regions.map fun x => (x.1, x.2.map fun r => if r.party = no then { r with cut := true } else r) }
    ((List.range 16).foldl (fun d n => d.ptyResetCores p e n) d3).ptyStopChannels p e
/-- CTRL.FREE (R418). -/
def Dev.ptyFree (p : Part) (d : Dev) (e : Nat) : Dev := if d.ptySt p e = 3 then d.setPty p e 0 else d
/-- PTY_START. -/
def execPtyStart (e : BitVec 4) (s : State) : Out := s.upd fun p _ d => d.ptyStart p e.toNat
/-- PTY_ABORT: cause 1. -/
def execPtyAbort (e : BitVec 4) (s : State) : Out := s.upd fun p _ d => d.ptyAbort p e.toNat 1
/-- PTY_FREE. -/
def execPtyFree (e : BitVec 4) (s : State) : Out := s.upd fun p _ d => d.ptyFree p e.toNat
/-- TEARDOWN_COMPLETE: ABORTED, with a Party-fatal fault naming the party and the cause (R418, R419). -/
def execTeardownComplete (e : BitVec 4) (s : State) : Out :=
  s.upd fun p _ d =>
    let n := e.toNat
    if d.ptySt p n = 2 then
      (d.setPty p n 3).fault p 31 63 3 0x0706 (BitVec.ofNat 64 (d.ptyNo p n)) (BitVec.ofNat 64 (d.fld p (ptyR n 0x10) 4 4))
    else d
/-- The entry that holds a party (R418). -/
def Dev.ptyOf (p : Part) (d : Dev) (party : Nat) : Option Nat :=
  (List.range 16).find? fun e => d.ptySt p e == 1 && d.ptyNo p e == party
/-- A write of an entry's CTRL: START, ABORT, FREE in that order (R423). -/
def Dev.writePtyCtrl (p : Part) (d : Dev) (e : Nat) (v : W64) (lower : Bool) : Dev :=
  if !lower then d
  else
    let d1 := if v.getLsbD 0 then d.ptyStart p e else d
    let d2 := if v.getLsbD 1 then d1.ptyAbort p e 1 else d1
    if v.getLsbD 2 then d2.ptyFree p e else d2
/-- A write of CFG or CORES: only in FREE (R418). -/
def Dev.writePtyCfg (p : Part) (d : Dev) (e a : Nat) (v : W64) (lower upper : Bool) : Dev :=
  if d.ptySt p e = 0 then d.regStore p a v lower upper else d.noticeIgnored p a v

/-! ### Anchor probes (R420) -/

/-- Source number of the routing stage's probes. -/
def Dev.probeSrc (d : Dev) : Src := mkSrc d.node 0x1F 63
/-- ANCHOR_PROBE: a CREAD of the party's STAT at its anchor, on channel 0 as STRICT. The probe before it that has had no answer
counts as failed, be it that the stage never took it (R420). -/
def execAnchorProbe (e : BitVec 4) (s : State) : Out :=
  s.upd fun p _ d =>
    let n := e.toNat
    let anchor := d.ptyAnchor p n
    if d.ptySt p n = 1 ∧ anchor ≠ d.node ∧ 1200000 ≤ elapsed d.now (smGet 0 d.probeT n) then
      let addr : W64 := BitVec.ofNat 64 (anchor.toNat * 2 ^ 48 + 0x7F0000000000 + ptyR (d.fld p (ptyR n 0) 32 4) 0x10)
      let d0 := if d.probeOut.contains n then d.count p (ptyR n 0x18) 1 else d
      let d1 : Dev := { d0 with probeT := smSet 0 d.probeT n d.now, probeOut := (d0.probeOut.filter fun x => x != n) ++ [n] }
      d1.inject p anchor (.req { src := d.probeSrc, addr := addr, tag := e.zeroExtend 12, op := .cread })
    else d
/-- A probe's answer arrives: OK with the party ACTIVE sets SEEN, OK otherwise aborts with cause 3, any other status
counts. -/
def Dev.anchorAnswer (p : Part) (d : Dev) (e : Nat) (status : BitVec 7) (value : W64) : Dev :=
  if !d.probeOut.contains e then d
  else
    let d1 : Dev := { d with probeOut := d.probeOut.filter fun x => x != e }
    if status ≠ stOk then d1.count p (ptyR e 0x18) 1
    else if bits value 0 2 = 1 ∧ bits value 16 16 = d.ptyNo p e then d1.setF p (ptyR e 0x10) 32 32 (lowT d.now)
    else d1.ptyAbort p e 3
/-- ANCHOR_PROBE_ANSWER. -/
def execAnchorProbeAnswer (e : BitVec 4) (status : BitVec 7) (value : W64) (s : State) : Out :=
  s.upd fun p _ d => d.anchorAnswer p e.toNat status value
/-- ANCHOR_LOST: 50 ms after SEEN without a successful probe. -/
def execAnchorLost (e : BitVec 4) (s : State) : Out :=
  s.upd fun p _ d =>
    let n := e.toNat
    let since := (lowT d.now + 2 ^ 32 - d.fld p (ptyR n 0x10) 32 32) % 2 ^ 32
    if d.ptySt p n = 1 ∧ d.ptyAnchor p n ≠ d.node ∧ 60000000 ≤ since then d.ptyAbort p n 2 else d

end Sys2Proof.Machine
end

