-- ==== Sys2Proof/Machine/Cal.lean ====
section
/-! DEFINITION. Trims and their gradual application, and the full package photonic recalibration (R263, R503 to R510). -/

namespace Sys2Proof.Machine

/-! ### Trims (R263, R503, R504, R510) -/

/-- Is an address a trim word: of a bank's trim array, or of a CAL block past its control registers? -/
def isTrim (p : Part) (a : Nat) : Bool :=
  (regFields p a).isSome &&
    ((ctlBlk a == 4 && decide (0x1000 ≤ ctlOff a)) ||
      (isBase (ctlSite a) && decide (0x40 ≤ ctlBlk a) && decide (ctlBlk a < 0x60) && decide (0x40000 ≤ ctlOff a)))
/-- A trim moves to a new value from its live one. -/
def Dev.moveTrim (p : Part) (d : Dev) (a : Nat) (w : W64) : Dev :=
  let live := d.liveTrim p a
  { d.put p a w with slews := smSet none d.slews a (some ⟨live, 0, d.now⟩) }
/-- Is the unit of a trim in calibration (R263, R506 to R508)? -/
def Dev.inCal (p : Part) (d : Dev) (a : Nat) : Bool :=
  if ctlBlk a = 4 then
    match d.recal with
    | none => false
    | some r =>
      match latTrim (ctlOff a), portTrim (ctlOff a) with
      | some i, _ => isBase (ctlSite a) && r.eps.contains (i / 2048) &&
          ((r.phase == 1 && i / 1024 % 2 == 1) || (r.phase == 2 && i / 1024 % 2 == 0))
      | none, some i => isBase (ctlSite a) && r.phase == 3 && i / 32 % 4 == r.round
      | none, none => false
  else d.bankState p (ctlBlk a - 0x40) == 5
/-- A software write to a trim (R504, R508). -/
def Dev.writeTrim (p : Part) (d : Dev) (a : Nat) (v : W64) (lower upper : Bool) : Dev :=
  if d.inCal p a then d.noticeIgnored p a v else d.moveTrim p a (trimWord p a (d.get p a) v lower upper)
/-- TRIM_WRITE. -/
def execTrimWrite (addr : BitVec 40) (value : W64) (s : State) : Out :=
  s.upd fun p _ d => if isTrim p addr.toNat then d.writeTrim p addr.toNat value true true else d
/-- TRIM_SLEW_STEP: one of the 64 steps, each 300 ticks after the one before (R504). -/
def execTrimSlewStep (addr : BitVec 40) (s : State) : Out :=
  s.upd fun _ _ d =>
    match smGet none d.slews addr.toNat with
    | some x =>
      if elapsed d.now x.t < 300 * (x.steps + 1) then d
      else { d with slews := smSet none d.slews addr.toNat (if 63 ≤ x.steps then none else some { x with steps := x.steps + 1 }) }
    | none => d
/-- Trims of a site that do not stand still at their default. -/
def Dev.trimsAway (p : Part) (d : Dev) (site : Nat) : List Nat :=
  let listed := (d.ctl.map Prod.fst).filter fun a => ctlSite a == site && isTrim p a
  listed ++ ((d.slews.map Prod.fst).filter fun a => ctlSite a == site && !listed.contains a)
/-- CAL.CTRL.DEFAULTS: every trim of the site moves to its fused default (R504). -/
def Dev.calDefaults (p : Part) (d : Dev) (site : Nat) : Dev :=
  (d.trimsAway p site).foldl (fun d a => if d.inCal p a then d.noticeIgnored p a else d.moveTrim p a (resetWord p a)) d
/-- CAL_DEFAULTS. -/
def execCalDefaults (site : BitVec 5) (s : State) : Out := s.upd fun p _ d => d.calDefaults p site.toNat
/-- Is a trim of the site moving (R504)? -/
def Dev.slewing (d : Dev) (site : Nat) : Bool := d.slews.any fun e => ctlSite e.1 == site

/-! ### Full package photonic recalibration (R507, R508) -/

/-- A calibration writes `n` trims from address `a` on at once. What it measures the manual cannot state: each is a
free value (log entry 6). -/
def Dev.calWords (p : Part) (d : Dev) (a : Nat) : Nat → Dev
  | 0 => d
  | n + 1 =>
    let z := d.fresh
    Dev.calWords p { z.2.put p a (trimWord p a 0 z.1 true true) with slews := smSet none d.slews a none } (a + 8) n
/-- First trim word of a plane of an endpoint, and of a port. -/
def planeTrims (e plane : Nat) : Nat := calR 31 (0x10000 + 8 * ((2 * e + plane) * 1024))
def portTrims (f : Nat) : Nat := calR 31 (0x80000 + 8 * (32 * f))
/-- Endpoints that take part: neither dormant nor in fall-back. -/
def Dev.recalEps (p : Part) (d : Dev) : List Nat := (List.range 25).filter fun e => !d.dormant p e && !d.inFallback p e
/-- Endpoints of phase 1: every pair on plane A, which is healthy there. -/
def Dev.recalEps1 (p : Part) (d : Dev) : List Nat :=
  let l := d.recalEps p
  l.filter fun e => d.planeOk p e false && l.all fun f => f == e || (!d.pairPlane p e f && !d.pairPlane p f e)
/-- Banks of round j of phase 3. -/
def roundBanks (j : Nat) : List Nat :=
  ((List.range 16).filter fun n => (n % 4 + n / 4) % 2 == j / 2).map fun n => 2 * n + j % 2
/-- Ports of round j of phase 3. -/
def roundPorts (j : Nat) : List Nat := (List.range 16).map fun g => 4 * g + j
/-- A round of phase 3 begins: its ports leave UP, its banks request calibration; banks in PARKED or FAILED are
skipped. -/
def Dev.beginRound (p : Part) (d : Dev) (r : Recal) (j : Nat) : Dev :=
  let d1 := (roundPorts j).foldl (fun d f => d.portRetrain p f) d
  let go := (roundBanks j).filter fun b => d1.bankState p b != 0 && d1.bankState p b != 6
  let d2 := go.foldl (fun d b => if d.bit p (pwbR b 0x30) 0 || d.bit p (pwbR b 0x30) 1 then d else d.calRequest p b) d1
  let t := go.map fun b => (pwbR b 0x40000, pwbR b 0x48400)
  { d2.setF p (calR 31 8) 2 2 3 with recal := some { r with phase := 3, round := j, banks := go, eps := [], touched := r.touched ++ t } }
/-- Is a recalibration in progress? -/
def Dev.recalBusy (d : Dev) : Bool := d.recal.isSome
/-- Start a recalibration (R507); with the package in an orderly stop or while one runs it does not start. -/
def Dev.recalStart (p : Part) (d : Dev) : Dev :=
  let d1 := (((d.put p (calR 31 0x10) 0).put p (calR 31 0x18) 0).put p (calR 31 0x20) 0)
  let d2 := (d1.setB p (calR 31 8) 1 true).setF p (calR 31 8) 2 2 1
  { d2 with recal := some { eps := d.recalEps1 p, saved := d.ctl.filter fun e => isBase (ctlSite e.1) && isTrim p e.1 } }
/-- PKG_GO (R507, R508). -/
def Dev.pkgGo (p : Part) (d : Dev) : Dev :=
  if d.recalBusy then d.noticeIgnored p (calR 31 0) 2 else if d.stopStep ≠ 0 then d else d.recalStart p
/-- PKG_GO. -/
def execPkgGo (s : State) : Out := s.upd fun p _ d => d.pkgGo p
/-- Calibrated planes of endpoints take their results. -/
def Dev.calPlanes (p : Part) (d : Dev) (plane : Nat) (l : List Nat) : Dev := l.foldl (fun d e => d.calWords p (planeTrims e plane) 1024) d
/-- Set bit i of a register. -/
def Dev.markBits (p : Part) (d : Dev) (a : Nat) (l : List Nat) : Dev := l.foldl (fun d i => d.setB p a i true) d
/-- Every endpoint of a set begins a switch-over with no fault where the preferred plane of a pair has changed; with the end of
phase 1 that is plane B, with the end of phase 2 plane A again (R288, R292, R507). -/
def Dev.pairsGo (p : Part) (d : Dev) (l : List Nat) : Dev := l.foldl (fun d e => d.beginReturn p e) d
/-- PKG_RECAL_PHASE: a phase or round completes and the next starts; `ok` has a bit for each endpoint of phases 1 and 2,
and for each port of a round. Phase 2 calibrates plane A once every switch-over of its endpoints is over; a round lasts until
the calibrations it requested are over. -/
def Dev.recalPhase (p : Part) (d : Dev) (ok : W64) : Dev :=
  match d.recal with
  | none => d
  | some r =>
    let good := r.eps.filter ok.getLsbD
    let ranges (plane : Nat) : List (Nat × Nat) := good.map fun e => (planeTrims e plane, planeTrims e plane + 8 * 1024)
    if r.phase = 1 then
      let d1 := d.calPlanes p 1 good
      let eps2 := (d1.recalEps p).filter fun e => d1.planeOk p e true
      let d2 : Dev := { d1 with recal := some { r with phase := 2, eps := eps2, okB := good, touched := r.touched ++ ranges 1 } }
      (d2.pairsGo p eps2).setF p (calR 31 8) 2 2 2
    else if r.phase = 2 then
      if r.eps.any (d.switching p) then d
      else
        let d1 := (d.calPlanes p 0 good).markBits p (calR 31 0x18) (good.filter r.okB.contains)
        (d1.beginRound p { r with touched := r.touched ++ ranges 0 } 0).pairsGo p r.eps
    else if r.banks.any fun b => d.bit p (pwbR b 0x30) 0 || d.bit p (pwbR b 0x30) 1 then d
    else
      let ps := (roundPorts r.round).filter fun f => ok.getLsbD f && d.portLit p f
      let d1 := ps.foldl (fun d f => d.calWords p (portTrims f) 32) d
      let done := (roundBanks r.round).filter fun b => r.banks.contains b && d.bankState p b != 0 && d.bankState p b != 6
      let d2 := ((d1.markBits p (calR 31 0x20) ps).markBits p (calR 31 0x10) done).markBits p (calR 31 0x10)
        (((roundBanks r.round).filter fun b => !done.contains b).map fun b => 32 + b)
      let r' := { r with touched := r.touched ++ ps.map fun f => (portTrims f, portTrims f + 256) }
      if r.round < 3 then d2.beginRound p r' (r.round + 1)
      else
        let d3 := ((d2.setB p (calR 31 8) 1 false).setF p (calR 31 8) 2 2 0).setF p (calR 31 8) 32 32 (lowT d2.now)
        { d3 with recal := none }
/-- PKG_RECAL_PHASE. -/
def execPkgRecalPhase (ok : W64) (s : State) : Out := s.upd fun p _ d => d.recalPhase p ok
/-- A recalibration is discarded, and the trims it changed return to what they were (R486, R507). -/
def Dev.recalDiscard (p : Part) (d : Dev) : Dev :=
  match d.recal with
  | none => d
  | some r =>
    let hit (a : Nat) : Bool := r.touched.any fun t => decide (t.1 ≤ a) && decide (a < t.2)
    let gone := (d.ctl.filter fun e => hit e.1).foldl (fun d e => d.put p e.1 (resetWord p e.1)) d
    let back := (r.saved.filter fun e => hit e.1).foldl (fun d e => d.put p e.1 e.2) gone
    let d1 := (back.setB p (calR 31 8) 1 false).setF p (calR 31 8) 2 2 0
    { d1 with recal := none }

end Sys2Proof.Machine
end

