-- ==== Sys2Proof/Machine/Thermal.lean ====
section
/-! DEFINITION. Sensors, rests, the orderly stop and the hard trip (R488 to R502, R250, R330). -/

namespace Sys2Proof.Machine

/-! ### Sensors (R488 to R491) -/

/-- Sensors a site carries (R488). -/
def sensCount (site : Nat) : Nat := if isW site then 16 else if isL site then 4 else if isK site then 2 else if isBase site then 56 else 0
def sensR (site i : Nat) : Nat := thmR site (0x100 + 8 * i)
/-- Two's complement value of 16 bits. -/
def int16 (n : Nat) : Int := (BitVec.ofNat 16 n).toInt
/-- Sixteen bits of an integer. -/
def nat16 (x : Int) : Nat := (BitVec.ofInt 16 x).toNat
def Dev.sens (d : Dev) (site i : Nat) : Sens := smGet {} d.sensors (64 * site + i)
def Dev.setSens (d : Dev) (site i : Nat) (x : Sens) : Dev := { d with sensors := smSet {} d.sensors (64 * site + i) x }
def Dev.sensBroken (p : Part) (d : Dev) (site i : Nat) : Bool := d.bit p (sensR site i) 32
def Dev.sensTemp (p : Part) (d : Dev) (site i : Nat) : Int := int16 (d.fld p (sensR site i) 0 16)
def Dev.sensRate (p : Part) (d : Dev) (site i : Nat) : Int := int16 (d.fld p (sensR site i) 16 16)
/-- Has the sensor a reading: sampled, or broken, when it reads 107.0 C (R490)? -/
def Dev.sensReads (p : Part) (d : Dev) (site i : Nat) : Bool := decide ((d.sens site i).taken ≠ 0) || d.sensBroken p site i
/-- Base sensors that count for a site (R491). -/
def baseUnder (site : Nat) : List Nat :=
  if isW site then [2 * site, 2 * site + 1] else if isL site then [32 + (site - 16)] else if isK site then [36] else []
/-- Readings of a site under R491: sensor code, temperature, rate. -/
def Dev.siteReads (p : Part) (d : Dev) (site : Nat) : List (Nat × Int × Int) :=
  (((List.range (sensCount site)).filter (d.sensReads p site)).map fun i => (i, d.sensTemp p site i, d.sensRate p site i))
    ++ (((baseUnder site).filter (d.sensReads p 31)).map fun i => (128 + i, d.sensTemp p 31 i, d.sensRate p 31 i))
/-- The hottest reading, the first of equals. -/
def hottest : List (Nat × Int × Int) → Option (Nat × Int)
  | [] => none
  | (i, t, _) :: r => match hottest r with
    | some (j, u) => if u ≤ t then some (i, t) else some (j, u)
    | none => some (i, t)
/-- The highest rate. -/
def highestRate : List (Nat × Int × Int) → Int
  | [] => 0
  | [(_, _, x)] => x
  | (_, _, x) :: r => max x (highestRate r)
/-- Write THM.TEMP of a site from its readings. -/
def Dev.writeTemp (p : Part) (d : Dev) (site : Nat) : Dev :=
  let l := d.siteReads p site
  match hottest l with
  | none => d
  | some (i, t) => ((d.setF p (thmR site 0) 0 16 (nat16 t)).setF p (thmR site 0) 16 8 i).setF p (thmR site 0) 32 16 (nat16 (highestRate l))

/-! ### Orderly stop, step 1 (R499 to R501) -/

/-- Set or clear a bit of THM.STAT with the count of the change. -/
def Dev.thmStat (p : Part) (d : Dev) (site i : Nat) : Dev :=
  (d.setB p (thmR site 0x10) i true).setF p (thmR site 0x10) 32 32 (lowT (d.dieCount site))
/-- Do a core's WAIT and END end its work: step 2 and after (R500)? A core in WAIT is halted. -/
def Dev.haltWaiting (d : Dev) (cs : List CoreId) : Dev :=
  cs.foldl (fun d c => if (d.core c).st = .wait then d.modCore c CoreSt.halt else d) d
/-- Every core of the package. -/
def allCores : List CoreId := (List.range 16).flatMap dieCores
/-- Every port sends LEAVE with reason 4 (R354, R500). -/
def Dev.leaveAll (p : Part) (d : Dev) : Dev :=
  (List.range 64).foldl (fun d f =>
    let d1 := if leaves (d.portSt p f) then d.sendLeave p f 4 else d
    if d.portSt p f = 6 then d1.leaveUp p f 7 0 else if leaves (d.portSt p f) then d1.setPortSt p f 0 else d1) d
/-- An orderly stop for a cause of R499: step 1 of R500, or what R501 says of a second cause; an image transfer is aborted
(R540). DEDUCED, log entry 60. -/
def Dev.orderlyStop (p : Part) (d : Dev) (cause : Nat) : Dev :=
  if d.stopStep ≠ 0 then
    (if 5 ≤ d.fld p (thmR 31 0x10) 3 3 ∧ 1 ≤ cause ∧ cause ≤ 4 then { d with thermTrip := true } else d)
  else
    let d1 := ((d.thmStat p 31 2).setF p (thmR 31 0x10) 3 3 cause).fault p 31 63 4 0x0904 (BitVec.ofNat 64 cause)
    let d2 := (List.range 16).foldl (fun d w => d.setF p (thmR w 8) 0 4 15) d1
    let d3 : Dev := { d2.setF p (clkR 31 0x20) 0 1 0 with freqPend := none, thermTrip := d2.thermTrip || (decide (1 ≤ cause) && decide (cause ≤ 4)) }
    ({ Dev.leaveAll p { d3 with stopStep := 1, stopT := d.now } with stopStep := 2, xfer := none } : Dev).haltWaiting allCores
/-- Has a reset or stop that a command asked for fallen due (R437, R535)? -/
def Dev.resetFallsDue (d : Dev) (kind : Nat) : Bool :=
  d.resetDue.any fun x => x.kind == kind && x.waits.isNone && decide (1200000 ≤ elapsed d.now x.t)
/-- ORDERLY_STOP: causes 1 to 7; cause 5 waits until 1,200,000 ticks after the reply to STOP (R437). -/
def execOrderlyStop (cause : BitVec 3) (s : State) : Out :=
  s.upd fun p _ d =>
    if cause = 0 ∨ d.dead then d
    else if cause = 5 then (if d.resetFallsDue 3 then Dev.orderlyStop p { d with resetDue := d.resetDue.filter fun x => x.kind != 3 } 5 else d)
    else d.orderlyStop p cause.toNat

/-! ### Rests (R492 to R496) -/

/-- Lower edges of the bands of R494, in 1/16 C. -/
def bandEdges : List Int := [1520, 1552, 1584, 1616, 1648, 1680]
/-- The band, 0 to 6, of a temperature coming from band `old`: it is left downward 1 K below its edge (R494). -/
def bandOf (old : Nat) (t : Int) : Nat :=
  max (bandEdges.filter fun e => decide (e ≤ t)).length (min old (bandEdges.filter fun e => decide (e - 16 < t)).length)
/-- REST_STEP_DOWN: one sixteenth down, not within 120,000 ticks of the last step (R493). -/
def execRestStepDown (w : BitVec 4) (s : State) : Out :=
  s.upd fun p _ d =>
    let n := w.toNat
    if d.restTarget p n < d.fld p (thmR n 8) 0 4 ∧ 120000 ≤ elapsed d.now (smGet 0 d.restT n) then
      { d.setF p (thmR n 8) 0 4 (d.fld p (thmR n 8) 0 4 - 1) with restT := smSet 0 d.restT n d.now }
    else d
/-- A place enters the band of 105 C, or reaches 110 C (R494). -/
def Dev.hotAct (p : Part) (d : Dev) (site idx : Nat) (was band : Nat) (t : Int) : Dev :=
  let d1 := if was < 6 ∧ band = 6 then
      (d.thmStat p site 0).fault p site (if isL site ∨ isBase site then 63 else 0) 2 0x0902 (BitVec.ofNat 64 idx) (BitVec.ofNat 64 (nat16 t))
    else d
  if 1760 ≤ t then d1.orderlyStop p 1 else d1
/-- The band of a place that has no ABS field: K0 as 20, base sensor i as 1000 + i. -/
def Dev.hotPlace (p : Part) (d : Dev) (key site idx : Nat) (t : Int) : Dev :=
  let was := if smGet false d.hot key then 6 else 0
  let band := bandOf was t
  Dev.hotAct p { d with hot := smSet false d.hot key (decide (band = 6)) } site idx was band t
/-- Samples of a site at or above 4 and 12 K/ms are counted (R495, R509). -/
def Dev.countRates (p : Part) (d : Dev) (site : Nat) (own : Int) : Dev :=
  let d1 := if 64 ≤ own then d.count p (thmR site 0x40) 1 else d
  if 192 ≤ own then d1.count p (thmR site 0x48) 1 else d1
/-- Rate of rise of a W site (R495); `was` is the highest rate before this sample. RATE12 is set, with its Notice, each time the
rate comes to 12 K/ms. -/
def Dev.rateAct (p : Part) (d : Dev) (w : Nat) (was : Int) : Dev :=
  let hi := int16 (d.fld p (thmR w 0) 32 16)
  let r := d.fld p (thmR w 8) 8 4
  let d1 := if 192 ≤ hi then d.setF p (thmR w 8) 8 4 8 else if 64 ≤ hi then d.setF p (thmR w 8) 8 4 (max r 4) else d
  let d2 := if was < 192 ∧ 192 ≤ hi then (d1.thmStat p w 1).fault p w 0 0 0x0903 (BitVec.ofNat 64 w) (BitVec.ofNat 64 (nat16 hi)) else d1
  let d3 : Dev := if 192 ≤ was ∧ hi < 192 then { d2 with rate12T := smSet 0 d2.rate12T w d2.now } else d2
  let d4 : Dev := if 64 ≤ was ∧ hi < 64 then { d3 with rate4T := smSet 0 d3.rate4T w d3.now } else d3
  if 480 ≤ hi then d4.orderlyStop p 2 else d4
/-- RATE_HOLD_END: a RATE component ends 1,200,000 ticks after the rate fell below its threshold (R495). -/
def execRateHoldEnd (w : BitVec 4) (s : State) : Out :=
  s.upd fun p _ d =>
    let n := w.toNat
    let hi := int16 (d.fld p (thmR n 0) 32 16)
    let over12 := decide (hi < 192) && decide (1200000 ≤ elapsed d.now (smGet 0 d.rate12T n))
    let over4 := decide (hi < 64) && decide (1200000 ≤ elapsed d.now (smGet 0 d.rate4T n))
    let r := d.fld p (thmR n 8) 8 4
    d.setF p (thmR n 8) 8 4 (if over4 && (decide (r < 8) || over12) then 0 else if over12 then min r 4 else r)
/-- Thermal control of a site after a sample (R491, R493 to R495). -/
def Dev.siteControl (p : Part) (d : Dev) (site : Nat) (own : Int) : Dev :=
  let was := int16 (d.fld p (thmR site 0) 32 16)
  let d1 := (d.writeTemp p site).countRates p site own
  let t := int16 (d1.fld p (thmR site 0) 0 16)
  if isBase site then d1
  else if isK site then d1.hotPlace p 20 site site t
  else
    let old := d1.fld p (thmR site 8) 4 4 / 2
    let band := bandOf old t
    let d2 := (d1.setF p (thmR site 8) 4 4 (2 * band)).hotAct p site site old band t
    if isW site then d2.rateAct p site was
    else d2.setF p (thmR site 8) 0 4 (2 * band)
/-- Sites a sensor counts for: its own, and the site above a base sensor. -/
def sensSites (site i : Nat) : List Nat :=
  if isBase site then (if i < 32 then [31, i / 2] else if i < 36 then [31, 16 + (i - 32)] else if i = 36 then [31, 20] else [31]) else [site]
/-- The correction a loop applies now: in a straight line to its new value within 12,000 ticks (R498). -/
def Dev.loopNow (d : Dev) (i : Nat) : Int :=
  let x := smGet {} d.loops i
  x.old + ((x.new - x.old) * (min 12000 (elapsed d.now x.at') : Nat)).tdiv 12000
/-- A loop takes up a new correction. -/
def Dev.correct (d : Dev) (i : Nat) (v : Int) : Dev := { d with loops := smSet {} d.loops i ⟨d.loopNow i, v, d.now⟩ }
/-- A field of 16 bits of a live trim word, signed where R510 gives it a sign. -/
def Dev.trimInt (p : Part) (d : Dev) (a lo : Nat) : Int := trimVal (d.liveTrim p a) ⟨lo, lo + 15, .rw, 0, []⟩ (trimSigned a lo)
/-- The hottest of the sensors of core region q of a W die that have a reading (R452, R488). -/
def Dev.regionTemp (p : Part) (d : Dev) (w q : Nat) : Option Int :=
  (hottest (((List.range 16).filter fun i => i % 4 / 2 + 2 * (i / 8) == q && d.sensReads p w i).map fun i => (i, d.sensTemp p w i, 0))).map Prod.snd
/-- Temperature feed-forward after a reading of sensor i: TC times the temperature for the oscillators and references of a
die, TC times the distance from TREF, taken away, for the heaters of a base zone (R498; DESIGN CHOICE, log entry 85). -/
def Dev.feedForward (p : Part) (d : Dev) (site i : Nat) : Dev :=
  if isBase site then d.correct (128 + i) (-(d.trimInt p (calR 31 (0x2000 + 8 * i)) 0 * (d.sensTemp p 31 i - d.trimInt p (calR 31 (0x2000 + 8 * i)) 16)))
  else if isW site ∨ isL site then
    let l := (List.range (sensCount site)).filter (d.sensReads p site)
    let d1 := d.correct (64 + site) ((d.trimInt p (calR site 0x3000) 0 * (l.map (d.sensTemp p site)).sum).tdiv l.length)
    let q := i % 4 / 2 + 2 * (i / 8)
    if isL site then d1
    else match d.regionTemp p site q with
      | some t => d1.correct (4 * site + q) (d.trimInt p (calR site (0x2000 + 8 * q)) 16 * t)
      | none => d1
  else d
/-- The base sensor that gives the zone of a ring (R498). -/
def ringZone : Ring → Nat
  | .bank b _ => b.toNat
  | .lattice e _ _ _ =>
    if e.val < 16 then 2 * e.val else if e.val < 23 then 32 + (e.val - 16) else if e.val = 23 then 39 else 47
  | .port f _ => 39 + f.toNat / 4
/-- Heater power that feed-forward adds to a ring at present, in 2^-14 uW: its zone's correction, and for a bank ring the
coupling of its neighbours' ramps (R244, R498). -/
def Dev.ringFeed (p : Part) (d : Dev) (r : Ring) : Int :=
  d.loopNow (128 + ringZone r) * 1024 + (match r with | .bank b k => d.ringCoupling p b.toNat k.val | _ => 0)
/-- What follows a reading of a sensor: every site it counts for, a base sensor that stands for itself, the bank above
it, and the loops it is fed forward to (R250, R491, R494, R498). -/
def Dev.sensEffect (p : Part) (d : Dev) (site i : Nat) : Dev :=
  let own := d.sensRate p site i
  let d1 := (sensSites site i).foldl (fun d x => d.siteControl p x own) (d.feedForward p site i)
  if !isBase site then d1
  else
    let t := d1.sensTemp p 31 i
    let d2 := if 37 ≤ i then d1.hotPlace p (1000 + i) 31 i t else d1
    if i < 32 then
      let d3 := d2.setF p (pwbR i 0x58) 0 16 (nat16 t)
      if 240 ≤ (t - int16 (d3.fld p (pwbR i 0x58) 16 16)).natAbs then d3.autoCause p i else d3
    else d2
/-- A sensor is found broken (R490). -/
def Dev.sensBreak (p : Part) (d : Dev) (site i code : Nat) : Dev :=
  if d.sensBroken p site i then d
  else
    let d1 := d.put p (sensR site i) (BitVec.ofNat 64 (1712 + 2 ^ 32 + code * 2 ^ 33))
    let n := d1.fld p (thmR site 0) 48 8 + 1
    let d2 := (d1.setF p (thmR site 0) 48 8 n).fault p site (if isL site ∨ isBase site then 63 else 0) 2 0x0901 (BitVec.ofNat 64 i) (BitVec.ofNat 64 code)
    let d3 := d2.sensEffect p site i
    if sensCount site < 2 * n then d3.orderlyStop p 4 else d3
/-- Sum and count of the readings of a site's other sensors. -/
def Dev.othersSum (p : Part) (d : Dev) (site i : Nat) : Int × Nat :=
  let l := (List.range (sensCount site)).filter fun j => j != i && d.sensReads p site j
  ((l.map (d.sensTemp p site)).sum, l.length)
/-- The rate of rise at a sample `v`: it is compared only once 25 samples have been taken, and reads 0 before; against a sample
period of 250 us ago that had no sample it is a free value (R489; DESIGN CHOICE, log entry 58). -/
def Dev.sensRise (d : Dev) (x : Sens) (v : Int) : Int × Dev :=
  if x.hist.length < 25 ∨ x.taken < 25 then (0, d)
  else match x.hist.getLastD none with
    | some old => (4 * (v - int16 old.toNat), d)
    | none => (int16 (d.fresh.1.toNat % 2 ^ 16), d.fresh.2)
/-- A reading of a sound sensor (R489, R490). DEDUCED, log entry 58. -/
def Dev.sensTake (p : Part) (d0 : Dev) (site i : Nat) (v : Int) : Dev :=
  let x := d0.sens site i
  let z := d0.sensRise x v
  let rate := z.1
  let d := z.2
  let o := d.othersSum p site i
  let far := if o.2 ≠ 0 ∧ 320 * (o.2 : Int) < (v * o.2 - o.1).natAbs then x.far + 1 else 0
  let d1 := d.setSens site i { taken := min 25 (x.taken + 1), hist := (some (BitVec.ofInt 16 v) :: x.hist).take 25, far := far }
  if v < -640 ∨ 2400 < v then d1.sensBreak p site i 1
  else if 100 ≤ far then d1.sensBreak p site i 3
  else (d1.put p (sensR site i) (BitVec.ofNat 64 (nat16 v + nat16 rate * 2 ^ 16))).sensEffect p site i
/-- Temperature of the GDDR7 device of channel c (R307, R330, R497). -/
def Dev.deviceTemp (p : Part) (d : Dev) (c : Nat) (v : Int) : Dev :=
  let was := int16 (d.fld p (chanR c 0) 8 16)
  let d1 := (d.setF p (chanR c 0) 8 16 (nat16 v)).setB p (chanR c 0) 24 (decide (1360 < v))
  let d2 := if was < 1600 ∧ 1600 ≤ v then d1.fault p (16 + c / 12) (c % 12) 2 0x0906 (BitVec.ofNat 64 c) (BitVec.ofNat 64 (nat16 v)) else d1
  if 1680 ≤ v then d2.orderlyStop p 3 else d2
/-- SENSOR_SAMPLE: a sensor's reading after its trims, or none where its sample is missing; index 16 + k at an L site
is the device of channel k (R488 to R491, R494, R495, R497). -/
def execSensorSample (site : BitVec 5) (i : BitVec 6) (reading : Option (BitVec 16)) (s : State) : Out :=
  s.upd fun p _ d =>
    let n := site.toNat
    let k := i.toNat
    if d.dead then d
    else if isL n ∧ 16 ≤ k ∧ k < 28 then
      (match reading with | some v => d.deviceTemp p (12 * (n - 16) + (k - 16)) v.toInt | none => d)
    else if sensCount n ≤ k then d
    else
      let d1 := if k = 0 then d.count p (thmR n 0x58) 1 else d
      if d1.sensBroken p n k then d1
      else match reading with
        | some v => d1.sensTake p n k v.toInt
        | none =>
          let x := d1.sens n k
          let d2 := d1.setSens n k { x with miss := x.miss + 1, hist := (none :: x.hist).take 25 }
          if 3 ≤ x.miss + 1 then d2.sensBreak p n k 4 else d2
/-- SENSOR_SELF_TEST (R490). -/
def execSensorSelfTest (site : BitVec 5) (i : BitVec 6) (ok : Bool) (s : State) : Out :=
  s.upd fun p _ d => if d.dead ∨ ok ∨ sensCount site.toNat ≤ i.toNat then d else d.sensBreak p site.toNat i.toNat 2
/-- Row of a consumer in the table of R43. -/
def consumerRow : Consumer → Nat
  | .lDies => 2 | .gddr7 => 3 | .lattice => 4 | .banks => 5 | .ports => 6 | .k0Host => 7 | .margin => 9
/-- Allocation of a consumer in mW (R43). -/
def allocationMw : Consumer → Nat
  | .lDies => 140000 | .gddr7 => 340000 | .lattice => 180000 | .banks => 230000 | .ports => 260000 | .k0Host => 25000 | .margin => 205000
/-- A consumer whose average over 10 ms is above its allocation is named in a Notice (R496). -/
def Dev.overAllocation (p : Part) (d : Dev) : Option (Consumer × W32) → Dev
  | some (x, mw) =>
    if allocationMw x < mw.toNat then d.fault p 31 63 0 0x0905 (Config.consumerName (consumerRow x)) (mw.zeroExtend 64) else d
  | none => d
/-- POWER_AVERAGE: 1 ms averages of a W die and of the package; every 120,000 ticks POW follows the limits (R496).
DEDUCED, log entry 59. -/
def execPowerAverage (w : BitVec 4) (siteMw packageMw : W32) (other : Option (Consumer × W32)) (s : State) : Out :=
  s.upd fun p _ d0 =>
    let d := d0.overAllocation p other
    if d.dead then d0
    else
      let n := w.toNat
      let d1 := (d.setF p (thmR n 0x18) 0 32 siteMw.toNat).setF p (thmR 31 0x18) 0 32 packageMw.toNat
      let lw := 1000 * d1.fld p (thmR n 0x20) 0 16
      let lp := 1000 * d1.fld p (thmR 31 0x20) 0 16
      if elapsed d1.now (smGet 0 d1.powT n) < 120000 then d1
      else
        let pow := d1.fld p (thmR n 8) 12 4
        let d2 : Dev := { d1 with powT := smSet 0 d1.powT n d1.now }
        let d3 := if pow = 0 then d2 else d2.count p (thmR n 0x50) 1
        let new := if lw < siteMw.toNat ∨ lp < packageMw.toNat then min 15 (pow + 1)
          else if 100 * siteMw.toNat < 95 * lw ∧ 100 * packageMw.toNat < 95 * lp then pow - 1 else pow
        d3.setF p (thmR n 8) 12 4 new
/-- A write of THM.PLIMIT: a value above the reset value is replaced by it (R509). -/
def Dev.writePlimit (p : Part) (d : Dev) (a : Nat) (v : W64) (lower upper : Bool) : Dev :=
  let top := (resetWord p a).toNat
  let d1 := d.regStore p a v lower upper
  d1.setF p a 0 16 (min top (d1.fld p a 0 16))

/-- A write of THM.STAT: a flag it clears is a change, whose count LAST_T takes (R509). -/
def Dev.writeThmStat (p : Part) (d : Dev) (a : Nat) (v : W64) (lower upper : Bool) : Dev :=
  let d1 := d.regStore p a v lower upper
  if d1.fld p a 0 7 = d.fld p a 0 7 then d1 else d1.setF p a 32 32 (lowT (d.dieCount (ctlSite a)))

/-! ### The steps of an orderly stop (R500, R501) -/

/-- Fault log, thermal record and every trim, as step 6 saves them. -/
def Dev.savedRecord (p : Part) (d : Dev) : SMap W64 :=
  d.ctl.filter fun e => ctlBlk e.1 == 1 || ctlBlk e.1 == 2 || isTrim p e.1
/-- The end of a step of an orderly stop, and what the next step does at once. -/
def Dev.stopNext (p : Part) (m : List Host.Cell) (d : Dev) : Dev × Wr :=
  match d.stopStep with
  | 2 => ({ allCores.foldl (fun d c => d.modCore c CoreSt.halt) d with stopStep := 3 }, [])
  | 3 =>
    let d1 := (allCores.filter fun c => d.coreOpen p c).foldl (fun d c => d.coreReset p c) d
    let d2 := (List.range 32).foldl (fun d b => d.bankReset p b) (d1.recalDiscard p)
    let d3 := (List.range 16).foldl (fun d g =>
      if d.ltnSt p g = 3 then (d.setLtn p g 1).ltnLost p g 0 true else if d.ltnSt p g = 2 then d.setLtn p g 1 else d) d2
    ({ d3 with stopStep := 4 }, [])
  | 4 => ({ (List.range 32).foldl (fun d b => d.bankParked p b) d with rings := [], stopStep := 5 }, [])
  | 5 =>
    let z := Dev.intoSelfs p (List.range 48) m d
    ({ z.1 with stopStep := 6 }, z.2)
  | 6 => ({ d with nv := { d.nv with saved := d.savedRecord p }, stopStep := 7 }, [])
  | 7 => ({ d.put p (idR 20 0x108) (BitVec.ofNat 64 (2 ^ 20)) with pwrOff := true, stopStep := 8 }, [])
  | _ => (d, [])
/-- Limit of a step of an orderly stop, in ticks from its cause (R500). -/
def stopLimit (cause step : Nat) : Nat :=
  match step with
  | 2 => if cause = 2 then 120000 else 1200000
  | 3 => 1440000
  | 4 => 1464000
  | 5 => 2640000
  | _ => 6000000
/-- Has the step of an orderly stop done its work before its limit: no core runs at step 2, no started descriptor is left at
step 3? What the later steps do is done as they end. -/
def Dev.stopDone (d : Dev) : Bool :=
  if d.stopStep = 2 then d.cores.all fun e => e.2.st != .run
  else if d.stopStep = 3 then d.cores.all fun e => e.2.activeDescs == 0
  else true
/-- ORDERLY_STEP_LIMIT: a step that has done its work ends, one that has not is cut short at its limit, and the next starts
(R500, R501). -/
def execOrderlyStepLimit (s : State) : Out :=
  s.updW fun p m d =>
    if d.dead ∨ (!d.stopDone ∧ elapsed d.now d.stopT < stopLimit (d.fld p (thmR 31 0x10) 3 3) d.stopStep) then (d, []) else d.stopNext p m

/-! ### Power off (R502, R560) -/

/-- Messages that have left the package. -/
def outputs (l : List Msg) : List Msg :=
  l.filter fun m => match m with | .fabric .. => true | .port .. => true | .frame .. => true | .service .. => true | _ => false
def Nv.bank (nv : Nv) (x : Bool) : FwBank := if x then nv.bank1 else nv.bank0
def Nv.setBank (nv : Nv) (x : Bool) (b : FwBank) : Nv := if x then { nv with bank1 := b } else { nv with bank0 := b }
/-- The bytes of a selector record that its CRC-32 covers (R275, R543; the layout is DESIGN CHOICE, log entry 112). -/
def SelRec.bytes (x : SelRec) : List Byte :=
  leBytes 1 ((if x.active then 1 else 0) + (if x.trial then 2 else 0) + (if x.tried then 4 else 0)) ++ leBytes 4 x.cnt.toNat
/-- Is a record valid? -/
def SelRec.good (x : SelRec) : Bool := x.crc == crc32 x.bytes
/-- A record with its CRC-32. -/
def SelRec.sealed (active trial tried : Bool) (cnt : W32) : SelRec :=
  ⟨active, trial, tried, cnt, crc32 (SelRec.bytes ⟨active, trial, tried, cnt, 0⟩)⟩
/-- A store in which the latest write of a selector record was cut short: its slot holds no valid record, and nothing that was to
follow the write has been done (R543). -/
def Nv.cut (nv : Nv) (x : SelWrite) : Nv :=
  let spoil (o : Option SelRec) : Option SelRec := o.map fun y => { y with crc := ~~~(crc32 y.bytes) }
  let nv1 := if x.slot1 then { nv with slot1 := spoil nv.slot1 } else { nv with slot0 := spoil nv.slot0 }
  { nv1.setBank x.bank { nv.bank x.bank with st := x.was } with svnMin := x.svn }
/-- Does a reset or a loss of power come while a selector record is being written: in the tick of the write? Whether it is cut short
is a free value (R486, R543, R551; DESIGN CHOICE, log entry 112). -/
def Dev.cutsWrite (d : Dev) : Bool := match d.selWrite with | some x => x.t == d.now | none => false
/-- K0's store as a reset or a loss of power leaves it. -/
def Dev.nvLeft (d : Dev) : Nv :=
  match d.selWrite with
  | some x => if d.cutsWrite && d.fresh.1.getLsbD 0 then d.nv.cut x else d.nv
  | none => d.nv
/-- The free values used by then. -/
def Dev.freeLeft (d : Dev) : Nat := if d.cutsWrite then d.freeCount + 1 else d.freeCount
/-- Everything that needs the 48 V input is gone; the non-volatile store, the trip latch and the pins of R565 stay. -/
def Dev.powerLost (d : Dev) : Dev :=
  { nv := d.nvLeft, freeCount := d.freeLeft, vaux := d.vaux, pwrOk := d.pwrOk, rstLow := d.rstLow, ltnPres := d.ltnPres
    tripLatch := d.tripLatch, thermTrip := d.thermTrip, off := true, net := outputs d.net }
/-- Addresses of all memory. -/
def everything : Nat × Nat := (0, 2 ^ 60)
/-- VAUX leaves its range while the supplies are off: the hard-trip latch is released, and the levels of the pins are undefined
(R502, R562, R565, R575). -/
def Dev.vauxLost (d : Dev) : Dev :=
  let z := d.fresh
  { z.2 with vaux := false, tripLatch := false, aliveLvl := z.1.extractLsb' 0 8, thermTrip := z.1.getLsbD 8, pwrOff := z.1.getLsbD 9, faultPin := some (z.1.getLsbD 10) }
/-- HARD_TRIP: THERMTRIP_N goes low and is latched on the auxiliary supply, every supply goes off, nothing is saved (R502). -/
def execHardTrip (s : State) : Out :=
  s.updC fun _ _ d => if !d.vaux then (d, [], []) else if d.off then ({ d with tripLatch := true, thermTrip := true }, [], [])
    else (({ d with tripLatch := true, thermTrip := true } : Dev).powerLost, [], [everything])

end Sys2Proof.Machine
end

