-- ==== Sys2Proof/Machine/Clock.lean ====
section
/-! DEFINITION. The clock regions, the operating point, the clock monitors and the ledger (R451 to R473, R578). -/

namespace Sys2Proof.Machine

/-! ### Reference and root PLL (R451) -/

/-- Replace a field of BASE.CLK.STATUS with the count of the change. -/
def Dev.clkStat (p : Part) (d : Dev) (i : Nat) (b : Bool) : Dev := (d.setB p (clkR 31 0) i b).setF p (clkR 31 0) 32 32 (lowT d.now)
/-- REFERENCE_LOST: holdover. -/
def execReferenceLost (s : State) : Out :=
  s.upd fun p _ d => if d.dead ∨ d.bit p (clkR 31 0) 2 then d else ((d.clkStat p 2 true).clkStat p 1 false).fault p 31 63 2 0x0801
/-- REFERENCE_RESTORED: the reference has been back for 12,000,000 ticks. -/
def execReferenceRestored (s : State) : Out :=
  s.upd fun p _ d => if d.dead then d else (d.clkStat p 2 false).clkStat p 1 true
/-- ROOT_PLL_UNLOCK: a Device-fatal fault and an orderly stop. -/
def execRootPllUnlock (s : State) : Out :=
  s.upd fun p _ d => if d.dead then d else ((d.clkStat p 0 false).fault p 31 63 4 0x0802).orderlyStop p 6
/-- CLOCK_RATIO_ERROR: a derived clock is off its ratio; CTX0 names it by its row of the table of R450. -/
def execClockRatioError (clock : BitVec 4) (s : State) : Out :=
  s.upd fun p _ d => if d.dead then d else d.fault p 31 63 4 0x0803 (clock.zeroExtend 64)

/-! ### Regions (R452 to R455, R463) -/

def regionR (w q off : Nat) : Nat := clkR w (0x100 + 0x40 * q + off)
def Dev.clkReg (d : Dev) (w q : Nat) : ClkReg := smGet {} d.clkRegs (4 * w + q)
def Dev.setClkReg (d : Dev) (w q : Nat) (x : ClkReg) : Dev := { d with clkRegs := smSet {} d.clkRegs (4 * w + q) x }
/-- Target of an operating point (R453). -/
def oppTarget (opp : Nat) : Nat := match opp with | 0 => 1536 | 1 => 1280 | 2 => 1024 | _ => 768
/-- Every good core of a region is fenced with cause 3 (R455, R463). -/
def Dev.fenceRegion (p : Part) (d : Dev) (w q : Nat) : Dev :=
  ((positions (d.liveMask p w)).filter fun c => regionOf c.toNat == q && !(d.fenceWait w).any fun x => x.1 == c).foldl
    (fun d c => d.fenceRequest p w c 3) d
/-- DISCIPLINE_WINDOW: a window of 1,024 ticks ends with its count of unstretched cycles and of edges produced; one that a
departure has cut short is discarded (R453, R462, R463). DEDUCED, log entry 56. -/
def execDisciplineWindow (w : BitVec 4) (q : BitVec 2) (undrooped produced : BitVec 11) (s : State) : Out :=
  s.upd fun p _ d =>
    let x := d.clkReg w.toNat q.toNat
    if d.dead ∨ elapsed d.raw x.winT < 1024 then d
    else
      let a := regionR w.toNat q.toNat
      let target := d.fld p (a 0) 0 11
      let d := d.setClkReg w.toNat q.toNat { x with winT := d.raw }
      let d1 := (d.setF p (a 0) 16 11 undrooped.toNat).count p (a 0x10) (target - produced.toNat)
      if target < 50 * (max target undrooped.toNat - min target undrooped.toNat) then d1.fenceRegion p w.toNat q.toNat else d1
/-- SUPPLY_DROOP: the region stretches by up to 12%, given in 1/256 of its period; 0 when the supply is back (R454). -/
def execSupplyDroop (w : BitVec 4) (q : BitVec 2) (stretch : BitVec 8) (s : State) : Out :=
  s.upd fun _ _ d =>
    let x := d.clkReg w.toNat q.toNat
    let n := BitVec.ofNat 8 (min 30 stretch.toNat)
    if d.dead then d else d.setClkReg w.toNat q.toNat { x with stretch := n, strMax := BitVec.ofNat 8 (max x.strMax.toNat n.toNat) }
/-- SUPPLY_BELOW_LIMIT: the region withholds every edge and LIMIT is set (R455). -/
def execSupplyBelowLimit (w : BitVec 4) (q : BitVec 2) (s : State) : Out :=
  s.upd fun p _ d =>
    let x := d.clkReg w.toNat q.toNat
    if d.dead ∨ x.below then d
    else (d.setB p (regionR w.toNat q.toNat 0) 34 true).setClkReg w.toNat q.toNat { x with below := true, belowT := d.now, longDone := false, fenceDone := false }
/-- SUPPLY_ABOVE_LIMIT: the region resumes (R455). -/
def execSupplyAboveLimit (w : BitVec 4) (q : BitVec 2) (s : State) : Out :=
  s.upd fun _ _ d => d.setClkReg w.toNat q.toNat { d.clkReg w.toNat q.toNat with below := false }
/-- HOLD_TIMEOUT: a hold over 1,200 ticks raises a Degraded fault; one over 120,000, or the seventeenth over 1,200 within
a second, fences the region (R455). -/
def execHoldTimeout (w : BitVec 4) (q : BitVec 2) (s : State) : Out :=
  s.upd fun p _ d =>
    let x := d.clkReg w.toNat q.toNat
    let e := elapsed d.now x.belowT
    if d.dead ∨ !x.below ∨ e ≤ 1200 then d
    else
      let longs := if x.longDone then x.longs else (x.longs.filter fun t => decide (elapsed d.now t < 1200000000)) ++ [d.now]
      let fence := !x.fenceDone && (decide (120000 < e) || (!x.longDone && decide (16 < longs.length)))
      let d1 := d.setClkReg w.toNat q.toNat { x with longs := longs, longDone := true, fenceDone := x.fenceDone || fence }
      let d2 := if x.longDone then d1 else d1.fault p w.toNat 0 2 0x0804 (q.zeroExtend 64) (BitVec.ofNat 64 e)
      if fence then d2.fenceRegion p w.toNat q.toNat else d2
/-- CLOCK_MONITOR_WINDOW: jitter in ps, duty cycles in 0.5% units (R463, R471, R578). -/
def execClockMonitorWindow (w : BitVec 4) (q : BitVec 2) (jitter dutyMin dutyMax : BitVec 8) (s : State) : Out :=
  s.upd fun p _ d =>
    let n := w.toNat
    let k := q.toNat
    let a := regionR n k
    let x := d.clkReg n k
    if d.dead then d
    else
      let d1 := d.put p (a 8) (BitVec.ofNat 64 (jitter.toNat + dutyMin.toNat * 2 ^ 8 + dutyMax.toNat * 2 ^ 16 + x.strMax.toNat * 2 ^ 24))
      let jit := decide (25 < jitter.toNat)
      let duty := decide (dutyMin.toNat < 90) || decide (110 < dutyMax.toNat)
      let bad := decide (60 < jitter.toNat) || decide (dutyMin.toNat < 80) || decide (120 < dutyMax.toNat)
      let d2 := d1.setClkReg n k { x with badWin := bad, strMax := x.stretch }
      let d3 := if jit then
          let d := (d2.count p (a 0x20) 1)
          if d.bit p (a 0) 32 then d else (d.setB p (a 0) 32 true).fault p n 0 0 0x0805 (q.zeroExtend 64) (jitter.zeroExtend 64)
        else d2
      let d4 := if duty && !d3.bit p (a 0) 33 then
          (d3.setB p (a 0) 33 true).fault p n 0 2 0x0806 (q.zeroExtend 64) (BitVec.ofNat 64 (dutyMin.toNat + dutyMax.toNat * 2 ^ 8))
        else d3
      if bad && x.badWin then d4.fenceRegion p n k else d4

/-! ### Operating point (R459 to R462) -/

/-- Sites with a CLK block (R471). -/
def clkSites : List Nat := List.range 21 ++ [31]
/-- A request for an operating point at a departure count: the device and RESULT; an accepted one is told every W die on
the voted control wiring (R459, R460). -/
def Dev.freqRequest (p : Part) (d : Dev) (opp : BitVec 2) (dep : W64) : Dev × Nat :=
  let a := clkR 31 0x20
  let ahead := (dep - d.now).toNat
  let accept (r : Nat) : Dev :=
    let d1 := d.sendAll (((List.range 16).filter fun w => !d.heldOut p w).map fun w => .departure (BitVec.ofNat 5 w) opp dep)
    { d1.put p a (BitVec.ofNat 64 (1 + opp.toNat * 2 + r * 16 + lowT dep * 2 ^ 32)) with freqPend := some (opp, dep) }
  if ahead < 120000 ∨ 2 ^ 63 < ahead then (d.setF p a 4 4 1, 1)
  else match d.freqPend with
    | none => (accept 0, 0)
    | some (_, t) =>
      if reached d.now t ∨ (t - d.now).toNat ≤ 24000 then ((d.setF p a 4 4 3).fault p 31 63 0 0x080C (BitVec.ofNat 64 a) dep, 3)
      else (accept 2, 2)
/-- A write of FREQ_REQ (R459, R471). -/
def Dev.writeFreqReq (p : Part) (d : Dev) (v : W64) (lower : Bool) : Dev :=
  if lower && v.getLsbD 8 then (d.freqRequest p (v.extractLsb' 0 2) (d.get p (clkR 31 0x18))).1 else d
/-- FREQ_GO. -/
def execFreqGo (opp : BitVec 2) (s : State) : Out := s.upd fun p _ d => (d.freqRequest p opp (d.get p (clkR 31 0x18))).1
/-- The operating point in force changes everywhere. -/
def Dev.setOpp (p : Part) (d : Dev) (opp : Nat) : Dev :=
  let d1 := clkSites.foldl (fun d x => (d.setF p (clkR x 0) 4 2 opp).setF p (clkR x 0) 32 32 (lowT (d.dieCount x))) d
  (List.range 64).foldl (fun d i => d.setF p (regionR (i / 4) (i % 4) 0) 0 11 (oppTarget opp)) d1
/-- The discipline windows that are open are discarded and begin again (R462). -/
def Dev.cutWindows (d : Dev) : Dev :=
  (List.range 64).foldl (fun d i => d.setClkReg (i / 4) (i % 4) { d.clkReg (i / 4) (i % 4) with winT := d.raw }) d
/-- DEPARTURE: the pending change takes effect once its count is reached (R460, R462). -/
def execDeparture (s : State) : Out :=
  s.upd fun p _ d =>
    match d.freqPend with
    | none => d
    | some (opp, t) =>
      if !reached d.now t then d
      else
        let d1 : Dev := { (d.setB p (clkR 31 0x20) 0 false).cutWindows with freqPend := none }
        if d1.fld p (clkR 31 0) 4 2 = opp.toNat then d1 else d1.setOpp p opp.toNat

/-! ### Ledger (R464 to R468) -/

/-- What this edge adds to the count under LED.ADJ, and what is left of ADJ (R467). -/
def adjStep (raw : W64) (adj : Int) : W64 × Int :=
  if raw.toNat % 1024 ≠ 0 ∨ adj = 0 then (1, adj) else if 0 < adj then (2, adj - 1) else (0, adj + 1)
/-- The vote over the three copies (R464); `inj` marks its fault. -/
def Dev.ledVote (p : Part) (d : Dev) (inj : Bool) : Dev :=
  match d.led with
  | [a, b, c] =>
    if a = b ∧ b = c then d
    else
      let seen (d : Dev) : Dev := (d.count p (ledbR 0x100) 1).setF p (ledbR 8) 32 32 (lowT d.now)
      let one (i : Nat) (v : W64) : Dev :=
        ((seen { d with led := [v, v, v] }).setB p (ledbR 8) i true).fault p 31 63 1 0x0807 (BitVec.ofNat 64 i) v inj
      if b = c then one 0 b
      else if a = c then one 1 a
      else if a = b then one 2 a
      else
        let v := median3 a b c
        ((seen { d with led := [v, v, v] }).setB p (ledbR 8) 3 true).fault p 31 63 2 0x0808 (BitVec.ofNat 64 (ledbR 8)) v inj
  | _ => d
/-- A load takes effect unless it would move the ledger backward (R467). -/
def Dev.ledLoad (p : Part) (d : Dev) : Dev :=
  match d.loadDue with
  | none => d
  | some (v, at') =>
    if d.raw ≠ at' then d
    else
      let d1 : Dev := { d with loadDue := none }
      if reached v d1.now then { d1.setB p (ledbR 0x28) 16 true with led := [v, v, v], moved := d1.moved + (v - d1.now) }
      else (d1.setB p (ledbR 0x28) 17 true).fault p 31 63 0 0x080B (BitVec.ofNat 64 (ledbR 0x18)) v
/-- Ticks in which a region's edges are withheld (R455). -/
def Dev.limitTicks (p : Part) (d : Dev) : Dev :=
  (List.range 64).foldl (fun d i => if (d.clkReg (i / 4) (i % 4)).below then d.count p (regionR (i / 4) (i % 4) 0x18) 1 else d) d
/-- One edge of the ledger clock. DEDUCED, log entry 57. -/
def Dev.ledTick (p : Part) (d : Dev) : Dev :=
  if !d.ledOn then d
  else
    let raw := d.raw + 1
    let a := adjStep raw (BitVec.ofNat 32 (d.fld p (ledbR 0x30) 0 32)).toInt
    let d1 : Dev := { d with raw := raw, led := d.led.map (· + a.1), moved := d.moved + (a.1 - 1) }
    let d2 := (d1.setF p (ledbR 0x30) 0 32 (BitVec.ofInt 32 a.2).toNat).ledLoad p
    let z := d2.injTake p 31 11 0
    let d3 : Dev := if z.2 = 0 then z.1 else match z.1.led with
      | [x, y, w] => { z.1 with led := [x + 1, if z.2 = 1 then y else y - 1, w] }
      | _ => z.1
    let d4 := (d3.ledVote p (decide (z.2 ≠ 0))).limitTicks p
    (d4.banks.map Prod.fst).foldl (fun d b => d.bankTick p b) d4
/-- LEDGER_TICK. -/
def execLedgerTick (s : State) : Out := s.upd fun p _ d => d.ledTick p
/-- Dies that receive synchronisation messages (R465). -/
def Dev.syncDies (p : Part) (d : Dev) : List Nat := List.range 21 ++ [21, 22].filter fun g => d.berthLive p (g - 21)
/-- LEDGER_SYNC: every 1,024 ticks a synchronisation message goes to every die (R465). -/
def execLedgerSync (s : State) : Out :=
  s.upd fun p _ d =>
    if !d.ledOn ∨ elapsed d.raw d.syncT < 1024 then d
    else
      let d1 : Dev := { d.count p (ledbR 0x108) 1 with syncT := d.raw - BitVec.ofNat 64 (d.raw.toNat % 1024) }
      d1.sendAll ((d.syncDies p).map fun x => .ledgerSync (BitVec.ofNat 5 x) d.now)
/-- Byte of a correction, saturating at 127 either way (R473). -/
def corrByte (x : Int) : Nat := (BitVec.ofInt 8 (max (-127) (min 127 x))).toNat
/-- SNOOP_SYNC: the message, with the path delay of the snoop's position added, is compared with the snoop's count; no
further correction is made while the snoop holds (R465, R473). -/
def Dev.snoopSync (p : Part) (d : Dev) (c : CoreId) (count : W64) : Dev :=
  let own := d.snoop c
  let at' := count + d.pathDelay count
  let diff : Int := (at' - own).toInt
  let holding := match (d.core c).snoopHold with | some v => !reached d.now v | none => false
  if holding then d
  else if -1 ≤ diff ∧ diff ≤ 1 then d.modCore c fun k => { k with snoopHold := none, snoopOff := own - d.own }
  else
    let d1 := d.modCore c fun k => { k with snoopOff := at' - d.own, snoopHold := if 0 < diff then none else some own }
    let d2 := ((d1.setF p (ledR c 8) 0 8 (corrByte diff)).setB p (ledR c 8) 8 true).setF p (ledR c 8) 32 32 (lowT (d1.snoop c))
    (d2.count p (ledR c 0x100) 1).coreFault p c (if 64 < diff.natAbs then 2 else 1) (if 64 < diff.natAbs then 0x080A else 0x0809)
      (BitVec.ofNat 64 c.p.toNat) (BitVec.ofInt 64 diff)
/-- SNOOP_SYNC: the die controller passes the message that it received last to a core's snoop (R465). -/
def execSnoopSync (c : CoreId) (count : W64) (s : State) : Out :=
  s.upd fun p _ d => if d.coreOpen p c ∧ smGet none d.syncGot c.site.toNat = some count then d.snoopSync p c count else d
/-- LSYNC_EDGE: the count is captured, and an armed load falls due 8 ticks later; an edge less than 12,000 ticks after
the last one taken is ignored (R467, R567). -/
def execLsyncEdge (s : State) : Out :=
  s.upd fun p _ d =>
    let close := match d.lsyncT with | some t => decide (elapsed d.raw t < 12000) | none => false
    if !d.ledOn || close then d
    else
      let d1 := (d.put p (ledbR 0x20) d.now).setF p (ledbR 0x28) 0 16 (d.fld p (ledbR 0x28) 0 16 + 1)
      let d2 : Dev := { d1.count p (ledbR 0x110) 1 with lsyncT := some d.raw }
      if d2.bit p (ledbR 0x10) 0 then { d2.setB p (ledbR 0x10) 0 false with loadDue := some (d2.get p (ledbR 0x18), d2.raw + 8) } else d2
/-- LED_ADJ: LED.ADJ is written (R467, R472). -/
def execLedAdj (value : W32) (s : State) : Out := s.upd fun p _ d => d.setF p (ledbR 0x30) 0 32 value.toNat

end Sys2Proof.Machine
end

