-- ==== Sys2Proof/Machine/Events.lean ====
section
/-! DEFINITION. Sessions and their event rings, as far as faults and resets need them (R433, R434, R439 to R442, R447). -/

namespace Sys2Proof.Machine

def sessR (s : Nat) : Nat := hostR (0x100 + 8 * (s - 1))
/-- A word of a session's ring region: slot j at 0x100 j, event i at 0x4000 + 0x40 i (R439). -/
def ringR (s off : Nat) : Nat := hostR (0x40000 + 0x8000 * (s - 1) + off)
/-- A word of a session's control block (R439). -/
def ecbR (s off : Nat) : Nat := hostR (0x30000 + 0x40 * (s - 1) + off)
/-- Sessions 1 to 18. -/
def sessions : List Nat := (List.range 18).map (· + 1)
/-- Is a session open? Berth sessions are open while their berth is populated (R447). -/
def Dev.sessOpen (p : Part) (d : Dev) (s : Nat) : Bool :=
  if s = 17 ∨ s = 18 then d.bit p (brtR (s - 17) 0) 0 else decide (1 ≤ s) && decide (s ≤ 16) && d.bit p (sessR s) 0
/-- MINCLASS of a session; 0 for a berth (R447). -/
def Dev.sessMin (p : Part) (d : Dev) (s : Nat) : Nat := if s = 17 ∨ s = 18 then 0 else d.fld p (sessR s) 3 3
def Dev.eprod (p : Part) (d : Dev) (s : Nat) : W64 := d.get p (ecbR s 0)
def Dev.econs (p : Part) (d : Dev) (s : Nat) : W64 := d.get p (ecbR s 8)

/-- The eight words of an event entry (R441). -/
def eventWords (ty tag status opcode phase : Nat) (ledger : W64) (body : List W64) : List W64 :=
  BitVec.ofNat 64 (ty + phase * 2 ^ 8 + tag * 2 ^ 16 + status * 2 ^ 32 + opcode * 2 ^ 48) :: ledger
    :: (List.range 6).map fun i => body.getD i 0
/-- An event for a session: written at EPROD, or counted in ELOST while the ring is full (R441). -/
def Dev.postEvent (p : Part) (d : Dev) (s ty tag status opcode : Nat) (body : List W64) : Dev :=
  let prod := d.eprod p s
  if 256 ≤ (prod - d.econs p s).toNat then d.count p (ecbR s 0x10) 1
  else
    let phase := 1 - prod.toNat / 256 % 2
    (d.putWords p (ringR s (0x4000 + 0x40 * (prod.toNat % 256))) (eventWords ty tag status opcode phase (d.dieCount 20) body)).put p (ecbR s 0) (prod + 1)
/-- A fault record goes to the ring of every open session whose MINCLASS it reaches (R442, R520). -/
def Dev.postFault (p : Part) (d : Dev) (f : FaultRec) : Dev :=
  sessions.foldl (fun d s => if d.sessOpen p s && decide (d.sessMin p s ≤ f.cls.toNat) then d.postEvent p s 1 0 0 0 (recWords f) else d) d
/-- Every open session receives a SESSION event: causes 1 opened, 2 closed, 3 timed out, 4 closed by reset (R434, R441). -/
def Dev.postSession (p : Part) (d : Dev) (session cause : Nat) : Dev :=
  sessions.foldl (fun d s => if d.sessOpen p s then d.postEvent p s 3 0 0 0 [BitVec.ofNat 64 (session + cause * 2 ^ 8)] else d) d
/-- A write of ECONS: between ECONS and EPROD only (R440). -/
def Dev.writeEcons (p : Part) (d : Dev) (s : Nat) (v : W64) : Dev :=
  if (v - d.econs p s).toNat ≤ (d.eprod p s - d.econs p s).toNat then d.put p (ecbR s 8) v else d
/-- ECONS_WRITE. -/
def execEconsWrite (session : BitVec 5) (value : W64) (s : State) : Out :=
  s.upd fun p _ d => if d.sessOpen p session.toNat then d.writeEcons p session.toNat value else d

/-- Session and slot of a host command's bytes (R429). -/
def cmdSession (bs : List Byte) : Nat := leNat ((bs.drop 8).take 2)
def cmdTag (bs : List Byte) : BitVec 16 := BitVec.ofNat 16 (leNat ((bs.drop 2).take 2))
def slotKey (s : Nat) (tag : BitVec 16) : Nat := 64 * s + tag.toNat % 64
/-- Forget the words of a session's ring region from `lo` on (R434, R438). -/
def Dev.clearRing (d : Dev) (s lo : Nat) : Dev :=
  { d with ctl := d.ctl.filter fun e => !(decide (ringR s lo ≤ e.1) && decide (e.1 < ringR s 0x8000)) }
/-- A session closes (R434). -/
def Dev.closeSession (p : Part) (d : Dev) (s cause : Nat) : Dev :=
  let kept := d.qps.filter (fun e => match e.2 with | some q => q.sess != s | none => false)
  let d1 : Dev := { d.clearRing s 0x4000 with
    qps := kept
    rdma := d.rdma.filter fun o => kept.any fun e => e.1 == o.qp
    deferred := d.deferred.map fun x => if x.sess == s then { x with sess := 0 } else x
    mrs := d.mrs.filter fun m => m.sess != s
    hostQ := d.hostQ.filter fun c => c.begun || cmdSession c.bytes != s
    hostUse := d.hostUse.filter fun e => e.1 / 64 != s }
  ((((d1.put p (ecbR s 0) 0).put p (ecbR s 8) 0).put p (ecbR s 0x10) 0).put p (sessR s) 0).postSession p s cause

end Sys2Proof.Machine
end

