-- ==== Sys2Proof/Machine/Faults.lean ====
section
/-! DEFINITION. The package log, acknowledgement, the fault pins and injection (R513 to R532, R577). -/

namespace Sys2Proof.Machine

/-! ### Package log (R520 to R522) -/

def plogR (i w : Nat) : Nat := fltR 20 (0x10000 + 0x40 * i + 8 * w)
def plogValid (p : Part) (d : Dev) (i : Nat) : Bool := d.bit p (plogR i 6) 0
/-- Does entry i hold a record that is not acknowledged? -/
def Dev.plogOpen (p : Part) (d : Dev) (i : Nat) : Bool := plogValid p d i && !d.bit p (plogR i 6) 1
def Dev.plogClass (p : Part) (d : Dev) (i : Nat) : Nat := d.fld p (plogR i 1) 27 3
def Dev.plogEsc (p : Part) (d : Dev) (i : Nat) : Bool := d.bit p (plogR i 1) 30
/-- Class as raised. -/
def Dev.plogOrig (p : Part) (d : Dev) (i : Nat) : Nat := d.plogClass p i - (if d.plogEsc p i then 1 else 0)
def Dev.plogSeq (p : Part) (d : Dev) (i : Nat) : Nat := d.fld p (plogR i 1) 48 16
def Dev.plogCode (p : Part) (d : Dev) (i : Nat) : Nat := d.fld p (plogR i 1) 32 16
def Dev.nextSeq (p : Part) (d : Dev) : Nat := d.fld p (fltR 20 0x800) 0 16
def Dev.pend (p : Part) (d : Dev) (c : Nat) : Nat := d.fld p (fltR 20 0x808) (10 * c) 10
def Dev.setPend (p : Part) (d : Dev) (c n : Nat) : Dev := d.setF p (fltR 20 0x808) (10 * c) 10 n
/-- Entries of the log that are not acknowledged. -/
def Dev.plogOpens (p : Part) (d : Dev) : List Nat := (List.range 512).filter (d.plogOpen p)
/-- The record as K0 reports it: escalated while a record of its class is unacknowledged (R522). -/
def Dev.escalated (p : Part) (d : Dev) (f : FaultRec) : FaultRec :=
  if f.cls.toNat < 4 ∧ 1 ≤ d.pend p f.cls.toNat then { f with cls := f.cls + 1, esc := true } else { f with esc := false }
/-- Class of a reported record as it was raised. -/
def recOrig (f : FaultRec) : Nat := f.cls.toNat - (if f.esc then 1 else 0)
/-- Write a record with its SEQ to the log (R520). -/
def Dev.writePlog (p : Part) (d : Dev) (f : FaultRec) : Dev :=
  let i := f.seq.toNat % 512
  let d1 := ((d.postFault p f).putWords p (plogR i 0) (recWords f)).put p (plogR i 6) 1
  let d2 := ((d1.setF p (fltR 20 0x800) 0 16 (f.seq.toNat + 1)).setPend p (recOrig f) (d1.pend p (recOrig f) + 1)).count p (fltR 20 0x840) 1
  let d3 := if f.esc then d2.count p (fltR 20 0x848) 1 else d2
  { d3 with policyQ := d3.policyQ ++ [f] }
/-- A record arrives at K0 (R520, R522). DEDUCED, log entry 63. -/
def Dev.takeRecord (p : Part) (d : Dev) (raised : FaultRec) : Dev :=
  let f := { d.escalated p raised with seq := BitVec.ofNat 16 (d.nextSeq p) }
  let i := f.seq.toNat % 512
  let lost := d.count p (fltR 20 0x850) 1
  if !d.plogOpen p i then d.writePlog p f
  else if d.plogClass p i ≤ 1 then (lost.setPend p (d.plogOrig p i) (d.pend p (d.plogOrig p i) - 1)).writePlog p f
  else if f.cls.toNat ≤ 1 then lost
  else lost.setB p (fltR 20 0x800) 16 true
/-- Arrival counts of the 0x0102 records of one source within the last second (R523). -/
def Dev.noteCe (d : Dev) (f : FaultRec) : Dev :=
  let l := (smGet [] d.ceTimes f.source.toNat).filter fun t => decide (elapsed d.now t < 1200000000)
  if f.code = 0x0102 then { d with ceTimes := smSet [] d.ceTimes f.source.toNat (l ++ [d.now]) } else d
/-- Does a record travel on the voted control wiring: its site is in fall-back (R294, R517)? -/
def Dev.recWired (p : Part) (d : Dev) (f : FaultRec) : Bool := d.inFallback p (endpointOf (srcSite f.source).toNat)
/-- A record on its way reaches K0; one that comes after step 6 of an orderly stop is lost (R530). -/
def Dev.recArrives (p : Part) (d : Dev) (f : FaultRec) : Dev :=
  let d1 : Dev := { d with records := d.records.erase f }
  if 7 ≤ d1.stopStep ∨ d1.off then d1 else (d1.noteCe f).takeRecord p f
/-- Does a record stand before another in the order of R469: by count, then by source number? -/
def recBefore (f g : FaultRec) : Bool :=
  decide (f.ledger.toNat < g.ledger.toNat) || (f.ledger == g.ledger && decide (f.source.toNat < g.source.toNat))
/-- The first of a list of records in the order of R469; of one source's with equal counts, the one it raised first. -/
def firstRec : List FaultRec → Option FaultRec
  | [] => none
  | f :: r => match firstRec r with
    | some g => if recBefore g f then some g else some f
    | none => some f
/-- FAULT_RECORD_ARRIVAL: of the records on their way over the lattice the first in the order of R469 reaches K0 (R517, R520, R522,
R530). DEDUCED, log entry 63. -/
def execFaultRecordArrival (s : State) : Out :=
  s.upd fun p _ d =>
    match firstRec (d.records.filter fun f => !d.recWired p f) with
    | none => d
    | some f => d.recArrives p f

/-! ### Frames of the voted control wiring (R294, R295) -/

/-- Does the frame channel of a site carry a message: register accesses of a site in fall-back, and K0's with a site that
is not ready, with their answers; synchronisation messages; departure notices (R294, R295, R460, R479)? -/
def Dev.framed (p : Part) (d : Dev) (site : Nat) (m : Msg) : Bool :=
  let k0 (x : Src) (other : Nat) : Bool := srcNode x == d.node && isK (srcSite x).toNat && other == site && !d.siteReady p site
  let fallen := d.inFallback p (endpointOf site)
  match m with
  | .req r => onWiring r && ((fallen && d.endsTouch p (endpointOf site) m) || k0 r.src (d.placeSite p (d.place p (gaLocal r.addr))))
  | .resp r => (fallen && d.endsTouch p (endpointOf site) m) || k0 r.dst r.from'.toNat
  | .ledgerSync x _ | .departure x _ _ => x.toNat == site
  | _ => false
/-- FRAME: a frame is received and voted; a channel in error is outvoted and reported. An access is taken where it stands,
a synchronisation message aligns a die's ledger copy, a departure notice reaches its die, and a record of a site in
fall-back reaches K0 (R294, R295, R460, R465, R517). DEDUCED, log entry 87. -/
def execFrame (site : BitVec 5) (ch0 ch1 ch2 : BitVec 128) (m : Msg) (s : State) : Out :=
  s.upd fun p _ d =>
    let e := endpointOf site.toNat
    let z := d.injTake p 31 10 site.toNat
    let d := match outvoted (if z.2 = 0 then ch0 else ~~~ch0) ch1 ch2 with
      | some i => z.1.fault p 31 e 1 0x0404 (BitVec.ofNat 64 i) 0 (decide (z.2 ≠ 0))
      | none => z.1
    match m with
    | .record f => if d.records.contains f && d.recWired p f && srcSite f.source == site then d.recArrives p f else d
    | m =>
      if !d.net.contains m || !d.framed p site.toNat m then d
      else match m with
        | .ledgerSync x count => (d.recv m).dieSync x.toNat count
        | .departure .. => d.recv m
        | m => { (d.recv m).count p (latR e 0x240) 1 with arrived := d.arrived ++ [(e, .ctl, m)] }
/-- Acknowledge entry i (R521). -/
def Dev.ackEntry (p : Part) (d : Dev) (i : Nat) : Dev :=
  (d.setB p (plogR i 6) 1 true).setPend p (d.plogOrig p i) (d.pend p (d.plogOrig p i) - 1)
/-- A write of K0.FLT.ACK (R521). -/
def Dev.ack (p : Part) (d : Dev) (seq : BitVec 16) (upto : Bool) : Dev :=
  let i := seq.toNat % 512
  let age (x : Nat) : Nat := (BitVec.ofNat 16 (d.nextSeq p) - 1 - BitVec.ofNat 16 x).toNat
  if !(d.plogOpen p i && d.plogSeq p i == seq.toNat) then d.noticeIgnored p (fltR 20 0x810) (BitVec.ofNat 64 (seq.toNat + if upto then 2 ^ 16 else 0))
  else if upto then ((d.plogOpens p).filter fun j => decide (age seq.toNat ≤ age (d.plogSeq p j))).foldl (fun d j => d.ackEntry p j) d
  else d.ackEntry p i
/-- FLT_ACK. -/
def execFltAck (seq : BitVec 16) (upto : Bool) (s : State) : Out := s.upd fun p _ d => d.ack p seq upto

/-! ### Pins (R524 to R526, R577) -/

/-- FAULT_N is high (R526); without VAUX its level is undefined (R565). -/
def Dev.faultN (p : Part) (d : Dev) : Bool :=
  match d.faultPin with
  | some b => b
  | none => !d.bit p (fltR 20 0x800) 16 && !(d.plogOpens p).any fun i => decide (d.fld p (fltR 20 0x818) 0 3 ≤ d.plogClass p i)
/-- Unit group of a site's records. -/
def siteGroup (site : Nat) : Nat := if site < 8 then 2 else if site < 16 then 3 else if site < 20 then 4 else if site = 20 then 0 else 7
/-- Unit group of a record: the first row of R577 that matches. -/
def recordGroup (site code ctx0 : Nat) : Nat :=
  if code = 0x0003 then ctx0 % 8
  else if code = 0x0A03 then siteGroup ctx0
  else if site < 23 then siteGroup site
  else if code / 256 = 3 ∨ code = 0x0601 then 6
  else if code / 256 = 6 ∨ code / 256 = 7 then 5
  else if code / 256 = 0x0A then 7 else 1
/-- Group of entry i. -/
def Dev.plogGroup (p : Part) (d : Dev) (i : Nat) : Nat :=
  recordGroup (d.fld p (plogR i 1) 6 5) (d.plogCode p i) (d.get p (plogR i 2)).toNat
/-- Step of the boot order that a group belongs to (R478, R525). -/
def groupStep (g : Nat) : Nat := match g with | 0 => 2 | 1 => 3 | 2 => 5 | 3 => 5 | 4 => 4 | 5 => 8 | 6 => 7 | _ => 6
/-- Has step n of the boot order completed? DEDUCED, log entry 62. -/
def Dev.bootDone (p : Part) (d : Dev) (n : Nat) : Bool := d.bootAt p == 15 || (decide (n < d.bootAt p) && decide (d.bootAt p ≤ 8))
/-- Does no stop condition hold for ALIVE[g] (R525)? In STOPPED the pins keep their levels (R565). -/
def Dev.aliveRuns (p : Part) (d : Dev) (g : Nat) : Bool :=
  d.bootDone p (groupStep g) && !d.beatLost.getLsbD g && !d.off && decide (d.stopStep < 8) &&
    !(d.plogOpens p).any fun i => decide (d.fld p (fltR 20 0x818) 4 3 ≤ d.plogClass p i) && d.plogGroup p i == g
/-- ALIVE_TOGGLE: at a count that is a multiple of 600,000 every pin without a stop condition changes level (R524). -/
def execAliveToggle (s : State) : Out :=
  s.upd fun p _ d =>
    if d.now.toNat % 600000 ≠ 0 then d
    else { d with aliveLvl := (List.range 8).foldl (fun x g => if d.aliveRuns p g then x ^^^ BitVec.ofNat 8 (2 ^ g) else x) d.aliveLvl }
/-- HEARTBEAT: a unit group gives its heartbeat (R524, R525). -/
def execHeartbeat (group : BitVec 3) (s : State) : Out :=
  s.upd fun _ _ d => { d with beatT := smSet 0 d.beatT group.toNat d.now, beatLost := d.beatLost &&& ~~~(BitVec.ofNat 8 (2 ^ group.toNat)) }
/-- HEARTBEAT_MISSING: a group's heartbeat has been missing for 2,400,000 ticks (R525). The base, which finds it, has no power in
STOPPED (R501). -/
def execHeartbeatMissing (group : BitVec 3) (s : State) : Out :=
  s.upd fun p _ d =>
    let g := group.toNat
    if d.dead ∨ 8 ≤ d.stopStep ∨ !d.bootDone p (groupStep g) ∨ d.beatLost.getLsbD g ∨ elapsed d.now (smGet 0 d.beatT g) < 2400000 then d
    else ({ d with beatLost := d.beatLost ||| BitVec.ofNat 8 (2 ^ g) } : Dev).fault p 31 63 2 0x0003 (BitVec.ofNat 64 g)

/-! ### Injection (R527, R528, R530) -/

/-- Does a site have a checker (R527)? -/
def hasChecker (site checker : Nat) : Bool :=
  match checker with
  | 1 | 2 | 3 => isW site
  | 4 => isW site || isL site || isK site
  | 8 | 9 => isL site
  | 5 | 6 | 7 | 10 | 11 | 12 => isBase site
  | _ => false
/-- A write of x.FLT.INJ (R527). -/
def Dev.writeInj (p : Part) (d : Dev) (site : Nat) (v : W64) (lower upper : Bool) : Dev :=
  let a := fltR site 8
  let d1 := d.regStore p a v lower upper
  if !lower || !v.getLsbD 31 then d1
  else
    let clean (lo n : Nat) (rsv : List Nat) : Nat := if rsv.contains (bits v lo n) then 0 else bits v lo n
    let checker := clean 0 4 [13, 14, 15]
    let bitsF := clean 4 2 [3]
    let count := bits v 16 8
    let g := bits v 8 6 + 64 * clean 24 4 [12, 13, 14, 15]
    let unit := if checker = 4 then g else bits v 8 6
    let absent := checker == 4 && (decide (768 ≤ g) || d.fld p (latR (endpointOf site) (0x1000 + 8 * g)) 13 2 == 3)
    if (smGet none d1.inj site).isSome || checker == 0 || bitsF == 0 || count == 0 || (checker == 10 && bitsF == 2)
        || !hasChecker site checker || absent then d1.noticeIgnored p a v
    else d1.setInj p site (some { checker := checker, bits := bitsF, unit := unit, left := count })
/-- INJ_GO. -/
def execInjGo (site : BitVec 5) (value : W64) (s : State) : Out :=
  s.upd fun p _ d => if (regFields p (fltR site.toNat 8)).isSome then d.writeInj p site.toNat (value ||| BitVec.ofNat 64 (2 ^ 31)) true true else d

/-! ### Guest records (R529) -/

/-- The record six words hold (R513). -/
def recOf (w0 w1 w2 w3 w4 w5 : W64) : FaultRec :=
  { ledger := w0, source := w1.extractLsb' 0 27, cls := w1.extractLsb' 27 3, inj := w1.getLsbD 31, code := w1.extractLsb' 32 16
    ctx0 := w2, ctx1 := w3, ctx2 := w4, ctx3 := w5 }
/-- A guest's record, if it is one: its SOURCE carries the guest's own site code; class 4 counts as 3 (R529). -/
def guestRecord (src : Src) (f : FaultRec) : Option FaultRec :=
  if isG (srcSite src).toNat && srcSite f.source == srcSite src then some { f with cls := if 4 ≤ f.cls.toNat then 3 else f.cls } else none
/-- INTAKE: word 5 of a guest's record is written and the record joins those on their way; one that breaks the rule
is refused. -/
def execIntake (src : Src) (w0 w1 w2 w3 w4 w5 : W64) (s : State) : Out :=
  s.upd fun _ _ d =>
    match guestRecord src (recOf w0 w1 w2 w3 w4 w5) with
    | some f => { d with records := d.records ++ [f] }
    | none => d

end Sys2Proof.Machine
end

