-- ==== Sys2Proof/Machine/Image.lean ====
section
/-! DEFINITION. Firmware images, banks and the selector (R537 to R545, R552). -/

namespace Sys2Proof.Machine

/-! ### Image header (R537) -/

/-- Little-endian field of `n` bytes at byte `lo`. -/
def imgF (h : List Byte) (lo n : Nat) : Nat := leNat ((h.drop lo).take n)
def imgType (h : List Byte) : Nat := imgF h 6 1
def imgKey (h : List Byte) : Nat := imgF h 7 1
def imgVersion (h : List Byte) : W64 := BitVec.ofNat 64 (imgF h 16 8)
def imgSvn (h : List Byte) : Nat := imgF h 24 2
def imgLen (h : List Byte) : Nat := imgF h 32 8
def imgHash (h : List Byte) : List Byte := (h.drop 40).take 64
/-- REVMASK bit of a die revision byte. -/
def revBit (r : BitVec 8) : Nat := if r = 0 then 0 else if r = 1 then 1 else 2
/-- Does REVMASK hold the base revision and every die revision present (R539)? -/
def revsCovered (p : Part) (mask : Nat) : Bool :=
  mask.testBit (if p.baseGB then 9 else 8) && (List.range 21).all fun s => mask.testBit (revBit (p.revOf s))
/-- The first of checks 1 to 7 of R539 that a header fails, as its status of R536; 0 where it passes them. -/
def headerStatus (p : Part) (nv : Nv) (h : List Byte) : Nat :=
  if h.length ≠ 640 ∨ h.take 4 ≠ [0x4A, 0x5A, 0x46, 0x57] ∨ imgF h 4 2 ≠ 1 ∨ imgF h 28 4 ≠ 0 ∨ imgF h 104 24 ≠ 0 then 2
  else if imgType h = 0 ∨ 3 < imgType h then 3
  else if imgF h 8 2 ≠ 0x0960 ∨ (imgF h 10 2 ≠ 0xFFFF ∧ imgF h 10 2 ≠ p.berth.toNat) then 4
  else if !revsCovered p (imgF h 12 4) then 5
  else if 4 ≤ imgKey h ∨ nv.revoked.getLsbD (imgKey h) then 6
  else if 64 ≤ imgSvn h ∨ imgSvn h < nv.svnMin.toNat then 7
  else if imgType h = 1 then (if 1 ≤ imgLen h ∧ imgLen h ≤ 16776576 then 0 else 8)
  else if imgType h = 2 then (if imgLen h = 272 then 0 else 8)
  else if imgLen h = 8 then 0 else 8

/-! ### Banks and selector (R542, R543) -/

/-- The newest valid record; the counter orders the two slots. -/
def Nv.selector (nv : Nv) : Option SelRec :=
  match nv.slot0.filter SelRec.good, nv.slot1.filter SelRec.good with
  | some a, some b => if b.cnt.toNat ≤ a.cnt.toNat then some a else some b
  | some a, none => some a
  | none, b => b
/-- Is the newest valid record in slot 1? -/
def Nv.inSlot1 (nv : Nv) : Bool :=
  match nv.slot0.filter SelRec.good, nv.slot1.filter SelRec.good with
  | some a, some b => decide (a.cnt.toNat < b.cnt.toNat)
  | none, some _ => true
  | _, _ => false
/-- A new record in the slot that does not hold the newest one, with the counter advanced by one. -/
def Nv.writeSelector (nv : Nv) (active trial tried : Bool) : Nv :=
  let r := SelRec.sealed active trial tried (match nv.selector with | some x => x.cnt + 1 | none => 1)
  if nv.inSlot1 then { nv with slot0 := some r } else { nv with slot1 := some r }
/-- Status of a header: the first check of R539 that fails. -/
def imgStatus (p : Part) (nv : Nv) (h : List Byte) : Nat :=
  let st := headerStatus p nv h
  if st ≠ 0 then st else if Config.signatureOk (imgKey h) (h.take 128) (h.drop 128) then 0 else 9
/-- Does a bank pass its boot check: a firmware image whose header passes R539 and whose body matches BODY_HASH (R539, R541, R545,
R548)? -/
def bankPasses (p : Part) (nv : Nv) (x : Bool) : Bool :=
  let b := nv.bank x
  imgStatus p nv b.header == 0 && imgType b.header == 1 && b.body.length == imgLen b.header && sha512 b.body == imgHash b.header
/-- What boot selection ends in. -/
structure Selection where
  nv : Nv
  running : Option Bool
  /-- Codes the ROM raises, with the bank each concerns. -/
  codes : List (Nat × Bool)
/-- Boot selection (R545). A selected bank in no state that R545 names goes to the fall-back without being marked (log entry 12). -/
def selectBank (p : Part) (nv : Nv) : Selection :=
  let other (nv : Nv) (x : Bool) (codes : List (Nat × Bool)) : Selection :=
    if (nv.bank !x).st = 3 ∧ bankPasses p nv (!x) then ⟨nv.writeSelector (!x) false false, some !x, codes⟩
    else ⟨nv, none, codes ++ [(0x0B05, x)]⟩
  let fall (nv : Nv) (x : Bool) (code : Nat) : Selection := other (nv.setBank x { nv.bank x with st := 4 }) x [(code, x)]
  match nv.selector with
  | none => ⟨nv, none, [(0x0B05, false)]⟩
  | some r =>
    let x := r.active
    if (nv.bank x).st = 2 ∧ r.tried then fall nv x 0x0B04
    else if (nv.bank x).st = 2 then
      let nv1 := nv.writeSelector x true true
      if bankPasses p nv1 x then ⟨nv1, some x, []⟩ else fall nv1 x 0x0B03
    else if (nv.bank x).st = 3 then
      (if bankPasses p nv x then ⟨nv, some x, []⟩ else fall nv x 0x0B03)
    else other nv x []
/-- Class of a code of domain 0x0B (R553). -/
def fwClass (code : Nat) : Nat := if code = 0x0B03 ∨ code = 0x0B04 then 2 else if code = 0x0B05 then 4 else 0
/-- A fault of K0's firmware part. -/
def Dev.fwFault (p : Part) (d : Dev) (code : Nat) (c0 c1 : W64 := 0) : Dev := d.fault p 20 0 (fwClass code) code c0 c1
/-- FW.BANK[n] (R552). -/
def bankWord (b : FwBank) : W64 :=
  BitVec.ofNat 64 (b.st + imgSvn b.header % 64 * 2 ^ 8 + imgKey b.header % 4 * 2 ^ 14 + (imgVersion b.header).toNat / 2 ^ 32 * 2 ^ 32)
/-- FW.KEYS (R552). -/
def keysWord (nv : Nv) : W64 := BitVec.ofNat 64 (nv.revoked.toNat + nv.svnMin.toNat * 2 ^ 8)

end Sys2Proof.Machine
end

