-- ==== Sys2Proof/Machine/Boot.lean ====
section
/-! DEFINITION. Power, the two package resets, the boot order, and the fault policy (R474 to R486, R523, R560 to R566). -/

namespace Sys2Proof.Machine

/-! ### Cold reset (R474, R475) -/

/-- The LEAVE of every port of a package that is reset, in four blocks each (R354). -/
def Dev.leaveMsgs (p : Part) (d : Dev) : List Msg :=
  ((List.range 64).filter fun f => leaves (d.portSt p f)).flatMap fun f => List.replicate 4 (Msg.port (BitVec.ofNat 6 f) (.leave 1))
/-- What a cold reset leaves: fuses and K0's store, beside the levels of input pins; a running package's ports send LEAVE first
(R354). It does not wait for WRST_N (R566, R575). -/
def Dev.coldReset (p : Part) (d : Dev) (cause : Nat) : Dev :=
  let leaving := if d.off then [] else d.leaveMsgs p
  { nv := d.nvLeft, freeCount := d.freeLeft, vaux := d.vaux, pwrOk := true, rstLow := d.rstLow, ltnPres := d.ltnPres
    tripLatch := d.tripLatch, thermTrip := d.tripLatch, rstCause := cause, net := outputs d.net ++ leaving }
/-- POWER_ON: PWR_OK rises with VAUX in range (R474, R561). -/
def execPowerOn (s : State) : Out :=
  s.updC fun p _ d => if d.vaux then (d.coldReset p 1, [], [everything]) else (d, [], [])
/-- VAUX_APPLIED: the auxiliary input enters its range; it had been removed, which releases the hard-trip latch, and the pins
take their power-up levels (R502, R561, R562, R565). -/
def execVauxApplied (s : State) : Out :=
  s.upd fun _ _ d =>
    if d.off then { d with vaux := true, pwrOk := false, tripLatch := false, thermTrip := false, pwrOff := false, aliveLvl := 0, faultPin := none } else d
/-- POWER_CUT: every supply goes off with none of the steps of R500 (R560); of a package without supplies it is VAUX that goes
(R562, R575; DESIGN CHOICE, log entry 109). -/
def execPowerCut (s : State) : Out :=
  s.updC fun _ _ d =>
    if d.off then (if d.pwrOk then { d with pwrOk := false } else if d.vaux then d.vauxLost else d, [], [])
    else ({ d.powerLost with pwrOk := false }, [], [everything])
/-- RST_N: held low for 10 us or more it starts a cold reset and holds it; boot begins when it rises (R566). -/
def execRstN (low longPulse : Bool) (s : State) : Out :=
  s.updC fun p _ d =>
    if !low then ({ d with rstLow := false }, [], [])
    else if !longPulse then (d, [], [])
    else if d.off then ({ d with rstLow := true }, [], [])
    else ({ d.coldReset p 2 with rstLow := true }, [], [everything])
/-- COLD_RESET: a cold reset with a source of R474; source 3 waits until 1,200,000 ticks after its reply, source 4 for
the firmware watchdog, which FIRMWARE_WATCHDOG raises. -/
def execColdReset (cause : BitVec 4) (s : State) : Out :=
  s.updC fun p _ d =>
    if d.dead ∨ cause = 0 ∨ 4 < cause.toNat ∨ (cause = 3 ∧ !d.resetFallsDue 2) then (d, [], [])
    else (d.coldReset p cause.toNat, [], [everything])

/-! ### Warm reset (R475 to R477, R486) -/

/-- Registers a warm reset leaves whole, once banks are reset (R475, R490, R503, R519, R520). -/
def warmKept (p : Part) (d : Dev) (a : Nat) : Bool :=
  let site := ctlSite a; let blk := ctlBlk a; let off := ctlOff a
  if blk = 2 then decide (0x100 ≤ off) && d.bit p a 32
  else if isW site then (blk == 4 && decide (0x1000 ≤ off)) || (blk == 0x10 && (off == 0 || off == 0x10)) || (blk == 3 && decide (0x200 ≤ off) && (off % 0x20 == 0))
  else if blk = 4 ∧ (isL site ∨ isBase site) then decide (0x1000 ≤ off)
  else if isL site then (blk == 0x3F && (off == 0x28 || (decide (0x1000 ≤ off) && decide (off < 0x1600)))) || (decide (0x30 ≤ blk) && decide (blk < 0x3C) && off == 8)
  else if isK site then blk == 1 && ((decide (0x100 ≤ off) && decide (off < 0x400)) || off == 0x800 || off == 0x808 || decide (0x10000 ≤ off))
  else (blk == 1 && decide (0x100 ≤ off))
    || (blk == 3 && off == 0)
    || (decide (0x20 ≤ blk) && decide (blk ≤ 0x36) && decide (0x300 ≤ off) && decide (off < 0x1000))
    || (decide (0x40 ≤ blk) && decide (blk < 0x60))
/-- Fields kept of a register of which only a part is: the RWS fields, and the parts R475 and its rules name. -/
def warmFields (a : Nat) : List (Nat × Nat) :=
  let site := ctlSite a; let blk := ctlBlk a; let off := ctlOff a
  if blk = 1 ∧ off = 0 ∧ (isK site ∨ isBase site) then [(0, 4)]
  else if blk = 2 ∧ off = 0 then [(48, 8)]
  else if blk = 3 ∧ off = 0 then [(4, 2)]
  else if isW site ∧ blk = 3 ∧ off < 0x200 ∧ off % 0x40 = 0 then [(0, 11)]
  else if isL site ∧ blk = 0x3F ∧ off = 0x20 then [(2, 1)]
  else if isL site ∧ 0x30 ≤ blk ∧ blk < 0x3C ∧ off = 0 then [(0, 3), (4, 2)]
  else if isBase site ∧ (blk = 0x60 ∨ blk = 0x61) then [(0, 1), (8, 1)]
  else if isBase site ∧ (blk = 0x35 ∨ blk = 0x36) ∧ off = 0 then [(5, 1)]
  else if isBase site ∧ 0x20 ≤ blk ∧ blk ≤ 0x36 ∧ 0x1000 ≤ off ∧ off < 0x2800 then [(0, 48)]
  else []
/-- Is a register the STATE of a lantern? -/
def isLtnState (a : Nat) : Bool :=
  isBase (ctlSite a) && decide (0x80 ≤ ctlBlk a) && decide (ctlBlk a < 0xC0) && ctlBlk a % 4 == 0 && ctlOff a == 0x408
/-- The word of a register after a warm reset; of a lantern's STATE it is LIT alone that stays (R477). -/
def Dev.warmWord (p : Part) (d : Dev) (a : Nat) (w : W64) : W64 :=
  if isLtnState a then (if bits w 0 3 = 3 then 3 else 0)
  else if warmKept p d a then w
  else
    let rws := match regFields p a with
      | some fs => (fs.filter fun f => f.acc == .rws).map fun f => (f.lo, f.width)
      | none => []
    (rws ++ warmFields a).foldl (fun x f => withBits x f.1 f.2 (bits w f.1 f.2)) (resetWord p a)
/-- Control space after a warm reset. -/
def Dev.warmCtl (p : Part) (d : Dev) : SMap W64 :=
  d.ctl.foldl (fun m e => smSet (resetWord p e.1) m e.1 (d.warmWord p e.1 (d.get p e.1))) []
/-- A core after a warm reset: its ASEQ numbering and its snoop stay, and a fenced core stays fenced. -/
def CoreSt.warm (k : CoreSt) : CoreSt :=
  { st := if k.st = .fenced then .fenced else .reset, aseq := k.aseq, snoopOff := k.snoopOff, snoopHold := k.snoopHold }
/-- An interrupted INIT is recorded (R482). -/
def Dev.noteInit (p : Part) (d : Dev) : Dev :=
  (List.range 4).foldl (fun d l => if d.initBusy p l then d.setB p (memcR l 0x20) 2 true else d) d
/-- Steps 1 to 4 of R477, with the fences in progress completed, and what a warm reset keeps. DEDUCED, log entry 61. -/
def Dev.warmReset (p : Part) (m : List Host.Cell) (d : Dev) (cause : Nat) : Dev × Wr :=
  let z := Dev.intoSelfs p (List.range 48) m ((List.range 16).foldl (fun d w => d.fenceEnd p w) d)
  let d1 := ((List.range 32).foldl (fun d b => (d.bankReset p b).bankParked p b) (z.1.recalDiscard p)).noteInit p
  let d2 := ((List.range 64).filter (d.portUp p)).foldl (fun d f => d.leaveFault p f 7) d1
  let leaving := d.leaveMsgs p
  let count := min 0xFFFF (d.fld p (idR 20 0x110) 16 16 + 1)
  let warm := d.bootAt p == 15 || d.warmBoot
  let d3 : Dev :=
    { ctl := d2.warmCtl p, cores := d2.cores.map fun e => (e.1, e.2.warm)
      ecc := d2.ecc.filter (fun e => decide (e.1 < 0x400000000000))
      node := d2.node, raw := d2.raw, led := d2.led, ledOn := d2.ledOn, dieOff := d2.dieOff, dieHold := d2.dieHold, moved := d2.moved, syncT := d2.syncT
      freeCount := max d2.freeCount d.freeLeft, net := outputs d.net ++ leaving
      chkStale := d2.chkStale, chkOk := d2.chkOk, chkInit := d2.chkInit, weakLog := d2.weakLog
      chans := d2.chans.map (fun e => (e.1, { q := e.2.q, selfDue := e.2.selfDue, scrub := 0, timing := e.2.timing })) |>.filter (fun e => decide (e.2 ≠ {}))
      greqs := d2.greqs, gnext := d2.gnext
      regions := d2.regions.map (fun e => (e.1, e.2.map fun r => { r with moving := false }))
      lastReset := d2.now, resetRaw := d2.raw, banks := d2.banks
      slews := d2.slews.filter (fun e => warmKept p d2 e.1), rolesOut := d2.rolesOut, lanesBad := d2.lanesBad, halfBad := d2.halfBad, ltnPres := d2.ltnPres
      ltnId := d2.ltnId.filter fun e => d2.ltnSt p e.1 == 3
      vaux := d2.vaux, pwrOk := d2.pwrOk, rstLow := d2.rstLow, wrstLow := d2.wrstLow, thermTrip := d2.thermTrip
      tripLatch := d2.tripLatch, warmBoot := warm, rstCause := cause, lsyncT := d2.lsyncT, clkRegs := d2.clkRegs
      nv := d.nvLeft }
  let d4 := (d3.setF p (idR 20 0x110) 16 16 count).setF p (idR 20 0x100) 0 7 (1 + 32)
  ((sessions.filter fun s => decide (s ≤ 16) && d.sessOpen p s).foldl (fun d s => d.postSession p s 4) d4, z.2)
/-- May a warm reset begin? The package has power, is not held in reset, and no orderly stop has begun (R500, R501). -/
def Dev.warmAllowed (d : Dev) : Bool := !d.dead && d.stopStep == 0
/-- WARM_RESET: sources 5, 6 and 7 of R474; source 6 waits until 1,200,000 ticks after its reply. -/
def execWarmReset (cause : BitVec 4) (s : State) : Out :=
  s.updW fun p m d =>
    if !d.warmAllowed ∨ cause.toNat < 5 ∨ 7 < cause.toNat ∨ (cause = 6 ∧ !d.resetFallsDue 1) then (d, []) else d.warmReset p m cause.toNat
/-- WRST_N: held low for 10 us or more it starts a warm reset; boot waits for it to rise, which releases the reset (R566). -/
def execWrstN (low longPulse : Bool) (s : State) : Out :=
  s.updW fun p m d =>
    if !low then (if d.wrstLow then { d with wrstLow := false, resetRaw := d.raw } else d, [])
    else if !longPulse ∨ !d.warmAllowed then (d, [])
    else d.warmReset p m 5 |> fun z => ({ z.1 with wrstLow := true }, z.2)

/-! ### The boot order (R478 to R484) -/

/-- ID.BOOT.STEP. -/
def Dev.setStep (p : Part) (d : Dev) (n : Nat) : Dev := d.setF p (idR 20 0x100) 0 4 n
/-- A site is held out (R483). -/
def Dev.holdOut (p : Part) (d : Dev) (site : Nat) : Dev :=
  (d.setB p (idR 20 0x108) (32 + site) true).fault p 31 63 2 0x0A03 (BitVec.ofNat 64 site)
/-- LOCK of a site's clocks (R471). -/
def Dev.clkLock (p : Part) (d : Dev) (site : Nat) : Dev := (d.setB p (clkR site 0) 0 true).setF p (clkR site 0) 32 32 (lowT (d.dieCount site))
/-- Step 1: straps, root PLL and ledger are cold only. -/
def Dev.boot1 (p : Part) (d : Dev) (x : BootIn) : Dev :=
  let d1 := (d.setF p (idR 20 0x110) 0 4 d.rstCause).setB p (idR 20 0x100) 5 (5 ≤ d.rstCause)
  if d.warmBoot then (d1.clkLock p 20).setStep p 2
  else
    let d2 : Dev := { d1 with node := x.straps }
    if !x.pllLock then { (d2.setStep p 1).setB p (idR 20 0x100) 4 true with bootStopped := true }
    else
      let d3 := { d2 with ledOn := true }
      (((d3.clkLock p 31).setB p (clkR 31 0) 1 true).clkLock p 20).setStep p 2
/-- Step 2: a bank is selected and started, and the host port begins training; or K0 enters RECOVERY (R545). -/
def Dev.boot2 (p : Part) (d : Dev) : Dev :=
  let z := selectBank p d.nv
  let d0 : Dev := if z.nv.selector = d.nv.selector then { d with nv := z.nv }
    else { d with nv := z.nv, selWrite := some ⟨d.now, z.nv.inSlot1, false, z.nv.bank0.st, z.nv.svnMin⟩ }
  let d1 : Dev := z.codes.foldl (fun d c => d.fwFault p c.1 (if c.2 then 1 else 0)) d0
  match z.running with
  | none => { d1.setStep p 14 with bootStopped := true }
  | some b =>
    let trial := (z.nv.bank b).st == 2
    let cnt := match z.nv.selector with | some r => r.cnt.toNat | none => 0
    let d2 := d1.put p (fwR 0) (BitVec.ofNat 64 ((if b then 1 else 0) + (if trial then 2 else 0) + cnt * 2 ^ 32))
    let d3 := (d2.put p (fwR 8) (imgVersion (z.nv.bank b).header)).setB p (idR 20 0x100) 6 b
    let d4 := (d3.setF p (hostR 8) 0 2 1).setF p (hostR 8) 32 32 (lowT d3.now)
    { d4.setStep p 3 with wdogT := if trial then some d4.resetRaw else none }
/-- Step 3: voted wiring is tested; the lanes are, and the lane plan is applied, cold only (R300, R478, R480); the memory step
starts, which takes every channel to TRAIN (R325). -/
def Dev.boot3 (p : Part) (d : Dev) (x : BootIn) : Dev :=
  let d1 := match x.wiringBad with | some i => d.fault p 31 63 1 0x0404 (i.zeroExtend 64) | none => d
  if d.warmBoot then d1.setStep p 4
  else
    let d2 := d1.repairLanes p (x.laneFails.map fun y => (y.1.toNat, y.2.1.toNat, y.2.2.toNat))
    let d3 := (x.roleShort.foldl (fun d e => d.fault p 31 (endpointOf e.toNat) 2 0x0407 (e.zeroExtend 64)) d2).setStep p 4
    (List.range 48).foldl (fun d c => if d.chanSt p c = 0 then d.setChanSt p c 1 else d) d3
/-- A channel trains, or leaves self refresh; TIMING in force becomes the host's value, where it has written one (R306, R325,
R330). A channel that is still retraining since before a warm reset goes on. -/
def Dev.trainChan (p : Part) (d : Dev) (x : BootIn) (c : Nat) : Dev :=
  let st := d.chanSt p c
  let top := d.fld p (memcR (c / 12) 0x10) 0 2
  let again := d.warmBoot && st == 4
  if st = 5 ∨ st = 3 then d
  else match (if d.chanCut c then none else x.bins.getD c (some 2)) with
    | none => d.chanDown p c
    | some b =>
      let bin := if again then d.fld p (chanR c 0) 4 2 else min b.toNat top
      let d1 := (d.setChanSt p c 2).setF p (chanR c 0) 4 2 bin
      let held := match d1.ctl.find? fun e => e.1 == chanR c 8 with
        | some e => some (limitTiming e.2 (Config.timingLimit bin))
        | none => (d1.chan c).timing
      let d2 := match held with
        | some w => (d1.setChan c { d1.chan c with timing := some w }).put p (chanR c 8) w
        | none => d1
      if bin < 2 ∧ !again then d2.fault p (16 + c / 12) (c % 12) 2 0x0501 (BitVec.ofNat 64 c) (BitVec.ofNat 64 bin) else d2
/-- Does INIT run on L die l at step 4: while INIT_PEND is set, and on a cold boot with CHECK 1 (R319, R478, R482)? -/
def Dev.bootInit (p : Part) (d : Dev) (l : Nat) : Bool := d.bit p (memcR l 0x20) 2 || (!d.warmBoot && d.checkOn p)
/-- Step 4: L dies power up, channels train, and INIT runs where it must. -/
def Dev.boot4 (p : Part) (d : Dev) (x : BootIn) : Dev × List (Nat × Nat) :=
  let out (l : Nat) : Bool := x.heldOut.contains (BitVec.ofNat 5 (16 + l))
  let dies := (List.range 4).filter fun l => !out l
  let d1 := ((List.range 4).filter out).foldl (fun d l =>
    (List.range 12).foldl (fun d k => if d.chanSt p (12 * l + k) = 5 then d else d.chanDown p (12 * l + k)) (d.holdOut p (16 + l))) d
  let d2 := dies.foldl (fun d l => (List.range 12).foldl (fun d k => d.trainChan p x (12 * l + k)) (d.clkLock p (16 + l))) d1
  let inits := dies.filter (d2.bootInit p)
  ((inits.foldl (fun d l => d.initDone p l) d2).setStep p 5, inits.map dieRange)
/-- CAPSET: what every die that is up and the base implement (R484). -/
def Dev.capset (p : Part) (d : Dev) : Nat :=
  (((List.range 21 ++ [31]).filter fun s => !d.heldOut p s).foldl (fun w s => w &&& d.get p (idR s 8)) (255 : W64)).toNat
/-- Pantries, lobbies and commons. -/
def coreRanges : List (Nat × Nat) := [(0x400000000000, 0x400400000000), (0x600000000000, 0x600020000000)]
/-- Step 5: W dies power up, their control routers load route tables, seams align, their memories are zeroed and CAPSET is
formed (R207: the cores fenced before a warm reset stay out of the tables). -/
def Dev.boot5 (p : Part) (d : Dev) (x : BootIn) : Dev × List (Nat × Nat) :=
  let out (w : Nat) : Bool := x.heldOut.contains (BitVec.ofNat 5 w)
  let d1 := ((List.range 16).filter out).foldl (fun d w => d.holdOut p w) d
  let d2 := ((List.range 16).filter fun w => !out w).foldl (fun d w =>
    let d := (d.clkLock p w).setRoutes w (d.liveMask p w)
    if d.warmBoot then d else (List.range 4).foldl (fun d s => d.setB p (seamR w s 0) 0 true) d) d1
  let d3 : Dev := { d2 with ecc := d2.ecc.filter fun e => decide (e.1 < 0x400000000000) }
  ((d3.put p (idR 20 0x118) (BitVec.ofNat 64 (d3.capset p))).setStep p 6, coreRanges)
/-- Step 6: populated berths train; one that fails is held out and its endpoint dormant (R272, R483). Step 7 begins:
lanterns warm up. -/
def Dev.boot6 (p : Part) (d : Dev) (x : BootIn) : Dev :=
  let d1 := (List.range 2).foldl (fun d g =>
    let d := if d.berthLive p g && x.heldOut.contains (BitVec.ofNat 5 (21 + g)) then d.holdOut p (21 + g) else d
    d.setB p (latR (21 + g) 0) 5 (!d.berthLive p g)) d
  let d2 := d1.setStep p 7
  (List.range 16).foldl (fun d g => d.ltnWarm p g) d2
/-- What keeps a plane of an endpoint from being healthy when the lattice starts, by its code (R285). -/
def Dev.startTrigger (p : Part) (d : Dev) (e : Nat) (pl : Bool) : Option Nat :=
  if !d.planeTracks e pl then some 1 else if !d.planeLit p pl then some 2 else if d.accessOut e then some 7 else none
/-- The planes of every endpoint become healthy, but for those with a trigger of R285, among them those whose probes fail (cause
5); an endpoint that lacks a plane proceeds under R286 and R293 (R481, R483). -/
def Dev.bootLattice (p : Part) (d : Dev) (x : BootIn) : Dev :=
  let up := (List.range 25).filter fun e => !d.dormant p e && !d.heldOut p (epSite e)
  let d1 := up.foldl (fun d e => (d.setB p (latR e 0) 0 true).setB p (latR e 0) 1 true) d
  let d2 := up.foldl (fun d e => [false, true].foldl (fun d pl => match d.startTrigger p e pl with | some c => d.planeLost p e pl c | none => d) d) d1
  x.probesBad.foldl (fun d y => d.planeLost p y.1.val y.2 5) d2
/-- Sites that become ready at the end of step 7 (R479). -/
def Dev.readySites (p : Part) (d : Dev) : List Nat :=
  (List.range 21).filter (fun s => !d.heldOut p s) ++ ((List.range 2).filter (d.berthLive p)).map (21 + ·)
/-- Step 7: the lattice is probed, banks enter IDLE, OPEN is set, and sites are ready. -/
def Dev.boot7 (p : Part) (d : Dev) (x : BootIn) : Dev :=
  let d1 := d.bootLattice p x
  let d2 := ((List.range 32).filter fun b => !d1.heldOut p (b / 2)).foldl (fun d b => d.bankUnpark p b) d1
  let d3 := d2.setB p (memcR 0 0) 0 true
  ((d3.readySites p).foldl (fun d s => d.setB p (idR 20 0x108) s true) d3).setStep p 8
/-- Step 8: the stored card is installed, ports leave OFF, and the boot is done. -/
def Dev.boot8 (p : Part) (d : Dev) : Dev :=
  let d1 := match d.nv.card with | some c => (d.installCard p c).1 | none => d
  let d2 := d1.portsEval p (List.range 64) 6
  (d2.setF p (idR 20 0x100) 32 32 (lowT d2.now)).setStep p 15
/-- The step in hand ends and the next begins: the device and the ranges of memory it zeroes. -/
def Dev.bootStep (p : Part) (d : Dev) (x : BootIn) : Dev × List (Nat × Nat) :=
  match d.bootAt p with
  | 0 => (d.boot1 p x, [])
  | 1 => (d.boot1 p x, [])
  | 2 => (d.boot2 p, [])
  | 3 => (d.boot3 p x, [])
  | 4 => d.boot4 p x
  | 5 => d.boot5 p x
  | 6 => (d.boot6 p x, [])
  | 7 => (d.boot7 p x, [])
  | 8 => (d.boot8 p, [])
  | _ => (d, [])
/-- May the boot order go on: not held in reset, not stopped, and in no orderly stop, which only a cold reset ends (R483, R501,
R566)? -/
def Dev.bootRuns (d : Dev) : Bool := !d.dead && !d.wrstLow && !d.bootStopped && d.stopStep == 0
/-- The missing timer of a unit group runs from the end of the group's step (R525). -/
def Dev.beatsFrom (p : Part) (old d : Dev) : Dev :=
  { d with beatT := ((List.range 8).filter fun g => d.bootDone p (groupStep g) && !old.bootDone p (groupStep g)).foldl (fun m g => smSet 0 m g d.now) d.beatT }
/-- BOOT_STEP. -/
def execBootStep (x : BootIn) (s : State) : Out :=
  s.updC fun p _ d => if d.bootRuns then (Dev.beatsFrom p d (d.bootStep p x).1, [], (d.bootStep p x).2) else (d, [], [])

/-! ### Fault policy (R523) -/

/-- The core a record's source names, where it is a core of this node. -/
def Dev.recCore (p : Part) (d : Dev) (f : FaultRec) : Option CoreId :=
  let c : CoreId := ⟨(srcSite f.source).extractLsb' 0 4, srcUnit f.source⟩
  if srcNode f.source = d.node ∧ (srcSite f.source).toNat < 16 ∧ p.has c then some c else none
/-- Does the policy fence the source of a record? -/
def Dev.policyFences (p : Part) (d : Dev) (f : FaultRec) : Bool :=
  let pol := fltR 20 0x820
  let n := d.fld p pol 16 8
  (f.code == 0x0101 && f.ctx0 == 8 && d.bit p pol 3)
    || (f.code == 0x0102 && n != 0 && decide (n ≤ (smGet [] d.ceTimes f.source.toNat).length))
/-- Does the policy act on a record of class 4? -/
def Dev.policyActs (p : Part) (d : Dev) (f : FaultRec) : Bool :=
  f.cls == 4 && (!f.esc || d.bit p (fltR 20 0x820) 2) && f.code != 0x0802 && f.code != 0x0904
/-- What the policy does with a record. -/
def Dev.policy (p : Part) (m : List Host.Cell) (d : Dev) (f : FaultRec) : Dev × Wr :=
  let d1 := if d.policyFences p f then
      (match d.recCore p f with | some c => d.fenceRequest p c.site.toNat c.p 2 | none => d)
    else d
  if !d1.policyActs p f then (d1, [])
  else match d1.fld p (fltR 20 0x820) 0 2 with
    | 1 => if d1.warmAllowed then d1.warmReset p m 7 else (d1, [])
    | 2 => (d1.orderlyStop p 7, [])
    | _ => (d1, [])
/-- FAULT_POLICY: the firmware applies the policy to a record that has arrived. -/
def execFaultPolicy (seq : BitVec 16) (s : State) : Out :=
  s.updW fun p m d =>
    match d.policyQ.find? fun (f : FaultRec) => f.seq == seq with
    | none => (d, [])
    | some f => Dev.policy p m { d with policyQ := d.policyQ.filter fun (g : FaultRec) => g.seq != seq } f

end Sys2Proof.Machine
end

