-- ==== Sys2Proof/Machine/RegWrite.lean ====
section
/-! DEFINITION. Reading and writing the registers of control space: the fields that show state held elsewhere, and the
writes that do more than store a value (R14 to R16, R33 and the register maps of every chapter). -/

namespace Sys2Proof.Machine

/-! ### Reading -/

/-- The word with every WO field zero (R15). -/
def maskWo (fs : List Field) (w : W64) : W64 :=
  fs.foldl (fun w f => match f.acc with | .wo => withBits w f.lo f.width 0 | _ => w) w
/-- A word of fields, each given by its low bit and value. -/
def packFields (l : List (Nat × Nat)) : W64 := BitVec.ofNat 64 (l.map fun x => x.2 * 2 ^ x.1).sum
/-- One bit as a number. -/
def b1 (b : Bool) : Nat := if b then 1 else 0
/-- Core whose block a register of a W site stands in. -/
def regCore (a : Nat) : CoreId := ⟨BitVec.ofNat 4 (ctlSite a), BitVec.ofNat 6 (ctlBlk a)⟩

/-- CORE.STATE (R49, R93, R217). -/
def Dev.coreStateWord (p : Part) (d : Dev) (c : CoreId) : W64 :=
  let k := d.core c
  if k.st = .fenced then 6
  else packFields [(0, stateCode k.st), (8, p.logical c.site.toNat c.p.toNat), (16, b1 (d.bit p (coreR c 0x18) 8)),
    (17, b1 (d.fld p (mxuR c 8) 0 5 != 0)), (18, b1 (d.fld p (vecR c 8) 0 5 != 0)),
    (19, b1 ((List.range 16).any fun q => d.qError p c q)), (20, b1 (d.fld p (lobR c 0) 8 8 != 0))]
/-- The register file word that CORE.DBG_SEL selects: its file, number and part (R93). -/
def Dev.dbgSel (p : Part) (d : Dev) (c : CoreId) : Nat × Nat × Nat :=
  let a := coreR c 0x28
  (d.fld p a 0 2, d.fld p a 2 6, d.fld p a 8 6)
/-- Is CORE.DBG_DATA open: the core is in HALT or FAULT (R93)? -/
def Dev.dbgOpen (d : Dev) (c : CoreId) : Bool := (d.core c).st == .halt || (d.core c).st == .fault
/-- CORE.DBG_DATA (R93). -/
def Dev.dbgRead (p : Part) (d : Dev) (c : CoreId) : W32 :=
  if !d.dbgOpen c then 0
  else match d.dbgSel p c with
    | (0, i, _) => (d.core c).getS (BitVec.ofNat 6 i)
    | (1, i, part) => if i < 32 then (d.core c).lane (BitVec.ofNat 5 i) part else 0
    | (2, i, part) => if i < 8 ∧ part < 4 then ((d.core c).getT (BitVec.ofNat 3 i)).extractLsb' (32 * part) 32 else 0
    | _ => 0
/-- A write of CORE.DBG_DATA; the bits of a descriptor that R65 leaves out stay zero (R54, R93, R142). -/
def Dev.dbgWrite (p : Part) (d : Dev) (c : CoreId) (x : W32) : Dev :=
  if !d.dbgOpen c then d
  else match d.dbgSel p c with
    | (0, i, _) => d.modCore c fun k => k.setS (BitVec.ofNat 6 i) x
    | (1, i, part) => if i < 32 then d.modCore c fun k => { k with v := smSet 0 k.v (64 * i + part) x } else d
    | (2, i, part) =>
      if i < 8 ∧ part < 4 then
        d.modCore c fun k =>
          let t := k.getT (BitVec.ofNat 3 i)
          k.setT (BitVec.ofNat 3 i) (tdClean (BitVec.ofNat 128 (t.toNat - (t.extractLsb' (32 * part) 32).toNat * 2 ^ (32 * part) + x.toNat * 2 ^ (32 * part))))
      else d
    | _ => d

/-- A register of a core's blocks. `w` is the word held for it (R93 to R96, R186, R187, R473). DESIGN CHOICE, log entry 68. -/
def Dev.coreView (p : Part) (d : Dev) (a : Nat) (w : W64) : W64 :=
  let c := regCore a
  let k := d.core c
  let off := ctlOff a
  let blk := ctlBlk a / 64 * 64
  if blk = 0x100 then
    (if off = 8 then d.coreStateWord p c
    else if off = 0x10 then k.pc.zeroExtend 64
    else if off = 0x30 then (d.dbgRead p c).zeroExtend 64 else w)
  else if blk = 0x140 then
    (if off = 0 then packFields [(0, b1 !k.mrun.isEmpty), (1, b1 k.wActive.isSome),
        (2, b1 (k.wShadow.isSome || k.mrun.any fun o => o.op.isLdw)), (3, b1 k.osMode), (8, k.mq.length), (16, d.restFrac p c.site.toNat)]
    else if 0x40 ≤ off ∧ off < 0xC0 then (k.getT (BitVec.ofNat 3 ((off - 0x40) / 16))).extractLsb' (if off % 16 = 0 then 0 else 64) 64
    else w)
  else if blk = 0x180 then
    (if off = 0 then packFields [(0, b1 !k.vq.isEmpty), (8, k.vq.length)] else w)
  else if blk = 0x1C0 then
    (let lobbies : List (BitVec 3) := (List.range 8).map (BitVec.ofNat 3)
    if off = 0 then
      withBits (withBits w 0 8 ((lobbies.map fun l => b1 (d.lobEmpty p c l) * 2 ^ l.toNat).sum)) 24 8
        ((lobbies.map fun l => b1 (d.lobEn p c l) * 2 ^ l.toNat).sum)
    else if 0x100 ≤ off ∧ off % 0x40 = 0x18 then
      (let l : BitVec 3 := BitVec.ofNat 3 ((off - 0x100) / 0x40)
      packFields [(0, (d.lobStat p c l).toNat), (32, (d.lowMiss p c l).toNat)])
    else w)
  else if blk = 0x200 then
    (if off = 0 then packFields [(0, min 8 k.activeDescs), (8, k.outLines)]
    else if 0x100 ≤ off ∧ off % 0x20 = 0x18 then withBits w 0 2 (d.qState p c ((off - 0x100) / 0x20))
    else w)
  else if off = 0 then d.snoop c
  else if off = 8 then withBits w 9 1 (b1 (match k.snoopHold with | some v => !reached d.now v | none => false))
  else w

/-- A register of an L die: OPEN, MAP, DOWN, HOSTAT and REGION read the same at all four (R329, R422). -/
def Dev.memView (p : Part) (d : Dev) (a : Nat) (w : W64) : W64 :=
  let off := ctlOff a
  if ctlBlk a ≠ 0x3F then w
  else if off = 0 ∨ off = 8 ∨ off = 0x28 ∨ off = 0x38 then d.get p (memcR 0 off)
  else if 0x40000 ≤ off then
    let r := d.region ((off - 0x40000) / 8)
    packFields [(0, r.owner.toNat), (16, r.party.toNat), (32, b1 r.moving)]
  else w

/-- Ticks of the health watchdog (R546). -/
def wdogTicks : Nat := 144000000000
/-- HOST.SESS[s]: a berth's session shows what its berth gives it; QPS counts (R447, R449). -/
def Dev.sessWord (p : Part) (d : Dev) (s : Nat) : W64 :=
  if s = 17 ∨ s = 18 then packFields [(0, b1 (d.sessOpen p s)), (1, b1 (d.sessOpen p s))]
  else withBits (d.get p (sessR s)) 8 4 ((d.qps.filter fun e => match e.2 with | some q => q.sess == s | none => false).length)
/-- FW.XFER (R552). -/
def Dev.xferWord (p : Part) (d : Dev) : W64 :=
  let w := d.get p (fwR 0x20)
  match d.xfer with
  | some x => packFields [(0, 1), (1, x.eid.toNat % 128), (8, imgType x.header % 8), (16, bits w 16 16), (32, x.body.length % 2 ^ 25)]
  | none => packFields [(16, bits w 16 16)]
/-- FW.WDOG (R547). -/
def Dev.wdogWord (d : Dev) : W64 :=
  match d.wdogT with
  | some t => BitVec.ofNat 64 ((wdogTicks - elapsed d.raw t) / 1200000)
  | none => 0
/-- A register of K0 (R449, R532, R552). -/
def Dev.kView (p : Part) (d : Dev) (a : Nat) (w : W64) : W64 :=
  let off := ctlOff a
  if ctlBlk a = 0x50 then
    (if 0x100 ≤ off ∧ off < 0x190 then d.sessWord p ((off - 0x100) / 8 + 1) else w)
  else if ctlBlk a = 0x51 then
    (if off = 0x10 then bankWord d.nv.bank0 else if off = 0x18 then bankWord d.nv.bank1
    else if off = 0x20 then d.xferWord p else if off = 0x30 then d.wdogWord
    else if off = 0x38 then keysWord d.nv else if off = 0x40 then BitVec.ofNat 64 (d.ownRcid p) else w)
  else if ctlBlk a = 1 ∧ off = 0x800 then
    withBits (withBits w 17 1 (b1 (d.faultN p))) 24 8 (((List.range 8).map fun g => b1 (d.aliveRuns p g) * 2 ^ g).sum)
  else w

/-- STAT of a bank channel (R262). -/
def Dev.chStat (p : Part) (d : Dev) (b ch : Nat) (w : W64) : W64 :=
  let st := d.bankState p b
  let x := d.bch b ch
  let state : Nat := if bits w 4 4 ≠ 0 then 3 else if !d.chEn p b ch then 0
    else if st = 3 ∨ st = 4 ∨ st = 5 ∨ x.retrying then 2 else 1
  packFields [(0, state), (4, bits w 4 4), (8, x.feed.length), (16, x.out % 256)]
/-- A register of the base (R261, R262, R304, R395, R423, R472). -/
def Dev.baseView (p : Part) (d : Dev) (a : Nat) (w : W64) : W64 :=
  let off := ctlOff a
  let blk := ctlBlk a
  if blk = 8 then (if off = 0 then d.now else w)
  else if blk = 2 then (if off = 0x10 then withBits w 6 1 (b1 d.tripLatch) else w)
  else if 0x40 ≤ blk ∧ blk < 0x60 then
    (if 0x200 ≤ off ∧ off < 0x400 ∧ off % 0x40 = 0x20 then d.chStat p (blk - 0x40) ((off - 0x200) / 0x40) w else w)
  else if blk = 0x20 then
    (if off = 0x90008 then packFields [(0, bits w 0 2), (16, d.txStreams.length % 2 ^ 15), (32, d.rxStreams.length % 2 ^ 15), (48, d.heldCount % 2 ^ 11)]
    else if 0x90100 ≤ off ∧ off < 0x90180 then withBits w 32 7 (d.bundle p ((off - 0x90100) / 8)).length
    else if 0xB0000 ≤ off ∧ off < 0xB1000 ∧ off % 0x100 = 0x10 then withBits w 16 16 (d.ptyNo p ((off - 0xB0000) / 0x100))
    else w)
  else w

/-- What a read of a register returns; `a` is a canonical address (R14, R15, R304). -/
def Dev.regView (p : Part) (d : Dev) (a : Nat) (fs : List Field) : W64 :=
  let site := ctlSite a
  let blk := ctlBlk a
  let w := maskWo fs (d.get p a)
  if blk = 0 then (if ctlOff a = 0 then withBits w 16 16 d.node.toNat else w)
  else if blk = 3 ∧ ctlOff a = 8 then d.dieCount site
  else if blk = 4 ∧ ctlOff a = 8 then withBits w 0 1 (b1 (d.slewing site))
  else if isW site then (if 0x100 ≤ blk then d.coreView p a w else w)
  else if isL site then maskWo fs (d.memView p a w)
  else if isK site then d.kView p a w
  else d.baseView p a w

/-! ### Writing -/

/-- The written halves of `v` over the word held. -/
def mergeHalves (old v : W64) (lower upper : Bool) : W64 :=
  (if upper then v.extractLsb' 32 32 else old.extractLsb' 32 32) ++ (if lower then v.extractLsb' 0 32 else (old.extractLsb' 0 32 : W32))

/-- The bits of a write that reach their half; those of a half not written count as zero (R14). -/
def halvesOf (v : W64) (lower upper : Bool) : W64 := mergeHalves 0 v lower upper

/-- A write to a register of a core's blocks. -/
def Dev.coreWrite (p : Part) (d : Dev) (a : Nat) (v : W64) (lower upper : Bool) : Dev × Wr :=
  let c := regCore a
  let off := ctlOff a
  let blk := ctlBlk a / 64 * 64
  let plain := (d.regStore p a v lower upper, [])
  if blk = 0x100 then
    (if off = 0 then
      (if lower then d.ctrlWrite p c (v.getLsbD 0) (v.getLsbD 1) (v.getLsbD 2) (v.getLsbD 3) (v.getLsbD 4) else d, [])
    else if off = 0x10 then
      (let st := (d.core c).st
      if lower ∧ (st = .reset ∨ st = .idle ∨ st = .halt) then
        (d.modCore c fun k => { k with pc := BitVec.ofNat 22 (v.toNat / 4 * 4) }, [])
      else (d, []))
    else if off = 0x30 then (if lower then d.dbgWrite p c (v.extractLsb' 0 32) else d, [])
    else if off = 0x38 then (d.setSr p c (mergeHalves (d.get p a) v lower upper), [])
    else if off = 0x48 then
      (let d1 := d.regStore p a v lower upper
      if lower && v.getLsbD 1 then d1.icInvalidate c else d1, [])
    else plain)
  else if blk = 0x1C0 then
    (let l : BitVec 3 := BitVec.ofNat 3 ((off - 0x100) / 0x40)
    if 0x100 ≤ off ∧ off % 0x40 = 0 then (d.writeLobCfg p c l v lower upper, [])
    else if 0x100 ≤ off ∧ off % 0x40 = 8 then (if lower then d.writeLobSeq p c l (v.extractLsb' 0 16) else d, [])
    else plain)
  else if blk = 0x200 then
    (let q := (off - 0x100) / 0x20
    if 0x100 ≤ off ∧ off % 0x20 = 0 then d.writeQcfg p c q v lower upper
    else if 0x100 ≤ off ∧ off % 0x20 = 0x10 then (if lower then d.setTail p c q (v.extractLsb' 0 16) else d, [])
    else plain)
  else plain

/-- A write to MESH or CMN of a W die. -/
def Dev.dieWrite (p : Part) (d : Dev) (a : Nat) (v : W64) (lower upper : Bool) : Dev :=
  let w := ctlSite a
  let off := ctlOff a
  if ctlBlk a = 0x11 ∧ off = 0 then d.writeCmnCfg p w v lower upper
  else if ctlBlk a ≠ 0x10 then d.regStore p a v lower upper
  else if off = 0x18 then (if lower && v.getLsbD 8 then d.fenceRequest p w (v.extractLsb' 0 6) 1 else d)
  else if 0x100 ≤ off ∧ off < 0x300 then
    (let b := (off - 0x100) / 0x20
    if off % 0x20 = 0 then d.barWrite p w b 0 v lower upper
    -- EXT and LOST stand in the lower half: a write of the upper half reaches neither (R14, R214)
    else if off % 0x20 = 8 then (if lower then d.barWrite p w b 8 v lower upper else d)
    else if off % 0x20 = 0x18 then (if lower then d.extArrive p w b (bits v 0 16) else d)
    else d)
  else d.regStore p a v lower upper

/-- A write to a block of an L die, HANDOFF apart. -/
def Dev.memWrite (p : Part) (d : Dev) (a : Nat) (v : W64) (lower upper : Bool) : Dev :=
  let l := ctlSite a - 16
  let off := ctlOff a
  if ctlBlk a = 0x3F then
    (if off = 0 then
      (if !lower then d
      else
        let d1 := if v.getLsbD 1 then d.memInit p l else d
        d1.writeOpen p l (v.getLsbD 0))
    else if off = 8 then d.writeMap p l v lower upper
    else if 0x1000 ≤ off ∧ off < 0x1600 ∧ (off - 0x1000) % 0x18 = 0 then
      (let was := d.bit p a 55
      let d1 := d.regStore p a v lower upper
      if was then d1 else d1.setB p a 55 false)
    else d.regStore p a v lower upper)
  else if off = 8 then d.writeTiming p (12 * l + (ctlBlk a - 0x30)) v lower upper
  else d.regStore p a v lower upper

/-- ETH_STATE takes a state, with the count of the change (R449). -/
def Dev.ethState (p : Part) (d : Dev) (st : Nat) : Dev :=
  (d.setF p (hostR 8) 0 2 st).setF p (hostR 8) 32 32 (lowT (d.dieCount 20))
/-- ETH_CTRL.RETRAIN: negotiation and training start again (R426, R449). -/
def Dev.ethRetrain (p : Part) (d : Dev) : Dev := (d.setF p (hostR 8) 8 8 0).ethState p 1

/-- CONFIRM: the running bank, in TRIAL and within the watchdog's time, becomes GOOD, and the fused minimum rises where
its header asks for it (R546, R548). -/
def Dev.confirmBank (p : Part) (d : Dev) : Dev :=
  match d.wdogT with
  | none => d
  | some t =>
    if wdogTicks ≤ elapsed d.raw t then d
    else
      let x := d.bit p (fwR 0) 0
      let b := d.nv.bank x
      let h := b.header
      let rise := decide (imgF h 26 2 % 2 = 1) && decide (d.nv.svnMin.toNat < imgSvn h)
      let nv := (d.nv.writeSelector x false false).setBank x { b with st := 3 }
      let nv := if rise then { nv with svnMin := BitVec.ofNat 6 (imgSvn h) } else nv
      let cnt := match nv.selector with | some r => r.cnt.toNat | none => 0
      let d1 : Dev := { d with nv := nv, wdogT := none, selWrite := some ⟨d.now, !d.nv.inSlot1, x, b.st, d.nv.svnMin⟩ }
      let d2 := (d1.setB p (fwR 0) 1 false).setF p (fwR 0) 32 32 cnt
      if rise then d2.fwFault p 0x0B07 (BitVec.ofNat 64 (imgSvn h)) else d2

/-- A write to a block of K0, with the status it ends with. DEDUCED, log entry 70. -/
def Dev.kWrite (p : Part) (d : Dev) (src : Src) (a : Nat) (v : W64) (lower upper : Bool) : Dev × BitVec 7 :=
  let off := ctlOff a
  let own (g : Nat) : Bool := srcNode src == d.node && (srcSite src).toNat == 21 + g
  if ctlBlk a = 0x50 then
    (if off = 0 then
      (let d1 := d.regStore p a v lower upper
      (if lower && v.getLsbD 16 then d1.ethRetrain p else d1, stOk))
    else if 0x20000 ≤ off ∧ off < 0x24000 then
      (let g := (off - 0x20000) / 0x2000
      if !own g then (d, stBadRequest)
      else if d.bit p (hostR (0x1A0 + 8 * g)) 1 then (d.noticeIgnored p a v, stOk)
      else (d.regStore p a v lower upper, stOk))
    else if off = 0x1A0 ∨ off = 0x1A8 then
      (let g := (off - 0x1A0) / 8
      if !own g then (d, stBadRequest)
      else (if lower && v.getLsbD 0 then d.setB p a 1 true else d, stOk))
    else if 0x30000 ≤ off ∧ off < 0x30480 ∧ off % 0x40 = 8 then
      (d.writeEcons p ((off - 0x30000) / 0x40 + 1) (mergeHalves (d.get p a) v lower upper), stOk)
    else (d.regStore p a v lower upper, stOk))
  else if ctlBlk a = 0x51 then
    (if off = 0x28 then
      (if srcNode src = d.node ∧ (srcSite src).toNat = 20 ∧ (srcUnit src).toNat = 0 then (if lower && v.getLsbD 0 then d.confirmBank p else d, stOk)
      else (d, stBadRequest))
    else (d.regStore p a v lower upper, stOk))
  else if ctlBlk a = 1 ∧ off = 0x810 then
    (if lower then d.ack p (v.extractLsb' 0 16) (v.getLsbD 16) else d, stOk)
  else if ctlBlk a = 1 ∧ 0x900 ≤ off ∧ off < 0x930 then
    (let d1 := d.put p a (mergeHalves (d.get p a) v lower upper)
    if off = 0x928 then
      (let w (i : Nat) : W64 := d1.get p (fltR 20 (0x900 + 8 * i))
      match guestRecord src (recOf (w 0) (w 1) (w 2) (w 3) (w 4) (w 5)) with
      | some f => ({ d1 with records := d1.records ++ [f] }, stOk)
      | none => (d, stBadRequest))
    else (d1, stOk))
  else (d.regStore p a v lower upper, stOk)

/-- A write to a block of the base. -/
def Dev.baseWrite (p : Part) (d : Dev) (a : Nat) (v : W64) (lower upper : Bool) : Dev :=
  let off := ctlOff a
  let blk := ctlBlk a
  if 0x40 ≤ blk ∧ blk < 0x60 then
    (let b := blk - 0x40
    if off = 0 then
      (if !lower then d
      else
        let d1 := if v.getLsbD 0 then d.loadRequest p b else d
        let d2 := if v.getLsbD 1 then d1.calRequest p b else d1
        if v.getLsbD 2 then d2.bankReset p b else d2)
    else if 0x200 ≤ off ∧ off < 0x400 then
      (let ch := (off - 0x200) / 0x40
      if off % 0x40 = 0 then d.writeChCfg p b ch v lower upper
      else if off % 0x40 = 8 ∨ off % 0x40 = 0x10 then d.writeChIdle p b ch a v lower upper
      else if off % 0x40 = 0x30 then (if lower && v.getLsbD 0 then d.bankFlush p b ch else d)
      else d.regStore p a v lower upper)
    else d.regStore p a v lower upper)
  else if 0x80 ≤ blk ∧ blk < 0xC0 then
    (if off = 0 then d.writePortCtrl p (blk - 0x80) v lower upper
    else if off = 0x400 then d.writeLtnCtrl p ((blk - 0x80) / 4) v lower upper
    else d.regStore p a v lower upper)
  else if 0x20 ≤ blk ∧ blk ≤ 0x36 then
    (let latCtrl (e : Nat) : Dev :=
      if !lower then d
      else
        let d1 := if v.getLsbD 0 then d.latForce p e (v.getLsbD 1) else d
        let d2 := if v.getLsbD 2 then d1.latReturn p e else d1
        if v.getLsbD 3 then d2.latResume p e else d2
    if off = 8 then latCtrl (blk - 0x20)
    else if off = 0x81008 then latCtrl 23
    else if off = 0x82008 then latCtrl 24
    else if off = 0x90000 then
      (if !lower then d
      else
        let d1 := if v.getLsbD 0 then d.drain p else d
        if v.getLsbD 1 then d1.rtResume p else d1)
    else if off = 0x90010 then
      (let d1 := d.regStore p a v lower upper
      let x := d1.fld p a 0 32
      let seed := if x = 0 then 1 else x
      if lower then { d1.setF p a 0 32 seed with routeLfsr := BitVec.ofNat 32 seed } else d1)
    else if isRouteTable off then d.writeRouteTable p a v lower upper
    else if 0xB0000 ≤ off ∧ off < 0xB1000 then
      (let e := (off - 0xB0000) / 0x100
      if off % 0x100 = 8 then d.writePtyCtrl p e v lower
      else if off % 0x100 = 0 ∨ 0x80 ≤ off % 0x100 then d.writePtyCfg p e a v lower upper
      else d.regStore p a v lower upper)
    else d.regStore p a v lower upper)
  else if blk = 3 ∧ off = 0x10 then d.writeFreqReq p v lower
  else d.regStore p a v lower upper

/-- A write to a register by source `src`: the device, the bytes it writes, and the status it ends with; none for a
hand-off that is accepted, which is answered when it completes to `ans`. `a` is a canonical address. A 32-bit write of
HANDOFF names its other half as zero (DEDUCED, log entry 81). -/
def Dev.regWrite (p : Part) (d : Dev) (src : Src) (ans : Option Req) (a : Nat) (v : W64) (lower upper : Bool) :
    Dev × Wr × Option (BitVec 7) :=
  let site := ctlSite a
  let blk := ctlBlk a
  let off := ctlOff a
  let ok (d : Dev) : Dev × Wr × Option (BitVec 7) := (d, [], some stOk)
  if isTrim p a then ok (d.writeTrim p a v lower upper)
  else if blk = 1 ∧ off = 8 then ok (d.writeInj p site v lower upper)
  else if blk = 2 ∧ off = 0x10 then ok (d.writeThmStat p a v lower upper)
  else if blk = 2 ∧ off = 0x20 then ok (d.writePlimit p a v lower upper)
  else if blk = 4 ∧ off = 0 then
    (if !lower then ok d
    else
      let d1 := if v.getLsbD 0 then d.calDefaults p site else d
      ok (if isBase site && v.getLsbD 1 then d1.pkgGo p else d1))
  else if isW site then
    (if 0x100 ≤ blk ∧ blk < 0x240 then
      (let z := d.coreWrite p a v lower upper
      (z.1, z.2, some stOk))
    else ok (d.dieWrite p a v lower upper))
  else if isL site then
    (if blk = 0x3F ∧ off = 0x30 then
      (let v := halvesOf v lower upper
      match d.handoffRefused p (site - 16) src v with
      | some st => (d, [], some st)
      | none => (d.handoffStart p v ans, [], none))
    else ok (d.memWrite p a v lower upper))
  else if isK site then
    (let z := d.kWrite p src a v lower upper
    (z.1, [], some z.2))
  else ok (d.baseWrite p a v lower upper)

/-! ### Accesses of an agent of this node (R25, R26, R33, R217, R277) -/

/-- Does the address lie in a core's blocks, other than STATE, while that core is fenced (R217)? -/
def Dev.fencedReg (d : Dev) (a : Nat) (write : Bool) : Bool :=
  isW (ctlSite a) && decide (0x100 ≤ ctlBlk a) && decide (ctlBlk a < 0x280) && (d.core (regCore a)).st == .fenced
    && (write || !(decide (ctlBlk a < 0x140) && ctlOff a == 8))
/-- A read of a register as its site performs it: the status and the value. -/
def Dev.ctlRead (p : Part) (d : Dev) (a : Nat) : BitVec 7 × W64 :=
  if a % 8 ≠ 0 then (stBadRequest, 0)
  else if d.fencedReg a false then (stCoreFenced, 0)
  else match regFields p a with
    | none => (stNoTarget, 0)
    | some fs => (stOk, d.regView p (canonAddr a) fs)
/-- A write of a register as its site performs it. -/
def Dev.ctlWrite (p : Part) (d : Dev) (src : Src) (ans : Option Req) (a : Nat) (v : W64) (lower upper : Bool) :
    Dev × Wr × Option (BitVec 7) :=
  if a % 8 ≠ 0 then (d, [], some stBadRequest)
  else if d.fencedReg a true then (d, [], some stCoreFenced)
  else match regFields p a with
    | none => (d, [], some stNoTarget)
    | some _ => d.regWrite p src ans (canonAddr a) v lower upper

/-- Source number of the accesses of K0's firmware, and of those K0 makes for a host or the service port. -/
def Dev.hostSrc (d : Dev) : Src := mkSrc d.node 20 1
def Dev.kSrc (d : Dev) : Src := mkSrc d.node 20 0
/-- The status a control-space access of K0 itself is refused with at its sender. -/
def Dev.k0Refused (p : Part) (d : Dev) (a : Nat) : Option (BitVec 7) :=
  match d.refusedAtSender p (.ctl a) with
  | some st => if st = stNotReady ∧ d.k0Reaches p (ctlSite a) then none else some st
  | none => none
/-- REGISTER_WRITE: a register of this node is written by K0's firmware (R14 to R16). -/
def execRegisterWrite (addr : BitVec 40) (value : W64) (lower upper : Bool) (s : State) : Out :=
  s.updW fun p _ d =>
    if d.dead || (d.k0Refused p addr.toNat).isSome then (d, [])
    else
      let z := d.ctlWrite p d.kSrc none addr.toNat value lower upper
      (z.1, z.2.1)

end Sys2Proof.Machine
end

