-- ==== Sys2Proof/Machine/Target.lean ====
section
/-! DEFINITION. Requests at their targets (R14, R33, R60 to R62, R162 to R166, R197 to
R203, R217, R231, R232, R277, R396 to R403, R410 to R412, R419). -/

namespace Sys2Proof.Machine

/-! ### The commons (R197 to R203) -/

/-- Local address of an offset of a die's commons (R42). -/
def cmnAt (w off : Nat) : Nat := 0x600000000000 + w * 0x2000000 + off
/-- Check one 8-byte word of the commons on a read (R199): answers whether it holds a double-bit error. -/
def Dev.cmnWord (p : Part) (d : Dev) (w off : Nat) : Dev × Bool :=
  let mk := d.mark (cmnAt w off)
  let e := cmnR w 8
  let ctx : W64 := BitVec.ofNat 64 off
  if mk.getLsbD 1 then
    (((d.setF p e 0 25 off).setB p e 33 true).fault p w 0 0 0x0203 ctx 0 (mk.getLsbD 2), true)
  else if mk.getLsbD 0 then
    let d := (d.setMark (cmnAt w off) 0).count p (cmnR w 0x138) 1
    (((d.setF p e 0 25 off).setB p e 32 true).fault p w 0 1 0x0202 ctx 0 (mk.getLsbD 2), false)
  else (d, false)
/-- Check the sixteen words of a line from the word at `off` on, and answer whether any holds a double-bit error. -/
def Dev.cmnLine (p : Part) (d : Dev) (w off : Nat) : Nat → Dev × Bool
  | 0 => (d, false)
  | n + 1 =>
    let z := d.cmnWord p w off
    let y := Dev.cmnLine p z.1 w (off + 8) n
    (y.1, z.2 || y.2)
/-- Entries a bank keeps: eight, or four without CMB8 (R200, R484). -/
def Dev.combineCap (p : Part) (d : Dev) : Nat := if d.bit p (idR 20 0x118) 2 then 8 else 4
/-- Does a read combine: a whole line for a core of this die while COMBINE_EN is 1 (R200, R201)? -/
def Dev.combines (p : Part) (d : Dev) (w : Nat) (src : Src) (n : Nat) : Bool :=
  d.bit p (cmnR w 0) 0 && n == 128 && srcNode src == d.node && (srcSite src).toNat == w
/-- Close the entry of a line for a write or an atomic (R202). -/
def Dev.closeLine (p : Part) (d : Dev) (w off : Nat) : Dev :=
  let l := d.entries w (cmnBank off)
  if l.any fun e => e.line == off / 128 then
    (d.setEntries w (cmnBank off) (l.filter fun e => e.line != off / 128)).count p (cmnR w 0x120) 1
  else d
/-- Open an entry; the need for room closes the oldest (R200, R202). -/
def Dev.openEntry (p : Part) (d : Dev) (w : Nat) (x : CEntry) : Dev :=
  let b := x.line % 16
  let l := d.entries w b
  if d.combineCap p ≤ l.length then (d.setEntries w b (l.drop 1 ++ [x])).count p (cmnR w 0x128) 1
  else d.setEntries w b (l ++ [x])
/-- A read is answered from an entry: it counts, and the first that joins a response still at the bank makes that
response a multicast one (R201, R203). -/
def Dev.joinEntry (p : Part) (d : Dev) (w : Nat) (e : CEntry) : Dev :=
  let d1 := d.count p (cmnR w 0x110) 1
  if !e.left && !e.joined && d.net.contains (.resp e.first) then
    (d1.setEntries w (e.line % 16) ((d1.entries w (e.line % 16)).map fun y => if y.line == e.line then { y with joined := true } else y)).count p
      (cmnR w 0x118) 1
  else d1
/-- The lines of a read at the commons: the device, the data or a data error, and the lines whose bank access opens an
entry, as one that met no error does (R200). DEDUCED, log entry 30. -/
def Dev.cmnRead (p : Part) (m : List Host.Cell) (d : Dev) (w : Nat) (src : Src) :
    List (Nat × Nat) → Dev × Option (List Byte) × List (Nat × List Byte)
  | [] => (d, some [], [])
  | (off, n) :: rest =>
    let comb := d.combines p w src n
    let hit := if comb then (d.entries w (cmnBank off)).find? fun e => e.line == off / 128 else none
    let here : Dev × Option (List Byte) × List (Nat × List Byte) :=
      match hit with
      | some e => (d.joinEntry p w e, some e.data, [])
      | none =>
        let clean := (List.range 16).all fun i => d.mark (cmnAt w (off / 128 * 128 + 8 * i)) == 0
        let z := (d.count p (cmnR w 0x100) 1).cmnLine p w (off / 128 * 128) 16
        if z.2 then (z.1, none, [])
        else
          let bs := Memory.read m (cmnAt w off) n
          (z.1, some bs, if comb && clean then [(off / 128, bs)] else [])
    match here.2.1 with
    | none => here
    | some bs =>
      let y := Dev.cmnRead p m here.1 w src rest
      (y.1, y.2.1.map (bs ++ ·), here.2.2 ++ y.2.2)
/-- One line of a write at the commons: a write narrower than a line reads the line first (R198, R199). -/
def Dev.cmnWrite1 (p : Part) (d : Dev) (w off : Nat) (bs : List Byte) : Dev × Bool × Wr :=
  let z := if bs.length = 128 then (d, false) else d.cmnLine p w (off / 128 * 128) 16
  if z.2 then (z.1, false, [])
  else
    let d1 := (z.1.closeLine p w off).count p (cmnR w 0x108) 1
    (d1.produce p w 2 (cmnBank off) (cmnAt w (wordOf off)) 8 (wordsIn off bs.length), true, [(cmnAt w off, bs)])
/-- The lines of a write, up to the first that meets an error. -/
def Dev.cmnWrite (p : Part) (d : Dev) (w base : Nat) (data : List Byte) : List (Nat × Nat) → Dev × BitVec 7 × Wr
  | [] => (d, stOk, [])
  | (off, n) :: rest =>
    let z := d.cmnWrite1 p w off ((data.drop (off - base)).take n)
    if z.2.1 then
      let y := Dev.cmnWrite p z.1 w base data rest
      (y.1, y.2.1, z.2.2 ++ y.2.2)
    else (z.1, stDataError, [])
/-- An atomic at the bank: the status, the old value and what it writes. -/
def Dev.cmnAtomic (p : Part) (m : List Host.Cell) (d : Dev) (w off : Nat) (op : BitVec 4) (a b : BitVec 128) :
    Dev × BitVec 7 × List Byte × Wr :=
  let z := d.cmnLine p w (off / 128 * 128) 16
  if z.2 then (z.1, stDataError, [], [])
  else
    let n := atomicSize op.toNat
    let old := Memory.read m (cmnAt w off) n
    let d1 := (z.1.closeLine p w off).count p (cmnR w 0x108) 1
    match atomicBytes op.toNat old a b with
    | some bs => (d1.produce p w 2 (cmnBank off) (cmnAt w (wordOf off)) 8 (wordsIn off n), stOk, old, [(cmnAt w off, bs)])
    | none => (d1, stOk, old, [])

/-! ### Pantries (R60, R62) -/

/-- The lines of a write to a pantry. -/
def Dev.panWrite (p : Part) (d : Dev) (c : CoreId) (base : Nat) (data : List Byte) : List (Nat × Nat) → Dev × BitVec 7 × Wr
  | [] => (d, stOk, [])
  | (off, n) :: rest =>
    match d.pantryWrite p c off ((data.drop (off - base)).take n) with
    | (d1, .error _) => (d1, stDataError, [])
    | (d1, .ok w) =>
      let y := Dev.panWrite p d1 c base data rest
      (y.1, y.2.1, w ++ y.2.2)
/-- An atomic at a core's pantry. -/
def Dev.panAtomic (p : Part) (m : List Host.Cell) (d : Dev) (c : CoreId) (off : Nat) (op : BitVec 4) (a b : BitVec 128) :
    Dev × BitVec 7 × List Byte × Wr :=
  match d.pantryRead p m c off (atomicSize op.toNat) with
  | (d1, .error _) => (d1, stDataError, [], [])
  | (d1, .ok old) =>
    match atomicBytes op.toNat old a b with
    | none => (d1, stOk, old, [])
    | some bs =>
      match d1.pantryWrite p c off bs with
      | (d2, .error _) => (d2, stDataError, [], [])
      | (d2, .ok w) => (d2, stOk, old, w)

/-! ### Control space as memory (R396) -/

/-- Registers read in ascending order, up to the first that is refused. DEDUCED, log entry 29. -/
def Dev.ctlReads (p : Part) (d : Dev) (a : Nat) : Nat → BitVec 7 × List Byte
  | 0 => (stOk, [])
  | n + 1 =>
    let z := d.ctlRead p a
    if z.1 ≠ stOk then (z.1, [])
    else
      let y := Dev.ctlReads p d (a + 8) n
      (y.1, leBytes 8 z.2.toNat ++ y.2)
/-- Registers written in ascending order, up to the first that is refused; the status is none while a hand-off that one of
them began is to answer the request. -/
def Dev.ctlWrites (p : Part) (d : Dev) (r : Req) (a : Nat) (data : List Byte) : Nat → Dev × Wr × Option (BitVec 7)
  | 0 => (d, [], some stOk)
  | n + 1 =>
    let z := d.ctlWrite p r.src (some r) a (BitVec.ofNat 64 (leNat (data.take 8))) true true
    if z.2.2 = some stOk ∨ z.2.2 = none then
      let y := Dev.ctlWrites p z.1 r (a + 8) (data.drop 8) n
      (y.1, z.2.1 ++ y.2.1, if z.2.2 = none then none else y.2.2)
    else z

/-! ### Requests -/

/-- The refusal common to a core's windows: the core fenced, or a member of a party that is being or has been torn down
(R217, R419). In every other state of the core, RESET, IDLE, RUN, WAIT, HALT and FAULT, its pantry is reachable (R52). -/
def Dev.coreRefused (p : Part) (d : Dev) (c : CoreId) : Option (BitVec 7) :=
  if (d.core c).st = .fenced then some stCoreFenced else if d.tornDown p c then some stPartyAborted else none
/-- Do two requests of one requester within the node go one way, in the order sent: on its own die from one router to one
other, to another site on one virtual channel (R191, R402)? -/
def Dev.sameWay (p : Part) (d : Dev) (a r : Req) : Bool :=
  let x := d.place p (gaLocal a.addr)
  let y := d.place p (gaLocal r.addr)
  a != r && a.src == r.src && srcNode r.src == d.node && gaNode a.addr == d.node && d.placeSite p x == d.placeSite p y &&
    (if d.placeSite p y = (srcSite r.src).toNat then (placeRouter y).isSome && placeRouter x == placeRouter y
     else bodyVc (.req a) == bodyVc (.req r))
/-- The requests launched onto the lattice that have not been delivered, or are not acknowledged. -/
def Dev.riding (d : Dev) : List Req :=
  (d.net.filterMap fun m => match m with | .lattice _ k => (match k.body with | .req a => some a | _ => none) | _ => none)
    ++ d.latReplay.filterMap fun s => match s.pkt.body with | .req a => some a | _ => none
/-- Is a request at its target ordered behind another? One of this node that has come over no lattice waits for those its
requester sent the same way before it. One that the lattice has delivered waits for one that came to its endpoint before it and
still waits there: across nodes one of its stream, within the node one of its requester on its virtual channel (R191, R386,
R402). DEDUCED, log entry 92. -/
def Dev.behind (p : Part) (d : Dev) (r : Req) : Bool :=
  if d.net.contains (.req r) then
    ((d.net.takeWhile fun x => x != .req r).any fun m => match m with | .req a => d.sameWay p a r | _ => false)
      || d.riding.any (fun a => d.sameWay p a r)
      || d.arrived.any fun x => match x.2.2 with | .req a => d.sameWay p a r | _ => false
  else match d.arrived.find? fun x => x.2.2 == .req r with
    | some z => (d.arrived.takeWhile fun x => x.2.2 != .req r).any fun x => x.1 == z.1 && (match x.2.2 with
      | .req a => if srcNode r.src = d.node then a.src == r.src && x.2.1 == z.2.1 && !isL z.1 else streamBehind a r
      | _ => false)
    | none => false
/-- The banks of the commons that a request names, by the key of `bankPort`, and whether it comes by their edge port (R197). -/
def Dev.bankKeys (d : Dev) (r : Req) : Place → List Nat × Bool
  | .commons w off => ((lineParts off (max 1 (reqSize r))).map fun x => 16 * w + cmnBank x.1, !(srcNode r.src == d.node && (srcSite r.src).toNat == w))
  | _ => ([], false)
/-- A bank alternates between its two ports while both have work: a request waits where its port was served last and one of
the other port, which has crossed the mesh, stands at one of its banks (R197). DEDUCED, log entry 103. -/
def Dev.portWaits (p : Part) (d : Dev) (r : Req) (pl : Place) : Bool :=
  let mine := d.bankKeys r pl
  mine.1.any fun b => smGet none d.bankPort b == some mine.2 && d.hops.any fun h => h.2.2.isNone && (match h.2.1 with
    | .req a => a != r && (let o := d.bankKeys a (d.place p (gaLocal a.addr)); o.2 != mine.2 && o.1.contains b) && !d.behind p a
    | _ => false)
/-- The banks a request names have served its port. -/
def Dev.portServed (d : Dev) (r : Req) (pl : Place) : Dev :=
  let mine := d.bankKeys r pl
  mine.1.foldl (fun d b => { d with bankPort := smSet none d.bankPort b (some mine.2) }) d
/-- Are the clock edges withheld at the place of a request: at the core of a pantry or a lobby, or at the data router of a
commons bank it names? It waits there until they resume (R455). -/
def Dev.targetHeld (d : Dev) (r : Req) : Place → Bool
  | .pantry c _ => d.edgesHeld c
  | .lobby c _ _ => d.edgesHeld c
  | .commons w off => (lineParts off (max 1 (reqSize r))).any fun x => d.held w (bankRouter (cmnBank x.1)).toNat
  | _ => false
/-- The request has arrived: it has left the mesh, and none goes before it. It is taken off those under way, refused as its sender would refuse it, or performed by `f`
at the place it names. DEDUCED, log entry 28. -/
def Dev.atTarget (p : Part) (d : Dev) (r : Req) (f : Dev → Place → Dev × Wr) : Dev × Wr :=
  if d.dead then (d, [])
  else if gaNode r.addr ≠ d.node ∨ d.onMesh (.req r) ∨ d.behind p r then (d, [])
  else
    let pl := d.place p (gaLocal r.addr)
    match d.refusedReq p r pl with
    | some st => ((d.recv (.req r)).answer p r st, [])
    | none => if d.targetHeld r pl || d.portWaits p r pl then (d, []) else f (d.portServed r pl) pl
/-- The registers of a place in control space, if they are the package's own. -/
def ownCtl (a : Nat) : Bool := !isG (ctlSite a)
/-- Bank, channel and offset of a feed window (R231). -/
def feedOf (a : Nat) : Nat × Nat × Nat := (ctlBlk a - 0x40, (ctlOff a - 0x80000) / 0x10000, ctlOff a % 0x10000)
def isFeed (a : Nat) : Bool :=
  isBase (ctlSite a) && decide (0x40 ≤ ctlBlk a) && decide (ctlBlk a < 0x60) && decide (0x80000 ≤ ctlOff a)

/-- The response that the answer to a whole-line read joins: that of its line's entry, while it has not left the bank (R201). -/
def Dev.castFor (p : Part) (d : Dev) (w off n : Nat) (src : Src) : Option Resp :=
  if n = 128 ∧ d.combines p w src 128 then
    ((d.entries w (cmnBank off)).find? fun e => e.line == off / 128 && !e.left && d.net.contains (.resp e.first)).map CEntry.first
  else none
/-- A response joins another: the two travel as one multicast packet (R201). -/
def Dev.castWith (d : Dev) (first r : Resp) : Dev :=
  if d.mcast.any fun g => g.contains (.resp first) then
    { d with mcast := d.mcast.map fun g => if g.contains (.resp first) then g ++ [.resp r] else g }
  else { d with mcast := d.mcast ++ [[.resp first, .resp r]] }
/-- A READ at its target (R396). -/
def Dev.doRead (p : Part) (m : List Host.Cell) (d0 : Dev) (r : Req) (pl : Place) : Dev × Wr :=
  let d := d0.recv (.req r)
  let n := reqSize r
  match pl with
  | .gddr a => (d0.gddrArrive p r a, [])
  | .pantry c off =>
    (match d.coreRefused p c with
    | some st => (d.answer p r st, [])
    | none =>
      if !shapeOk off n then (d.answer p r stBadRequest, [])
      else match d.pantryRead p m c off n with
        | (d1, .ok bs) => (d1.answer p r stOk bs, [])
        | (d1, .error _) => (d1.answer p r stDataError, []))
  | .lobby c l _ =>
    (match d.coreRefused p c with
    | some st => (d.answer p r st, [])
    | none => ((d.lobRefuse p c l stLobbyBad).1.answer p r stLobbyBad, []))
  | .commons w off =>
    if !shapeOk off n then (d.answer p r stBadRequest, [])
    else
      let cast := d.castFor p w off n r.src
      let z := d.cmnRead p m w r.src (lineParts off n)
      let d1 := match z.2.1 with | some bs => z.1.answer p r stOk bs | none => z.1.answer p r stDataError
      let answer := d.respTo p r (if z.2.1.isSome then stOk else stDataError) (z.2.1.getD [])
      let d2 := match cast with | some f => d1.castWith f answer | none => d1
      (z.2.2.foldl (fun d x => d.openEntry p w { line := x.1, data := x.2, first := answer }) d2, [])
  | .ctl a =>
    if !ownCtl a then (d, [])
    else if isFeed a then
      (let f := feedOf a
      let z := d.feedWrite p r.src f.1 f.2.1 f.2.2 []
      (z.1.answer p r (z.2.getD stBankOffline), []))
    else if !shapeOk a n then (d.answer p r stBadRequest, [])
    else
      let z := d.ctlReads p a (n / 8)
      (if z.1 = stOk then d.answer p r stOk z.2 else d.answer p r z.1, [])
  | .berth _ => (d, [])
  | _ => (d.answer p r stNoTarget, [])
/-- A WRITE at its target (R396). -/
def Dev.doWrite (p : Part) (_m : List Host.Cell) (d0 : Dev) (r : Req) (data : List Byte) (pl : Place) : Dev × Wr :=
  let d := d0.recv (.req r)
  let n := data.length
  match pl with
  | .gddr a => (d0.gddrArrive p r a, [])
  | .pantry c off =>
    (match d.coreRefused p c with
    | some st => (d.answer p r st, [])
    | none =>
      if !shapeOk off n then (d.answer p r stBadRequest, [])
      else
        let z := d.panWrite p c off data (lineParts off n)
        (z.1.answer p r z.2.1, z.2.2))
  | .lobby c l _ =>
    (match d.coreRefused p c with
    | some st => (d.answer p r st, [])
    | none => ((d.lobRefuse p c l stLobbyBad).1.answer p r stLobbyBad, []))
  | .commons w off =>
    if !shapeOk off n then (d.answer p r stBadRequest, [])
    else
      let z := d.cmnWrite p w off data (lineParts off n)
      (z.1.answer p r z.2.1, z.2.2)
  | .ctl a =>
    if !ownCtl a then (d, [])
    else if isFeed a then
      (let f := feedOf a
      let z := d.feedWrite p r.src f.1 f.2.1 f.2.2 data
      match z.2 with
      | some st => (z.1.answer p r st, [])
      | none => (d0, []))
    else if !shapeOk a n then (d.answer p r stBadRequest, [])
    else
      let z := d.ctlWrites p r a data (n / 8)
      (match z.2.2 with
      | some st => (z.1.answer p r st, z.2.1)
      | none => (z.1, z.2.1))
  | .berth _ => (d, [])
  | _ => (d.answer p r stNoTarget, [])
/-- An ATOMIC attempt at its target: the store comes before every other check (R396, R412). -/
def Dev.doAtomic (p : Part) (m : List Host.Cell) (d0 : Dev) (r : Req) (op : BitVec 4) (a b : BitVec 128)
    (attempt : BitVec 2) (aseq : BitVec 16) (pl : Place) : Dev × Wr :=
  let d := d0.recv (.req r)
  let onDie (w : Nat) (f : Dev → Dev × BitVec 7 × List Byte × Wr) : Dev × Wr :=
    let z := d.storeLookup p w r attempt aseq
    if !z.2 then (z.1, [])
    else
      let y := f z.1
      (y.1.storeResult p w r aseq y.2.1 y.2.2.1, y.2.2.2)
  match pl with
  | .gddr x => (d0.gddrArrive p r x, [])
  | .pantry c off => onDie c.site.toNat fun d =>
      (match d.coreRefused p c with
      | some st => (d, st, [], [])
      | none => if atomicOk op off then d.panAtomic p m c off op a b else (d, stBadRequest, [], []))
  | .lobby c l _ => onDie c.site.toNat fun d =>
      (match d.coreRefused p c with
      | some st => (d, st, [], [])
      | none => ((d.lobRefuse p c l stLobbyBad).1, stLobbyBad, [], []))
  | .commons w off => onDie w fun d =>
      if atomicOk op off then d.cmnAtomic p m w off op a b else (d, stBadRequest, [], [])
  | .ctl x =>
    if !ownCtl x then (d, [])
    else if isFeed x then (d.answer p r stBankOffline, [])
    else (d.answer p r stBadRequest, [])
  | .berth _ => (d, [])
  | _ => (d.answer p r stNoTarget, [])
/-- A PUSH at its target (R165, R396). -/
def Dev.doPush (p : Part) (d0 : Dev) (r : Req) (seq : BitVec 16) (first : BitVec 2) (hdr : Option (BitVec 128))
    (lines : List (List Byte)) (pl : Place) : Dev × Wr :=
  let d := d0.recv (.req r)
  match pl with
  | .lobby c l _ =>
    (match d.coreRefused p c with
    | some st => (d.answer p r st, [])
    | none =>
      let z := match hdr with
        | some h => d.pushHeader p c l r.src seq first h lines
        | none => d.pushTail p c l r.src seq first lines
      (z.1.answer p r z.2, []))
  | .berth _ => (d, [])
  | .ctl x => if ownCtl x then (d.answer p r stBadRequest, []) else (d, [])
  | _ => (d.answer p r stBadRequest, [])
/-- A CREAD at its site (R277). -/
def Dev.doCread (p : Part) (d0 : Dev) (r : Req) (pl : Place) : Dev × Wr :=
  let d := d0.recv (.req r)
  match pl with
  | .ctl a =>
    if !ownCtl a then (d, [])
    else
      let z := d.ctlRead p a
      (if z.1 = stOk then d.answer p r stOk (leBytes 16 z.2.toNat) else d.answer p r z.1, [])
  | _ => (d.answer p r stBadRequest, [])
/-- A CWRITE at its site (R277); one that begins a hand-off is answered when that completes (R409). -/
def Dev.doCwrite (p : Part) (d0 : Dev) (r : Req) (v : W64) (lower upper : Bool) (pl : Place) : Dev × Wr :=
  let d := d0.recv (.req r)
  match pl with
  | .ctl a =>
    if !ownCtl a then (d, [])
    else
      let z := d.ctlWrite p r.src (some r) a v lower upper
      (match z.2.2 with
      | some st => (z.1.answer p r st, z.2.1)
      | none => (z.1, z.2.1))
  | _ => (d.answer p r stBadRequest, [])

/-- READ: a READ request arrives at its target. -/
def execRead (r : Req) (s : State) : Out :=
  s.updW fun p m d => match r.op with
    | .read _ => d.atTarget p r fun d pl => d.doRead p m r pl
    | _ => (d, [])
/-- WRITE: a WRITE request arrives at its target. -/
def execWrite (r : Req) (s : State) : Out :=
  s.updW fun p m d => match r.op with
    | .write data => d.atTarget p r fun d pl => d.doWrite p m r data pl
    | _ => (d, [])
/-- ATOMIC: an ATOMIC attempt arrives at its target. -/
def execAtomic (r : Req) (s : State) : Out :=
  s.updW fun p m d => match r.op with
    | .atomic op a b attempt aseq => d.atTarget p r fun d pl => d.doAtomic p m r op a b attempt aseq pl
    | _ => (d, [])
/-- PUSH: a push packet arrives at its target. -/
def execPush (r : Req) (s : State) : Out :=
  s.updW fun p _ d => match r.op with
    | .push seq first hdr lines => d.atTarget p r fun d pl => d.doPush p r seq first hdr lines pl
    | _ => (d, [])
/-- CREAD: a register read arrives at its site. -/
def execCread (r : Req) (s : State) : Out :=
  s.updW fun p _ d => match r.op with
    | .cread => d.atTarget p r fun d pl => d.doCread p r pl
    | _ => (d, [])
/-- CWRITE: a register write arrives at its site. -/
def execCwrite (r : Req) (s : State) : Out :=
  s.updW fun p _ d => match r.op with
    | .cwrite v lower upper => d.atTarget p r fun d pl => d.doCwrite p r v lower upper pl
    | _ => (d, [])

end Sys2Proof.Machine
end

