-- ==== Sys2Proof/Machine/HostPort.lean ====
section
/-! DEFINITION. The host port: its link, the checks of a frame, the frames it sends, and the checks of a command
packet (R424 to R431, R438, R447, R448). -/

namespace Sys2Proof.Machine

/-! ### Link and frames (R424 to R428) -/

/-- K0's firmware runs: boot has started it and the package is neither off nor held in reset (R478, R545). -/
def Dev.kRuns (p : Part) (d : Dev) : Bool := !d.dead && d.bootReached p 3
/-- Is the Ethernet link up (R449)? -/
def Dev.linkUp (p : Part) (d : Dev) : Bool := d.kRuns p && d.fld p (hostR 8) 0 2 == 2
/-- Priority of the frames the device sends (R428). -/
def Dev.txPcp (p : Part) (d : Dev) : BitVec 3 := BitVec.ofNat 3 (d.fld p (hostR 0x38) 29 3)
/-- Send a frame that answers one from `a`; while its priority is paused it waits, and with the link down it is lost
(R424, R427, R428, R448). -/
def Dev.sendFrame (p : Part) (d : Dev) (a : HostAddr) (payload : List Byte) : Dev :=
  let net := d.get p (hostR 0x38)
  let m : Msg := .frame a (d.txPcp p) (BitVec.ofNat 6 (bits net 32 6))
    (if net.getLsbD 28 then some (BitVec.ofNat 12 (bits net 16 12)) else none) payload
  if !d.linkUp p then d
  else if d.paused.getLsbD (d.txPcp p).toNat then { d with txHeld := d.txHeld ++ [m] } else d.send m
/-- The checks of an arriving frame: the device after its FEC codewords and drops are counted, and whether it is accepted. The
receive buffer holds 4 MiB (R427, R428, R449). -/
def Dev.frameIn (p : Part) (d0 : Dev) (h : EthHead) : Dev × Bool :=
  let net := d0.get p (hostR 0x38)
  let d := (d0.count p (hostR 0x238) h.fecCorr.toNat).count p (hostR 0x240) h.fecUnc.toNat
  if !d0.linkUp p then (d0, false)
  else if 0x400000 < h.buffered.toNat + h.len.toNat then (d.count p (hostR 0x210) 1, false)
  else if !h.fcsOk then (d.count p (hostR 0x248) 1, false)
  else if 9216 < h.len.toNat then (d.count p (hostR 0x210) 1, false)
  else if h.vlan ≠ (if net.getLsbD 28 then some (BitVec.ofNat 12 (bits net 16 12)) else none) then (d, false)
  else (d, !h.fragmentOrExt)
/-- Is an address the device's own IPv4 or IPv6 address, and enabled (R428)? -/
def Dev.ownIp (p : Part) (d : Dev) (v6 : Bool) (a : BitVec 128) : Bool :=
  if v6 then d.bit p (hostR 0x30) 8 && a == d.get p (hostR 0x20) ++ d.get p (hostR 0x28)
  else d.bit p (hostR 0x18) 40 && a.toNat == d.fld p (hostR 0x18) 0 32
/-- The checks of a frame whose packet is for one of the device's addresses. -/
def Dev.ipIn (p : Part) (d : Dev) (h : EthHead) : Dev × Bool :=
  let z := d.frameIn p h
  (z.1, z.2 && d.ownIp p h.from'.v6 h.to')
/-- An accepted frame to one of the device's addresses is answered (R424, R428). -/
def Dev.frameAnswer (p : Part) (d : Dev) (h : EthHead) (v6 : Bool) (payload : List Byte) : Dev :=
  let z := d.ipIn p h
  if z.2 && h.from'.v6 == v6 then z.1.sendFrame p h.from' payload else z.1
/-- ETHERNET_FRAME: a frame arrives and is accepted or dropped. -/
def execEthernetFrame (h : EthHead) (s : State) : Out := s.upd fun p _ d => (d.frameIn p h).1
/-- The device's MAC address, most significant byte first. -/
def Dev.macBytes (p : Part) (d : Dev) : List Byte := (leBytes 6 (d.get p (hostR 0x10)).toNat).reverse
/-- ARP_REQUEST: the answer gives the MAC address. -/
def execArpRequest (h : EthHead) (s : State) : Out := s.upd fun p _ d => d.frameAnswer p h false (d.macBytes p)
/-- NEIGHBOUR_SOLICITATION: the answer gives the MAC address. -/
def execNeighbourSolicitation (h : EthHead) (s : State) : Out := s.upd fun p _ d => d.frameAnswer p h true (d.macBytes p)
/-- ICMP_ECHO: the payload is sent back. -/
def execIcmpEcho (h : EthHead) (payload : List Byte) (s : State) : Out :=
  s.upd fun p _ d => d.frameAnswer p h h.from'.v6 payload
/-- Frames that waited leave or are lost: a reset or stop whose reply is among them counts its millisecond from now (R437). -/
def Dev.replyGone (d : Dev) (gone : List Msg) : Dev :=
  { d with resetDue := d.resetDue.map fun x => match x.waits with
      | some m => if gone.contains m then { x with t := d.now, waits := none } else x
      | none => x }
/-- The priorities paused are now those of a mask; frames that waited for a resumed one leave (R427). -/
def Dev.setPaused (d : Dev) (now : BitVec 8) : Dev :=
  let waits (m : Msg) : Bool := match m with | .frame _ pcp _ _ _ => now.getLsbD pcp.toNat | _ => false
  let gone := d.txHeld.filter fun m => !waits m
  Dev.replyGone { d with paused := now, txHeld := d.txHeld.filter waits, net := d.net ++ gone } gone
/-- Ledger edges in a pause of `quanta` times 512 bit times of the link's speed (PRESUMED, log entry 106). -/
def Dev.pauseTicks (p : Part) (d : Dev) (quanta : BitVec 16) : Nat :=
  let unit := 4000 * 2 ^ d.fld p (hostR 8) 2 2
  (quanta.toNat * 6144 + unit - 1) / unit
/-- Mask of the priorities that satisfy `f`. -/
def priMask (f : Nat → Bool) : BitVec 8 := BitVec.ofNat 8 (((List.range 8).filter f).map (2 ^ ·)).sum
/-- PFC_FRAME, and PAUSE with every priority named: each priority pauses for the time given for it; a time of 0 ends its pause. -/
def execPfcFrame (pri : BitVec 8) (quanta : List (BitVec 16)) (s : State) : Out :=
  s.upd fun p _ d =>
    let q (i : Nat) : BitVec 16 := quanta.getD i 0
    let on := priMask fun i => pri.getLsbD i && q i != 0
    if !d.linkUp p then d
    else
      let d1 := d.setPaused ((d.paused &&& ~~~pri) ||| on)
      { d1 with pauseT := (List.range 8).foldl (fun m i => if on.getLsbD i then smSet 0 m i (d.raw + BitVec.ofNat 64 (d.pauseTicks p (q i))) else m) d.pauseT }
/-- PAUSE_TIME_EXPIRY: the time given for a priority is over. -/
def execPauseTimeExpiry (pri : BitVec 3) (s : State) : Out :=
  s.upd fun _ _ d => if reached d.raw (smGet 0 d.pauseT pri.toNat) then d.setPaused (d.paused &&& ~~~((1 : BitVec 8) <<< pri.toNat)) else d
/-- Lane sets of a speed, lowest-numbered first (R425). -/
def laneSets (speed : Nat) : List Nat := match speed with | 2 => [0xFF] | 1 => [0x0F, 0xF0] | 0 => [0x03, 0x0C, 0x30, 0xC0] | _ => []
/-- May the link train at a speed on a lane set (R425, R426)? C2M trains SPEED_MAX on its lowest-numbered free lane set
alone. -/
def Dev.laneSetOk (p : Part) (d : Dev) (speed lanes : Nat) : Bool :=
  let ctl := hostR 0
  let free := (laneSets speed).filter fun l => l &&& d.fld p ctl 8 8 == 0
  if d.fld p ctl 4 2 = 2 then speed == d.fld p ctl 0 2 && free.head? == some lanes
  else decide (speed ≤ d.fld p ctl 0 2) && free.contains lanes
/-- Does the partner take part at a speed: autonegotiation asks for its offer, and C2M and AN_EN 0 do without (R426)? -/
def Dev.ethOffered (p : Part) (d : Dev) (offer : BitVec 3) (speed : Nat) : Bool :=
  d.fld p (hostR 0) 4 2 == 2 || !d.bit p (hostR 0) 2 || offer.getLsbD speed
/-- The fastest speed and its lowest-numbered lane set of which every lane trains (R426). -/
def Dev.ethChoice (p : Part) (d : Dev) (offer : BitVec 3) (trained : BitVec 8) : Option (Nat × Nat) :=
  ([2, 1, 0].flatMap fun sp => (laneSets sp).map fun l => (sp, l)).find? fun x =>
    d.laneSetOk p x.1 x.2 && d.ethOffered p offer x.1 && x.2 &&& trained.toNat == x.2
/-- ETH_LINK_UP: negotiation and training have ended; `offer` are the speeds the partner offers, one bit each, and `trained`
the lanes that train. Where no lane set does, the link stays as it is. -/
def execEthLinkUp (offer : BitVec 3) (trained : BitVec 8) (s : State) : Out :=
  s.upd fun p _ d =>
    if !d.kRuns p ∨ d.fld p (hostR 8) 0 2 = 2 then d
    else match d.ethChoice p offer trained with
      | none => d
      | some x => ((d.setF p (hostR 8) 2 2 x.1).setF p (hostR 8) 8 8 x.2).ethState p 2
/-- ETH_LINK_DOWN: frames that wait to be sent are lost. DEDUCED, log entry 53. -/
def execEthLinkDown (s : State) : Out :=
  s.upd fun p _ d =>
    if !d.linkUp p then d
    else Dev.replyGone { (d.setF p (hostR 8) 8 8 0).ethState p 0 with paused := 0, txHeld := [] } d.txHeld
/-- ETH_RETRAIN. -/
def execEthRetrain (s : State) : Out := s.upd fun p _ d => if d.kRuns p then d.ethRetrain p else d

/-! ### Command packets and replies (R429 to R431, R438) -/

/-- Fields of a command packet (R429). -/
def cmdOp (bs : List Byte) : Nat := leNat ((bs.drop 1).take 1)
def cmdLen (bs : List Byte) : Nat := leNat ((bs.drop 6).take 2)
def cmdKey (bs : List Byte) : Nat := leNat ((bs.drop 12).take 4)
/-- The parameters of a command packet. -/
def cmdParams (bs : List Byte) : List Byte := (bs.drop 16).take (cmdLen bs)
/-- A little-endian parameter of `n` bytes at byte `lo` (R10). -/
def par (ps : List Byte) (lo n : Nat) : Nat := leNat ((ps.drop lo).take n)
/-- Opcodes of R435. -/
def opcodes : List Nat :=
  [0, 1, 2, 3, 4, 5, 0x10, 0x11, 0x12, 0x20, 0x21, 0x22, 0x23, 0x30, 0x31, 0x32, 0x33, 0x40, 0x41, 0x42, 0x48, 0x49]
/-- A reply: header and results (R429). -/
def replyBytes (bs : List Byte) (sess key status flags : Nat) (res : List Byte) : List Byte :=
  [1] ++ leBytes 1 (cmdOp bs) ++ leBytes 2 (cmdTag bs).toNat ++ leBytes 1 flags ++ [0] ++ leBytes 2 res.length
    ++ leBytes 2 sess ++ leBytes 2 status ++ leBytes 4 key ++ res
/-- The 32 words of a reply slot. -/
def slotWords (bs : List Byte) : List W64 := (List.range 32).map fun i => BitVec.ofNat 64 (leNat ((bs.drop (8 * i)).take 8))
/-- Store a reply in its session's slot; one with FINAL set frees the slot (R438). -/
def Dev.storeReply (p : Part) (d : Dev) (s : Nat) (tag : BitVec 16) (final : Bool) (bs : List Byte) : Dev :=
  let d1 := d.putWords p (ringR s (0x100 * (tag.toNat % 64))) (slotWords bs)
  if final then { d1 with hostUse := smSet none d1.hostUse (slotKey s tag) none } else d1
/-- The stored words of a slot as bytes. -/
def Dev.slotBytes (p : Part) (d : Dev) (s : Nat) (tag : BitVec 16) : List Byte :=
  ((List.range 32).map fun i => leBytes 8 (d.get p (ringR s (0x100 * (tag.toNat % 64) + 8 * i))).toNat).flatten
/-- A reply goes to the sender of its command; a berth reads its slot instead (R429, R447). -/
def Dev.sendReply (p : Part) (d : Dev) (o : Origin) (bs : List Byte) : Dev :=
  match o with | .eth a => d.sendFrame p a bs | .berth _ => d
/-- A reply that is not stored: at most 1,000 of them a second (R430). -/
def Dev.badReply (p : Part) (d : Dev) (o : Origin) (bs : List Byte) (status : Nat) (res : List Byte := []) : Dev :=
  let recent := d.badT.filter fun t => decide (elapsed d.now t < 1200000000)
  if 1000 ≤ recent.length then { d with badT := recent }
  else Dev.sendReply p { d with badT := recent ++ [d.now] } o (replyBytes bs (cmdSession bs) (cmdKey bs) status 1 res)
/-- Check 3 of R430. -/
def Dev.sessionOk (p : Part) (d : Dev) (o : Origin) (bs : List Byte) : Bool :=
  let s := cmdSession bs
  match o with
  | .eth _ =>
    if s = 0 then cmdOp bs == 1
    else decide (s ≤ 16) && d.sessOpen p s && cmdKey bs == d.fld p (sessR s) 32 32
  | .berth g => s == 17 + g.toNat && d.sessOpen p s && cmdKey bs == 0
/-- A command whose slot holds the finished reply to the same TAG: the reply is sent again (R438). -/
def Dev.resend (p : Part) (d : Dev) (o : Origin) (s : Nat) (tag : BitVec 16) : Dev :=
  let bs := d.slotBytes p s tag
  let flags := leNat ((bs.drop 4).take 1)
  let n := 16 + leNat ((bs.drop 6).take 2)
  (d.count p (hostR 0x208) 1).sendReply p o (bs.take 4 ++ leBytes 1 (flags ||| 2) ++ ((bs.take n).drop 5))
/-- Does a slot hold a finished reply to TAG? -/
def Dev.slotFinal (p : Part) (d : Dev) (s : Nat) (tag : BitVec 16) : Bool :=
  let w := d.get p (ringR s (0x100 * (tag.toNat % 64)))
  w.getLsbD 34 && bits w 16 16 == tag.toNat
/-- A command packet that is checked, and held where it passes (R430, R431, R438). DEDUCED, log entry 49. -/
def Dev.command (p : Part) (d : Dev) (o : Origin) (bs : List Byte) : Dev :=
  let s := cmdSession bs
  let tag := cmdTag bs
  let n := cmdLen bs
  if 256 ≤ d.hostQ.length then d.count p (hostR 0x210) 1
  else if bs.head? ≠ some 1 then d.badReply p o bs 2 (leBytes 8 1)
  else if bs.length < 16 + n ∨ n % 8 ≠ 0 ∨ 1024 < n then d.badReply p o bs 3
  else if !d.sessionOk p o bs then (d.count p (hostR 0x218) 1).badReply p o bs 4
  else
    let d1 : Dev := { d with sessT := smSet 0 d.sessT s d.now }
    if !opcodes.contains (cmdOp bs) then d1.badReply p o bs 5
    else if s = 0 then { d1 with hostQ := d1.hostQ ++ [{ from' := o, bytes := bs }] }
    else match smGet none d1.hostUse (slotKey s tag) with
      | some old =>
        if old = bs ∧ !(d1.deferred.any fun x => x.sess == s && x.slot == tag.toNat % 64) then d1 else d1.badReply p o bs 7
      | none =>
        if d1.slotFinal p s tag then d1.resend p o s tag
        else { d1 with hostQ := d1.hostQ ++ [{ from' := o, bytes := bs }], hostUse := smSet none d1.hostUse (slotKey s tag) (some bs) }
/-- COMMAND_PACKET: an accepted datagram to CMDPORT of one of the device's addresses (R428, R429). -/
def execCommandPacket (h : EthHead) (bytes : List Byte) (s : State) : Out :=
  s.upd fun p _ d =>
    let z := d.ipIn p h
    if z.2 && h.dstPort.toNat == d.fld p (hostR 0x38) 0 16 then z.1.command p (.eth h.from') bytes else z.1
/-- The bytes of a berth's window that make its command packet: the header, and LENGTH bytes where it is in range. -/
def Dev.windowBytes (p : Part) (d : Dev) (g : Nat) : List Byte :=
  let word (i : Nat) : List Byte := leBytes 8 (d.get p (hostR (0x20000 + 0x2000 * g + 8 * i))).toNat
  let head := word 0 ++ word 1
  if 1024 < cmdLen head then head else (head ++ ((List.range (cmdLen head / 8 + 1)).map fun i => word (2 + i)).flatten).take (16 + cmdLen head)
/-- GDOOR_RING: a berth has rung its doorbell and K0 copies the window; BUSY is 0 when the copy is done. From any other
site it is refused (R447). -/
def execGdoorRing (src : Src) (g : BitVec 1) (s : State) : Out :=
  s.upd fun p _ d =>
    if !d.kRuns p ∨ srcNode src ≠ d.node ∨ (srcSite src).toNat ≠ 21 + g.toNat ∨ !d.berthLive p g.toNat then d
    else (d.setB p (hostR (0x1A0 + 8 * g.toNat)) 1 false).command p (.berth g) (d.windowBytes p g.toNat)
/-- SESSION_TIMEOUT: TIMEOUT seconds without a command or a RoCEv2 packet (R434). -/
def execSessionTimeout (session : BitVec 5) (s : State) : Out :=
  s.upd fun p _ d =>
    let n := session.toNat
    if d.kRuns p && decide (1 ≤ n) && decide (n ≤ 16) && d.bit p (sessR n) 0
        && decide (1200000000 * d.fld p (sessR n) 16 12 ≤ elapsed d.now (smGet 0 d.sessT n)) then
      d.closeSession p n 3
    else d

end Sys2Proof.Machine
end

