-- ==== Sys2Proof/Machine/Host.lean ====
section
/-! DEFINITION. The host commands: each is executed from the head of the command queue by the row of its opcode (R431 to
R442). -/

namespace Sys2Proof.Machine

/-! ### Execution (R431, R435 to R438, R500) -/

/-- What a command ends in: a status and results, or it stays at the head of the queue until something else ends. -/
structure CmdRes where
  dev : Dev
  wr : Wr := []
  /-- None while it waits, with the entry the queue keeps for it. -/
  res : Option (Nat × List Byte)
  keep : Option HCmd := none
  /-- The reply is not FINAL: a deferred command has started. -/
  started : Bool := false
  /-- The session and key the reply names, where they are not the command's. -/
  sess : Option (Nat × Nat) := none
/-- A command ends with a status and no results. -/
def CmdRes.ends (d : Dev) (st : Nat) (res : List Byte := []) : CmdRes := { dev := d, res := some (st, res) }

/-- Opcodes a berth session may not use (R435). -/
def berthBarred (op : Nat) : Bool := op == 1 || op == 2 || (decide (0x30 ≤ op) && decide (op ≤ 0x33))
/-- Opcodes executed during an orderly stop (R500). -/
def stopAllows (op : Nat) : Bool := op == 4 || op == 5 || op == 0x10
/-- Is LENGTH right for the opcode? Those with a COUNT check it themselves (R435, R436). DEDUCED, log entry 50. -/
def lengthOk (op n : Nat) : Bool :=
  if op = 0 then decide (n ≤ 240)
  else if op = 2 ∨ op = 3 ∨ op = 4 ∨ op = 0x42 ∨ op = 0x49 then n == 0
  else if op = 0x10 ∨ op = 0x11 then decide (8 ≤ n)
  else if op = 0x12 ∨ op = 0x32 then n == 24
  else if op = 0x20 then n == 136
  else if op = 0x23 ∨ op = 0x40 then n == 16
  else if op = 0x30 then n == 32
  else n == 8
/-- Statuses of a command that was executed (R436, R449). -/
def countsAsRun (st : Nat) : Bool := st == 0 || st == 1 || st == 0xB || decide (0x100 ≤ st)
/-- A berth whose supply was cut closes its session once none of its commands is held (R448). DEDUCED, log entry 54. -/
def Dev.berthCloses (p : Part) (d : Dev) (o : Origin) : Dev :=
  match o with
  | .eth _ => d
  | .berth g =>
    let s := 17 + g.toNat
    if d.bit p (brtR g.toNat 0) 8 && !(d.hostQ.any fun c => c.from' == o) then d.closeSession p s 2 else d
/-- The command at the head of the queue ends: its reply is stored and sent (R438). -/
def Dev.reply (p : Part) (d : Dev) (c : HCmd) (r : CmdRes) (st : Nat) (res : List Byte) : Dev :=
  let own := cmdSession c.bytes
  let tag := cmdTag c.bytes
  let s := match r.sess with | some x => x.1 | none => own
  let key := match r.sess with | some x => x.2 | none => cmdKey c.bytes
  let bs := replyBytes c.bytes s key st (if r.started then 1 else 5) res
  let d1 : Dev := if s = own then d else { d with hostUse := smSet none d.hostUse (slotKey own tag) none }
  let d2 := if s = 0 then d1 else d1.storeReply p s tag (!r.started) bs
  (if countsAsRun st then d2.count p (hostR 0x200) 1 else d2).sendReply p c.from' bs
/-- K0 executes the command at the head of its queue, if it has opcode `op` (R431). -/
def Dev.hostRun (p : Part) (d : Dev) (op : Nat) (f : Dev → HCmd → List Byte → CmdRes) : Dev × Wr :=
  match d.hostQ with
  | [] => (d, [])
  | c :: q =>
    if !d.kRuns p ∨ cmdOp c.bytes ≠ op then (d, [])
    else
      let d1 : Dev := { d with hostQ := q }
      let berth := match c.from' with | .berth _ => true | .eth _ => false
      let r : CmdRes :=
        if d.stopStep ≠ 0 ∧ !stopAllows op ∧ !c.begun then .ends d1 0xA
        else if berth && berthBarred op then .ends d1 0xD
        else if !lengthOk op (cmdLen c.bytes) then .ends d1 3
        else f d1 c (cmdParams c.bytes)
      match r.res with
      | none => ({ r.dev with hostQ := r.keep.getD { c with begun := true } :: q }, r.wr)
      | some (st, res) => ((r.dev.reply p c r st res).berthCloses p c.from', r.wr)

/-! ### Sessions and events (R433 to R435, R442) -/

/-- HOST_NOP: the parameters are echoed. -/
def execHostNop (s : State) : Out := s.updW fun p _ d => d.hostRun p 0 fun d _ ps => .ends d 0 ps
/-- Local address of a register in this node's control-space window (R39). -/
def localOf (a : Nat) : Nat := 0x7F0000000000 + a
/-- Key of a new session: a free value other than 0 (R433, log entry 6). -/
def newKey (x : W64) : Nat := if x.toNat % 2 ^ 32 = 0 then 1 else x.toNat % 2 ^ 32
/-- SESSION_OPEN: the lowest free session opens; its slots are zeroed (R435, R438). -/
def Dev.sessionOpen (p : Part) (d : Dev) (c : HCmd) (ps : List Byte) : CmdRes :=
  let t := par ps 0 2
  let mc := par ps 2 1
  match ((List.range 16).map (· + 1)).find? fun s => !d.bit p (sessR s) 0 with
  | none => if 3600 < t ∨ 4 < mc then .ends d 6 else .ends d 8
  | some s =>
    if 3600 < t ∨ 4 < mc then .ends d 6
    else
      let k := d.fresh
      let r := k.2.fresh
      let key := newKey k.1
      let rkey : W32 := r.1.truncate 32
      let v6 := match c.from' with | .eth a => b1 a.v6 | .berth _ => 0
      let d1 : Dev := { r.2.clearRing s 0 with
        sessT := smSet 0 d.sessT s d.now
        hostUse := d.hostUse.filter (fun e => e.1 / 64 != s)
        mrs := d.mrs ++ [⟨rkey, s, 0, 0, true, true, true⟩] }
      let d2 := d1.put p (sessR s) (packFields [(0, 1), (2, v6), (3, mc), (16, if t = 0 then 10 else t), (32, key)])
      let res := leBytes 8 rkey.toNat ++ leBytes 8 (localOf (ringR s 0)) ++ leBytes 8 (localOf (ecbR s 0))
      { dev := d2.postSession p s 1, res := some (0, res), sess := some (s, key) }
/-- SESSION_OPEN. -/
def execSessionOpen (s : State) : Out := s.updW fun p _ d => d.hostRun p 1 fun d c ps => d.sessionOpen p c ps
/-- SESSION_CLOSE: the reply is stored and sent, and the session closes (R434). -/
def execSessionClose (s : State) : Out :=
  s.updW fun p _ d =>
    let z := d.hostRun p 2 fun d _ _ => .ends d 0
    match d.hostQ with
    | c :: _ =>
      let n := cmdSession c.bytes
      if d.kRuns p ∧ cmdOp c.bytes = 2 ∧ d.stopStep = 0 ∧ cmdLen c.bytes = 0 ∧ n ≤ 16 then (z.1.closeSession p n 2, z.2) else z
    | [] => z
/-- SESSION_LIST. -/
def execSessionList (s : State) : Out :=
  s.updW fun p _ d => d.hostRun p 3 fun d _ _ => .ends d 0 (sessions.map fun n => leBytes 8 (d.sessWord p n).toNat).flatten
/-- Results of DEVICE_INFO. -/
def Dev.deviceInfo (p : Part) (d : Dev) : List Byte :=
  let rev (site : Nat) : Nat := if isG site && p.berth == 0 then 0 else (p.revOf site).toNat
  leBytes 1 (65 + p.grade.val) ++ leBytes 1 (b1 p.mem192) ++ leBytes 1 p.berth.toNat ++ leBytes 1 (rev 31 / 16)
    ++ leBytes 2 d.node.toNat ++ [0, 0]
    ++ ((List.range 16).map fun n => leBytes 1 (p.nGood n)).flatten
    ++ ((List.range 23).map fun n => leBytes 1 (rev n)).flatten ++ [0]
    ++ leBytes 8 (d.get p (fwR 8)).toNat ++ leBytes 8 d.now.toNat
/-- DEVICE_INFO. -/
def execDeviceInfo (s : State) : Out := s.updW fun p _ d => d.hostRun p 4 fun d _ _ => .ends d 0 (d.deviceInfo p)
/-- EVENT_POLL: the oldest unconsumed events, which it consumes (R442). -/
def Dev.eventPoll (p : Part) (d : Dev) (s : Nat) (ps : List Byte) : CmdRes :=
  let top := par ps 0 1
  if top = 0 ∨ 3 < top then .ends d 6
  else
    let cons := d.econs p s
    let m := min top (d.eprod p s - cons).toNat
    let entry (i : Nat) : List Byte :=
      ((List.range 8).map fun j => leBytes 8 (d.get p (ringR s (0x4000 + 0x40 * ((cons.toNat + i) % 256) + 8 * j))).toNat).flatten
    .ends (d.put p (ecbR s 8) (cons + BitVec.ofNat 64 m)) 0
      (leBytes 8 m ++ leBytes 8 (d.get p (ecbR s 0x10)).toNat ++ ((List.range m).map entry).flatten)
/-- EVENT_POLL. -/
def execEventPoll (s : State) : Out :=
  s.updW fun p _ d => d.hostRun p 5 fun d c ps => d.eventPoll p (cmdSession c.bytes) ps

/-! ### Registers and cores (R437) -/

/-- Is a global address an aligned one of a control-space window (R39)? -/
def ctlWindow (a : W64) : Bool := a.toNat % 8 == 0 && decide (0x7F0000000000 ≤ gaLocal a) && decide (gaLocal a < 0x800000000000)
/-- Register address of such a global address. -/
def ctlOf (a : W64) : Nat := gaLocal a - 0x7F0000000000
/-- Does an access leave this package's own registers: another node, or a consigned die? -/
def Dev.faraway (d : Dev) (a : W64) : Bool := gaNode a != d.node || isG (ctlSite (ctlOf a))
/-- K0's request for a register elsewhere, put on the fabric; its answer is the command's operand (R431). -/
def Dev.askFar (p : Part) (d : Dev) (a : W64) (op : ReqOp) : Dev :=
  let r : Req := { src := d.hostSrc, addr := a, tag := 0xFFF, op := op }
  if gaNode a = d.node then d.sendReq p r else d.inject p (gaNode a) (.req r)
/-- The answer given for a far access; one that is missing has taken longer than R389 allows. -/
def farAns (l : List RemoteAns) : RemoteAns := l.headD { status := stRemoteTimeout, value := 0 }
/-- REG_READ: every address in index order: statuses and values. -/
def Dev.regReads (p : Part) (d : Dev) (remote : List RemoteAns) : List W64 → Dev × List (BitVec 7 × W64)
  | [] => (d, [])
  | a :: r =>
    if d.faraway a && (gaNode a != d.node || (d.refusedAtSender p (.ctl (ctlOf a))).isNone) then
      let x := farAns remote
      let y := Dev.regReads p (d.askFar p a .cread) (remote.drop 1) r
      (y.1, (x.status, if x.status = stOk then x.value else 0) :: y.2)
    else
      let z := match d.refusedAtSender p (.ctl (ctlOf a)) with | some st => (st, 0) | none => d.ctlRead p (ctlOf a)
      let y := Dev.regReads p d remote r
      (y.1, z :: y.2)
/-- A list of global addresses in the parameters. -/
def parAddrs (ps : List Byte) (lo step n : Nat) : List W64 := (List.range n).map fun i => BitVec.ofNat 64 (par ps (lo + step * i) 8)
/-- REG_READ. -/
def Dev.hostRegRead (p : Part) (d : Dev) (remote : List RemoteAns) (ps : List Byte) : CmdRes :=
  let n := par ps 0 2
  let addrs := parAddrs ps 8 8 n
  if n = 0 ∨ 16 < n then .ends d 6
  else if ps.length ≠ 8 + 8 * n then .ends d 3
  else if !addrs.all ctlWindow then .ends d 6
  else
    let z := d.regReads p remote addrs
    let sts := z.2.map fun x => leBytes 1 x.1.toNat
    let status : Nat := if z.2.all fun x => x.1 == stOk then 0 else 0xB
    .ends z.1 status (sts.flatten ++ List.replicate (16 - n) 0 ++ (z.2.map fun x => leBytes 8 x.2.toNat).flatten)
/-- REG_READ. -/
def execRegRead (remote : List RemoteAns) (s : State) : Out :=
  s.updW fun p _ d => d.hostRun p 0x10 fun d _ ps => d.hostRegRead p remote ps
/-- How far a REG_WRITE has come: the device, the bytes written, the writes made, the status of the one that stopped it,
and whether it waits for a hand-off. -/
structure RegWr where
  dev : Dev
  wr : Wr
  made : Nat
  bad : BitVec 7
  waits : Bool
/-- Writes in index order up to the first that does not end OK (R437). -/
def Dev.regWrites (p : Part) (d : Dev) (remote : List RemoteAns) (i : Nat) : List (W64 × W64) → RegWr
  | [] => ⟨d, [], i, stOk, false⟩
  | (a, v) :: r =>
    if d.faraway a && (gaNode a != d.node || (d.refusedAtSender p (.ctl (ctlOf a))).isNone) then
      let x := farAns remote
      let d1 := d.askFar p a (.cwrite v true true)
      if x.status = stOk then Dev.regWrites p d1 (remote.drop 1) (i + 1) r else ⟨d1, [], i, x.status, false⟩
    else match d.refusedAtSender p (.ctl (ctlOf a)) with
      | some st => ⟨d, [], i, st, false⟩
      | none =>
        let z := d.ctlWrite p d.hostSrc none (ctlOf a) v true true
        match z.2.2 with
        | none => ⟨{ z.1 with handoff := z.1.handoff.map fun h => { h with host := true } }, z.2.1, i, stOk, true⟩
        | some st =>
          if st = stOk then
            let y := Dev.regWrites p z.1 remote (i + 1) r
            ⟨y.dev, z.2.1 ++ y.wr, y.made, y.bad, y.waits⟩
          else ⟨z.1, z.2.1, i, st, false⟩
/-- REG_WRITE's results. -/
def regWriteRes (made : Nat) (bad : BitVec 7) : List Byte := leBytes 2 made ++ leBytes 6 bad.toNat
/-- REG_WRITE. One whose write has begun a hand-off waits until that is answered, and then goes on. -/
def Dev.hostRegWrite (p : Part) (d : Dev) (remote : List RemoteAns) (c : HCmd) (ps : List Byte) : CmdRes :=
  let n := par ps 0 2
  let addrs := parAddrs ps 8 16 n
  let pairs := addrs.zip (parAddrs ps 16 16 n)
  let go (from' : Nat) : CmdRes :=
    let z := d.regWrites p remote from' (pairs.drop from')
    if z.waits then { dev := z.dev, wr := z.wr, res := none, keep := some { c with begun := true, made := z.made, done := none } }
    else { dev := z.dev, wr := z.wr, res := some (if z.bad = stOk then 0 else 0xB, regWriteRes z.made z.bad) }
  if n = 0 ∨ 63 < n then .ends d 6
  else if ps.length ≠ 8 + 16 * n then .ends d 3
  else if !addrs.all ctlWindow then .ends d 6
  else if !c.begun then go 0
  else match c.done with
    | none => { dev := d, res := none, keep := some c }
    | some st => if st = stOk then go (c.made + 1) else .ends d 0xB (regWriteRes c.made st)
/-- REG_WRITE. -/
def execRegWrite (remote : List RemoteAns) (s : State) : Out :=
  s.updW fun p _ d => d.hostRun p 0x11 fun d c ps => d.hostRegWrite p remote c ps
/-- CORE_CTRL on one core: the device and whether a write was refused or ignored (R93, R217, R437). -/
def Dev.coreCtl1 (p : Part) (d : Dev) (c : CoreId) (op : Nat) (setPc : Option Nat) : Dev × Bool :=
  let st := (d.core c).st
  if !p.has c ∨ st = .fenced then (d, true)
  else
    let pcOk := st = .reset ∨ st = .idle ∨ st = .halt
    let d1 := match setPc with
      | some v => if pcOk then d.modCore c fun k => { k with pc := BitVec.ofNat 22 (v / 4 * 4) } else d
      | none => d
    (d1.ctrlWrite p c (op == 1) (op == 2) (op == 3) (op == 4) false, setPc.isSome && !pcOk)
/-- CORE_CTRL on the cores of a mask in ascending order, with the mask of those refused. -/
def Dev.coreCtls (p : Part) (d : Dev) (w op : Nat) (setPc : Option Nat) : List (BitVec 6) → Dev × Nat
  | [] => (d, 0)
  | k :: r =>
    let z := d.coreCtl1 p ⟨BitVec.ofNat 4 w, k⟩ op setPc
    let y := Dev.coreCtls p z.1 w op setPc r
    (y.1, y.2 + if z.2 then 2 ^ k.toNat else 0)
/-- CORE_CTRL (R437); a site held out is never ready (R479, R483). -/
def Dev.coreCtl (p : Part) (d : Dev) (ps : List Byte) : CmdRes :=
  let w := par ps 0 1
  let op := par ps 1 1
  let mask := BitVec.ofNat 64 (par ps 8 8)
  let setPc := if par ps 2 1 % 2 = 1 then some (par ps 16 4) else none
  if 16 ≤ w ∨ op = 0 ∨ 4 < op then .ends d 6
  else if !d.siteReady p w then .ends d 0xC
  else
    let z := d.coreCtls p w op setPc (positions mask)
    .ends z.1 0 (leBytes 8 z.2)
/-- CORE_CTRL. -/
def execCoreCtrl (s : State) : Out := s.updW fun p _ d => d.hostRun p 0x12 fun d _ ps => d.coreCtl p ps

/-! ### Parties and hand-off (R408, R418, R437) -/

/-- PARTY_START: CFG, the CORES words and START. -/
def Dev.partyStart (p : Part) (d : Dev) (ps : List Byte) : CmdRes :=
  let e := par ps 0 1
  let party := par ps 2 2
  let aidx := par ps 6 1
  if 16 ≤ e ∨ 16 ≤ aidx ∨ party = 0 then .ends d 6
  else if d.ptySt p e ≠ 0 ∨ (List.range 16).any (fun f => f != e && d.ptySt p f != 0 && d.ptyNo p f == party) then .ends d 0xA
  else
    let d1 := d.writePtyCfg p e (ptyR e 0) (packFields [(0, party), (16, par ps 4 2), (32, aidx)]) true true
    let d2 := (List.range 16).foldl (fun d n => d.writePtyCfg p e (ptyR e (0x80 + 8 * n)) (BitVec.ofNat 64 (par ps (8 + 8 * n) 8)) true true) d1
    .ends (d2.ptyStart p e) 0
/-- PARTY_START. -/
def execPartyStart (s : State) : Out := s.updW fun p _ d => d.hostRun p 0x20 fun d _ ps => d.partyStart p ps
/-- PARTY_ABORT: answered once every entry that holds PARTY is in ABORTED; until then it stays at the head of the
queue. -/
def Dev.partyAbort (p : Part) (d : Dev) (c : HCmd) (ps : List Byte) : CmdRes :=
  let party := par ps 0 2
  let holds (d : Dev) (e : Nat) : Bool := d.ptySt p e != 0 && d.ptyNo p e == party
  let d1 := if c.begun then d else ((List.range 16).filter (holds d)).foldl (fun d e => d.ptyAbort p e 1) d
  if (List.range 16).all fun e => !holds d1 e || d1.ptySt p e == 3 then .ends d1 0 else { dev := d1, res := none }
/-- PARTY_ABORT. -/
def execPartyAbort (s : State) : Out := s.updW fun p _ d => d.hostRun p 0x21 fun d c ps => d.partyAbort p c ps
/-- PARTY_FREE. -/
def Dev.partyFree (p : Part) (d : Dev) (ps : List Byte) : CmdRes :=
  let e := par ps 0 1
  if 16 ≤ e then .ends d 6 else if d.ptySt p e ≠ 3 then .ends d 0xA else .ends (d.ptyFree p e) 0
/-- PARTY_FREE. -/
def execPartyFree (s : State) : Out := s.updW fun p _ d => d.hostRun p 0x22 fun d _ ps => d.partyFree p ps
/-- HANDOFF: a CWRITE of L0's HANDOFF from K0, whose answer it waits for; it is answered with HOSTAT. -/
def Dev.hostHandoff (p : Part) (d : Dev) (c : HCmd) (ps : List Byte) : CmdRes :=
  let first := par ps 0 4
  let nm1 := par ps 4 2
  let v := packFields [(0, first), (17, nm1), (32, par ps 8 2), (48, par ps 10 2)]
  let stat (d : Dev) : List Byte := leBytes 8 (d.get p (memcR 0 0x38)).toNat
  let out (d : Dev) (st : BitVec 7) : CmdRes := .ends d (if st = stOk then 0 else 0x100 + st.toNat) (stat d)
  if c.begun then (match c.done with | some st => out d st | none => { dev := d, res := none, keep := some c })
  else if 2 ^ 17 ≤ first ∨ 1024 ≤ nm1 then .ends d 6
  else match d.refusedAtSender p (.ctl (memcR 0 0x30)) with
    | some st => out d st
    | none =>
      match d.handoffRefused p 0 d.hostSrc v with
      | some st => out d st
      | none =>
        let d1 := d.handoffStart p v none
        { dev := { d1 with handoff := d1.handoff.map fun h => { h with host := true } }, res := none }
/-- HANDOFF. -/
def execHandoff (s : State) : Out := s.updW fun p _ d => d.hostRun p 0x23 fun d c ps => d.hostHandoff p c ps

/-! ### RDMA objects (R443) -/

/-- QP_CREATE: the lowest free local QPN. -/
def Dev.qpCreate (d : Dev) (s : Nat) (ps : List Byte) : CmdRes :=
  let pmtu := par ps 12 1
  let held := (d.qps.filter fun e => match e.2 with | some q => q.sess == s | none => false).length
  if 2 < pmtu then .ends d 6
  else match (List.range 64).find? fun i => (smGet none d.qps i).isNone with
    | none => .ends d 9
    | some i =>
      if 8 ≤ held then .ends d 9
      else
        let q : QP := { sess := s, rqpn := BitVec.ofNat 24 (par ps 0 3), epsn := BitVec.ofNat 24 (par ps 4 3), psn := BitVec.ofNat 24 (par ps 8 3)
                        pmtu := BitVec.ofNat 2 pmtu, ipv6 := par ps 13 1 % 2 == 1, gid := BitVec.ofNat 128 (par ps 16 16) }
        .ends { d with qps := smSet none d.qps i (some q) } 0 (leBytes 8 (0x100 + i))
/-- QP_CREATE. -/
def execQpCreate (s : State) : Out := s.updW fun p _ d => d.hostRun p 0x30 fun d c ps => d.qpCreate (cmdSession c.bytes) ps
/-- QP_DESTROY. -/
def Dev.qpDestroy (d : Dev) (ps : List Byte) : CmdRes :=
  let n := par ps 0 3
  if n < 0x100 ∨ 0x140 ≤ n then .ends d 6
  else if (smGet none d.qps (n - 0x100)).isNone then .ends d 0xA
  else .ends { d with qps := smSet none d.qps (n - 0x100) none, rdma := d.rdma.filter fun o => o.qp != n - 0x100 } 0
/-- QP_DESTROY. -/
def execQpDestroy (s : State) : Out := s.updW fun p _ d => d.hostRun p 0x31 fun d _ ps => d.qpDestroy ps
/-- MR_REGISTER: the RKEY is a free value (log entry 6). -/
def Dev.mrRegister (d : Dev) (s : Nat) (ps : List Byte) : CmdRes :=
  let a := par ps 0 8
  let n := par ps 8 8
  let own := d.mrs.filter fun m => !m.ring
  if a % 4096 ≠ 0 ∨ n % 4096 ≠ 0 ∨ 2 ^ 48 < a + n then .ends d 6
  else if 256 ≤ own.length ∨ 32 ≤ (own.filter fun m => m.sess == s).length then .ends d 9
  else
    let k := d.fresh
    let rkey : W32 := k.1.truncate 32
    let perm := par ps 16 1
    .ends { k.2 with mrs := d.mrs ++ [⟨rkey, s, a, n, perm.testBit 0, perm.testBit 1, false⟩] } 0 (leBytes 8 rkey.toNat)
/-- MR_REGISTER. -/
def execMrRegister (s : State) : Out := s.updW fun p _ d => d.hostRun p 0x32 fun d c ps => d.mrRegister (cmdSession c.bytes) ps
/-- MR_DEREGISTER: a session's RING_RKEY lasts as long as the session. -/
def Dev.mrDeregister (d : Dev) (ps : List Byte) : CmdRes :=
  let k : W32 := BitVec.ofNat 32 (par ps 0 4)
  if d.mrs.any fun m => m.rkey == k && !m.ring then .ends { d with mrs := d.mrs.filter fun m => m.rkey != k || m.ring } 0
  else .ends d 0xA
/-- MR_DEREGISTER. -/
def execMrDeregister (s : State) : Out := s.updW fun p _ d => d.hostRun p 0x33 fun d _ ps => d.mrDeregister ps

/-! ### Clock, calibration, resets (R432, R437, R459) -/

/-- FREQ_SET. -/
def Dev.freqSet (p : Part) (d : Dev) (ps : List Byte) : CmdRes :=
  let opp := par ps 0 1
  if 4 ≤ opp then .ends d 6
  else
    let z := d.freqRequest p (BitVec.ofNat 2 opp) (BitVec.ofNat 64 (par ps 8 8))
    .ends z.1 (if z.2 = 1 then 6 else if z.2 = 3 then 0xA else 0)
/-- FREQ_SET. -/
def execFreqSet (s : State) : Out := s.updW fun p _ d => d.hostRun p 0x40 fun d _ ps => d.freqSet p ps
/-- Does CAL_BANK or CAL_PACKAGE run (R432)? -/
def Dev.calRuns (d : Dev) : Bool := d.deferred.any fun x => x.opcode == 0x41 || x.opcode == 0x42
/-- A deferred command starts: STARTED, and it runs on (R432). -/
def startDeferred (d : Dev) (c : HCmd) (op : Nat) (banks refused : List Nat) : CmdRes :=
  let tag := cmdTag c.bytes
  { dev := { d with deferred := d.deferred ++ [{ sess := cmdSession c.bytes, slot := tag.toNat % 64, opcode := op, tag := tag, banks := banks, refused := refused }] }
    res := some (1, []), started := true }
/-- CAL_BANK: calibration is requested of the banks of the mask in ascending order; one in PARKED or FAILED is refused.
DEDUCED, log entry 52. -/
def Dev.calBank (p : Part) (d : Dev) (c : HCmd) (ps : List Byte) : CmdRes :=
  if d.calRuns then .ends d 7
  else
    let mask := BitVec.ofNat 64 (par ps 0 4)
    let named := (List.range 32).filter mask.getLsbD
    let bad (b : Nat) : Bool := d.bankState p b == 0 || d.bankState p b == 6
    startDeferred (named.foldl (fun d b => d.calRequest p b) d) c 0x41 (named.filter fun b => !bad b) (named.filter bad)
/-- CAL_BANK. -/
def execCalBank (s : State) : Out := s.updW fun p _ d => d.hostRun p 0x41 fun d c ps => d.calBank p c ps
/-- CAL_PACKAGE: the recalibration of R507; while one that PKG_GO began runs, it is BUSY. -/
def Dev.calPackage (p : Part) (d : Dev) (c : HCmd) : CmdRes :=
  if d.calRuns || d.recalBusy then .ends d 7 else startDeferred (d.recalStart p) c 0x42 [] []
/-- CAL_PACKAGE. -/
def execCalPackage (s : State) : Out := s.updW fun p _ d => d.hostRun p 0x42 fun d c _ => d.calPackage p c
/-- A reset or stop is answered OK and begins 1,200,000 ticks after the reply leaves. -/
def Dev.askReset (d : Dev) (kind : Nat) : CmdRes := .ends { d with resetDue := d.resetDue ++ [{ kind := kind, t := d.now }] } 0
/-- A command has turned `d` into `e`: where its reply to a reset or stop waits in a paused priority, the time waits with it. -/
def replyWaits (d e : Dev) : Dev :=
  if d.resetDue.length < e.resetDue.length ∧ d.txHeld.length < e.txHeld.length then
    { e with resetDue := d.resetDue ++ (e.resetDue.drop d.resetDue.length).map fun x => { x with waits := e.txHeld.getLast? } }
  else e
/-- HOST_RESET: TYPE 1 warm, 2 cold. -/
def execHostReset (s : State) : Out :=
  s.updW fun p _ d =>
    let z := d.hostRun p 0x48 fun d _ ps => if par ps 0 1 = 1 ∨ par ps 0 1 = 2 then d.askReset (par ps 0 1) else .ends d 6
    (replyWaits d z.1, z.2)
/-- STOP. -/
def execStop (s : State) : Out :=
  s.updW fun p _ d =>
    let z := d.hostRun p 0x49 fun d _ _ => d.askReset 3
    (replyWaits d z.1, z.2)

/-- Has a deferred command ended (R437)? -/
def Dev.deferredOver (p : Part) (d : Dev) (x : Deferred) : Bool :=
  if x.opcode = 0x41 then x.banks.all fun b => !d.bit p (pwbR b 0x30) 0 && !d.bit p (pwbR b 0x30) 1 else !d.recalBusy
/-- Mask of a list of bit numbers. -/
def maskOf (l : List Nat) : Nat := (l.map (2 ^ ·)).sum
/-- Its results. -/
def Dev.deferredRes (p : Part) (d : Dev) (x : Deferred) : List Byte :=
  if x.opcode = 0x41 then
    leBytes 4 (maskOf (x.banks.filter x.calibrated.contains)) ++ leBytes 4 (maskOf x.refused)
  else leBytes 8 (d.get p (calR 31 0x10)).toNat ++ leBytes 8 (d.get p (calR 31 0x18)).toNat ++ leBytes 8 (d.get p (calR 31 0x20)).toNat
/-- A deferred command completes: its slot is rewritten with FINAL set and its session receives a DONE event (R432, R438,
R441). -/
def Dev.deferredDone (p : Part) (d : Dev) (x : Deferred) : Dev :=
  let res := d.deferredRes p x
  let d1 : Dev := { d with deferred := d.deferred.erase x }
  if x.sess = 0 then d1
  else
    let key := if 16 < x.sess then 0 else d.fld p (sessR x.sess) 32 32
    let bs := [1] ++ leBytes 1 x.opcode ++ leBytes 2 x.tag.toNat ++ [5, 0] ++ leBytes 2 res.length ++ leBytes 2 x.sess ++ leBytes 2 0
      ++ leBytes 4 key ++ res
    let body := (List.range 6).map fun i => BitVec.ofNat 64 (leNat ((res.drop (8 * i)).take 8))
    (d1.storeReply p x.sess x.tag true bs).postEvent p x.sess 2 x.tag.toNat 0 x.opcode body
/-- DEFERRED_DONE; session 0 stands for a session that has closed since (R434). -/
def execDeferredDone (session : BitVec 5) (slot : BitVec 6) (s : State) : Out :=
  s.upd fun p _ d =>
    match d.deferred.find? fun x => x.sess == session.toNat && x.slot == slot.toNat with
    | some x => if d.kRuns p && d.deferredOver p x then d.deferredDone p x else d
    | none => d

end Sys2Proof.Machine
end

