-- ==== Sys2Proof/Machine/Rdma.lean ====
section
/-! DEFINITION. The RoCEv2 responder, and responses at their requesters (R53, R79, R398, R413, R443 to R445). The bytes of
its answers follow the InfiniBand transport headers (log entry 13). -/

namespace Sys2Proof.Machine

/-! ### Packets sent (R443) -/

/-- Big-endian bytes, as the InfiniBand headers hold their fields. -/
def beBytes (n x : Nat) : List Byte := (leBytes n x).reverse
/-- Base transport header of an answer (log entry 13). -/
def bthBytes (opcode : Nat) (q : QP) (psn : BitVec 24) : List Byte :=
  beBytes 1 opcode ++ [0, 0xFF, 0xFF, 0] ++ beBytes 3 q.rqpn.toNat ++ [0] ++ beBytes 3 psn.toNat
/-- ACK extended transport header (log entry 13). -/
def aethBytes (syndrome : Nat) (q : QP) : List Byte := beBytes 1 syndrome ++ beBytes 3 q.msn.toNat
/-- An ACK, or a NAK with its syndrome; NAKs are counted (R443, R449). -/
def Dev.rdmaAck (p : Part) (d : Dev) (q : QP) (to' : HostAddr) (psn : BitVec 24) : Dev :=
  d.sendFrame p to' (bthBytes 0x11 q psn ++ aethBytes 0x1F q)
def nakSequence : Nat := 0x60
def nakInvalid : Nat := 0x61
def nakAccess : Nat := 0x62
def nakOperational : Nat := 0x63
def Dev.rdmaNak (p : Part) (d : Dev) (q : QP) (to' : HostAddr) (psn : BitVec 24) (syndrome : Nat) : Dev :=
  (d.count p (hostR 0x230) 1).sendFrame p to' (bthBytes 0x11 q psn ++ aethBytes syndrome q)
/-- Path MTU of a QP. -/
def QP.mtu (q : QP) : Nat := 1024 * 2 ^ q.pmtu.toNat
/-- Packets of a READ response (R443). -/
def QP.readPkts (q : QP) (len : Nat) : Nat := max 1 ((len + q.mtu - 1) / q.mtu)
/-- The READ response packets of `n` bytes of data. -/
def Dev.sendRead (p : Part) (d : Dev) (q : QP) (to' : HostAddr) (psn : BitVec 24) (data : List Byte) : Dev :=
  let n := q.readPkts data.length
  (List.range n).foldl (fun d i =>
    let part := (data.drop (i * q.mtu)).take q.mtu
    let opcode := if n = 1 then 0x10 else if i = 0 then 0x0D else if i + 1 = n then 0x0F else 0x0E
    let aeth := if opcode = 0x0E then [] else aethBytes 0x1F q
    d.sendFrame p to' (bthBytes opcode q (psn + BitVec.ofNat 24 i) ++ aeth ++ part)) d

/-! ### Memory regions (R443, R444) -/

/-- Does a range lie in a region that grants the access? A RING_RKEY grants reads of its session's ring region and
control block and writes of its control block. -/
def MR.grants (m : MR) (write : Bool) (a n : Nat) : Bool :=
  let within (base len : Nat) : Bool := decide (base ≤ a) && decide (a + n ≤ base + len)
  if m.ring then within (localOf (ecbR m.sess 0)) 0x40 || (!write && within (localOf (ringR m.sess 0)) 0x8000)
  else (if write then m.wr else m.rd) && within m.base m.len
/-- May a request of a range under an RKEY be performed? -/
def Dev.mrOk (d : Dev) (rkey : W32) (write : Bool) (a n : Nat) : Bool := d.mrs.any fun m => m.rkey == rkey && m.grants write a n

/-! ### Accesses (R397, R444, R445) -/

/-- A range cut into lines: the accesses of K0 are of up to 512 bytes, and one line each lets RDMA_ERR name the line that failed
(R444, R445; DESIGN CHOICE, log entry 55). -/
def rdmaParts (a n : Nat) : List (Nat × Nat) :=
  let base := a / 128 * 128
  ((List.range (n / 128 + 2)).map fun k =>
    (max a (base + 128 * k), min (a + n) (base + 128 * (k + 1)))).filterMap fun x => if x.1 < x.2 then some (x.1, x.2 - x.1) else none
/-- Lines that a range touches. -/
def linesOf (a n : Nat) : Nat := if n = 0 then 0 else (a + n - 1) / 128 - a / 128 + 1
def RdmaOp.isRead (o : RdmaOp) : Bool := match o.what with | .read _ => true | .write .. => false
def RdmaOp.size (o : RdmaOp) : Nat := match o.what with | .read n => n | .write b _ => b.length
/-- One access of K0. A READ that is no whole number of 16-byte units is refused as its target refuses it (R397). -/
def Dev.rdmaAsk (p : Part) (d : Dev) (o : RdmaOp) (tag : BitVec 12) (a n : Nat) : Dev :=
  let addr : W64 := BitVec.ofNat 64 (d.node.toNat * 2 ^ 48 + a)
  match o.what with
  | .read _ =>
    if n % 16 ≠ 0 then d.send (.resp { dst := d.hostSrc, tag := tag, status := stBadRequest, from' := 20 })
    else d.sendReq p { src := d.hostSrc, addr := addr, tag := tag, op := .read (BitVec.ofNat 6 (n / 16)) }
  | .write data _ => d.sendReq p { src := d.hostSrc, addr := addr, tag := tag, op := .write ((data.drop (a - o.addr.toNat)).take n) }
/-- Send the accesses of an operation, each with a tag of its own. -/
def Dev.rdmaAsks (p : Part) (d : Dev) (o : RdmaOp) : List (Nat × Nat) → Dev × List (BitVec 12 × W64 × Nat)
  | [] => (d, [])
  | (a, n) :: r =>
    let tag := d.rdmaTag
    let d1 : Dev := { d with rdmaTag := BitVec.ofNat 12 ((tag.toNat + 1) % 0xFFF) }
    let y := Dev.rdmaAsks p (d1.rdmaAsk p o tag a n) o r
    (y.1, (tag, BitVec.ofNat 64 a, n) :: y.2)
/-- The data of a READ in address order. -/
def RdmaOp.bytes (o : RdmaOp) : List Byte :=
  ((rdmaParts o.addr.toNat o.size).map fun x => ((o.data.find? fun y => y.1 == x.1).map Prod.snd).getD []).flatten
/-- Store a QP. -/
def Dev.setQp (d : Dev) (i : Nat) (q : QP) : Dev := { d with qps := smSet none d.qps i (some q) }
/-- An operation is over: a READ is answered with its data, the last packet of a WRITE with an ACK. -/
def Dev.rdmaFinish (p : Part) (d : Dev) (o : RdmaOp) : Dev :=
  match smGet none d.qps o.qp with
  | none => d
  | some q =>
    match o.what with
    | .read _ =>
      let q1 := { q with msn := q.msn + 1 }
      (d.setQp o.qp q1).sendRead p q1 o.to' o.psn o.bytes
    | .write _ last =>
      if !last then d
      else
        let q1 := { q with msn := q.msn + 1 }
        (d.setQp o.qp q1).rdmaAck p q1 o.to' o.psn
/-- Work through the operations in order: the first of each QP has its accesses sent, and ends once they are answered.
`busy` lists the QPs whose first operation still waits. -/
def Dev.rdmaRun (p : Part) (busy : List Nat) (d : Dev) : List RdmaOp → Dev × List RdmaOp
  | [] => (d, [])
  | o :: r =>
    if busy.contains o.qp then
      let y := Dev.rdmaRun p busy d r
      (y.1, o :: y.2)
    else
      let z := if o.issued then (d, o.parts) else d.rdmaAsks p o (rdmaParts o.addr.toNat o.size)
      if z.2.isEmpty then Dev.rdmaRun p busy (z.1.rdmaFinish p o) r
      else
        let y := Dev.rdmaRun p (o.qp :: busy) z.1 r
        (y.1, { o with issued := true, parts := z.2 } :: y.2)
/-- The operations go on as far as they can. -/
def Dev.rdmaGo (p : Part) (d : Dev) : Dev :=
  let z := Dev.rdmaRun p [] d d.rdma
  { z.1 with rdma := z.2 }
/-- Does the packet of an operation end its message? -/
def RdmaOp.ends (o : RdmaOp) : Bool := match o.what with | .write _ last => last | .read _ => true
/-- The operations of a QP from one on to the end of its message: the packets of that message that have come. -/
def rdmaMessage (o : RdmaOp) (l : List RdmaOp) : List RdmaOp :=
  let r := (l.filter fun x => x.qp == o.qp).dropWhile fun x => x.psn != o.psn
  r.takeWhile (fun x => !x.ends) ++ (r.find? RdmaOp.ends).toList
/-- A status other than OK: the rest of its message is dropped, NAK Remote Operational Error is sent for it, and RDMA_ERR names the
line, its status and the QP (R445). -/
def Dev.rdmaFail (p : Part) (d : Dev) (o : RdmaOp) (a : W64) (st : BitVec 7) : Dev :=
  let m := rdmaMessage o d.rdma
  let d1 : Dev := { d with rdma := d.rdma.filter fun x => !(x.qp == o.qp && m.any fun y => y.psn == x.psn) }
  let d2 := d1.put p (hostR 0x1C0) (packFields [(0, a.toNat % 2 ^ 48 / 128 * 128), (48, st.toNat), (56, o.qp)])
  match smGet none d2.qps o.qp with
  | none => d2
  | some q => (d2.setQp o.qp { q with msg := if m.any RdmaOp.ends then q.msg else none }).rdmaNak p q o.to' o.psn nakOperational
/-- The answer to one of K0's accesses. -/
def Dev.rdmaAnswer (p : Part) (d : Dev) (r : Resp) : Dev :=
  match d.rdma.find? fun o => o.parts.any fun x => x.1 == r.tag with
  | none => d
  | some o =>
    match o.parts.find? fun x => x.1 == r.tag with
    | none => d
    | some x =>
      if r.status ≠ stOk then (d.rdmaFail p o x.2.1 r.status).rdmaGo p
      else
        let o1 : RdmaOp := { o with parts := o.parts.filter (fun y => y.1 != r.tag)
                                    data := if o.isRead then o.data ++ [(x.2.1.toNat, r.data)] else o.data }
        let d1 := d.count p (hostR (if o.isRead then 0x228 else 0x220)) (linesOf x.2.1.toNat x.2.2)
        Dev.rdmaGo p { d1 with rdma := d1.rdma.map fun y => if y == o then o1 else y }

/-! ### Packets received (R443 to R445) -/

/-- Does a packet come from the address of a QP's remote GID and its UDP source (R444)? -/
def QP.isFrom (q : QP) (a : HostAddr) : Bool := a.v6 == q.ipv6 && a.ip == q.gid && (q.udp.isNone || q.udp == some a.udp)
/-- What every RDMA packet passes first: its frame is accepted for UDP port 4791 of one of the device's addresses, the ICRC holds
and the QP exists; its session has shown life. Then its source and PSN are checked: an early PSN is a sequence error (R428, R434,
R443, R444). DEDUCED, log entry 55. -/
def Dev.rdmaIn (p : Part) (d0 : Dev) (i : Nat) (h : EthHead) (psn : BitVec 24) (icrcOk : Bool)
    (f : Dev → QP → Dev) (again : Dev → QP → Dev) : Dev :=
  let z := d0.ipIn p h
  let d := z.1
  if !z.2 || h.dstPort != 4791 then d
  else if !icrcOk then d.count p (hostR 0x248) 1
  else match smGet none d.qps i with
    | none => d
    | some q =>
      let d1 : Dev := { d with sessT := smSet 0 d.sessT q.sess d.now }
      if !q.isFrom h.from' then d1.rdmaNak p q h.from' psn nakAccess
      else
        let q1 := { q with udp := some h.from'.udp }
        if psn = q.epsn then f d1 { q1 with nakSent := false }
        else if (psn - q.epsn).toNat < 2 ^ 23 then
          (if q.nakSent then d1 else (d1.setQp i { q1 with nakSent := true }).rdmaNak p q h.from' q.epsn nakSequence)
        else again d1 q
/-- Accept an operation: the PSN expected next moves on by `n`. -/
def Dev.rdmaTake (p : Part) (d : Dev) (q : QP) (o : RdmaOp) (n : Nat) : Dev :=
  let d1 := d.setQp o.qp { q with epsn := q.epsn + BitVec.ofNat 24 n }
  Dev.rdmaGo p { d1 with rdma := d1.rdma ++ [o] }
/-- A WRITE packet in sequence. A first or only packet carries the message's address, RKEY and length; the others go on
from where the message stands; one with an unsupported opcode is an invalid request. -/
def Dev.rdmaWritePkt (p : Part) (d : Dev) (i : Nat) (q : QP) (from' : HostAddr) (psn : BitVec 24) (pos : RdmaPos) (va : W64)
    (rkey : W32) (len : Nat) (data : List Byte) : Dev :=
  let starts := pos = .first ∨ pos = .only
  let last := pos = .last ∨ pos = .only
  let m : Option (W64 × Nat × W32) := if starts then (if q.msg.isNone then some (va, len, rkey) else none) else q.msg
  if pos = .unsupported then (d.setQp i q).rdmaNak p q from' psn nakInvalid
  else match m with
  | none => (d.setQp i q).rdmaNak p q from' psn nakInvalid
  | some (a, left, k) =>
    let sized := if last then data.length = left ∧ left ≤ q.mtu else data.length = q.mtu ∧ q.mtu < left
    if !sized then (d.setQp i { q with msg := none }).rdmaNak p q from' psn nakInvalid
    else if starts ∧ !d.mrOk k true a.toNat left then (d.setQp i q).rdmaNak p q from' psn nakAccess
    else
      let q1 := { q with msg := if last then none else some (a + BitVec.ofNat 64 data.length, left - data.length, k) }
      d.rdmaTake p q1 { qp := i, psn := psn, to' := from', addr := a, what := .write data last } 1
/-- RDMA_WRITE. A duplicate is acknowledged again once nothing of its QP is under way (R443). -/
def execRdmaWrite (qp : BitVec 6) (from' : EthHead) (psn : BitVec 24) (pos : RdmaPos) (va : W64) (rkey len : W32) (data : List Byte)
    (icrcOk : Bool) (s : State) : Out :=
  s.upd fun p _ d =>
    d.rdmaIn p qp.toNat from' psn icrcOk
      (fun d q => d.rdmaWritePkt p qp.toNat q from'.from' psn pos va rkey len.toNat data)
      (fun d q => if d.rdma.any fun o => o.qp == qp.toNat then d else d.rdmaAck p q from'.from' (q.epsn - 1))
/-- A READ request: its range is checked, sixteen may be outstanding on a QP. -/
def Dev.rdmaReadReq (p : Part) (d : Dev) (i : Nat) (q : QP) (from' : HostAddr) (psn : BitVec 24) (va : W64) (rkey : W32) (len : Nat)
    (step : Nat) : Dev :=
  if q.msg.isSome ∨ 16 ≤ (d.rdma.filter fun o => o.qp == i && o.isRead).length then (d.setQp i q).rdmaNak p q from' psn nakInvalid
  else if !d.mrOk rkey false va.toNat len then (d.setQp i q).rdmaNak p q from' psn nakAccess
  else d.rdmaTake p q { qp := i, psn := psn, to' := from', addr := va, what := .read len } step
/-- RDMA_READ. A duplicate is performed again (R443). -/
def execRdmaRead (qp : BitVec 6) (from' : EthHead) (psn : BitVec 24) (va : W64) (rkey len : W32) (icrcOk : Bool) (s : State) : Out :=
  s.upd fun p _ d =>
    d.rdmaIn p qp.toNat from' psn icrcOk
      (fun d q => d.rdmaReadReq p qp.toNat q from'.from' psn va rkey len.toNat (q.readPkts len.toNat))
      (fun d q => d.rdmaReadReq p qp.toNat q from'.from' psn va rkey len.toNat 0)

/-! ### Responses (R53, R79, R398, R413) -/

/-- A response reaches its requester: a core's porter, a bank, the party table's probes, or K0's RDMA accesses. Those of
other agents leave the model. DEDUCED, log entry 18. -/
def Dev.takeResponse (p : Part) (d0 : Dev) (r : Resp) : Dev × Wr :=
  if d0.dead ∨ srcNode r.dst ≠ d0.node ∨ d0.respWaits r then (d0, [])
  else
    let d := d0.recv (.resp r)
    let site := (srcSite r.dst).toNat
    if isW site then
      -- a core whose clock edges are withheld takes nothing until they resume (R455)
      (if d0.edgesHeld (srcCore r.dst) then (d0, []) else d.coreResponse p r)
    else if isBase site then
      (if (srcUnit r.dst).toNat < 32 then d.bankResponse p r
      else if r.dst = d.probeSrc then d.anchorAnswer p r.tag.toNat r.status (BitVec.ofNat 64 (leNat (r.data.take 8)))
      else d, [])
    else if r.dst = d.hostSrc then (d.rdmaAnswer p r, [])
    else (d, [])
/-- TARGET_ACK: the answer of a porter packet or of an atomic arrives at its core. -/
def execTargetAck (r : Resp) (s : State) : Out :=
  s.updW fun p _ d => if isW (srcSite r.dst).toNat then d.takeResponse p r else (d, [])
/-- RDATA: a response with data arrives at its requester. -/
def execRdata (r : Resp) (s : State) : Out := s.updW fun p _ d => d.takeResponse p r
/-- RSTAT: a status-only response arrives at its requester. -/
def execRstat (r : Resp) (s : State) : Out := s.updW fun p _ d => d.takeResponse p r

end Sys2Proof.Machine
end

