-- ==== Sys2Proof/Machine/Firmware.lean ====
section
/-! DEFINITION. The service port, image transfers, confirmation and attestation, and the berth supplies (R45, R533 to
R553). The bytes of MCTP control and SPDM answers that the manual does not give follow DSP0236 and DSP0274 (log entry 14). -/

namespace Sys2Proof.Machine

/-! ### The service port (R533, R534) -/

/-- The service port answers: from step 1 of the boot order on, which begins when reset is released (R534, R566). -/
def Dev.svcUp (d : Dev) : Bool := !d.dead && d.vaux && !d.wrstLow
/-- A message reaches the endpoint: the port answers and has its dynamic address (R533). DEDUCED, log entry 65. -/
def Dev.svcHears (p : Part) (d : Dev) : Bool := d.svcUp && d.fld p (fwR 0x48) 0 7 != 0
/-- Send an answer. -/
def Dev.svcSend (d : Dev) (eid : BitVec 8) (bytes : List Byte) : Dev := d.send (.service eid bytes)
/-- ENTDAA: the controller assigns the dynamic address. -/
def execEntdaa (addr : BitVec 7) (s : State) : Out :=
  s.upd fun p _ d => if d.svcUp then d.setF p (fwR 0x48) 0 7 addr.toNat else d
/-- Answer to an MCTP control request: completion code and data (log entry 14). -/
def mctpCtl (cmd : Nat) (data : List Byte) : List Byte := [0, 0] ++ leBytes 1 cmd ++ [0] ++ data
def ianaBytes : List Byte := beBytes 4 Config.iana.toNat
/-- Answer an MCTP control request. -/
def Dev.mctp (p : Part) (d : Dev) (eid : BitVec 8) (cmd : Nat) (data : List Byte) : Dev :=
  if d.svcHears p then d.svcSend eid (mctpCtl cmd data) else d
/-- SET_ENDPOINT_ID: the bus owner sets the EID. -/
def execSetEndpointId (eid : BitVec 8) (s : State) : Out :=
  s.upd fun p _ d => if d.svcHears p then (d.setF p (fwR 0x48) 8 8 eid.toNat).mctp p 0 1 [0, eid, 0] else d
/-- GET_ENDPOINT_ID. -/
def execGetEndpointId (from' : BitVec 8) (s : State) : Out :=
  s.upd fun p _ d => d.mctp p from' 2 [BitVec.ofNat 8 (d.fld p (fwR 0x48) 8 8), 0, 0]
/-- GET_MCTP_VERSION_SUPPORT. -/
def execGetMctpVersionSupport (from' : BitVec 8) (s : State) : Out :=
  s.upd fun p _ d => d.mctp p from' 4 [1, 0xF1, 0xF3, 0xF1, 0]
/-- GET_MESSAGE_TYPE_SUPPORT: SPDM and vendor-defined IANA, beside control (R533). -/
def execGetMessageTypeSupport (from' : BitVec 8) (s : State) : Out :=
  s.upd fun p _ d => d.mctp p from' 5 [2, 0x05, 0x7F]
/-- GET_VENDOR_DEFINED_MESSAGE_SUPPORT: the enterprise number (R533). -/
def execGetVendorDefinedMessageSupport (from' : BitVec 8) (s : State) : Out :=
  s.upd fun p _ d => d.mctp p from' 6 ([0xFF, 1] ++ ianaBytes ++ [0, 0])

/-! ### Vendor-defined commands (R535, R536) -/

/-- RECOVERY: step 14 (R535, R545). -/
def Dev.inRecovery (p : Part) (d : Dev) : Bool := d.bootAt p == 14
/-- A vendor-defined answer: command, tag, status and results (R535). -/
def Dev.svcAnswer (d : Dev) (eid tag : BitVec 8) (cmd st : Nat) (res : List Byte) : Dev :=
  d.svcSend eid ([0x7F] ++ ianaBytes ++ leBytes 1 cmd ++ [tag] ++ leBytes 2 st ++ res)
/-- The answer to a command of a transfer, whose status FW.XFER.LAST keeps (R552). -/
def Dev.xferAnswer (p : Part) (d : Dev) (eid tag : BitVec 8) (cmd st : Nat) (res : List Byte := []) : Dev :=
  (d.setF p (fwR 0x20) 16 16 st).svcAnswer eid tag cmd st res
/-- The transfer open from an EID. -/
def Dev.xferOf (d : Dev) (eid : BitVec 8) : Option Xfer := match d.xfer with | some x => if x.eid = eid then some x else none | none => none
/-- The bank that the selector does not name (R540, R542). -/
def Nv.inactive (nv : Nv) : Bool := !(match nv.selector with | some r => r.active | none => false)
/-- Is a bank in TRIAL: the other is its fall-back (R546)? -/
def Nv.trial (nv : Nv) : Bool := nv.bank0.st == 2 || nv.bank1.st == 2
/-- An open transfer is aborted; its bank is already EMPTY (R540). -/
def Dev.xferAbort (d : Dev) : Dev := { d with xfer := none }
/-- IMG_BEGIN: a header that passes opens a transfer; for firmware the inactive bank is erased. -/
def Dev.imgBegin (p : Part) (d : Dev) (eid tag : BitVec 8) (h : List Byte) : Dev :=
  let busy := match d.xfer with | some x => x.eid != eid | none => false
  let st := imgStatus p d.nv h
  if busy then d.xferAnswer p eid tag 1 1
  else if st ≠ 0 then (d.fwFault p 0x0B01 0 (BitVec.ofNat 64 st)).xferAnswer p eid tag 1 st
  else if imgType h = 1 ∧ d.nv.trial then d.xferAnswer p eid tag 1 1
  else
    let nv := if imgType h = 1 then d.nv.setBank d.nv.inactive {} else d.nv
    Dev.xferAnswer p { d with nv := nv, xfer := some { eid := eid, header := h, since := d.now } } eid tag 1 0
/-- IMG_BEGIN. A message of more than 1,100 bytes is discarded, here as in the commands that follow (R533). -/
def execImgBegin (eid tag : BitVec 8) (header : List Byte) (s : State) : Out :=
  s.upd fun p _ d => if d.svcHears p && decide (header.length ≤ 1091) then d.imgBegin p eid tag header else d
/-- IMG_DATA (R535, R536, R540). A message of more than 1,100 bytes is discarded (R533). -/
def Dev.imgData (p : Part) (d : Dev) (eid tag : BitVec 8) (off : Nat) (data : List Byte) : Dev :=
  match d.xferOf eid with
  | none => d.xferAnswer p eid tag 2 0xC
  | some x =>
    let have' := x.body.length
    let ends := off + data.length
    let total := imgLen x.header
    -- the 10 s of R540 start again with every IMG_DATA of the EID
    let d : Dev := { d with xfer := some { x with since := d.now } }
    let ok (x : Xfer) : Dev := Dev.xferAnswer p { d with xfer := some { x with since := d.now } } eid tag 2 0 (leBytes 4 x.body.length)
    if x.prev = some (off, data.length) then ok x
    else if off ≠ have' then d.xferAnswer p eid tag 2 0xA (leBytes 4 have')
    else if data.length = 0 ∨ 1024 < data.length then d.xferAnswer p eid tag 2 0x10
    else if total < ends ∨ (data.length % 16 ≠ 0 ∧ ends ≠ total) then d.xferAnswer p eid tag 2 8
    else ok { x with body := x.body ++ data, prev := some (off, data.length) }
/-- IMG_DATA. -/
def execImgData (eid tag : BitVec 8) (offset : W32) (data : List Byte) (s : State) : Out :=
  s.upd fun p _ d => if d.svcHears p && decide (data.length ≤ 1087) then d.imgData p eid tag offset.toNat data else d
/-- A route card that has arrived: refused for another node or by the base, or kept and installed (R342, R544). -/
def Dev.takeCard (p : Part) (d : Dev) (card : CardBytes) : Dev × Nat :=
  let keep (d : Dev) : Dev :=
    Dev.fwFault p { d with nv := { d.nv with card := some card } } 0x0B08 (BitVec.ofNat 64 (imgF card 0 4))
  if imgF card 4 2 ≠ d.node.toNat ∨ imgF card 6 10 ≠ 0 then (d, 0xE)
  else if d.bootReached p 8 then
    (let z := d.installCard p card
    if z.2 then (keep z.1, 0) else (z.1, 0xE))
  else match cardBadGroup card with
    | some _ => ((d.installCard p card).1, 0xE)
    | none => (keep d, 0)
/-- ROUTE_CARD_INSTALL: a card whose image has been checked reaches K0 (R342, R544). -/
def execRouteCardInstall (card : CardBytes) (s : State) : Out := s.upd fun p _ d => if d.dead then d else (d.takeCard p card).1
/-- A key revocation that has arrived (R538). -/
def Dev.takeRevocation (p : Part) (d : Dev) (h body : List Byte) : Dev × Nat :=
  let mask : BitVec 4 := BitVec.ofNat 4 (imgF body 0 1)
  if mask.getLsbD (imgKey h) ∨ d.nv.revoked ||| mask = 0xF then (d, 0x10)
  else (Dev.fwFault p { d with nv := { d.nv with revoked := d.nv.revoked ||| mask } } 0x0B06 (mask.zeroExtend 64), 0)
/-- IMG_END: the body is checked against BODY_HASH and taken, and the transfer closes (R541). -/
def Dev.imgEnd (p : Part) (d : Dev) (eid tag : BitVec 8) : Dev :=
  match d.xferOf eid with
  | none => d.xferAnswer p eid tag 3 0xC
  | some x =>
    if x.body.length < imgLen x.header then d.xferAnswer p eid tag 3 0xD
    else
      let d1 := d.xferAbort
      if sha512 x.body ≠ imgHash x.header then (d1.fwFault p 0x0B02).xferAnswer p eid tag 3 0xB
      else
        let z : Dev × Nat :=
          if imgType x.header = 1 then ({ d1 with nv := d1.nv.setBank d1.nv.inactive ⟨1, x.header, x.body⟩ }, 0)
          else if imgType x.header = 2 then d1.takeCard p x.body
          else d1.takeRevocation p x.header x.body
        z.1.xferAnswer p eid tag 3 z.2
/-- IMG_END. -/
def execImgEnd (eid tag : BitVec 8) (s : State) : Out := s.upd fun p _ d => if d.svcHears p then d.imgEnd p eid tag else d
/-- IMG_ABORT. -/
def execImgAbort (eid tag : BitVec 8) (s : State) : Out :=
  s.upd fun p _ d =>
    if !d.svcHears p then d
    else match d.xferOf eid with
      | none => d.xferAnswer p eid tag 4 0xC
      | some _ => d.xferAbort.xferAnswer p eid tag 4 0
/-- TRANSFER_TIMEOUT: 10 s without IMG_DATA. -/
def execTransferTimeout (s : State) : Out :=
  s.upd fun _ _ d => match d.xfer with
    | some x => if 12000000000 ≤ elapsed d.now x.since then d.xferAbort else d
    | none => d
/-- COMMIT: the STAGED bank becomes TRIAL and the selector names it; a cold reset may follow 1 ms later (R535, R543,
R551). -/
def Dev.commit (p : Part) (d : Dev) (eid tag : BitVec 8) (reset : Bool) : Dev :=
  let x : Option Bool := if d.nv.bank0.st = 1 then some false else if d.nv.bank1.st = 1 then some true else none
  match x with
  | none => d.xferAnswer p eid tag 5 0xD
  | some b =>
    if d.nv.trial then d.xferAnswer p eid tag 5 0xD
    else
      let nv := (d.nv.setBank b { d.nv.bank b with st := 2 }).writeSelector b true false
      let cnt := match nv.selector with | some r => r.cnt.toNat | none => 0
      let d1 : Dev := { d.setF p (fwR 0) 32 32 cnt with
        nv := nv, resetDue := if reset then d.resetDue ++ [{ kind := 2, t := d.now }] else d.resetDue
        selWrite := some ⟨d.now, !d.nv.inSlot1, b, 1, d.nv.svnMin⟩ }
      d1.xferAnswer p eid tag 5 0
/-- COMMIT. -/
def execCommit (eid tag : BitVec 8) (reset : Bool) (s : State) : Out :=
  s.upd fun p _ d => if d.svcHears p then d.commit p eid tag reset else d
/-- FW_STATUS: FW.INFO, both FW.BANK words and FW.XFER. -/
def execFwStatus (eid tag : BitVec 8) (s : State) : Out :=
  s.upd fun p _ d =>
    if d.svcHears p then
      d.svcAnswer eid tag 6 0 (leBytes 8 (d.get p (fwR 0)).toNat ++ leBytes 8 (bankWord d.nv.bank0).toNat
        ++ leBytes 8 (bankWord d.nv.bank1).toNat ++ leBytes 8 (d.xferWord p).toNat)
    else d
/-- Does the service port read an address in RECOVERY: one of the FW and ID blocks (R535)? -/
def svcOpen (a : Nat) : Bool := (isK (ctlSite a) && ctlBlk a == 0x51) || ctlBlk a == 0
/-- A register read for the service port. What a consigned die answers is a free value (R25, log entry 6). -/
def Dev.svcRead (p : Part) (d : Dev) (a : Nat) : Dev × BitVec 7 × W64 :=
  match d.k0Refused p a with
  | some st => (d, st, 0)
  | none =>
    if isG (ctlSite a) then
      (let x := d.fresh
      let y := x.2.fresh
      (y.2, x.1.truncate 7, y.1))
    else (d, d.ctlRead p a)
/-- Registers in order, with a status and a value each. -/
def Dev.svcReads (p : Part) (d : Dev) : List (BitVec 40) → Dev × List Byte
  | [] => (d, [])
  | a :: r =>
    let z := d.svcRead p a.toNat
    let y := Dev.svcReads p z.1 r
    (y.1, leBytes 8 z.2.1.toNat ++ leBytes 8 z.2.2.toNat ++ y.2)
/-- SVC_REG_READ. -/
def execSvcRegRead (eid tag : BitVec 8) (addrs : List (BitVec 40)) (s : State) : Out :=
  s.upd fun p _ d =>
    if !d.svcHears p ∨ 136 < addrs.length then d
    else if d.inRecovery p && !(addrs.all fun a => svcOpen a.toNat) then d.svcAnswer eid tag 0x10 0xF []
    else if addrs.length = 0 ∨ 16 < addrs.length then d.svcAnswer eid tag 0x10 0x10 []
    else
      let z := d.svcReads p addrs
      z.1.svcAnswer eid tag 0x10 0 z.2
/-- Writes in order up to the first that fails: its index and status. DEDUCED, log entry 66. -/
def Dev.svcWrites (p : Part) (d : Dev) (i : Nat) : List (BitVec 40 × W64) → Dev × Wr × Nat × BitVec 7
  | [] => (d, [], i, stOk)
  | (a, v) :: r =>
    match d.k0Refused p a.toNat with
    | some st => (d, [], i, st)
    | none =>
      if isG (ctlSite a.toNat) then
        (let x := d.fresh
        let st : BitVec 7 := x.1.truncate 7
        if st = stOk then Dev.svcWrites p x.2 (i + 1) r else (x.2, [], i, st))
      else
        let z := d.ctlWrite p d.hostSrc none a.toNat v true true
        let st := z.2.2.getD stOk
        if st = stOk then
          let y := Dev.svcWrites p z.1 (i + 1) r
          (y.1, z.2.1 ++ y.2.1, y.2.2)
        else (z.1, z.2.1, i, st)
/-- SVC_REG_WRITE: not in RECOVERY (R535). -/
def execSvcRegWrite (eid tag : BitVec 8) (writes : List (BitVec 40 × W64)) (s : State) : Out :=
  s.updW fun p _ d =>
    if !d.svcHears p ∨ 68 < writes.length then (d, [])
    else if d.inRecovery p then (d.svcAnswer eid tag 0x11 0xF [], [])
    else if writes.length = 0 ∨ 8 < writes.length then (d.svcAnswer eid tag 0x11 0x10 [], [])
    else
      let z := d.svcWrites p 0 writes
      (z.1.svcAnswer eid tag 0x11 0 (leBytes 2 z.2.2.1 ++ leBytes 2 z.2.2.2.toNat), z.2.1)

/-! ### Confirmation (R546 to R548) -/

/-- CONFIRM: a write of FW.CTRL.CONFIRM; only K0's firmware may make it. -/
def execConfirm (fromFirmware : Bool) (s : State) : Out :=
  s.upd fun p _ d => if fromFirmware && d.kRuns p then d.confirmBank p else d
/-- FIRMWARE_WATCHDOG: the trial was not confirmed within 120 s: a cold reset with cause 4. -/
def execFirmwareWatchdog (s : State) : Out :=
  s.updC fun p _ d =>
    match d.wdogT with
    | some t => if !d.dead && decide (wdogTicks ≤ elapsed d.raw t) then (d.coldReset p 4, [], [everything]) else (d, [], [])
    | none => (d, [], [])

/-! ### Attestation (R549, R550) -/

/-- An SPDM message of version 1.2: code, two parameters, contents (log entry 14). -/
def spdmMsg (code p1 p2 : Byte) (data : List Byte) : List Byte := [0x12, code, p1, p2] ++ data
/-- ERROR with its code: 1 InvalidRequest, 4 UnexpectedRequest. -/
def spdmError (code : Byte) : List Byte := spdmMsg 0x7F code 0 []
/-- The greatest SPDM message: 1,100 bytes less the message type (R533). -/
def spdmMax : Nat := 1099
/-- The characters of a text as bytes. -/
def asciiBytes (x : String) : List Byte := x.toList.map fun c => BitVec.ofNat 8 c.toNat
/-- The device key's signature over a transcript, in the form of version 1.2 with its context (log entry 14). -/
def spdmSign (context : String) (transcript : List Byte) : List Byte :=
  let v := asciiBytes "dmtf-spdm-v1.2.*"
  let c := asciiBytes context
  Config.deviceSign (v ++ v ++ v ++ v ++ List.replicate (36 - c.length) 0 ++ c ++ sha512 transcript)
def Dev.spdmOf (d : Dev) (eid : BitVec 8) : SpdmSt := smGet {} d.spdm eid.toNat
def Dev.setSpdm (d : Dev) (eid : BitVec 8) (x : SpdmSt) : Dev := { d with spdm := smSet {} d.spdm eid.toNat x }
/-- Send an SPDM answer behind its message type, and keep what it leaves of the exchange. -/
def Dev.spdmSend (d : Dev) (eid : BitVec 8) (bytes : List Byte) (x : SpdmSt) : Dev := (d.svcSend eid (0x05 :: bytes)).setSpdm eid x
/-- Answer a request that may come only at one place of the exchange; elsewhere it gets ERROR, and a request that is too long is
discarded (R533, R549). Any request but GET_MEASUREMENTS ends a run of measurements. -/
def Dev.spdmAt (p : Part) (d : Dev) (eid : BitVec 8) (at' : Nat) (req : List Byte) (f : SpdmSt → List Byte × SpdmSt) : Dev :=
  let x := { d.spdmOf eid with meas := [] }
  if !d.svcHears p ∨ spdmMax < req.length then d
  else if x.at' ≠ at' then d.spdmSend eid (spdmError 4) x
  else d.spdmSend eid (f x).1 (f x).2
/-- GET_VERSION: version 1.2; the exchange starts anew. -/
def execGetVersion (eid : BitVec 8) (s : State) : Out :=
  s.upd fun p _ d =>
    let rsp : List Byte := [0x10, 0x04, 0, 0, 0, 1, 0, 0x12]
    if d.svcHears p then d.spdmSend eid rsp { at' := 1, vca := [0x10, 0x84, 0, 0] ++ rsp } else d
/-- GET_CAPABILITIES: CERT_CAP, CHAL_CAP, and MEAS_CAP with signature; messages of 1,099 bytes at most. -/
def execGetCapabilities (eid : SpdmFrom) (s : State) : Out :=
  s.upd fun p _ d =>
    let req := [0x12, 0xE1] ++ eid.head ++ eid.tail
    let rsp := spdmMsg 0x61 0 0 ([0, 0, 0, 0] ++ leBytes 4 0x16 ++ leBytes 4 spdmMax ++ leBytes 4 spdmMax)
    d.spdmAt p eid.eid 1 req fun x => (rsp, { x with at' := 2, vca := x.vca ++ req ++ rsp })
/-- RSAPSS_4096 and SHA_512 in the masks of NEGOTIATE_ALGORITHMS (log entry 14). -/
def asymBit : Nat := 6
def hashBit : Nat := 2
/-- NEGOTIATE_ALGORITHMS: a requester that offers neither algorithm gets ERROR. -/
def execNegotiateAlgorithms (eid : SpdmFrom) (asym hash : W32) (s : State) : Out :=
  s.upd fun p _ d =>
    let a := asym.getLsbD asymBit
    let h := hash.getLsbD hashBit
    let req := [0x12, 0xE3] ++ eid.head ++ leBytes 4 asym.toNat ++ leBytes 4 hash.toNat ++ eid.tail
    let rsp := spdmMsg 0x63 0 0 (leBytes 2 36 ++ [1, 0] ++ leBytes 4 8 ++ leBytes 4 (b1 a * 2 ^ asymBit) ++ leBytes 4 (b1 h * 2 ^ hashBit)
      ++ List.replicate 16 0)
    d.spdmAt p eid.eid 2 req fun x => if !a && !h then (spdmError 1, x) else (rsp, { x with at' := 3, vca := x.vca ++ req ++ rsp })
/-- GET_DIGESTS: of slot 0. -/
def execGetDigests (eid : BitVec 8) (s : State) : Out :=
  s.upd fun p _ d =>
    let req := spdmMsg 0x81 0 0 []
    let rsp := spdmMsg 0x01 0 1 (sha512 Config.certChain)
    d.spdmAt p eid 3 req fun x => (rsp, { x with certs := x.certs ++ req ++ rsp })
/-- GET_CERTIFICATE: a part of slot 0's chain, which fits one message; slots 1 to 7 are not supported. -/
def execGetCertificate (eid slot : BitVec 8) (offset len : BitVec 16) (s : State) : Out :=
  s.upd fun p _ d =>
    let chain := Config.certChain
    let part := (chain.drop offset.toNat).take (min len.toNat (spdmMax - 8))
    let req := spdmMsg 0x82 slot 0 (leBytes 2 offset.toNat ++ leBytes 2 len.toNat)
    let rsp := spdmMsg 0x02 0 0 (leBytes 2 part.length ++ leBytes 2 (chain.length - offset.toNat - part.length) ++ part)
    d.spdmAt p eid 3 req fun x =>
      if slot ≠ 0 ∨ chain.length < offset.toNat then (spdmError 1, x) else (rsp, { x with certs := x.certs ++ req ++ rsp })
/-- Four free words as a nonce of 32 bytes (log entry 6). -/
def Dev.freshNonce (d : Dev) : List Byte × Dev :=
  let a := d.fresh
  let b := a.2.fresh
  let c := b.2.fresh
  let e := c.2.fresh
  ([a.1, b.1, c.1, e.1].flatMap fun w => leBytes 8 w.toNat, e.2)
/-- CHALLENGE: the chain's digest, a nonce, and a signature of the device key over the transcript. A nonce is 32 bytes long. -/
def execChallenge (eid slot : BitVec 8) (nonce : List Byte) (s : State) : Out :=
  s.upd fun p _ d =>
    let req := spdmMsg 0x83 slot 0 nonce
    let n := d.freshNonce
    let rsp := spdmMsg 0x03 0 1 (sha512 Config.certChain ++ n.1 ++ [0, 0])
    if d.svcHears p ∧ (d.spdmOf eid).at' = 3 ∧ slot = 0 ∧ nonce.length = 32 then
      n.2.spdmAt p eid 3 req fun x => (rsp ++ spdmSign "responder-challenge_auth signing" (x.vca ++ x.certs ++ req ++ rsp), { x with certs := [] })
    else d.spdmAt p eid 3 req fun x => (spdmError 1, x)
/-- Value of a measurement block, with its value type (R550). -/
def Dev.measure (p : Part) (d : Dev) (i : Nat) : Option (Nat × List Byte) :=
  let runs := d.kRuns p
  let bank := d.bit p (fwR 0) 0
  let h := (d.nv.bank bank).header
  let none64 : List Byte := List.replicate 64 0
  match i with
  | 1 => some (0, Config.romHash)
  | 2 => some (1, if runs then imgHash h else none64)
  | 3 => some (0x83, if runs then leBytes 8 (imgVersion h).toNat ++ leBytes 2 (imgSvn h) ++ leBytes 1 (imgKey h) ++ leBytes 1 (b1 bank)
      else List.replicate 12 0)
  | 4 => some (3, match d.nv.card with | some c => if d.bootReached p 8 then sha512 c else none64 | none => none64)
  | 5 => some (0x82, leBytes 1 d.nv.revoked.toNat ++ leBytes 1 d.nv.svnMin.toNat ++ leBytes 1 (65 + p.grade.val) ++ leBytes 1 (b1 p.mem192)
      ++ leBytes 1 p.berth.toNat)
  | 6 => some (0x82, leBytes 8 (d.get p (idR 20 0x118)).toNat ++ leBytes 1 (p.revOf 31).toNat ++ ((d.deviceInfo p).drop 24).take 23)
  | 7 => some (0x82, leBytes 8 (d.get p (brtR 0 0)).toNat ++ leBytes 8 (d.get p (brtR 1 0)).toNat)
  | _ => none
/-- A block in the DMTF measurement form. -/
def blockBytes (i : Nat) (v : Nat × List Byte) : List Byte :=
  leBytes 1 i ++ [1] ++ leBytes 2 (v.2.length + 3) ++ leBytes 1 v.1 ++ leBytes 2 v.2.length ++ v.2
/-- The answer to GET_MEASUREMENTS for block `index`, 0 for their number, 0xFF for all; a signature covers the exchange and the run
of measurements that it ends. -/
def Dev.measurements (p : Part) (d : Dev) (eid : BitVec 8) (index : Nat) (sign : Bool) (req : List Byte) : Dev :=
  let x := { d.spdmOf eid with certs := [] }
  let want := if index = 0xFF then (List.range 7).map (· + 1) else if index = 0 then [] else [index]
  let blocks := (want.filterMap fun i => (d.measure p i).map (blockBytes i)).flatten
  let n := d.freshNonce
  let rsp := spdmMsg 0x60 (if index = 0 then 7 else 0) 0 (leBytes 1 want.length ++ leBytes 3 blocks.length ++ blocks ++ n.1 ++ [0, 0])
  let run := x.meas ++ req ++ rsp
  if sign then n.2.spdmSend eid (rsp ++ spdmSign "responder-measurements signing" (x.vca ++ run)) { x with meas := [] }
  else n.2.spdmSend eid rsp { x with meas := run }
/-- GET_MEASUREMENTS: a request for a signature carries a nonce of 32 bytes and the slot. -/
def execGetMeasurements (eid index : BitVec 8) (sign : Bool) (nonce : List Byte) (s : State) : Out :=
  s.upd fun p _ d =>
    let req := spdmMsg 0xE0 (if sign then 1 else 0) index (if sign then nonce ++ [0] else [])
    let n := index.toNat
    if d.svcHears p ∧ (d.spdmOf eid).at' = 3 ∧ (n ≤ 7 ∨ n = 0xFF) ∧ (sign = true → nonce.length = 32) then d.measurements p eid n sign req
    else d.spdmAt p eid 3 req fun x => (spdmError 1, x)

/-! ### Berth supplies (R45) -/

/-- PEAK_MW of a berth. -/
def Dev.berthPeak (p : Part) (d : Dev) (g mw : Nat) : Dev := d.setF p (brtR g 0) 16 48 (max mw (d.fld p (brtR g 0) 16 48))
/-- BERTH_POWER_OVER: an average over 10 ms above 150 W. DEDUCED, log entry 64. -/
def execBerthPowerOver (g : BitVec 1) (mw : W32) (s : State) : Out :=
  s.upd fun p _ d =>
    let n := g.toNat
    if d.dead ∨ !d.berthLive p n ∨ mw.toNat ≤ 150000 then d
    else d.fault p 31 63 2 0x0A01 (BitVec.ofNat 64 n) (mw.zeroExtend 64)
/-- BERTH_SUPPLY_CUT: an average over 1 ms above 165 W: the berth is treated as empty from then on. Its session closes
once its held commands have been executed (R434, R448). -/
def execBerthSupplyCut (g : BitVec 1) (mw : W32) (s : State) : Out :=
  s.upd fun p _ d =>
    let n := g.toNat
    if d.dead ∨ !d.berthLive p n then d
    else
      let d1 := d.berthPeak p n mw.toNat
      if mw.toNat ≤ 165000 then d1
      else
        let d2 := ((d1.setB p (brtR n 0) 8 true).setB p (brtR n 0) 0 false).setB p (latR (21 + n) 0) 5 true
        (d2.fault p 31 63 2 0x0A02 (BitVec.ofNat 64 n) (mw.zeroExtend 64)).berthCloses p (.berth g)

end Sys2Proof.Machine
end

