-- ==== Sys2Proof/Machine/Dispatch.lean ====
section
/-! DEFINITION. One arm per command: its meaning. -/

namespace Sys2Proof.Machine

/-- The effect of a command on everything but the queue. -/
def exec (i : Instr) (s : State) : Host.Outcome State Fault Refusal :=
  match i with
  | .add c rd rs1 rs2 => Sys2Proof.Machine.execAdd c rd rs1 rs2 s
  | .sub c rd rs1 rs2 => Sys2Proof.Machine.execSub c rd rs1 rs2 s
  | .and c rd rs1 rs2 => Sys2Proof.Machine.execAnd c rd rs1 rs2 s
  | .or c rd rs1 rs2 => Sys2Proof.Machine.execOr c rd rs1 rs2 s
  | .xor c rd rs1 rs2 => Sys2Proof.Machine.execXor c rd rs1 rs2 s
  | .sll c rd rs1 rs2 => Sys2Proof.Machine.execSll c rd rs1 rs2 s
  | .srl c rd rs1 rs2 => Sys2Proof.Machine.execSrl c rd rs1 rs2 s
  | .sra c rd rs1 rs2 => Sys2Proof.Machine.execSra c rd rs1 rs2 s
  | .slt c rd rs1 rs2 => Sys2Proof.Machine.execSlt c rd rs1 rs2 s
  | .sltu c rd rs1 rs2 => Sys2Proof.Machine.execSltu c rd rs1 rs2 s
  | .mul c rd rs1 rs2 => Sys2Proof.Machine.execMul c rd rs1 rs2 s
  | .mulh c rd rs1 rs2 => Sys2Proof.Machine.execMulh c rd rs1 rs2 s
  | .mulhu c rd rs1 rs2 => Sys2Proof.Machine.execMulhu c rd rs1 rs2 s
  | .min c rd rs1 rs2 => Sys2Proof.Machine.execMin c rd rs1 rs2 s
  | .max c rd rs1 rs2 => Sys2Proof.Machine.execMax c rd rs1 rs2 s
  | .minu c rd rs1 rs2 => Sys2Proof.Machine.execMinu c rd rs1 rs2 s
  | .maxu c rd rs1 rs2 => Sys2Proof.Machine.execMaxu c rd rs1 rs2 s
  | .clz c rd rs1 => Sys2Proof.Machine.execClz c rd rs1 s
  | .popc c rd rs1 => Sys2Proof.Machine.execPopc c rd rs1 s
  | .addi c rd rs1 imm => Sys2Proof.Machine.execAddi c rd rs1 imm s
  | .andi c rd rs1 imm => Sys2Proof.Machine.execAndi c rd rs1 imm s
  | .ori c rd rs1 imm => Sys2Proof.Machine.execOri c rd rs1 imm s
  | .xori c rd rs1 imm => Sys2Proof.Machine.execXori c rd rs1 imm s
  | .slli c rd rs1 sh => Sys2Proof.Machine.execSlli c rd rs1 sh s
  | .srli c rd rs1 sh => Sys2Proof.Machine.execSrli c rd rs1 sh s
  | .srai c rd rs1 sh => Sys2Proof.Machine.execSrai c rd rs1 sh s
  | .slti c rd rs1 imm => Sys2Proof.Machine.execSlti c rd rs1 imm s
  | .sltiu c rd rs1 imm => Sys2Proof.Machine.execSltiu c rd rs1 imm s
  | .lui c rd imm => Sys2Proof.Machine.execLui c rd imm s
  | .beq c rs1 rs2 off => Sys2Proof.Machine.execBeq c rs1 rs2 off s
  | .bne c rs1 rs2 off => Sys2Proof.Machine.execBne c rs1 rs2 off s
  | .blt c rs1 rs2 off => Sys2Proof.Machine.execBlt c rs1 rs2 off s
  | .bge c rs1 rs2 off => Sys2Proof.Machine.execBge c rs1 rs2 off s
  | .bltu c rs1 rs2 off => Sys2Proof.Machine.execBltu c rs1 rs2 off s
  | .bgeu c rs1 rs2 off => Sys2Proof.Machine.execBgeu c rs1 rs2 off s
  | .jal c rd imm => Sys2Proof.Machine.execJal c rd imm s
  | .jalr c rd rs imm => Sys2Proof.Machine.execJalr c rd rs imm s
  | .lb c rd rs1 imm => Sys2Proof.Machine.execLb c rd rs1 imm s
  | .lbu c rd rs1 imm => Sys2Proof.Machine.execLbu c rd rs1 imm s
  | .lh c rd rs1 imm => Sys2Proof.Machine.execLh c rd rs1 imm s
  | .lhu c rd rs1 imm => Sys2Proof.Machine.execLhu c rd rs1 imm s
  | .lw c rd rs1 imm => Sys2Proof.Machine.execLw c rd rs1 imm s
  | .sb c rd rs1 imm => Sys2Proof.Machine.execSb c rd rs1 imm s
  | .sh c rd rs1 imm => Sys2Proof.Machine.execSh c rd rs1 imm s
  | .sw c rd rs1 imm => Sys2Proof.Machine.execSw c rd rs1 imm s
  | .vld c v r imm => Sys2Proof.Machine.execVld c v r imm s
  | .vst c v r imm => Sys2Proof.Machine.execVst c v r imm s
  | .vldb c v r imm => Sys2Proof.Machine.execVldb c v r imm s
  | .vmvs c v r lane => Sys2Proof.Machine.execVmvs c v r lane s
  | .vmvv c v r lane => Sys2Proof.Machine.execVmvv c v r lane s
  | .vbcast c v r => Sys2Proof.Machine.execVbcast c v r s
  | .vfma c ty vd vs1 vs2 vs3 => Sys2Proof.Machine.execVfma c ty vd vs1 vs2 vs3 s
  | .vfms c ty vd vs1 vs2 vs3 => Sys2Proof.Machine.execVfms c ty vd vs1 vs2 vs3 s
  | .vfnma c ty vd vs1 vs2 vs3 => Sys2Proof.Machine.execVfnma c ty vd vs1 vs2 vs3 s
  | .vadd c ty vd vs1 vs2 => Sys2Proof.Machine.execVadd c ty vd vs1 vs2 s
  | .vsub c ty vd vs1 vs2 => Sys2Proof.Machine.execVsub c ty vd vs1 vs2 s
  | .vmul c ty vd vs1 vs2 => Sys2Proof.Machine.execVmul c ty vd vs1 vs2 s
  | .vmin c ty vd vs1 vs2 => Sys2Proof.Machine.execVmin c ty vd vs1 vs2 s
  | .vmax c ty vd vs1 vs2 => Sys2Proof.Machine.execVmax c ty vd vs1 vs2 s
  | .vceq c ty vd vs1 vs2 => Sys2Proof.Machine.execVceq c ty vd vs1 vs2 s
  | .vclt c ty vd vs1 vs2 => Sys2Proof.Machine.execVclt c ty vd vs1 vs2 s
  | .vcle c ty vd vs1 vs2 => Sys2Proof.Machine.execVcle c ty vd vs1 vs2 s
  | .vsel c ty vd vs1 vs2 vs3 => Sys2Proof.Machine.execVsel c ty vd vs1 vs2 vs3 s
  | .vabs c ty vd vs1 => Sys2Proof.Machine.execVabs c ty vd vs1 s
  | .vneg c ty vd vs1 => Sys2Proof.Machine.execVneg c ty vd vs1 s
  | .vexp c vd vs1 => Sys2Proof.Machine.execVexp c vd vs1 s
  | .vrcp c vd vs1 => Sys2Proof.Machine.execVrcp c vd vs1 s
  | .vrsqrt c vd vs1 => Sys2Proof.Machine.execVrsqrt c vd vs1 s
  | .vtanh c vd vs1 => Sys2Proof.Machine.execVtanh c vd vs1 s
  | .vrsum c vd vs1 => Sys2Proof.Machine.execVrsum c vd vs1 s
  | .vrmax c vd vs1 => Sys2Proof.Machine.execVrmax c vd vs1 s
  | .vrmin c vd vs1 => Sys2Proof.Machine.execVrmin c vd vs1 s
  | .vperm c vd vs1 vs2 => Sys2Proof.Machine.execVperm c vd vs1 vs2 s
  | .vperm2 c vd vs1 vs2 aux => Sys2Proof.Machine.execVperm2 c vd vs1 vs2 aux s
  | .vsort c vd vs1 intKeys descending => Sys2Proof.Machine.execVsort c vd vs1 intKeys descending s
  | .vcvtt c vd vs1 fmt rm ovc => Sys2Proof.Machine.execVcvtt c vd vs1 fmt rm ovc s
  | .vcvtf c vd vs1 vs2 fmt => Sys2Proof.Machine.execVcvtf c vd vs1 vs2 fmt s
  | .vcvti c vd vs1 rm => Sys2Proof.Machine.execVcvti c vd vs1 rm s
  | .vcvtif c vd vs1 rm => Sys2Proof.Machine.execVcvtif c vd vs1 rm s
  | .vand c vd vs1 vs2 => Sys2Proof.Machine.execVand c vd vs1 vs2 s
  | .vor c vd vs1 vs2 => Sys2Proof.Machine.execVor c vd vs1 vs2 s
  | .vxor c vd vs1 vs2 => Sys2Proof.Machine.execVxor c vd vs1 vs2 s
  | .vnot c vd vs1 => Sys2Proof.Machine.execVnot c vd vs1 s
  | .vshl c vd vs1 vs2 => Sys2Proof.Machine.execVshl c vd vs1 vs2 s
  | .vshr c vd vs1 vs2 => Sys2Proof.Machine.execVshr c vd vs1 vs2 s
  | .vsra c vd vs1 vs2 => Sys2Proof.Machine.execVsra c vd vs1 vs2 s
  | .viota c vd => Sys2Proof.Machine.execViota c vd s
  | .vmov c vd vs1 => Sys2Proof.Machine.execVmov c vd vs1 s
  | .mxLdw c tb => Sys2Proof.Machine.execMxLdw c tb s
  | .mxMul c ta arow swap acc => Sys2Proof.Machine.execMxMul c ta arow swap acc s
  | .mxOmul c ta tb arow acc => Sys2Proof.Machine.execMxOmul c ta tb arow acc s
  | .mxSt c ta arow rm ovc => Sys2Proof.Machine.execMxSt c ta arow rm ovc s
  | .mxRdv c v arow => Sys2Proof.Machine.execMxRdv c v arow s
  | .mxWrv c v arow => Sys2Proof.Machine.execMxWrv c v arow s
  | .tdSetlo c th sa sb => Sys2Proof.Machine.execTdSetlo c th sa sb s
  | .tdSethi c th sa sb => Sys2Proof.Machine.execTdSethi c th sa sb s
  | .tdBase c th sa => Sys2Proof.Machine.execTdBase c th sa s
  | .tdSbase c th sa => Sys2Proof.Machine.execTdSbase c th sa s
  | .tdBadd c th sa sb => Sys2Proof.Machine.execTdBadd c th sa sb s
  | .lobRdv c l r upper => Sys2Proof.Machine.execLobRdv c l r upper s
  | .lobRdp c l sa => Sys2Proof.Machine.execLobRdp c l sa s
  | .lobHdr c l r word => Sys2Proof.Machine.execLobHdr c l r word s
  | .lobWait c l whole => Sys2Proof.Machine.execLobWait c l whole s
  | .lobDrop c l => Sys2Proof.Machine.execLobDrop c l s
  | .lobStat c l r => Sys2Proof.Machine.execLobStat c l r s
  | .prtDb c q ra => Sys2Proof.Machine.execPrtDb c q ra s
  | .prtDbi c q imm => Sys2Proof.Machine.execPrtDbi c q imm s
  | .prtHead c q rd => Sys2Proof.Machine.execPrtHead c q rd s
  | .prtWait c q => Sys2Proof.Machine.execPrtWait c q s
  | .prtAtom c ra op => Sys2Proof.Machine.execPrtAtom c ra op s
  | .prtAwait c => Sys2Proof.Machine.execPrtAwait c s
  | .fence c mask => Sys2Proof.Machine.execFence c mask s
  | .lwait c ra => Sys2Proof.Machine.execLwait c ra s
  | .lrd c ra => Sys2Proof.Machine.execLrd c ra s
  | .waitx c ra rb lobby all => Sys2Proof.Machine.execWaitx c ra rb lobby all s
  | .bar c b => Sys2Proof.Machine.execBar c b s
  | .nop c => Sys2Proof.Machine.execNop c s
  | .halt c => Sys2Proof.Machine.execHalt c s
  | .endProgram c => Sys2Proof.Machine.execEndProgram c s
  | .icinv c => Sys2Proof.Machine.execIcinv c s
  | .seed c ra => Sys2Proof.Machine.execSeed c ra s
  | .srrd c ra => Sys2Proof.Machine.execSrrd c ra s
  | .flgrd c ra vec clear => Sys2Proof.Machine.execFlgrd c ra vec clear s
  | .cid c ra sel => Sys2Proof.Machine.execCid c ra sel s
  | .waitConditionMet c => Sys2Proof.Machine.execWaitConditionMet c s
  | .programEndIdle c => Sys2Proof.Machine.execProgramEndIdle c s
  | .coreResetComplete c => Sys2Proof.Machine.execCoreResetComplete c s
  | .vectorOpComplete c => Sys2Proof.Machine.execVectorOpComplete c s
  | .matrixOpStart c idle => Sys2Proof.Machine.execMatrixOpStart c idle s
  | .matrixOpComplete o => Sys2Proof.Machine.execMatrixOpComplete o s
  | .instructionFetch c => Sys2Proof.Machine.execInstructionFetch c s
  | .descriptorStart c q => Sys2Proof.Machine.execDescriptorStart c q s
  | .porterPacketIssue c q => Sys2Proof.Machine.execPorterPacketIssue c q s
  | .targetAck r => Sys2Proof.Machine.execTargetAck r s
  | .porterWaitReached c q => Sys2Proof.Machine.execPorterWaitReached c q s
  | .pushRetry c q => Sys2Proof.Machine.execPushRetry c q s
  | .atomicResult c tag => Sys2Proof.Machine.execAtomicResult c tag s
  | .coreStart c => Sys2Proof.Machine.execCoreStart c s
  | .coreHalt c => Sys2Proof.Machine.execCoreHalt c s
  | .coreResume c => Sys2Proof.Machine.execCoreResume c s
  | .coreReset c => Sys2Proof.Machine.execCoreReset c s
  | .coreStep c => Sys2Proof.Machine.execCoreStep c s
  | .icInv c => Sys2Proof.Machine.execIcInv c s
  | .qcfgEn c q en => Sys2Proof.Machine.execQcfgEn c q en s
  | .qtailWrite c q tail => Sys2Proof.Machine.execQtailWrite c q tail s
  | .registerWrite addr value lower upper => Sys2Proof.Machine.execRegisterWrite addr value lower upper s
  | .read r => Sys2Proof.Machine.execRead r s
  | .write r => Sys2Proof.Machine.execWrite r s
  | .atomic r => Sys2Proof.Machine.execAtomic r s
  | .push r => Sys2Proof.Machine.execPush r s
  | .cread r => Sys2Proof.Machine.execCread r s
  | .cwrite r => Sys2Proof.Machine.execCwrite r s
  | .rdata r => Sys2Proof.Machine.execRdata r s
  | .rstat r => Sys2Proof.Machine.execRstat r s
  | .lineLands c l seq line => Sys2Proof.Machine.execLineLands c l seq line s
  | .lobCfgWrite c l value => Sys2Proof.Machine.execLobCfgWrite c l value s
  | .lobbyDisable c l => Sys2Proof.Machine.execLobbyDisable c l s
  | .lobSeqWrite c l next => Sys2Proof.Machine.execLobSeqWrite c l next s
  | .meshPacket w at' direct flits m err seam => Sys2Proof.Machine.execMeshPacket w at' direct flits m err seam s
  | .combineWindowEnd w bank line => Sys2Proof.Machine.execCombineWindowEnd w bank line s
  | .combineEn w en => Sys2Proof.Machine.execCombineEn w en s
  | .controlMessage w at' cls flits move => Sys2Proof.Machine.execControlMessage w at' cls flits move s
  | .extArrive w b add => Sys2Proof.Machine.execExtArrive w b add s
  | .barMaskWrite w b x => Sys2Proof.Machine.execBarMaskWrite w b x s
  | .fenceReq w core go => Sys2Proof.Machine.execFenceReq w core go s
  | .regionSupplyFault w core => Sys2Proof.Machine.execRegionSupplyFault w core s
  | .fenceStart w => Sys2Proof.Machine.execFenceStart w s
  | .fenceComplete w => Sys2Proof.Machine.execFenceComplete w s
  | .feedLine src b ch offset data => Sys2Proof.Machine.execFeedLine src b ch offset data s
  | .bankVector b ch => Sys2Proof.Machine.execBankVector b ch s
  | .outputTileSend b ch => Sys2Proof.Machine.execOutputTileSend b ch s
  | .bankTileRetry b ch => Sys2Proof.Machine.execBankTileRetry b ch s
  | .flush b ch => Sys2Proof.Machine.execFlush b ch s
  | .chEn b ch en => Sys2Proof.Machine.execChEn b ch en s
  | .pwbLoad b => Sys2Proof.Machine.execPwbLoad b s
  | .loadStart b => Sys2Proof.Machine.execLoadStart b s
  | .loadComplete b verified => Sys2Proof.Machine.execLoadComplete b verified s
  | .pwbCal b => Sys2Proof.Machine.execPwbCal b s
  | .calStart b => Sys2Proof.Machine.execCalStart b s
  | .calComplete b trims => Sys2Proof.Machine.execCalComplete b trims s
  | .autoCal b => Sys2Proof.Machine.execAutoCal b s
  | .probeWindow b st => Sys2Proof.Machine.execProbeWindow b st s
  | .ringDisturbance r => Sys2Proof.Machine.execRingDisturbance r s
  | .identityCheck r found => Sys2Proof.Machine.execIdentityCheck r found s
  | .sweepEnd r found => Sys2Proof.Machine.execSweepEnd r found s
  | .ringVerify r ok => Sys2Proof.Machine.execRingVerify r ok s
  | .stallClear b => Sys2Proof.Machine.execStallClear b s
  | .lanternInputLost b => Sys2Proof.Machine.execLanternInputLost b s
  | .pmonAlarm b stage total lines minLine => Sys2Proof.Machine.execPmonAlarm b stage total lines minLine s
  | .pwbReset b => Sys2Proof.Machine.execPwbReset b s
  | .parkComplete b => Sys2Proof.Machine.execParkComplete b s
  | .bankUnpark b => Sys2Proof.Machine.execBankUnpark b s
  | .trimWrite addr value => Sys2Proof.Machine.execTrimWrite addr value s
  | .trimSlewStep addr => Sys2Proof.Machine.execTrimSlewStep addr s
  | .slot => Sys2Proof.Machine.execSlot s
  | .latticePacket plane p got => Sys2Proof.Machine.execLatticePacket plane p got s
  | .latticeRetransmit src dst nak => Sys2Proof.Machine.execLatticeRetransmit src dst nak s
  | .planeUnhealthy e plane cause => Sys2Proof.Machine.execPlaneUnhealthy e plane cause s
  | .planeHealthy e plane => Sys2Proof.Machine.execPlaneHealthy e plane s
  | .switchOver e gap => Sys2Proof.Machine.execSwitchOver e gap s
  | .switchNotice at' e plane fallback strobes => Sys2Proof.Machine.execSwitchNotice at' e plane fallback strobes s
  | .latticeProbe src dst ok => Sys2Proof.Machine.execLatticeProbe src dst ok s
  | .fallBack e => Sys2Proof.Machine.execFallBack e s
  | .latForce e plane => Sys2Proof.Machine.execLatForce e plane s
  | .latReturn e => Sys2Proof.Machine.execLatReturn e s
  | .latResume e => Sys2Proof.Machine.execLatResume e s
  | .frame site ch0 ch1 ch2 m => Sys2Proof.Machine.execFrame site ch0 ch1 ch2 m s
  | .flitRetry site lane => Sys2Proof.Machine.execFlitRetry site lane s
  | .laneFail site g goodLanes => Sys2Proof.Machine.execLaneFail site g goodLanes s
  | .memoryAccess ch seen => Sys2Proof.Machine.execMemoryAccess ch seen s
  | .refresh ch sub bank => Sys2Proof.Machine.execRefresh ch sub bank s
  | .retrain ch => Sys2Proof.Machine.execRetrain ch s
  | .retrainComplete ch ok => Sys2Proof.Machine.execRetrainComplete ch ok s
  | .patrolScrubRead read => Sys2Proof.Machine.execPatrolScrubRead read s
  | .memInit l => Sys2Proof.Machine.execMemInit l s
  | .initComplete l => Sys2Proof.Machine.execInitComplete l s
  | .memOpen l open' => Sys2Proof.Machine.execMemOpen l open' s
  | .mapWrite l value => Sys2Proof.Machine.execMapWrite l value s
  | .timingWrite ch value => Sys2Proof.Machine.execTimingWrite ch value s
  | .recValidWrite l r valid => Sys2Proof.Machine.execRecValidWrite l r valid s
  | .linkBlock f b => Sys2Proof.Machine.execLinkBlock f b s
  | .fabricPacket f p got => Sys2Proof.Machine.execFabricPacket f p got s
  | .train f block => Sys2Proof.Machine.execTrain f block s
  | .ident f block => Sys2Proof.Machine.execIdent f block s
  | .identAck f block => Sys2Proof.Machine.execIdentAck f block s
  | .leave f block => Sys2Proof.Machine.execLeave f block s
  | .abort f block => Sys2Proof.Machine.execAbort f block s
  | .portRetransmit f nak => Sys2Proof.Machine.execPortRetransmit f nak s
  | .ackDeadline f => Sys2Proof.Machine.execAckDeadline f s
  | .blockLoss f => Sys2Proof.Machine.execBlockLoss f s
  | .laneNotGood f seen => Sys2Proof.Machine.execLaneNotGood f seen s
  | .portRingsTrack f rxq => Sys2Proof.Machine.execPortRingsTrack f rxq s
  | .codewordLock f locked deskewed => Sys2Proof.Machine.execCodewordLock f locked deskewed s
  | .portStateTimeout f => Sys2Proof.Machine.execPortStateTimeout f s
  | .identAckTimeout f => Sys2Proof.Machine.execIdentAckTimeout f s
  | .identRefresh f => Sys2Proof.Machine.execIdentRefresh f s
  | .portDisable f disable light => Sys2Proof.Machine.execPortDisable f disable light s
  | .portRetrain f => Sys2Proof.Machine.execPortRetrain f s
  | .routeCardInstall card => Sys2Proof.Machine.execRouteCardInstall card s
  | .lanternInserted g => Sys2Proof.Machine.execLanternInserted g s
  | .lanternRemoved g => Sys2Proof.Machine.execLanternRemoved g s
  | .lanternPoll g avg min minLine temp alarm => Sys2Proof.Machine.execLanternPoll g avg min minLine temp alarm s
  | .identityRead g ok => Sys2Proof.Machine.execIdentityRead g ok s
  | .lanternWarmCheck g ok => Sys2Proof.Machine.execLanternWarmCheck g ok s
  | .ltnEn g en => Sys2Proof.Machine.execLtnEn g en s
  | .routePacket f p => Sys2Proof.Machine.execRoutePacket f p s
  | .fabricInject e dnode body => Sys2Proof.Machine.execFabricInject e dnode body s
  | .transitLaunch f => Sys2Proof.Machine.execTransitLaunch f s
  | .e2eack p => Sys2Proof.Machine.execE2eack p s
  | .e2eRetransmit node eseq => Sys2Proof.Machine.execE2eRetransmit node eseq s
  | .e2eGiveUp node eseq => Sys2Proof.Machine.execE2eGiveUp node eseq s
  | .holdExpiry snode chan ord => Sys2Proof.Machine.execHoldExpiry snode chan ord s
  | .contextRelease tx node chan ord => Sys2Proof.Machine.execContextRelease tx node chan ord s
  | .drain => Sys2Proof.Machine.execDrain s
  | .rtResume => Sys2Proof.Machine.execRtResume s
  | .drainComplete => Sys2Proof.Machine.execDrainComplete s
  | .drainFail => Sys2Proof.Machine.execDrainFail s
  | .routingTableWrite addr value => Sys2Proof.Machine.execRoutingTableWrite addr value s
  | .atomicRetry c aseq => Sys2Proof.Machine.execAtomicRetry c aseq s
  | .storeEntryRelease die src aseq => Sys2Proof.Machine.execStoreEntryRelease die src aseq s
  | .handoffWrite l src value => Sys2Proof.Machine.execHandoffWrite l src value s
  | .handoffComplete => Sys2Proof.Machine.execHandoffComplete s
  | .ptyStart e => Sys2Proof.Machine.execPtyStart e s
  | .ptyAbort e => Sys2Proof.Machine.execPtyAbort e s
  | .ptyFree e => Sys2Proof.Machine.execPtyFree e s
  | .teardownComplete e => Sys2Proof.Machine.execTeardownComplete e s
  | .anchorProbe e => Sys2Proof.Machine.execAnchorProbe e s
  | .anchorProbeAnswer e status value => Sys2Proof.Machine.execAnchorProbeAnswer e status value s
  | .anchorLost e => Sys2Proof.Machine.execAnchorLost e s
  | .ethernetFrame h => Sys2Proof.Machine.execEthernetFrame h s
  | .pfcFrame pri quanta => Sys2Proof.Machine.execPfcFrame pri quanta s
  | .arpRequest h => Sys2Proof.Machine.execArpRequest h s
  | .neighbourSolicitation h => Sys2Proof.Machine.execNeighbourSolicitation h s
  | .icmpEcho h payload => Sys2Proof.Machine.execIcmpEcho h payload s
  | .commandPacket h bytes => Sys2Proof.Machine.execCommandPacket h bytes s
  | .hostNop => Sys2Proof.Machine.execHostNop s
  | .sessionOpen => Sys2Proof.Machine.execSessionOpen s
  | .sessionClose => Sys2Proof.Machine.execSessionClose s
  | .sessionList => Sys2Proof.Machine.execSessionList s
  | .deviceInfo => Sys2Proof.Machine.execDeviceInfo s
  | .eventPoll => Sys2Proof.Machine.execEventPoll s
  | .regRead remote => Sys2Proof.Machine.execRegRead remote s
  | .regWrite remote => Sys2Proof.Machine.execRegWrite remote s
  | .coreCtrl => Sys2Proof.Machine.execCoreCtrl s
  | .partyStart => Sys2Proof.Machine.execPartyStart s
  | .partyAbort => Sys2Proof.Machine.execPartyAbort s
  | .partyFree => Sys2Proof.Machine.execPartyFree s
  | .handoff => Sys2Proof.Machine.execHandoff s
  | .qpCreate => Sys2Proof.Machine.execQpCreate s
  | .qpDestroy => Sys2Proof.Machine.execQpDestroy s
  | .mrRegister => Sys2Proof.Machine.execMrRegister s
  | .mrDeregister => Sys2Proof.Machine.execMrDeregister s
  | .freqSet => Sys2Proof.Machine.execFreqSet s
  | .calBank => Sys2Proof.Machine.execCalBank s
  | .calPackage => Sys2Proof.Machine.execCalPackage s
  | .hostReset => Sys2Proof.Machine.execHostReset s
  | .stop => Sys2Proof.Machine.execStop s
  | .deferredDone session slot => Sys2Proof.Machine.execDeferredDone session slot s
  | .sessionTimeout session => Sys2Proof.Machine.execSessionTimeout session s
  | .rdmaWrite qp from' psn pos va rkey len data icrcOk => Sys2Proof.Machine.execRdmaWrite qp from' psn pos va rkey len data icrcOk s
  | .rdmaRead qp from' psn va rkey len icrcOk => Sys2Proof.Machine.execRdmaRead qp from' psn va rkey len icrcOk s
  | .gdoorRing src g => Sys2Proof.Machine.execGdoorRing src g s
  | .econsWrite session value => Sys2Proof.Machine.execEconsWrite session value s
  | .ethRetrain => Sys2Proof.Machine.execEthRetrain s
  | .ethLinkDown => Sys2Proof.Machine.execEthLinkDown s
  | .referenceLost => Sys2Proof.Machine.execReferenceLost s
  | .referenceRestored => Sys2Proof.Machine.execReferenceRestored s
  | .rootPllUnlock => Sys2Proof.Machine.execRootPllUnlock s
  | .clockRatioError clock => Sys2Proof.Machine.execClockRatioError clock s
  | .disciplineWindow w q undrooped produced => Sys2Proof.Machine.execDisciplineWindow w q undrooped produced s
  | .supplyDroop w q stretch => Sys2Proof.Machine.execSupplyDroop w q stretch s
  | .supplyBelowLimit w q => Sys2Proof.Machine.execSupplyBelowLimit w q s
  | .supplyAboveLimit w q => Sys2Proof.Machine.execSupplyAboveLimit w q s
  | .holdTimeout w q => Sys2Proof.Machine.execHoldTimeout w q s
  | .freqGo opp => Sys2Proof.Machine.execFreqGo opp s
  | .departure => Sys2Proof.Machine.execDeparture s
  | .clockMonitorWindow w q jitter dutyMin dutyMax => Sys2Proof.Machine.execClockMonitorWindow w q jitter dutyMin dutyMax s
  | .ledgerTick => Sys2Proof.Machine.execLedgerTick s
  | .ledgerSync => Sys2Proof.Machine.execLedgerSync s
  | .snoopSync c count => Sys2Proof.Machine.execSnoopSync c count s
  | .lsyncEdge => Sys2Proof.Machine.execLsyncEdge s
  | .ledAdj value => Sys2Proof.Machine.execLedAdj value s
  | .powerOn => Sys2Proof.Machine.execPowerOn s
  | .rstN low longPulse => Sys2Proof.Machine.execRstN low longPulse s
  | .wrstN low longPulse => Sys2Proof.Machine.execWrstN low longPulse s
  | .warmReset cause => Sys2Proof.Machine.execWarmReset cause s
  | .bootStep x => Sys2Proof.Machine.execBootStep x s
  | .sensorSample site n reading => Sys2Proof.Machine.execSensorSample site n reading s
  | .sensorSelfTest site n ok => Sys2Proof.Machine.execSensorSelfTest site n ok s
  | .restStepDown w => Sys2Proof.Machine.execRestStepDown w s
  | .rateHoldEnd w => Sys2Proof.Machine.execRateHoldEnd w s
  | .powerAverage w siteMw packageMw other => Sys2Proof.Machine.execPowerAverage w siteMw packageMw other s
  | .orderlyStop cause => Sys2Proof.Machine.execOrderlyStop cause s
  | .orderlyStepLimit => Sys2Proof.Machine.execOrderlyStepLimit s
  | .hardTrip => Sys2Proof.Machine.execHardTrip s
  | .calDefaults site => Sys2Proof.Machine.execCalDefaults site s
  | .pkgGo => Sys2Proof.Machine.execPkgGo s
  | .pkgRecalPhase ok => Sys2Proof.Machine.execPkgRecalPhase ok s
  | .faultRecordArrival => Sys2Proof.Machine.execFaultRecordArrival s
  | .faultPolicy seq => Sys2Proof.Machine.execFaultPolicy seq s
  | .fltAck seq upto => Sys2Proof.Machine.execFltAck seq upto s
  | .aliveToggle => Sys2Proof.Machine.execAliveToggle s
  | .heartbeatMissing group => Sys2Proof.Machine.execHeartbeatMissing group s
  | .injGo site value => Sys2Proof.Machine.execInjGo site value s
  | .intake src w0 w1 w2 w3 w4 w5 => Sys2Proof.Machine.execIntake src w0 w1 w2 w3 w4 w5 s
  | .berthPowerOver g mw => Sys2Proof.Machine.execBerthPowerOver g mw s
  | .berthSupplyCut g mw => Sys2Proof.Machine.execBerthSupplyCut g mw s
  | .entdaa addr => Sys2Proof.Machine.execEntdaa addr s
  | .setEndpointId eid => Sys2Proof.Machine.execSetEndpointId eid s
  | .getEndpointId from' => Sys2Proof.Machine.execGetEndpointId from' s
  | .getMctpVersionSupport from' => Sys2Proof.Machine.execGetMctpVersionSupport from' s
  | .getMessageTypeSupport from' => Sys2Proof.Machine.execGetMessageTypeSupport from' s
  | .getVendorDefinedMessageSupport from' => Sys2Proof.Machine.execGetVendorDefinedMessageSupport from' s
  | .imgBegin eid tag header => Sys2Proof.Machine.execImgBegin eid tag header s
  | .imgData eid tag offset data => Sys2Proof.Machine.execImgData eid tag offset data s
  | .imgEnd eid tag => Sys2Proof.Machine.execImgEnd eid tag s
  | .imgAbort eid tag => Sys2Proof.Machine.execImgAbort eid tag s
  | .commit eid tag reset => Sys2Proof.Machine.execCommit eid tag reset s
  | .fwStatus eid tag => Sys2Proof.Machine.execFwStatus eid tag s
  | .svcRegRead eid tag addrs => Sys2Proof.Machine.execSvcRegRead eid tag addrs s
  | .svcRegWrite eid tag writes => Sys2Proof.Machine.execSvcRegWrite eid tag writes s
  | .transferTimeout => Sys2Proof.Machine.execTransferTimeout s
  | .confirm fromFirmware => Sys2Proof.Machine.execConfirm fromFirmware s
  | .firmwareWatchdog => Sys2Proof.Machine.execFirmwareWatchdog s
  | .getVersion eid => Sys2Proof.Machine.execGetVersion eid s
  | .getCapabilities eid => Sys2Proof.Machine.execGetCapabilities eid s
  | .negotiateAlgorithms eid asym hash => Sys2Proof.Machine.execNegotiateAlgorithms eid asym hash s
  | .getDigests eid => Sys2Proof.Machine.execGetDigests eid s
  | .getCertificate eid slot offset len => Sys2Proof.Machine.execGetCertificate eid slot offset len s
  | .challenge eid slot nonce => Sys2Proof.Machine.execChallenge eid slot nonce s
  | .getMeasurements eid index sign nonce => Sys2Proof.Machine.execGetMeasurements eid index sign nonce s
  | .powerCut => Sys2Proof.Machine.execPowerCut s
  | .illegalEncoding c word => Sys2Proof.Machine.execIllegalEncoding c word s
  | .coldReset cause => Sys2Proof.Machine.execColdReset cause s
  | .ethLinkUp offer trained => Sys2Proof.Machine.execEthLinkUp offer trained s
  | .heartbeat group => Sys2Proof.Machine.execHeartbeat group s
  | .vauxApplied => Sys2Proof.Machine.execVauxApplied s
  | .pauseTimeExpiry pri => Sys2Proof.Machine.execPauseTimeExpiry pri s

end Sys2Proof.Machine
end

