-- ==== Sys2Proof/Safety.lean ====
section
/-! DEFINITION. What the statements mean by a sound state, by a command that completes, and by what a command leaves
alone. -/

namespace Sys2Proof.Machine

/-- A sound state: its memory is in the canonical form, and its part meets its grade (R2). -/
def State.sound (s : State) : Prop := Memory.wf s.mem = true ∧ s.part.valid
/-- A core's own state. -/
abbrev State.k (s : State) (c : CoreId) : CoreSt := s.dev.core c
/-- The word a register holds. -/
abbrev State.reg (s : State) (a : Nat) : W64 := s.dev.get s.part a
/-- A field of a register. -/
abbrev State.field (s : State) (a lo n : Nat) : Nat := s.dev.fld s.part a lo n
/-- One byte of memory. -/
abbrev State.byte (s : State) (a : Nat) : Byte := Memory.get s.mem a

/-- The command completes: exec answers a next state, and the property holds of it. -/
def Answers (i : Instr) (s : State) (P : State → Prop) : Prop := ∃ t, exec i s = .next t ∧ P t
/-- A run of the block is safe while every step answers a next state. -/
def Safe (s : State) : Prop := ∃ t, step s = .next t

/-- Every byte of memory outside the `n` bytes from address `lo` is unchanged. -/
def MemKept (s t : State) (lo n : Nat) : Prop := ∀ a, a < lo ∨ lo + n ≤ a → t.byte a = s.byte a
/-- How the part was made and the commands that wait are unchanged, as every command leaves them. -/
def Fixed (s t : State) : Prop := t.part = s.part ∧ t.pending = s.pending
/-- The device with its registers, its cores, the records on their way, or the messages in flight left out: what is left
of two devices is compared to say that nothing else has changed. -/
def Dev.noRegs (d : Dev) : Dev := { d with ctl := [] }
def Dev.noCores (d : Dev) : Dev := { d with cores := [] }
def Dev.noRecords (d : Dev) : Dev := { d with records := [], recOut := [] }
def Dev.noNet (d : Dev) : Dev := { d with net := [] }
/-- Nothing of the device has changed but registers, and those only at the addresses listed. -/
def RegsOnly (s t : State) (regs : List Nat) : Prop :=
  (∀ a, a ∉ regs → t.reg a = s.reg a) ∧ t.dev.noRegs = s.dev.noRegs
/-- Nothing of the device has changed but core `c` itself and the registers listed. -/
def CoreOnly (s t : State) (c : CoreId) (regs : List Nat) : Prop :=
  (∀ e, e ≠ c → t.k e = s.k e) ∧ (∀ a, a ∉ regs → t.reg a = s.reg a) ∧
  t.dev.noRegs.noCores = s.dev.noRegs.noCores

/-- An instruction of core `c` retires and continues at `pc`: its core's own state is otherwise `k`, CNT_INSTR has
counted it, and memory, the other cores and every other register are unchanged. -/
def RetiresTo (s t : State) (c : CoreId) (pc : BitVec 22) (k : CoreSt) : Prop :=
  t.k c = { k with pc := pc, step := false } ∧ t.reg (coreR c 0x108) = countUp (s.reg (coreR c 0x108)) 1 ∧
  CoreOnly s t c [coreR c 0x108] ∧ Fixed s t ∧ ∀ a, t.byte a = s.byte a
/-- The same, continuing at the instruction that follows. -/
def Retires (s t : State) (c : CoreId) (k : CoreSt) : Prop := RetiresTo s t c ((s.k c).pc + 4) k

/-- The device with its ECC marks left out. -/
def Dev.noEcc (d : Dev) : Dev := { d with ecc := [] }
/-- The little-endian value of `n` bytes of memory from an address. -/
def State.le (s : State) (a : Nat) : Nat → Nat
  | 0 => 0
  | n + 1 => (s.byte a).toNat + 256 * s.le (a + 1) n
/-- No word that holds one of the `n` bytes from offset `a` of the core's pantry carries an ECC error. -/
def Clean (s : State) (c : CoreId) (a n : Nat) : Prop := ∀ b, a / 8 * 8 ≤ b → b < a + n → s.dev.mark (pantryAt c b) = 0
/-- The same as Retires, for an instruction that writes the bytes `bs` from address `lo` of memory, whose words then carry
no ECC error. -/
def Stores (s t : State) (c : CoreId) (k : CoreSt) (lo : Nat) (bs : List Byte) : Prop :=
  t.k c = { k with pc := (s.k c).pc + 4, step := false } ∧ t.reg (coreR c 0x108) = countUp (s.reg (coreR c 0x108)) 1 ∧
  (∀ e, e ≠ c → t.k e = s.k e) ∧ (∀ a, a ≠ coreR c 0x108 → t.reg a = s.reg a) ∧
  t.dev.noRegs.noCores.noEcc = s.dev.noRegs.noCores.noEcc ∧ Fixed s t ∧ MemKept s t lo bs.length ∧
  (∀ i x, bs[i]? = some x → t.byte (lo + i) = x) ∧
  ∀ a, t.dev.mark a = s.dev.mark a ∨ (lo / 8 * 8 ≤ a ∧ a < lo + bs.length ∧ t.dev.mark a = 0)
/-- The same as Retires, for an instruction that also writes the registers `regs`. -/
def RetiresWith (s t : State) (c : CoreId) (k : CoreSt) (regs : List Nat) : Prop :=
  t.k c = { k with pc := (s.k c).pc + 4, step := false } ∧ t.reg (coreR c 0x108) = countUp (s.reg (coreR c 0x108)) 1 ∧
  CoreOnly s t c (coreR c 0x108 :: regs) ∧ Fixed s t ∧ ∀ a, t.byte a = s.byte a
/-- The same as Retires, for an instruction that reserves `n` stochastic draws: SRLFSR has made 16 steps a draw (R118,
R119). -/
def Issues (s t : State) (c : CoreId) (k : CoreSt) (n : Nat) : Prop :=
  RetiresWith s t c k [coreR c 0x38] ∧ t.reg (coreR c 0x38) = lfsrSteps (s.reg (coreR c 0x38)) (16 * n)
/-- A vector instruction has entered an operation that will write lane i of `v` with `r i` and raise `flags`. -/
def Queues (s t : State) (c : CoreId) (v : BitVec 5) (r : Nat → W32) (flags : BitVec 5) (draws : Nat) : Prop :=
  Issues s t c { s.k c with vq := (s.k c).vq ++ [{
    wr := (List.range 64).map fun i => (64 * v.toNat + i, r i), vregs := [v], flags := flags }] } draws
/-- Lanes combined two by two through `n` levels. -/
def pairwise (g : W32 → W32 → W32) (x : Nat → W32) : Nat → Nat → W32
  | 0, i => x i
  | n + 1, i => g (pairwise g x n (2 * i)) (pairwise g x n (2 * i + 1))
/-- The elements and scales of the tile that descriptor `t` names, as memory holds them (R97 to R104). -/
def State.tile (s : State) (c : CoreId) (t : BitVec 128) (wt : Bool) : Tile :=
  let w := fmtBits (tdFmt t)
  let sc := fun (i : Nat) => pantryAt c (tdSbase t + i)
  { fmt := tdFmt t, rows := tdRows t, cols := tdCols t, sk := tdScale t
    el := (List.range (tdRows t)).flatMap fun r => (List.range (tdCols t)).map fun i =>
      fmtDecode (tdFmt t) (s.le (pantryAt c (tdBase t + r * tdStride t)) (rowBytes (tdCols t) w) / 2 ^ (w * i) % 2 ^ w)
    sc := match tdScale t with
      | .none => []
      | .block => (List.range (scaleBytes .block wt (tdRows t) (tdCols t))).map fun i => e8m0 (s.byte (sc i)).toNat
      | .row => (List.range (scaleBytes .row wt (tdRows t) (tdCols t) / 4)).map fun i => fp32.decode (s.le (sc (4 * i)) 4) }
/-- No word of the tile or of its scales carries an ECC error. -/
def CleanTile (s : State) (c : CoreId) (t : BitVec 128) (wt : Bool) : Prop :=
  (∀ r, r < tdRows t → Clean s c (tdBase t + r * tdStride t) (rowBytes (tdCols t) (fmtBits (tdFmt t)))) ∧
  Clean s c (tdSbase t) (scaleBytes (tdScale t) wt (tdRows t) (tdCols t))

/-- Memory and every core are unchanged. -/
def Still (s t : State) : Prop := (∀ a, t.byte a = s.byte a) ∧ (∀ c, t.k c = s.k c) ∧ Fixed s t
/-- Memory and every core but `c` are unchanged. -/
def StillBut (s t : State) (c : CoreId) : Prop := (∀ a, t.byte a = s.byte a) ∧ (∀ e, e ≠ c → t.k e = s.k e) ∧ Fixed s t
/-- No register outside the FLT blocks has changed but those listed: raising faults writes FLT blocks. -/
def RegsKept (s t : State) (regs : List Nat) : Prop := ∀ a, a ∉ regs → ctlBlk a ≠ 1 → t.reg a = s.reg a

/-- The device with its registers and its fault records left out. -/
def Dev.noFaults (d : Dev) : Dev := { d with ctl := [], records := [], recOut := [], storm := [] }
/-- Site `site` has raised one fault, and beside it nothing has changed but the registers listed. -/
def Raised (s t : State) (site : Nat) (regs : List Nat) : Prop :=
  t.reg (fltR site 0x40) = countUp (s.reg (fltR site 0x40)) 1 ∧ RegsKept s t regs ∧ t.dev.noFaults = s.dev.noFaults ∧ Still s t

/-! ### Fault records -/

/-- The registers of site `site` that raising one record writes: CNT_RAISED, STAT and the six words of log entry `j`. -/
def logRegs (site j : Nat) : List Nat :=
  [fltR site 0x40, fltR site 0] ++ (List.range 6).map fun i => fltR site (0x100 + 0x30 * j + 8 * i)
/-- Site `site` has raised record `f`, of class 2 or above: CNT_RAISED has counted it, entry NEXT of its log holds it,
NEXT has advanced, and it is on its way to K0; a record that core `core` raises waits for its message to the die controller
first (R206, R517, R519, R531). -/
def Logged (p : Part) (d e : Dev) (site : Nat) (f : FaultRec) (core : Option CoreId := none) : Prop :=
  let j := d.fld p (fltR site 0) 0 4
  (e.records, e.recOut) = (match core with
    | none => (d.records ++ [f], d.recOut)
    | some c => (d.records, d.recOut ++ [(c, f)])) ∧ e.get p (fltR site 0x40) = countUp (d.get p (fltR site 0x40)) 1 ∧
  e.fld p (fltR site 0) 0 4 = (j + 1) % 16 ∧ e.fld p (fltR site 0) 4 12 = d.fld p (fltR site 0) 4 12 ∧
  ∀ i x, (recWords f)[i]? = some x → e.get p (fltR site (0x100 + 0x30 * j + 8 * i)) = x

/-- The instruction of core `c` at the program counter takes an exception (R51): nothing of it is retired, the core is in
FAULT, EXC and EXC_INFO hold cause, address and detail, and a Party-fatal fault 0x0101 names the core; memory, the other
cores and every other register are unchanged. `inj` says whether the record carries INJ (R528). -/
def Excepts (s t : State) (c : CoreId) (cause : Nat) (info : W64) (inj : Bool := false) : Prop :=
  t.k c = { s.k c with st := .fault, step := false, wait := none, ending := false } ∧
  t.reg (coreR c 0x18) = BitVec.ofNat 64 (cause + 2 ^ 8 + (s.k c).pc.toNat * 2 ^ 32) ∧ t.reg (coreR c 0x20) = info ∧
  (∃ f : FaultRec, f.source = s.dev.coreSrc c ∧ f.cls = 3 ∧ f.code = 0x0101 ∧ f.ctx0 = BitVec.ofNat 64 cause ∧
    f.ledger = s.dev.snoop c ∧ f.inj = inj ∧ Logged s.part s.dev t.dev c.site.toNat f (some c)) ∧
  (∀ e, e ≠ c → t.k e = s.k e) ∧
  (∀ a, a ∉ [coreR c 0x18, coreR c 0x20] ++ logRegs c.site.toNat (s.field (fltR c.site.toNat 0) 0 4) → t.reg a = s.reg a) ∧
  t.dev.noRegs.noCores.noRecords = s.dev.noRegs.noCores.noRecords ∧
  Fixed s t ∧ ∀ a, t.byte a = s.byte a

end Sys2Proof.Machine
end

