-- ==== Sys2Proof/Certificates/Slice0/Obligations.lean ====
section
/-! DEFINITION. The statements for the provers: what the numbered rules of spec/ say the commands do. -/

open Sys2Proof Sys2Proof.Machine

/-- R131: the three-register and two-register instructions of major 0x1, each result written from the operands' unsigned
or two's complement values; nothing else of the device, and no byte of memory, changes.
R132 and R133: the instructions with an immediate: imm12 is sign-extended for ADDI, SLTI and SLTIU and zero-extended
for ANDI, ORI and XORI; shift amounts are five bits; LUI places imm22 in bits [31:10]. -/
def Obligations.ScalarArithmetic : Prop :=
  (∀ (s : State) (c : CoreId) (rd rs1 rs2 : BitVec 6), ready s.part s.dev c [rd, rs1, rs2] [] = true →
     let x := (s.k c).getS rs1
     let y := (s.k c).getS rs2
     let gives := fun (i : Instr) (r : W32) => Answers i s fun t => Retires s t c ((s.k c).setS rd r)
     gives (.add c rd rs1 rs2) (BitVec.ofNat 32 (x.toNat + y.toNat)) ∧
     gives (.sub c rd rs1 rs2) (BitVec.ofInt 32 (x.toInt - y.toInt)) ∧
     gives (.and c rd rs1 rs2) (x &&& y) ∧ gives (.or c rd rs1 rs2) (x ||| y) ∧ gives (.xor c rd rs1 rs2) (x ^^^ y) ∧
     gives (.sll c rd rs1 rs2) (BitVec.ofNat 32 (x.toNat * 2 ^ (y.toNat % 32))) ∧
     gives (.srl c rd rs1 rs2) (BitVec.ofNat 32 (x.toNat / 2 ^ (y.toNat % 32))) ∧
     gives (.sra c rd rs1 rs2) (BitVec.ofInt 32 (x.toInt / 2 ^ (y.toNat % 32))) ∧
     gives (.slt c rd rs1 rs2) (if x.toInt < y.toInt then 1 else 0) ∧
     gives (.sltu c rd rs1 rs2) (if x.toNat < y.toNat then 1 else 0) ∧
     gives (.mul c rd rs1 rs2) (BitVec.ofInt 32 (x.toInt * y.toInt)) ∧
     gives (.mulh c rd rs1 rs2) (BitVec.ofInt 32 (x.toInt * y.toInt / 2 ^ 32)) ∧
     gives (.mulhu c rd rs1 rs2) (BitVec.ofNat 32 (x.toNat * y.toNat / 2 ^ 32)) ∧
     gives (.min c rd rs1 rs2) (BitVec.ofInt 32 (Min.min x.toInt y.toInt)) ∧
     gives (.max c rd rs1 rs2) (BitVec.ofInt 32 (Max.max x.toInt y.toInt)) ∧
     gives (.minu c rd rs1 rs2) (BitVec.ofNat 32 (Min.min x.toNat y.toNat)) ∧
     gives (.maxu c rd rs1 rs2) (BitVec.ofNat 32 (Max.max x.toNat y.toNat)) ∧
     gives (.clz c rd rs1) (if x = 0 then 32 else BitVec.ofNat 32 (31 - Nat.log2 x.toNat)) ∧
     gives (.popc c rd rs1) (BitVec.ofNat 32 ((List.range 32).filter fun i => x.toNat / 2 ^ i % 2 == 1).length)) ∧
  (∀ (s : State) (c : CoreId) (rd rs1 : BitVec 6) (imm : BitVec 12) (sh : BitVec 5) (hi : BitVec 22),
     ready s.part s.dev c [rd, rs1] [] = true →
     let x := (s.k c).getS rs1
     let gives := fun (i : Instr) (r : W32) => Answers i s fun t => Retires s t c ((s.k c).setS rd r)
     gives (.addi c rd rs1 imm) (BitVec.ofInt 32 (x.toInt + imm.toInt)) ∧
     gives (.andi c rd rs1 imm) (x &&& BitVec.ofNat 32 imm.toNat) ∧
     gives (.ori c rd rs1 imm) (x ||| BitVec.ofNat 32 imm.toNat) ∧
     gives (.xori c rd rs1 imm) (x ^^^ BitVec.ofNat 32 imm.toNat) ∧
     gives (.slli c rd rs1 sh) (BitVec.ofNat 32 (x.toNat * 2 ^ sh.toNat)) ∧
     gives (.srli c rd rs1 sh) (BitVec.ofNat 32 (x.toNat / 2 ^ sh.toNat)) ∧
     gives (.srai c rd rs1 sh) (BitVec.ofInt 32 (x.toInt / 2 ^ sh.toNat)) ∧
     gives (.slti c rd rs1 imm) (if x.toInt < imm.toInt then 1 else 0) ∧
     gives (.sltiu c rd rs1 imm) (if x.toNat < (BitVec.ofInt 32 imm.toInt).toNat then 1 else 0) ∧
     gives (.lui c rd hi) (BitVec.ofNat 32 (hi.toNat * 2 ^ 10)))

/-- R134 and R135: a taken branch continues at its own address plus four times its offset, one not taken at the next
instruction; JAL continues at four times imm20, JALR at s[rs] plus imm14 modulo 2^22, and both write the address of the
next instruction to rd; a JALR target whose bits [1:0] are not zero raises exception 0x03 with the target. Conds 0x6 to 0xF
and funcs 0b10 and 0b11 are reserved, and the others spell the instructions of the table. -/
def Obligations.BranchesAndJumps : Prop :=
  ∀ (s : State) (c : CoreId) (rd rs1 rs2 : BitVec 6) (off : BitVec 12) (imm : BitVec 20) (imm14 : BitVec 14),
    ready s.part s.dev c [rd, rs1, rs2] [] = true →
    let x := (s.k c).getS rs1
    let y := (s.k c).getS rs2
    let pc := (s.k c).pc
    let goes := fun (i : Instr) (b : Prop) => Answers i s fun t =>
      (b → RetiresTo s t c (BitVec.ofInt 22 (pc.toNat + off.toInt * 4)) (s.k c)) ∧ (¬b → Retires s t c (s.k c))
    goes (.beq c rs1 rs2 off) (x = y) ∧ goes (.bne c rs1 rs2 off) (x ≠ y) ∧
    goes (.blt c rs1 rs2 off) (x.toInt < y.toInt) ∧ goes (.bge c rs1 rs2 off) (y.toInt ≤ x.toInt) ∧
    goes (.bltu c rs1 rs2 off) (x.toNat < y.toNat) ∧ goes (.bgeu c rs1 rs2 off) (y.toNat ≤ x.toNat) ∧
    (Answers (.jal c rd imm) s fun t =>
      RetiresTo s t c (BitVec.ofNat 22 (imm.toNat * 4)) ((s.k c).setS rd (BitVec.ofNat 32 ((pc.toNat + 4) % 2 ^ 22)))) ∧
    (Answers (.jalr c rd rs1 imm14) s fun t =>
      let target := BitVec.ofInt 22 (x.toInt + imm14.toInt)
      (target.toNat % 4 = 0 →
        RetiresTo s t c target ((s.k c).setS rd (BitVec.ofNat 32 ((pc.toNat + 4) % 2 ^ 22)))) ∧
      (target.toNat % 4 ≠ 0 → Excepts s t c 0x03 (target.zeroExtend 64))) ∧
    (∀ w : W32, (w.toNat / 2 ^ 28 = 4 → 5 < w.toNat / 2 ^ 24 % 16 → illegalWord w = true) ∧
      (w.toNat / 2 ^ 28 = 5 → 1 < w.toNat / 2 ^ 20 % 4 → illegalWord w = true)) ∧
    (∀ x ∈ [((0 : BitVec 4), Instr.beq c rs1 rs2 off), (1, .bne c rs1 rs2 off), (2, .blt c rs1 rs2 off),
        (3, .bge c rs1 rs2 off), (4, .bltu c rs1 rs2 off), (5, .bgeu c rs1 rs2 off)],
      decodeCore c ((4 : BitVec 4) ++ x.1 ++ rs1 ++ rs2 ++ off) = some x.2) ∧
    decodeCore c ((5 : BitVec 4) ++ rd ++ (0 : BitVec 2) ++ imm) = some (.jal c rd imm) ∧
    decodeCore c ((5 : BitVec 4) ++ rd ++ (1 : BitVec 2) ++ rs1 ++ imm14) = some (.jalr c rd rs1 imm14)

/-- R136: a load takes its value, little-endian and sign- or zero-extended, from its own core's pantry at s[rs1] + imm12;
an address above 0x3F_FFFF raises exception 0x02, a misaligned one 0x03, both with the address. The value is stated where
no word touched carries an ECC error; PantryErrors states the others.
R136 and R62: a store writes the low 1, 2 or 4 bytes of rd, little-endian, at s[rs1] + imm12 of its own core's pantry,
and no other byte of memory changes; the address raises 0x02 and 0x03 as for a load. The write is stated where no word
touched carries an ECC error and no error is being injected into this pantry. -/
def Obligations.PantryLoadsAndStores : Prop :=
  (∀ (s : State) (c : CoreId) (rd rs1 : BitVec 6) (imm : BitVec 12), ready s.part s.dev c [rd, rs1] [] = true →
     let a := (BitVec.ofInt 32 (((s.k c).getS rs1).toInt + imm.toInt)).toNat
     let gives := fun (i : Instr) (n : Nat) (r : W32) => Answers i s fun t =>
       (0x3FFFFF < a → Excepts s t c 0x02 (BitVec.ofNat 64 a)) ∧
       (a ≤ 0x3FFFFF → a % n ≠ 0 → Excepts s t c 0x03 (BitVec.ofNat 64 a)) ∧
       (a ≤ 0x3FFFFF → a % n = 0 → Clean s c a n → Retires s t c ((s.k c).setS rd r))
     gives (.lb c rd rs1 imm) 1 (BitVec.ofInt 32 (s.byte (pantryAt c a)).toInt) ∧
     gives (.lbu c rd rs1 imm) 1 (BitVec.ofNat 32 (s.byte (pantryAt c a)).toNat) ∧
     gives (.lh c rd rs1 imm) 2 (BitVec.ofInt 32 (BitVec.ofNat 16 (s.le (pantryAt c a) 2)).toInt) ∧
     gives (.lhu c rd rs1 imm) 2 (BitVec.ofNat 32 (s.le (pantryAt c a) 2)) ∧
     gives (.lw c rd rs1 imm) 4 (BitVec.ofNat 32 (s.le (pantryAt c a) 4))) ∧
  (∀ (s : State) (c : CoreId) (rd rs1 : BitVec 6) (imm : BitVec 12), ready s.part s.dev c [rd, rs1] [] = true →
     let a := (BitVec.ofInt 32 (((s.k c).getS rs1).toInt + imm.toInt)).toNat
     let does := fun (i : Instr) (n : Nat) => Answers i s fun t =>
       (0x3FFFFF < a → Excepts s t c 0x02 (BitVec.ofNat 64 a)) ∧
       (a ≤ 0x3FFFFF → a % n ≠ 0 → Excepts s t c 0x03 (BitVec.ofNat 64 a)) ∧
       (a ≤ 0x3FFFFF → a % n = 0 → Clean s c a n → s.dev.injBits c.site.toNat 1 c.p.toNat = 0 →
         Stores s t c (s.k c) (pantryAt c a) (leBytes n ((s.k c).getS rd).toNat))
     does (.sb c rd rs1 imm) 1 ∧ does (.sh c rd rs1 imm) 2 ∧ does (.sw c rd rs1 imm) 4)

/-- R60 and R136: a load of a word with a single-bit error gets the word as memory holds it, and the error is corrected,
counted and recorded in PERR; a load of a word with a double-bit error, and a store narrower than a word into one, raise
exception 0x08 with the address of the word, record it in PERR and write nothing. That EXC_INFO holds the address of the word and
not of the access is the model's choice (DEDUCED, log entry 19). -/
def Obligations.PantryErrors : Prop :=
  ∀ (s : State) (c : CoreId) (rd rs1 : BitVec 6) (imm : BitVec 12), ready s.part s.dev c [rd, rs1] [] = true →
    let a := (BitVec.ofInt 32 (((s.k c).getS rs1).toInt + imm.toInt)).toNat
    let w := a / 8 * 8
    a ≤ 0x3FFFFF → a % 4 = 0 →
    ((s.dev.mark (pantryAt c w)).getLsbD 1 = true →
      ∀ i, i ∈ [Instr.lw c rd rs1 imm, .sw c rd rs1 imm, .lbu c rd rs1 imm, .sh c rd rs1 imm] → Answers i s fun t =>
        (t.k c).st = .fault ∧ (t.k c).pc = (s.k c).pc ∧ (t.k c).s = (s.k c).s ∧
        t.reg (coreR c 0x18) = BitVec.ofNat 64 (0x08 + 2 ^ 8 + (s.k c).pc.toNat * 2 ^ 32) ∧
        t.reg (coreR c 0x20) = BitVec.ofNat 64 w ∧
        t.field (coreR c 0x40) 0 22 = w ∧ t.dev.bit t.part (coreR c 0x40) 33 = true ∧ ∀ b, t.byte b = s.byte b) ∧
    (s.dev.mark (pantryAt c w) = 1 → Answers (.lw c rd rs1 imm) s fun t =>
      t.k c = { (s.k c).setS rd (BitVec.ofNat 32 (s.le (pantryAt c a) 4)) with pc := (s.k c).pc + 4, step := false } ∧
      t.dev.mark (pantryAt c w) = 0 ∧ t.reg (coreR c 0x128) = countUp (s.reg (coreR c 0x128)) 1 ∧
      t.field (coreR c 0x40) 0 22 = w ∧ t.dev.bit t.part (coreR c 0x40) 32 = true ∧ ∀ b, t.byte b = s.byte b)

/-- R137: VLD, VLDB, VMVS, VMVV and VBCAST queue a vector operation that will write the lanes the rule names, and retire;
VST writes 256 bytes. VLD and VST address s + 32 times imm13 and VLDB s + 4 times imm13, checked over every byte. -/
def Obligations.VectorLoadsAndMoves : Prop :=
  ∀ (s : State) (c : CoreId) (v : BitVec 5) (r lane : BitVec 6) (imm : BitVec 13),
    ready s.part s.dev c [r] [v] = true → (s.k c).vq.length < 16 →
    let x := (s.k c).getS r
    let a := (BitVec.ofInt 32 (x.toInt + imm.toInt * 32)).toNat
    let b := (BitVec.ofInt 32 (x.toInt + imm.toInt * 4)).toNat
    (Answers (.vld c v r imm) s fun t =>
      (0x3FFFFF < a + 255 → Excepts s t c 0x02 (BitVec.ofNat 64 a)) ∧
      (a + 255 ≤ 0x3FFFFF → a % 32 ≠ 0 → Excepts s t c 0x03 (BitVec.ofNat 64 a)) ∧
      (a + 255 ≤ 0x3FFFFF → a % 32 = 0 → Clean s c a 256 →
        Queues s t c v (fun i => BitVec.ofNat 32 (s.le (pantryAt c (a + 4 * i)) 4)) 0 0)) ∧
    (Answers (.vldb c v r imm) s fun t =>
      (0x3FFFFF < b + 3 → Excepts s t c 0x02 (BitVec.ofNat 64 b)) ∧
      (b + 3 ≤ 0x3FFFFF → b % 4 ≠ 0 → Excepts s t c 0x03 (BitVec.ofNat 64 b)) ∧
      (b + 3 ≤ 0x3FFFFF → b % 4 = 0 → Clean s c b 4 →
        Queues s t c v (fun _ => BitVec.ofNat 32 (s.le (pantryAt c b) 4)) 0 0)) ∧
    (Answers (.vst c v r imm) s fun t =>
      (0x3FFFFF < a + 255 → Excepts s t c 0x02 (BitVec.ofNat 64 a)) ∧
      (a + 255 ≤ 0x3FFFFF → a % 32 ≠ 0 → Excepts s t c 0x03 (BitVec.ofNat 64 a)) ∧
      (a + 255 ≤ 0x3FFFFF → a % 32 = 0 → s.dev.injBits c.site.toNat 1 c.p.toNat = 0 →
        Stores s t c { s.k c with vq := (s.k c).vq ++ [{}] } (pantryAt c a)
          ((List.range 256).map fun i => BitVec.ofNat 8 (((s.k c).lane v (i / 4)).toNat / 256 ^ (i % 4))))) ∧
    (Answers (.vmvs c v r lane) s fun t =>
      Retires s t c { s.k c with vq := (s.k c).vq ++ [{ wr := [(64 * v.toNat + lane.toNat, x)], vregs := [v] }] }) ∧
    (Answers (.vmvv c v r lane) s fun t =>
      Retires s t c { s.k c with vq := (s.k c).vq ++ [{ sreg := some (r, (s.k c).lane v lane.toNat) }] }) ∧
    (Answers (.vbcast c v r) s fun t => Queues s t c v (fun _ => x) 0 0)

/-- R124 and R122: completion of the oldest queued vector operation writes its lanes and its scalar register, sets its
flags in VEC.FLAGS and counts in VEC.CNT_OPS; no other lane changes. Stated while the core's clock is not withheld. -/
def Obligations.VectorCompletion : Prop :=
  ∀ (s : State) (c : CoreId) (o : VOp) (q : List VOp), s.dev.edgesHeld c = false → (s.k c).vq = o :: q →
    (o.wr.map Prod.fst).Nodup → Answers (.vectorOpComplete c) s fun t =>
      (∀ i x, (i, x) ∈ o.wr → smGet 0 (t.k c).v i = x) ∧
      (∀ i, i ∉ o.wr.map Prod.fst → smGet 0 (t.k c).v i = smGet 0 (s.k c).v i) ∧
      (∀ r, (t.k c).getS r = match o.sreg with
        | some (w, x) => if r = 0 then 0 else if r = w then x else (s.k c).getS r
        | none => (s.k c).getS r) ∧
      t.k c = { s.k c with vq := q, v := (t.k c).v, s := (t.k c).s } ∧
      t.reg (vecR c 8) = s.reg (vecR c 8) ||| o.flags.zeroExtend 64 ∧
      t.reg (vecR c 0x100) = countUp (s.reg (vecR c 0x100)) 1 ∧
      CoreOnly s t c [vecR c 8, vecR c 0x100] ∧ Fixed s t ∧ ∀ a, t.byte a = s.byte a

/-- R109 and R138, type FP32: each lane is the exact result of the operation rounded once to nearest even, with -0 below
+0 for VMIN and VMAX and a NaN operand giving the canonical NaN; VSEL, VABS and VNEG act on bits; a compare gives all ones
or zero and is false on NaN. No draw is reserved. -/
def Obligations.VectorFp32 : Prop :=
  ∀ (s : State) (c : CoreId) (vd vs1 vs2 vs3 : BitVec 5), ready s.part s.dev c [] [vd, vs1, vs2, vs3] = true →
    (s.k c).vq.length < 16 →
    let x := (s.k c).lane vs1
    let y := (s.k c).lane vs2
    let z := (s.k c).lane vs3
    let fp := fun (v : FV) => BitVec.ofNat 32 (fp32.convert v none .inf).1
    let gives := fun (i : Instr) (r : Nat → W32) => Answers i s fun t => ∃ flags, Queues s t c vd r flags 0
    let bits := fun (i : Instr) (r : Nat → W32) => Answers i s fun t => Queues s t c vd r 0 0
    gives (.vfma c .fp32 vd vs1 vs2 vs3) (fun i => fp (((val32 (x i)).mul (val32 (y i))).add (val32 (z i)))) ∧
    gives (.vfms c .fp32 vd vs1 vs2 vs3) (fun i => fp (((val32 (x i)).mul (val32 (y i))).add (val32 (z i)).neg)) ∧
    gives (.vfnma c .fp32 vd vs1 vs2 vs3) (fun i => fp (((val32 (x i)).mul (val32 (y i))).neg.add (val32 (z i)))) ∧
    gives (.vadd c .fp32 vd vs1 vs2) (fun i => fp ((val32 (x i)).add (val32 (y i)))) ∧
    gives (.vsub c .fp32 vd vs1 vs2) (fun i => fp ((val32 (x i)).add (val32 (y i)).neg)) ∧
    gives (.vmul c .fp32 vd vs1 vs2) (fun i => fp ((val32 (x i)).mul (val32 (y i)))) ∧
    gives (.vmin c .fp32 vd vs1 vs2) (fun i => fp (fvMin (val32 (x i)) (val32 (y i)))) ∧
    gives (.vmax c .fp32 vd vs1 vs2) (fun i => fp (fvMax (val32 (x i)) (val32 (y i)))) ∧
    bits (.vceq c .fp32 vd vs1 vs2) (fun i => if (val32 (x i)).eq (val32 (y i)) then 0xFFFFFFFF else 0) ∧
    bits (.vclt c .fp32 vd vs1 vs2) (fun i => if (val32 (x i)).lt (val32 (y i)) then 0xFFFFFFFF else 0) ∧
    bits (.vcle c .fp32 vd vs1 vs2)
      (fun i => if (val32 (x i)).lt (val32 (y i)) || (val32 (x i)).eq (val32 (y i)) then 0xFFFFFFFF else 0) ∧
    bits (.vsel c .fp32 vd vs1 vs2 vs3) (fun i => (x i &&& z i) ||| (y i &&& ~~~ z i)) ∧
    bits (.vabs c .fp32 vd vs1) (fun i => x i &&& 0x7FFFFFFF) ∧ bits (.vneg c .fp32 vd vs1) (fun i => x i ^^^ 0x80000000)

/-- R138, type INT32: two's complement lanes that wrap; comparisons are signed, and VSEL acts on bits.
R139, lane logic and moves: each lane's result, with shift amounts the low five bits of vs2's lane; VPERM and VPERM2
take lanes by index (R77). -/
def Obligations.VectorIntegerAndLogic : Prop :=
  (∀ (s : State) (c : CoreId) (vd vs1 vs2 vs3 : BitVec 5), ready s.part s.dev c [] [vd, vs1, vs2, vs3] = true →
     (s.k c).vq.length < 16 →
     let x := fun i => ((s.k c).lane vs1 i).toInt
     let y := fun i => ((s.k c).lane vs2 i).toInt
     let gives := fun (i : Instr) (r : Nat → Int) => Answers i s fun t => Queues s t c vd (fun i => BitVec.ofInt 32 (r i)) 0 0
     gives (.vadd c .int32 vd vs1 vs2) (fun i => x i + y i) ∧ gives (.vsub c .int32 vd vs1 vs2) (fun i => x i - y i) ∧
     gives (.vmul c .int32 vd vs1 vs2) (fun i => x i * y i) ∧
     gives (.vmin c .int32 vd vs1 vs2) (fun i => Min.min (x i) (y i)) ∧
     gives (.vmax c .int32 vd vs1 vs2) (fun i => Max.max (x i) (y i)) ∧
     gives (.vceq c .int32 vd vs1 vs2) (fun i => if x i = y i then -1 else 0) ∧
     gives (.vclt c .int32 vd vs1 vs2) (fun i => if x i < y i then -1 else 0) ∧
     gives (.vcle c .int32 vd vs1 vs2) (fun i => if x i ≤ y i then -1 else 0) ∧
     gives (.vabs c .int32 vd vs1) (fun i => if x i < 0 then -x i else x i) ∧ gives (.vneg c .int32 vd vs1) (fun i => -x i) ∧
     (Answers (.vsel c .int32 vd vs1 vs2 vs3) s fun t => Queues s t c vd (fun i =>
       ((s.k c).lane vs1 i &&& (s.k c).lane vs3 i) ||| ((s.k c).lane vs2 i &&& ~~~ (s.k c).lane vs3 i)) 0 0)) ∧
  (∀ (s : State) (c : CoreId) (vd vs1 vs2 aux : BitVec 5), ready s.part s.dev c [] [vd, vs1, vs2, aux] = true →
     (s.k c).vq.length < 16 →
     let x := (s.k c).lane vs1
     let y := (s.k c).lane vs2
     let gives := fun (i : Instr) (r : Nat → W32) => Answers i s fun t => Queues s t c vd r 0 0
     gives (.vand c vd vs1 vs2) (fun i => x i &&& y i) ∧ gives (.vor c vd vs1 vs2) (fun i => x i ||| y i) ∧
     gives (.vxor c vd vs1 vs2) (fun i => x i ^^^ y i) ∧ gives (.vnot c vd vs1) (fun i => x i ^^^ 0xFFFFFFFF) ∧
     gives (.vshl c vd vs1 vs2) (fun i => BitVec.ofNat 32 ((x i).toNat * 2 ^ ((y i).toNat % 32))) ∧
     gives (.vshr c vd vs1 vs2) (fun i => BitVec.ofNat 32 ((x i).toNat / 2 ^ ((y i).toNat % 32))) ∧
     gives (.vsra c vd vs1 vs2) (fun i => BitVec.ofInt 32 ((x i).toInt / 2 ^ ((y i).toNat % 32))) ∧
     gives (.viota c vd) (fun i => BitVec.ofNat 32 i) ∧ gives (.vmov c vd vs1) x ∧
     gives (.vperm c vd vs1 vs2) (fun i => x ((y i).toNat % 64)) ∧
     gives (.vperm2 c vd vs1 vs2 aux) (fun i =>
       if (y i).toNat / 64 % 2 = 0 then x ((y i).toNat % 64) else (s.k c).lane aux ((y i).toNat % 64)))

/-- R109, R119, R138 and R141, packed types BF16 and FP16: each half of each lane is the exact result converted once to the
element format under the instruction's rounding mode and overflow control, lower half first; a compare gives all ones or
zero in each half and is false on NaN; VSEL selects by bits, and VABS and VNEG clear and invert the sign bit of each half;
with RM of 1 each of them reserves 128 draws at issue, one for each element. -/
def Obligations.VectorPacked : Prop :=
  ∀ (s : State) (c : CoreId) (rm : Rm) (ovc : Ovc) (vd vs1 vs2 vs3 : BitVec 5),
    ready s.part s.dev c [] [vd, vs1, vs2, vs3] = true → (s.k c).vq.length < 16 →
    let draws := if rm = .sr then 128 else 0
    let draw := fun (j : Nat) => if rm = .sr then (lfsrDraws (s.reg (coreR c 0x38)) 128).1[j]? else none
    let half := fun (v : BitVec 5) (i h : Nat) => ((s.k c).lane v i).toNat / 65536 ^ h % 65536
    let lanes := fun (g : Nat → Nat → Nat) (i : Nat) => BitVec.ofNat 32 (g i 0 % 65536 + g i 1 % 65536 * 65536)
    let bits := fun (i : Instr) (r : Nat → W32) => Answers i s fun t => Queues s t c vd r 0 draws
    (∀ m : FMode × VMode × FFmt, m ∈ [(.bf16 rm ovc, .bf16 rm ovc, bf16), (.fp16 rm ovc, .fp16 rm ovc, fp16)] →
      let f := m.2.2
      let el := fun (v : BitVec 5) (i h : Nat) => f.decode (half v i h)
      let gives := fun (i : Instr) (op : FV → FV → FV → FV) => Answers i s fun t => ∃ flags, Queues s t c vd
        (lanes fun i h => (f.convert (op (el vs1 i h) (el vs2 i h) (el vs3 i h)) (draw (2 * i + h)) ovc).1) flags draws
      let compares := fun (i : Instr) (test : FV → FV → Bool) =>
        bits i (lanes fun i h => if test (el vs1 i h) (el vs2 i h) then 65535 else 0)
      gives (.vfma c m.1 vd vs1 vs2 vs3) (fun a b d => (a.mul b).add d) ∧
      gives (.vfms c m.1 vd vs1 vs2 vs3) (fun a b d => (a.mul b).add d.neg) ∧
      gives (.vfnma c m.1 vd vs1 vs2 vs3) (fun a b d => (a.mul b).neg.add d) ∧
      gives (.vadd c m.2.1 vd vs1 vs2) (fun a b _ => a.add b) ∧
      gives (.vsub c m.2.1 vd vs1 vs2) (fun a b _ => a.add b.neg) ∧
      gives (.vmul c m.2.1 vd vs1 vs2) (fun a b _ => a.mul b) ∧
      gives (.vmin c m.2.1 vd vs1 vs2) (fun a b _ => fvMin a b) ∧
      gives (.vmax c m.2.1 vd vs1 vs2) (fun a b _ => fvMax a b) ∧
      compares (.vceq c m.2.1 vd vs1 vs2) FV.eq ∧ compares (.vclt c m.2.1 vd vs1 vs2) FV.lt ∧
      compares (.vcle c m.2.1 vd vs1 vs2) (fun a b => a.lt b || a.eq b) ∧
      bits (.vsel c m.2.1 vd vs1 vs2 vs3)
        (fun i => ((s.k c).lane vs1 i &&& (s.k c).lane vs3 i) ||| ((s.k c).lane vs2 i &&& ~~~ (s.k c).lane vs3 i)) ∧
      bits (.vabs c m.2.1 vd vs1) (lanes fun i h => half vs1 i h % 32768) ∧
      bits (.vneg c m.2.1 vd vs1) (lanes fun i h => (half vs1 i h + 32768) % 65536))

/-- R75: the special inputs of the assists. A NaN gives the canonical NaN; a zero or subnormal input counts as zero of its
sign; VEXP of zero is 1, VRCP and VRSQRT of zero are infinities, VTANH of zero is zero; infinities and inputs outside the
domain give the values of the table. The error bound inside the domains is not part of this statement. -/
def Obligations.AssistSpecialInputs : Prop :=
  ∀ (s : State) (c : CoreId) (vd vs1 : BitVec 5), ready s.part s.dev c [] [vd, vs1] = true → (s.k c).vq.length < 16 →
    let x := (s.k c).lane vs1
    let tiny := fun i => (x i).toNat / 2 ^ 23 % 256 = 0
    let neg := fun i => (x i).getLsbD 31 = true
    let nan := fun i => (x i).toNat % 2 ^ 31 > 0x7F800000
    let big := fun i (num den : Nat) => (FV.fin false num 0).lt (((val32 (x i)).mul (FV.fin false den 0))) = true
    let low := fun i (num den : Nat) => ((val32 (x i)).mul (FV.fin false den 0)).lt (FV.fin true num 0) = true
    let gives := fun (i : Instr) (ok : Nat → W32 → Prop) => Answers i s fun t =>
      ∃ r flags, Queues s t c vd r flags 0 ∧ ∀ i, i < 64 → (nan i → r i = 0x7FC00000) ∧ ok i (r i)
    gives (.vexp c vd vs1) (fun i r => (tiny i → r = 0x3F800000) ∧ (big i 8872 100 → r = 0x7F800000) ∧
      (low i 8733 100 → r = 0)) ∧
    gives (.vrcp c vd vs1) (fun i r => (tiny i → neg i → r = 0xFF800000) ∧ (tiny i → ¬neg i → r = 0x7F800000) ∧
      (x i = 0x7F800000 → r = 0) ∧ (x i = 0xFF800000 → r = 0x80000000)) ∧
    gives (.vrsqrt c vd vs1) (fun i r => (tiny i → neg i → r = 0xFF800000) ∧ (tiny i → ¬neg i → r = 0x7F800000) ∧
      (x i = 0x7F800000 → r = 0) ∧ (¬tiny i → neg i → r = 0x7FC00000)) ∧
    gives (.vtanh c vd vs1) (fun i r => (tiny i → r = x i &&& 0x80000000) ∧
      ((FV.fin false 901 0).lt ((val32 (x i)).mul (FV.fin false 100 0)) = true → r = 0x3F800000) ∧
      (low i 901 100 → r = 0xBF800000))

/-- R76: VRSUM, VRMAX and VRMIN combine lane 2i with lane 2i + 1 through six levels, each step rounded once to FP32, and
write lane 0; the other 63 lanes become +0.0.
R78: VSORT writes the keys of vd and the payload of vs1 in one order that sorts the keys, ascending or descending, as
signed INT32 or by totalOrder, and keeps equal keys in their original lane order. -/
def Obligations.VectorReductionsAndSort : Prop :=
  (∀ (s : State) (c : CoreId) (vd vs1 : BitVec 5), ready s.part s.dev c [] [vd, vs1] = true → (s.k c).vq.length < 16 →
     let gives := fun (i : Instr) (op : FV → FV → FV) => Answers i s fun t => ∃ flags, Queues s t c vd
       (fun i => if i = 0 then
         pairwise (fun a b => BitVec.ofNat 32 (fp32.convert (op (val32 a) (val32 b)) none .inf).1) ((s.k c).lane vs1) 6 0
         else 0) flags 0
     gives (.vrsum c vd vs1) FV.add ∧ gives (.vrmax c vd vs1) fvMax ∧ gives (.vrmin c vd vs1) fvMin) ∧
  (∀ (s : State) (c : CoreId) (vd vs1 : BitVec 5) (ints desc : Bool), ready s.part s.dev c [] [vd, vs1] = true →
     (s.k c).vq.length < 16 →
     let key : Nat → Int := fun i =>
       let x := (s.k c).lane vd i
       if ints then x.toInt else if x.toNat < 2 ^ 31 then x.toNat else 2 ^ 31 - 1 - (x.toNat : Int)
     Answers (.vsort c vd vs1 ints desc) s fun t => ∃ order : List Nat, order.Perm (List.range 64) ∧
       order.Pairwise (fun i j => (if desc then key j < key i else key i < key j) ∨ (key i = key j ∧ i < j)) ∧
       Retires s t c { s.k c with vq := (s.k c).vq ++ [{
         wr := (List.range 64).map (fun i => (64 * vs1.toNat + i, (s.k c).lane vs1 (order.getD i 0))) ++
           (List.range 64).map (fun i => (64 * vd.toNat + i, (s.k c).lane vd (order.getD i 0)))
         vregs := [vd, vs1] }] })

/-- R140 and R141: VCVTT packs the 64 converted elements from byte 0 of vd and zeroes the rest; VCVTF widens element i of
vs1, times its block scale for an MX format, to lane i; VCVTI and VCVTIF convert lane by lane; RM of 1 reserves one draw an
element. Format codes 0 and 0xC to 0xF raise exception 0x07 with the code twice. -/
def Obligations.VectorConversions : Prop :=
  ∀ (s : State) (c : CoreId) (vd vs1 vs2 : BitVec 5) (fmt : BitVec 4) (rm : Rm) (ovc : Ovc),
    ready s.part s.dev c [] [vd, vs1, vs2] = true → (s.k c).vq.length < 16 →
    let x := (s.k c).lane vs1
    let draws := if rm = .sr then 64 else 0
    let draw := fun (j : Nat) => if rm = .sr then (lfsrDraws (s.reg (coreR c 0x38)) 64).1[j]? else none
    let bad := fmt.toNat = 0 ∨ 12 ≤ fmt.toNat
    let w := fmtBits fmt
    let packed := (List.range 64).foldl (fun a j => a + (fmtEncode fmt (val32 (x j)) (draw j) ovc).1 % 2 ^ w * 2 ^ (w * j)) 0
    let string := (List.range 64).foldl (fun a j => a + (x j).toNat * 2 ^ (32 * j)) 0
    let scale : Nat → Nat := fun j => ((s.k c).lane vs2 0).toNat / 256 ^ (j / 32) % 256
    let wide := fun j => let v := fmtDecode fmt (string / 2 ^ (w * j) % 2 ^ w)
      if 7 ≤ fmt.toNat then (if scale j = 255 then FV.nan else v.mul (FV.fin false 1 ((scale j : Int) - 127))) else v
    let refuses := fun t => Excepts s t c 0x07 (BitVec.ofNat 64 (fmt.toNat * 257))
    (Answers (.vcvtt c vd vs1 fmt rm ovc) s fun t => (bad → refuses t) ∧
      (¬bad → ∃ flags, Queues s t c vd (fun i => BitVec.ofNat 32 (packed / 2 ^ (32 * i))) flags draws)) ∧
    (Answers (.vcvtf c vd vs1 vs2 fmt) s fun t => (bad → refuses t) ∧
      (¬bad → ∃ flags, Queues s t c vd (fun i => BitVec.ofNat 32 (fp32.convert (wide i) none .inf).1) flags 0)) ∧
    (Answers (.vcvti c vd vs1 rm) s fun t => ∃ flags, Queues s t c vd
      (fun i => BitVec.ofNat 32 (intConvert 32 (val32 (x i)) (draw i)).1) flags draws) ∧
    (Answers (.vcvtif c vd vs1 rm) s fun t => ∃ flags, Queues s t c vd
      (fun i => BitVec.ofNat 32 (fp32.convert (FV.fin ((x i).toInt < 0) (x i).toInt.natAbs 0) (draw i) .inf).1) flags draws)

/-- R142: the tile-define instructions replace the named bits of handle th; bits [63:59], [127:88] and bits [4:0] of BASE
and SBASE always read zero after them, and BASE and SBASE move modulo 2^22. -/
def Obligations.TileDefine : Prop :=
  ∀ (s : State) (c : CoreId) (th : BitVec 3) (sa sb : BitVec 6), ready s.part s.dev c [sa, sb] [] = true →
    let a := ((s.k c).getS sa).toNat
    let b := ((s.k c).getS sb).toNat
    let x := ((s.k c).getT th).toNat
    let lo := x % 2 ^ 64
    let hi := x / 2 ^ 64
    let part := fun (lo hi : Nat) => BitVec.ofNat 128 (lo % 2 ^ 59 / 32 * 32 + hi % 2 ^ 24 / 32 * 32 * 2 ^ 64)
    let gives := fun (i : Instr) (r : BitVec 128) => Answers i s fun t => Retires s t c ((s.k c).setT th r)
    gives (.tdSetlo c th sa sb) (part (a + b * 2 ^ 32) hi) ∧ gives (.tdSethi c th sa sb) (part lo (a + b * 2 ^ 32)) ∧
    gives (.tdBase c th sa) (part (lo / 2 ^ 22 * 2 ^ 22 + a % 2 ^ 22) hi) ∧
    gives (.tdSbase c th sa) (part lo (hi / 2 ^ 22 * 2 ^ 22 + a % 2 ^ 22)) ∧
    gives (.tdBadd c th sa sb) (part (lo / 2 ^ 22 * 2 ^ 22 + (lo + a) % 2 ^ 22) (hi / 2 ^ 22 * 2 ^ 22 + (hi + b) % 2 ^ 22))

/-- R57, R65, R66, R126 and R143 to R145: a matrix instruction whose checks pass captures its handles' descriptors in the
matrix queue with its own address and retires; MX.ST with SR reserves one draw an element at issue. Its exceptions are
MatrixExceptions. -/
def Obligations.MatrixIssue : Prop :=
  ∀ (s : State) (c : CoreId) (ta tb : BitVec 3) (arow : BitVec 9) (swap acc : Bool) (rm : Rm) (ovc : Ovc) (v : BitVec 5),
    ready s.part s.dev c [] [v] = true → (s.k c).mq.length < 8 →
    let a := (s.k c).getT ta
    let b := (s.k c).getT tb
    let sets := (s.k c).setsAtIssue
    let w := if swap && sets.2.isSome then sets.2 else sets.1
    let queued := fun (o : MOp) => { s.k c with mq := (s.k c).mq ++ [⟨o, (s.k c).pc⟩] }
    (fmtReserved (tdFmt b) = false → fmtClass (tdFmt b) ≠ 0 → tdCheck b .weight (fmtClass (tdFmt b)) = none →
      Answers (.mxLdw c tb) s fun t => Retires s t c (queued (.ldw b))) ∧
    (∀ f k cl, w = some (f, k) → fmtReserved (tdFmt a) = false → pairClass (tdFmt a) f = some cl →
      tdCheck a .act cl = none → tdCols a = k → arow.toNat + tdRows a ≤ 512 →
      Answers (.mxMul c ta arow swap acc) s fun t => Retires s t c (queued (.mul a arow swap acc ta))) ∧
    (∀ cl, fmtReserved (tdFmt a) = false → fmtReserved (tdFmt b) = false → pairClass (tdFmt a) (tdFmt b) = some cl →
      tdCheck a .omul cl = none → tdCheck b .omul cl = none → tdRows a = tdRows b → arow.toNat + tdCols a ≤ 512 →
      Answers (.mxOmul c ta tb arow acc) s fun t => Retires s t c (queued (.omul a b arow acc))) ∧
    (fmtReserved (tdFmt a) = false → tdCheck a .out 0 = none → arow.toNat + tdRows a ≤ 512 →
      Answers (.mxSt c ta arow rm ovc) s fun t => Issues s t c (queued (.st a arow rm ovc (s.reg (coreR c 0x38))))
        (if rm = .sr then tdRows a * tdCols a else 0)) ∧
    (Answers (.mxRdv c v arow) s fun t => Retires s t c (queued (.rdv v arow))) ∧
    (Answers (.mxWrv c v arow) s fun t => Retires s t c (queued (.wrv ((s.k c).lanes v) arow)))

/-- R51, R64, R66, R67, R126 and R144: where a matrix instruction's checks fail it raises the exception of the first that
fails, in the order of R126: 0x04 with the number of the failing check, 1 to 7, and the handle, 0x07 with both formats for a
pair that the MXU refuses (FP32, or a 16-bit format with another), 0x05 for MX.MUL with no weight set, 0x06 for rows beyond
511. Checks 2 to 6 are stated at one format each, E4M3 or an MX one; that MX.MUL with no weight set takes the class of its own
tile is the model's choice (DEDUCED, log entry 74). -/
def Obligations.MatrixExceptions : Prop :=
  ∀ (s : State) (c : CoreId) (h h2 : BitVec 3) (arow : BitVec 9) (acc : Bool) (rm : Rm) (ovc : Ovc),
    ready s.part s.dev c [] [] = true → (s.k c).mq.length < 8 →
    let d := (s.k c).getT h
    let g := (s.k c).getT h2
    let e := fun (check : Nat) => BitVec.ofNat 64 (check + h.toNat * 2 ^ 8)
    let e2 := fun (check : Nat) => BitVec.ofNat 64 (check + h2.toNat * 2 ^ 8)
    let refused := fun (a b : BitVec 4) => fmtClass a = 0 ∨ fmtClass b = 0 ∨ ¬(fmtClass a = 16 ↔ fmtClass b = 16)
    (12 ≤ (tdFmt d).toNat →
      ∀ i ∈ [Instr.mxLdw c h, .mxMul c h arow false acc, .mxOmul c h h2 arow acc, .mxSt c h arow rm ovc],
        Answers i s fun t => Excepts s t c 0x04 (e 1)) ∧
    ((tdFmt d).toNat < 12 → 12 ≤ (tdFmt g).toNat →
      Answers (.mxOmul c h h2 arow acc) s fun t => Excepts s t c 0x04 (e2 1)) ∧
    ((tdFmt d).toNat < 12 → (tdFmt g).toNat < 12 → refused (tdFmt d) (tdFmt g) →
      Answers (.mxOmul c h h2 arow acc) s fun t =>
        Excepts s t c 0x07 (BitVec.ofNat 64 ((tdFmt g).toNat + (tdFmt d).toNat * 2 ^ 8))) ∧
    (∀ f n, (s.k c).setsAtIssue.1 = some (f, n) → (tdFmt d).toNat < 12 → refused (tdFmt d) f →
      Answers (.mxMul c h arow false acc) s fun t =>
        Excepts s t c 0x07 (BitVec.ofNat 64 (f.toNat + (tdFmt d).toNat * 2 ^ 8))) ∧
    (tdFmt d = 3 → tdFmt g = 3 → 64 < tdCols d → Answers (.mxOmul c h h2 arow acc) s fun t => Excepts s t c 0x04 (e 2)) ∧
    (tdFmt d = 3 → tdFmt g = 3 → tdCheck d .omul 8 = none → 64 < tdCols g →
      Answers (.mxOmul c h h2 arow acc) s fun t => Excepts s t c 0x04 (e2 2)) ∧
    (tdFmt d = 9 → tdCols d % 4 ≠ 0 → ∀ i ∈ [Instr.mxLdw c h, .mxSt c h arow rm ovc],
      Answers i s fun t => Excepts s t c 0x04 (e 2)) ∧
    (tdFmt d = 7 → tdSgran d ≠ 1 → tdCols d ≤ 64 → tdRows d ≤ 64 → tdCols d ≤ tdStride d → tdStride d % 32 = 0 →
      tdBase d + (tdRows d - 1) * tdStride d + tdCols d ≤ 2 ^ 22 → tdSbase d + (tdRows d + 31) / 32 * tdCols d ≤ 2 ^ 22 →
      Answers (.mxLdw c h) s fun t => Excepts s t c 0x04 (e 6)) ∧
    (tdFmt d = 3 → tdScaled d = true → tdSgran d = 0 ∨ tdSgran d = 3 → tdCols d ≤ 64 → tdCols d ≤ tdStride d →
      tdStride d % 32 = 0 → tdBase d + (tdRows d - 1) * tdStride d + tdCols d ≤ 2 ^ 22 →
      Answers (.mxSt c h arow rm ovc) s fun t => Excepts s t c 0x04 (e 6)) ∧
    (∀ n, (s.k c).setsAtIssue.1 = some (3, n) → tdFmt d = 3 → tdCheck d .act 8 = none → tdCols d ≠ n →
      Answers (.mxMul c h arow false acc) s fun t => Excepts s t c 0x04 (e 7)) ∧
    (tdFmt d = 3 → tdFmt g = 3 → tdCheck d .omul 8 = none → tdCheck g .omul 8 = none → tdRows d ≠ tdRows g →
      Answers (.mxOmul c h h2 arow acc) s fun t => Excepts s t c 0x04 (e 7)) ∧
    ((s.k c).setsAtIssue.1 = some (3, tdCols d) → tdFmt d = 3 → tdCheck d .act 8 = none → 512 < arow.toNat + tdRows d →
      Answers (.mxMul c h arow false acc) s fun t =>
        Excepts s t c 0x06 (BitVec.ofNat 64 (tdRows d + arow.toNat * 2 ^ 32))) ∧
    (tdFmt d = 3 → tdFmt g = 3 → tdCheck d .omul 8 = none → tdCheck g .omul 8 = none → tdRows d = tdRows g →
      512 < arow.toNat + tdCols d → Answers (.mxOmul c h h2 arow acc) s fun t =>
        Excepts s t c 0x06 (BitVec.ofNat 64 (tdCols d + arow.toNat * 2 ^ 32))) ∧
    (tdFmt d = 0 → Answers (.mxLdw c h) s fun t => Excepts s t c 0x07 0) ∧
    ((tdFmt d).toNat < 12 → tdFmt d ≠ 0 → 64 < tdCols d → Answers (.mxLdw c h) s fun t => Excepts s t c 0x04 (e 2)) ∧
    ((tdFmt d).toNat < 12 → 64 < tdCols d → Answers (.mxSt c h arow rm ovc) s fun t => Excepts s t c 0x04 (e 2)) ∧
    (tdFmt d = 3 → tdCols d ≤ 64 → 64 < tdRows d → Answers (.mxLdw c h) s fun t => Excepts s t c 0x04 (e 3)) ∧
    (tdFmt d = 3 → tdCols d ≤ 64 → tdRows d ≤ 64 → tdStride d < tdCols d ∨ tdStride d % 32 ≠ 0 →
      Answers (.mxLdw c h) s fun t => Excepts s t c 0x04 (e 4)) ∧
    (tdFmt d = 3 → tdScaled d = false → tdCols d ≤ 64 → tdCols d ≤ tdStride d → tdStride d % 32 = 0 →
      0x3FFFFF < tdBase d + (tdRows d - 1) * tdStride d + tdCols d - 1 →
      Answers (.mxSt c h arow rm ovc) s fun t => Excepts s t c 0x04 (e 5)) ∧
    (tdFmt d = 3 → tdCheck d .act 8 = none → (s.k c).setsAtIssue.1 = none →
      Answers (.mxMul c h arow false acc) s fun t => Excepts s t c 0x05 (BitVec.ofNat 64 h.toNat)) ∧
    ((tdFmt d).toNat < 12 → tdCheck d .out 0 = none → 512 < arow.toNat + tdRows d →
      Answers (.mxSt c h arow rm ovc) s fun t => Excepts s t c 0x06 (BitVec.ofNat 64 (tdRows d + arow.toNat * 2 ^ 32)))

/-- R67, R71, R101, R104 and R145: the oldest queued matrix operation starts when every started one lets it; MX.LDW reads
its weight tile and leaves the shadow set invalid meanwhile, MX.MUL with SWAP makes a loaded shadow set active and reads its
activation tile, MX.OMUL leaves the active set invalid and reads both its tiles. The cycles for which it will occupy the array count for the
next rest (R72, R492), under the rest fraction that a rise at this start leaves (R493). Stated where the clock is not withheld
and no word read carries an ECC error. The model's choices: operands are read at the start (DEDUCED, log entry 22), the half
cycle of a 4-bit MX.OMUL counts whole (DEDUCED, log entry 72), and a rise takes effect at the first start of any core of the
site (DESIGN CHOICE, log entry 110). -/
def Obligations.MatrixStart : Prop :=
  ∀ (s : State) (c : CoreId) (idle : BitVec 32) (q : MQ) (rest : List MQ), s.dev.edgesHeld c = false →
    (s.k c).mq = q :: rest → (∀ r ∈ (s.k c).mrun, mayFollow q.op r.op = true) →
    let k := s.k c
    let frac := max (s.dev.restFrac s.part c.site.toNat) (s.dev.restTarget s.part c.site.toNat)
    let starts := fun (t : State) (k' : CoreSt) (a w : Option Tile) =>
      t.k c = { k' with mq := rest, mrun := k.mrun ++ [⟨q.op, q.pc, a, w⟩] } ∧ (∀ e, e ≠ c → t.k e = s.k e) ∧
      (∀ x, x ≠ mxuR c 0x110 → x ≠ thmR c.site.toNat 8 → t.reg x = s.reg x) ∧
      t.reg (thmR c.site.toNat 8) = (if q.op.isArray then withBits (s.reg (thmR c.site.toNat 8)) 0 4 frac
        else s.reg (thmR c.site.toNat 8)) ∧
      Fixed s t ∧ ∀ x, t.byte x = s.byte x
    let occupied := fun (x y : Option Tile) => match x, y with
      | some a, some b => BitVec.ofNat 32 (min 65535 (frac * q.op.cycles a b))
      | _, _ => 0
    (∀ tb, q.op = .ldw tb → CleanTile s c tb true → Answers (.matrixOpStart c idle) s fun t =>
      starts t { k with wShadow := none } none (some (s.tile c tb true))) ∧
    (∀ ta row swap acc th, q.op = .mul ta row swap acc th → CleanTile s c ta false →
      Answers (.matrixOpStart c idle) s fun t =>
        let active := if swap && k.wShadow.isSome then k.wShadow else k.wActive
        starts t { k with restCnt := occupied (some (s.tile c ta false)) active, osMode := false, wActive := active,
                          wShadow := if swap then none else k.wShadow } (some (s.tile c ta false)) active) ∧
    (∀ ta tb row acc, q.op = .omul ta tb row acc → CleanTile s c ta true → CleanTile s c tb true →
      Answers (.matrixOpStart c idle) s fun t =>
        starts t { k with restCnt := occupied (some (s.tile c ta true)) (some (s.tile c tb true)), osMode := true, wActive := none } (some (s.tile c ta true)) (some (s.tile c tb true))) ∧
    (∀ ta row rm ovc l, q.op = .st ta row rm ovc l → Answers (.matrixOpStart c idle) s fun t => starts t k none none) ∧
    (∀ v row, q.op = .rdv v row → Answers (.matrixOpStart c idle) s fun t => starts t k none none) ∧
    (∀ xs row, q.op = .wrv xs row → Answers (.matrixOpStart c idle) s fun t => starts t k none none)

/-- R67 to R71, R105, R106 and R117: completion of a started matrix operation; one behind which an operation of its own
resource is still to complete waits, so an MX.LDW completes during an MX.MUL that started before it. MX.LDW fills the shadow set; MX.MUL
and MX.OMUL write their accumulator rows, marked written, and no other row; MX.RDV copies a row to a v register and MX.WRV
writes one. Every register but the MXU's own, every other core and all of memory are unchanged. Which started operation
may end before an earlier one is the model's choice (DEDUCED, log entry 22).
R70, R113 to R117 and R119: completion of an MX.ST writes the converted rows and scales to the pantry, in order, with
the draws its issue reserved, and raises the flags of the conversions; no byte outside those runs changes. Stated where no
word of the core's pantry carries an ECC error and none is being injected. -/
def Obligations.MatrixCompletion : Prop :=
  (∀ (s : State) (c : CoreId) (r : MRun) (i : BitVec 8), s.dev.edgesHeld c = false → (s.k c).mrun[i.toNat]? = some r →
     (s.k c).mayEnd i.toNat r.op = true →
     let rest := (s.k c).mrun.eraseIdx i.toNat
     let k := s.k c
     let kept := fun (t : State) => (∀ e, e ≠ c → t.k e = s.k e) ∧
       (∀ x, x ∉ [mxuR c 8, mxuR c 0x100, mxuR c 0x108] → t.reg x = s.reg x) ∧ Fixed s t ∧ ∀ x, t.byte x = s.byte x
     let rows := fun (t : State) (arow n : Nat) (f : Nat → Nat → W32) =>
       (∀ m j, m < n → j < 64 → (t.k c).accAt (arow + m) j = f m j) ∧
       (∀ m j, m < arow ∨ arow + n ≤ m → j < 64 → (t.k c).accAt m j = k.accAt m j)
     (∀ tb w, r = ⟨.ldw tb, r.pc, none, some w⟩ → Answers (.matrixOpComplete ⟨c, i⟩) s fun t =>
       t.k c = { k with mrun := rest, wShadow := some w } ∧ kept t) ∧
     (∀ ta arow swap acc th a w, r = ⟨.mul ta arow swap acc th, r.pc, some a, some w⟩ →
       Answers (.matrixOpComplete ⟨c, i⟩) s fun t =>
         rows t arow.toNat a.rows (fun m j => (mulElem k a w arow.toNat acc m j).1) ∧
         t.reg (mxuR c 0x100) = countUp (s.reg (mxuR c 0x100)) a.rows ∧ (t.k c).mrun = rest ∧
         (t.k c).s = k.s ∧ (t.k c).v = k.v ∧ (t.k c).t = k.t ∧ (t.k c).wShadow = k.wShadow ∧ kept t) ∧
     (∀ ta tb arow acc a w, r = ⟨.omul ta tb arow acc, r.pc, some a, some w⟩ →
       Answers (.matrixOpComplete ⟨c, i⟩) s fun t =>
         rows t arow.toNat a.cols (fun m j => (omulElem k a w arow.toNat acc m j).1) ∧
         t.reg (mxuR c 0x100) = countUp (s.reg (mxuR c 0x100)) a.rows ∧ (t.k c).mrun = rest ∧
         (t.k c).s = k.s ∧ (t.k c).v = k.v ∧ (t.k c).t = k.t ∧ (t.k c).wShadow = k.wShadow ∧ kept t) ∧
     (∀ v arow, r.op = .rdv v arow → Answers (.matrixOpComplete ⟨c, i⟩) s fun t =>
       (∀ j, j < 64 → (t.k c).lane v j = k.accAt arow.toNat j) ∧
       (∀ u j, u ≠ v → j < 64 → (t.k c).lane u j = k.lane u j) ∧
       t.k c = { k with mrun := rest, v := (t.k c).v } ∧ kept t) ∧
     (∀ xs arow, r.op = .wrv xs arow → xs.length = 64 → Answers (.matrixOpComplete ⟨c, i⟩) s fun t =>
       rows t arow.toNat 1 (fun _ j => xs.getD j 0) ∧
       t.k c = { k with mrun := rest, acc := (t.k c).acc, accWr := (t.k c).accWr } ∧ kept t)) ∧
  (∀ (s : State) (c : CoreId) (t : BitVec 128) (arow : BitVec 9) (rm : Rm) (ovc : Ovc) (l : W64) (r : MRun) (i : BitVec 8),
     s.dev.edgesHeld c = false → (s.k c).mrun[i.toNat]? = some r → (s.k c).mayEnd i.toNat r.op = true → r.op = .st t arow rm ovc l →
     (∀ a, s.dev.mark (pantryAt c a) = 0) → s.dev.injBits c.site.toNat 1 c.p.toNat = 0 →
     let rest := (s.k c).mrun.eraseIdx i.toNat
     let z := stRuns (s.k c) t arow.toNat rm ovc l
     Answers (.matrixOpComplete ⟨c, i⟩) s fun u =>
       u.mem = applyWr s.mem (((lineRuns z.1).filter fun x => x.2 ≠ []).map fun x => (pantryAt c x.1, x.2)) ∧
       (∀ a, (∀ x ∈ z.1, a < pantryAt c x.1 ∨ pantryAt c x.1 + x.2.length ≤ a) → u.byte a = s.byte a) ∧
       u.k c = { s.k c with mrun := rest } ∧ u.reg (mxuR c 8) = s.reg (mxuR c 8) ||| BitVec.ofNat 64 z.2.mxu ∧
       (∀ e, e ≠ c → u.k e = s.k e) ∧ (∀ x, x ≠ mxuR c 8 → u.reg x = s.reg x) ∧ Fixed s u) ∧
  (∀ (s : State) (c : CoreId) (i : BitVec 8), (∀ r, (s.k c).mrun[i.toNat]? = some r → (s.k c).mayEnd i.toNat r.op = false) →
     Answers (.matrixOpComplete ⟨c, i⟩) s fun t => t = s)

/-- R105, R106 and R108: with integer elements and no scales the MXU's arithmetic is exact: a segment of at most 32 INT8
products is their integer sum, and adding a segment to a running integer value gives the integer sum while it stays below
2^24 in magnitude. No flag is set. -/
def Obligations.IntegerSegmentsExact : Prop :=
  (∀ a w : List Int, a.length = w.length → a.length ≤ 32 → (∀ x ∈ a, -128 ≤ x ∧ x ≤ 127) → (∀ x ∈ w, -128 ≤ x ∧ x ≤ 127) →
    a ≠ [] →
    let z := segment (a.map FV.ofInt) (w.map FV.ofInt) none none
    (val32 z.1).eq (FV.ofInt ((a.zip w).map fun p => p.1 * p.2).sum) = true ∧ z.2.mxu = 0) ∧
  (∀ (x y : W32) (i j : Int) (acc : Bool), (val32 x).eq (FV.ofInt i) = true → (val32 y).eq (FV.ofInt j) = true →
    (i + j).natAbs < 2 ^ 24 → i.natAbs < 2 ^ 24 → j.natAbs < 2 ^ 24 →
    (val32 (accAdd x y acc).1).eq (FV.ofInt (i + j)) = true ∧ (accAdd x y acc).2.mxu = 0)

/-- R146, R169 and R170: while line READPOS of the current tile has landed, LOB.RDV copies it to lanes 0 to 31 or 32 to 63
of v and LOB.RDP to 128 bytes of the pantry; the lobby keeps it as its last value and advances READPOS, and after line NL
the tile retires: its slot is freed, its header is held, READSEQ advances and CNT_TILES counts.
R171 and R172: a read while EMPTY is 1, and LOB.HDR with no header, return the last value or the held header, set
UNDERRUN[l] and count in CNT_UNDERRUN; the lobby does not change, and a Notice is raised exactly when the bit was 0. -/
def Obligations.LobbyReads : Prop :=
  (∀ (s : State) (c : CoreId) (l : BitVec 3) (r sa : BitVec 6) (upper : Bool) (tile : LSlot),
     ready s.part s.dev c [sa] [r.extractLsb' 0 5] = true → r.getLsbD 5 = false → s.dev.lobEn s.part c l = true →
     s.dev.curTile s.part c l = some tile →
     let x := s.dev.lobby c l
     tile.landed.getLsbD x.readpos.toNat = true →
     let line := smGet [] tile.lines x.readpos.toNat
     let a := ((s.k c).getS sa).toNat
     let next := if x.readpos.toNat = tile.nl.toNat then
         { x with slots := x.slots.filter (fun y => y.seq ≠ tile.seq), readpos := 0, last := line, held := tile.hdr }
       else { x with readpos := x.readpos + 1, last := line }
     let took := fun (t : State) => t.dev.lobby c l = next ∧ (∀ m, m ≠ l → t.dev.lobby c m = s.dev.lobby c m) ∧
       (t.k c).pc = (s.k c).pc + 4 ∧ (t.k c).s = (s.k c).s ∧ (∀ e, e ≠ c → t.k e = s.k e) ∧
       (if x.readpos.toNat = tile.nl.toNat then
         t.dev.readSeq t.part c l = tile.seq + 1 ∧ t.reg (lobReg c l 0x20) = countUp (s.reg (lobReg c l 0x20)) 1 ∧
         RegsKept s t [coreR c 0x108, lobReg c l 8, lobReg c l 0x20]
       else RegsKept s t [coreR c 0x108]) ∧ Fixed s t
     (Answers (.lobRdv c l r upper) s fun t => took t ∧ (∀ b, t.byte b = s.byte b) ∧
       (∀ i, i < 32 → smGet 0 (t.k c).v (64 * r.toNat + (if upper then 32 else 0) + i) =
         BitVec.ofNat 32 (leNat ((line.drop (4 * i)).take 4))) ∧
       ∀ i, i < 64 * r.toNat + (if upper then 32 else 0) ∨ 64 * r.toNat + (if upper then 32 else 0) + 32 ≤ i →
         smGet 0 (t.k c).v i = smGet 0 (s.k c).v i) ∧
     (Answers (.lobRdp c l sa) s fun t =>
       (0x3FFFFF < a + 127 → Excepts s t c 0x02 (BitVec.ofNat 64 a)) ∧
       (a + 127 ≤ 0x3FFFFF → a % 128 ≠ 0 → Excepts s t c 0x03 (BitVec.ofNat 64 a)) ∧
       (a + 127 ≤ 0x3FFFFF → a % 128 = 0 → line.length = 128 → s.dev.injBits c.site.toNat 1 c.p.toNat = 0 →
         took t ∧ (t.k c).v = (s.k c).v ∧ MemKept s t (pantryAt c a) 128 ∧
         ∀ i b, (line)[i]? = some b → t.byte (pantryAt c a + i) = b))) ∧
  (∀ (s : State) (c : CoreId) (l : BitVec 3) (r : BitVec 6) (word : BitVec 2) (upper : Bool),
     ready s.part s.dev c [r] [r.extractLsb' 0 5] = true →
     let x := s.dev.lobby c l
     let was := s.dev.bit s.part (lobR c 0) (8 + l.toNat)
     let under := fun (t : State) => (∀ m, t.dev.lobby c m = s.dev.lobby c m) ∧
       t.dev.bit t.part (lobR c 0) (8 + l.toNat) = true ∧
       t.reg (lobReg c l 0x28) = countUp (s.reg (lobReg c l 0x28)) 1 ∧ (t.k c).pc = (s.k c).pc + 4 ∧
       t.reg (fltR c.site.toNat 0x40) = (if was then s.reg (fltR c.site.toNat 0x40) else countUp (s.reg (fltR c.site.toNat 0x40)) 1) ∧
       StillBut s t c ∧ RegsKept s t [coreR c 0x108, lobR c 0, lobReg c l 0x28]
     (r.getLsbD 5 = false → s.dev.lobEmpty s.part c l = true → Answers (.lobRdv c l r upper) s fun t => under t ∧
       ∀ i, i < 32 → smGet 0 (t.k c).v (64 * r.toNat + (if upper then 32 else 0) + i) =
         if x.last = [] then 0 else BitVec.ofNat 32 (leNat ((x.last.drop (4 * i)).take 4))) ∧
     ((s.dev.lobEn s.part c l = false ∨ s.dev.curTile s.part c l = none) → Answers (.lobHdr c l r word) s fun t => under t ∧
       (t.k c).getS r = if r = 0 then 0 else BitVec.ofNat 32 (x.held.toNat / 2 ^ (32 * word.toNat))))

/-- R172, R174, R175 and R177: LOB.HDR returns a word of the current tile's header; LOB.STAT returns the status word, its
fields as tabled; LOB.DROP makes the next SEQ current, counts in CNT_DROP, frees a present tile, holds its header and sets a
drop mark unless the tile was whole; while EN is 0 it only retires. -/
def Obligations.LobbyStatusAndDrop : Prop :=
  ∀ (s : State) (c : CoreId) (l : BitVec 3) (r : BitVec 6) (word : BitVec 2), ready s.part s.dev c [r] [] = true →
    let x := s.dev.lobby c l
    let seq := s.dev.readSeq s.part c l
    let en := s.dev.lobEn s.part c l
    (∀ tile, en = true → s.dev.curTile s.part c l = some tile → Answers (.lobHdr c l r word) s fun t =>
      Retires s t c ((s.k c).setS r (BitVec.ofNat 32 (tile.hdr.toNat / 2 ^ (32 * word.toNat))))) ∧
    (x.slots.length ≤ 128 → x.marks.length ≤ 8 → Answers (.lobStat c l r) s fun t => ∃ w : W32,
      Retires s t c ((s.k c).setS r w) ∧ w.getLsbD 0 = s.dev.lobEmpty s.part c l ∧ w.getLsbD 5 = en ∧
      w.getLsbD 3 = s.dev.bit s.part (lobR c 0) (8 + l.toNat) ∧ w.getLsbD 4 = s.dev.bit s.part (lobR c 0) (16 + l.toNat) ∧
      w.getLsbD 1 = s.dev.lobReady s.part c l false ∧ w.getLsbD 2 = s.dev.lobReady s.part c l true ∧
      w.toNat / 2 ^ 30 = 0 ∧
      (en = true → w.toNat / 2 ^ 6 % 4 = x.readpos.toNat ∧ w.toNat / 2 ^ 8 % 256 = x.slots.length ∧
        w.toNat / 2 ^ 16 % 1024 = x.free ∧ w.toNat / 2 ^ 26 % 16 = x.marks.length) ∧
      (en = false → w.toNat / 2 ^ 6 % 1024 = 0 ∧ w.toNat / 2 ^ 16 % 1024 = 512 ∧ w.toNat / 2 ^ 26 % 16 = 0)) ∧
    (en = false → Answers (.lobDrop c l) s fun t => Retires s t c (s.k c)) ∧
    (en = true → x.marks.length < 8 → Answers (.lobDrop c l) s fun t =>
      t.dev.readSeq t.part c l = seq + 1 ∧ t.reg (lobReg c l 0x38) = countUp (s.reg (lobReg c l 0x38)) 1 ∧
      (t.dev.lobby c l).readpos = 0 ∧ (t.k c).pc = (s.k c).pc + 4 ∧ (t.k c).s = (s.k c).s ∧ (t.k c).v = (s.k c).v ∧
      StillBut s t c ∧ RegsKept s t [coreR c 0x108, lobReg c l 8, lobReg c l 0x38, lobR c 0, lobR c 0x10, lobR c 0x18, lobR c 0x20] ∧
      match x.slot seq with
      | some tile => (t.dev.lobby c l).held = tile.hdr ∧
          (t.dev.lobby c l).slots.map LSlot.seq = (x.slots.map LSlot.seq).filter (fun q => q ≠ seq) ∧
          (if tile.whole then (t.dev.lobby c l).marks = x.marks
           else ∃ m, m.seq = seq ∧ m.hdrSeen = true ∧ (t.dev.lobby c l).marks = x.marks ++ [m])
      | none => (t.dev.lobby c l).held = x.held ∧ (t.dev.lobby c l).slots.map LSlot.seq = x.slots.map LSlot.seq ∧
          (t.dev.lobby c l).marks = x.marks ++ [{ seq := seq, hdrSeen := false, toCome := 0 }])

/-- R162, R164, R168, R182 and R183: a line lands in the tile that holds its SEQ once the lines before it have, and not before; while EN is 0 a write of NEXT sets READSEQ and
a write of CFG takes PRODUCER, and while it is 1 a differing value is left out with a Notice; writing EN to 0 discards the
lobby's tiles, marks and last value and keeps every other field. -/
def Obligations.LobbyConfiguration : Prop :=
  ∀ (s : State) (c : CoreId) (l : BitVec 3) (seq : BitVec 16) (line : BitVec 2) (v : W64),
    s.dev.coreOpen s.part c = true → s.dev.edgesHeld c = false →
    let x := s.dev.lobby c l
    let cfg := lobReg c l 0
    let en := s.dev.lobEn s.part c l
    (∀ tile, x.slot seq = some tile → (tile.lines.any fun y => y.1 == line.toNat) = true → tile.landed.getLsbD line.toNat = false →
      ((∃ i, i < line.toNat ∧ tile.landed.getLsbD i = false) → Answers (.lineLands c l seq line) s fun t => t = s) ∧
      ((∀ i, i < line.toNat → tile.landed.getLsbD i = true) → Answers (.lineLands c l seq line) s fun t =>
        (∃ u, (t.dev.lobby c l).slot seq = some u ∧ u.landed = tile.landed ||| (1 <<< line.toNat) ∧ u.hdr = tile.hdr ∧
          u.lines = tile.lines) ∧
        (t.dev.lobby c l).marks = x.marks ∧ StillBut s t c ∧ RegsKept s t [lobR c 0, lobR c 0x10, lobR c 0x18, lobR c 0x20])) ∧
    (en = false → Answers (.lobSeqWrite c l seq) s fun t => t.dev.readSeq t.part c l = seq ∧ Still s t ∧
      RegsOnly s t [lobReg c l 8]) ∧
    (en = true → seq ≠ s.dev.readSeq s.part c l → Answers (.lobSeqWrite c l seq) s fun t =>
      t.reg (lobReg c l 8) = s.reg (lobReg c l 8) ∧ t.reg (fltR c.site.toNat 0x40) = countUp (s.reg (fltR c.site.toNat 0x40)) 1 ∧
      Still s t ∧ RegsKept s t []) ∧
    (en = false → bits v 1 3 ≤ 4 → Answers (.lobCfgWrite c l v) s fun t =>
      t.reg cfg = BitVec.ofNat 64 (bits v 0 5 + bits v 10 27 * 2 ^ 10) ∧ Still s t ∧ RegsOnly s t [cfg]) ∧
    (en = true → v.getLsbD 0 = true → bits v 1 3 ≤ 4 → Answers (.lobCfgWrite c l v) s fun t =>
      t.reg cfg = BitVec.ofNat 64 (bits v 0 5 + bits (s.reg cfg) 10 27 * 2 ^ 10) ∧ Still s t ∧ RegsKept s t [cfg]) ∧
    (Answers (.lobbyDisable c l) s fun t => t.dev.lobby c l = {} ∧ (∀ m, m ≠ l → t.dev.lobby c m = s.dev.lobby c m) ∧
      t.field cfg 0 1 = 0 ∧ t.field cfg 1 63 = s.field cfg 1 63 ∧ StillBut s t c ∧ RegsKept s t [cfg] ∧
      t.dev.records = s.dev.records ∧ t.dev.recOut = s.dev.recOut)

/-- R148, R151 to R155 and R173: a wait instruction whose condition holds retires, WAITX writing which of its two conditions
held; one whose condition does not hold puts a core in RUN into WAIT with nothing else changed, and leaves a core that
stepped it in HALT. The conditions are those of the rules; that of PRT.WAIT, no descriptor started or still to start, is the
model's reading of R148 and R404 together (DEDUCED, log entry 25). Stated outside an orderly stop.
R50: a core in WAIT whose condition is met goes to RUN and its wait instruction retires. Stated for each wait but BAR
and while the core's clock is not withheld. -/
def Obligations.Waits : Prop :=
  (∀ (s : State) (c : CoreId) (l : BitVec 3) (all : Bool) (q : BitVec 4) (mask : BitVec 5) (ra rb : BitVec 6),
     ready s.part s.dev c [ra, ra + 1, rb] [] = true → s.dev.stopStep = 0 → ra.toNat % 2 = 0 → ra.toNat ≠ 62 →
     let k := s.k c
     let d := s.dev
     let target : W64 := BitVec.ofNat 64 ((k.getS ra).toNat + (k.getS (ra + 1)).toNat * 2 ^ 32)
     let time := (d.snoop c - target).toNat < 2 ^ 63
     let idle := fun n => d.descs c n = [] ∧ (d.qError s.part c n = true ∨ d.qEn s.part c n = false ∨
       d.qHead s.part c n = d.qTail s.part c n)
     let lands := fun (n : LSlot → Nat) => d.lobEn s.part c l = true ∧ ∃ t, d.curTile s.part c l = some t ∧ n t ≤ t.landedCount
     let cut := d.fld s.part (lobReg c l 0) 1 3
     let first := lands fun t => if cut = 0 ∨ t.nl.toNat + 1 < cut then t.nl.toNat + 1 else cut
     let waits := fun (i : Instr) (w : WaitOn) (met : Prop) (k' : CoreSt) => Answers i s fun t =>
       (met → Retires s t c k') ∧
       (¬met → t.k c = (if k.st = .run then { k with step := false, st := .wait, wait := some w } else { k with step := false }) ∧
         CoreOnly s t c [] ∧ Fixed s t ∧ ∀ a, t.byte a = s.byte a)
     waits (.lobWait c l false) (.lobWait l false) first k ∧
     waits (.lobWait c l true) (.lobWait l true) (d.lobEn s.part c l = true ∧ ∃ t, d.curTile s.part c l = some t ∧
       t.landedCount = t.nl.toNat + 1) k ∧
     waits (.prtWait c q) (.prtWait q) (idle q.toNat) k ∧ waits (.prtAwait c) .prtAwait (k.atoms = []) k ∧
     waits (.fence c mask) (.fence mask)
       ((mask.getLsbD 0 = true → (∀ x ∈ k.mq, x.op.touchesPantry = false) ∧ ∀ x ∈ k.mrun, x.op.isSt = false) ∧
         (mask.getLsbD 1 = true → k.mq = [] ∧ ∀ x ∈ k.mrun, x.op.isArray = false) ∧ (mask.getLsbD 2 = true → k.vq = []) ∧
         (mask.getLsbD 3 = true → ∀ n, n < 16 → idle n) ∧ (mask.getLsbD 4 = true → k.atoms = [])) k ∧
     waits (.lwait c ra) (.lwait target) time k ∧
     (∀ b0 b1 : Bool, (b0 = true ↔ first) → (b1 = true ↔ time) →
       waits (.waitx c ra rb l all) (.waitx target rb l all) (if all then first ∧ time else first ∨ time)
         (k.setS rb (BitVec.ofNat 32 ((if b0 then 1 else 0) + if b1 then 2 else 0))))) ∧
  (∀ (s : State) (c : CoreId) (w : WaitOn), s.dev.edgesHeld c = false → (s.k c).st = .wait → (s.k c).wait = some w →
     (s.k c).step = false → s.dev.waitMet s.part c w = true → (∀ b, w ≠ .barDone b) →
     Answers (.waitConditionMet c) s fun t =>
       Retires s t c { (match w with
         | .waitx target rb l _ => (s.k c).setS rb ((s.dev.waitxWord s.part c target l).zeroExtend 32)
         | _ => s.k c) with st := .run, wait := none })

/-- R53, R56, R118, R120, R151 and R154: the system instructions. NOP only retires; HALT retires into HALT; END retires into
IDLE once the vector and matrix queues are empty and PROGRAM_END_IDLE finishes it then; ICINV empties the instruction cache;
SEED loads SRLFSR, zero counting as 1, and SRRD and LRD read a pair; FLGRD reads a flag register whose unit's queue is empty
and clears it when asked; CID reads the source number, the logical number or the good-core count.
That END and FLGRD of unit 0 wait for the queue alone, also while a started operation still runs in the array, is the model's
reading (DEDUCED, log entry 20), as is exception 0x01 for value 3 of CID (DEDUCED, log entry 96).
R50, R51, R127 to R130: a reserved word and value 3 of CID raise exception 0x01. R127 and R128: a word that is not illegal
spells the command of its major opcode and func with its fields as operands; the words of the chapter's example do. -/
def Obligations.SystemInstructions : Prop :=
  (∀ (s : State) (c : CoreId) (ra : BitVec 6) (clear : Bool), ready s.part s.dev c [ra, ra + 1] [] = true →
     let k := s.k c
     let pairOk := ra.toNat % 2 = 0 ∧ ra.toNat ≠ 62
     let pair : W64 := BitVec.ofNat 64 ((k.getS ra).toNat + (k.getS (ra + 1)).toNat * 2 ^ 32)
     let both := fun (x : W64) => (k.setS ra (BitVec.ofNat 32 x.toNat)).setS (ra + 1) (BitVec.ofNat 32 (x.toNat / 2 ^ 32))
     let gives := fun (i : Instr) (r : CoreSt) => Answers i s fun t => Retires s t c r
     let good := (List.range 64).filter fun i => s.part.goodCore c.site.toNat i
     gives (.nop c) k ∧ gives (.icinv c) { k with ic := [] } ∧ gives (.halt c) { k with st := .halt } ∧
     (k.st = .run → k.vq = [] → k.mq = [] → gives (.endProgram c) { k with st := .idle }) ∧
     (k.st = .run → k.vq ≠ [] ∨ k.mq ≠ [] → gives (.endProgram c) { k with ending := true }) ∧
     (pairOk → Answers (.seed c ra) s fun t => RetiresWith s t c k [coreR c 0x38] ∧
       t.reg (coreR c 0x38) = if pair = 0 then 1 else pair) ∧
     (pairOk → gives (.srrd c ra) (both (s.reg (coreR c 0x38)))) ∧ (pairOk → gives (.lrd c ra) (both (s.dev.snoop c))) ∧
     (¬pairOk → ∀ i ∈ [Instr.seed c ra, .srrd c ra, .lrd c ra, .lwait c ra], Answers i s fun t =>
       ∃ w, Excepts s t c 0x0A w ∧ w.toNat / 2 ^ 16 % 64 = ra.toNat) ∧
     (k.vq = [] → Answers (.flgrd c ra true clear) s fun t =>
       RetiresWith s t c (k.setS ra (BitVec.ofNat 32 (s.reg (vecR c 8)).toNat)) [vecR c 8] ∧
       t.reg (vecR c 8) = if clear then 0 else s.reg (vecR c 8)) ∧
     (k.mq = [] → Answers (.flgrd c ra false clear) s fun t =>
       RetiresWith s t c (k.setS ra (BitVec.ofNat 32 (s.reg (mxuR c 8)).toNat)) [mxuR c 8] ∧
       t.reg (mxuR c 8) = if clear then 0 else s.reg (mxuR c 8)) ∧
     gives (.cid c ra 0) (k.setS ra (BitVec.ofNat 32 (s.dev.node.toNat * 2 ^ 11 + c.site.toNat * 2 ^ 6 + c.p.toNat))) ∧
     gives (.cid c ra 1) (k.setS ra (BitVec.ofNat 32 (good.filter fun i => i < c.p.toNat).length)) ∧
     gives (.cid c ra 2) (k.setS ra (BitVec.ofNat 32 good.length))) ∧
  (∀ (s : State) (c : CoreId) (word : W32) (ra : BitVec 6), ready s.part s.dev c [ra] [] = true →
     (illegalWord word = true → Answers (.illegalEncoding c word) s fun t => Excepts s t c 0x01 (BitVec.ofNat 64 word.toNat)) ∧
     (∀ w, (decodeCore c w).isNone = illegalWord w) ∧
     decodeCore c 0xE0480000 = some (.lwait c 8) ∧ decodeCore c 0xB2250000 = some (.tdBase c 1 10) ∧
     decodeCore c 0xA1220180 = some (.mxMul c 1 256 true true) ∧ decodeCore c 0xA0080000 = some (.mxLdw c 2) ∧
     decodeCore c 0xA3620000 = some (.mxSt c 3 256 .rne .sat) ∧ decodeCore c 0xE0000001 = some (.fence c 1) ∧
     decodeCore c 0xD1400001 = some (.prtDbi c 4 1) ∧
     (∀ rd rs1 rs2 : BitVec 6, decodeCore c ((1 : BitVec 4) ++ rd ++ rs1 ++ rs2 ++ (0 : BitVec 10)) = some (.add c rd rs1 rs2)) ∧
     (∀ w, w.toNat / 2 ^ 28 = 0xF → illegalWord w = true) ∧ (∀ w, w.toNat / 2 ^ 28 = 1 → 0x12 < w.toNat % 64 → illegalWord w = true) ∧
     (∀ w, w.toNat / 2 ^ 28 = 0 → 7 < w.toNat / 2 ^ 22 % 64 → illegalWord w = true) ∧
     (Answers (.cid c ra 3) s fun t => ∃ w, Excepts s t c 0x01 w))

/-- R50, R53, R91 and R182: the writes of CORE.CTRL and what ends a reset or a program. START takes IDLE to RUN, HALT RUN or
WAIT to HALT with a wait left unretired, RESUME HALT to RUN, STEP arms one instruction in HALT; in any other state they do
nothing. RESET puts the core into RESET with its register files, queues, weight sets, lobbies and porter empty and every
register of its CORE, MXU, VEC, LOB and PRT blocks but the counters at its reset value, and keeps the pantry. Stated outside
an orderly stop, for a core that no party teardown holds. The model's choices: a program end waits for the two queues alone
(DEDUCED, log entry 20), and a core reset keeps the next ASEQ, the next packet tag, the rest counter and the snoop's offset
(DEDUCED, log entry 21). -/
def Obligations.CoreControl : Prop :=
  ∀ (s : State) (c : CoreId), s.dev.coreOpen s.part c = true → s.dev.stopStep = 0 → (s.k c).heldReset = false →
    let k := s.k c
    let goes := fun (i : Instr) (k' : CoreSt) => Answers i s fun t =>
      t.k c = k' ∧ CoreOnly s t c [] ∧ Fixed s t ∧ ∀ a, t.byte a = s.byte a
    goes (.coreStart c) (if k.st = .idle then { k with st := .run } else k) ∧
    goes (.coreHalt c) (if k.st = .run ∨ k.st = .wait then { k with st := .halt, wait := none, ending := false } else k) ∧
    goes (.coreResume c) (if k.st = .halt then { k with st := .run, step := false } else k) ∧
    goes (.coreStep c) (if k.st = .halt then { k with step := true } else k) ∧
    goes (.icInv c) (if k.st = .run ∨ k.st = .wait then k else { k with ic := [] }) ∧
    (s.dev.siteReady s.part c.site.toNat = true →
      goes (.coreResetComplete c) (if k.st = .reset then { k with st := .idle } else k)) ∧
    (s.dev.edgesHeld c = false → goes (.programEndIdle c)
      (if k.ending = true ∧ k.st = .run ∧ k.vq = [] ∧ k.mq = [] then { k with st := .idle, ending := false } else k)) ∧
    (Answers (.coreReset c) s fun t =>
      t.k c = { aseq := k.aseq, prtTag := k.prtTag, restCnt := k.restCnt, snoopOff := k.snoopOff, snoopHold := k.snoopHold } ∧
      (∀ e, e ≠ c → t.k e = s.k e) ∧
      (∀ a, t.reg a = if isCoreBlk c a = true ∧ isCounterAddr s.part a = false then resetWord s.part a else s.reg a) ∧
      t.dev.noRegs.noCores = s.dev.noRegs.noCores ∧ Fixed s t ∧ ∀ a, t.byte a = s.byte a)

/-- R56, R60 and R93: the fetch of the word at the program counter. With IC_EN 0 it comes from the pantry; otherwise from
the cache line of its address if that is held, and if not the line is filled first and the miss counted. A double-bit error
in the word of an uncached fetch, or in a word of the line filled with none in a word before it, raises exception 0x08 with the
address of that word; a single-bit error in the word is corrected, counted and recorded, and the fetch gets the word. The
address in EXC_INFO is that of the word (DEDUCED, log entry 19). -/
def Obligations.InstructionFetch : Prop :=
  ∀ (s : State) (c : CoreId), s.part.has c = true → (s.k c).canIssue = true → s.dev.edgesHeld c = false →
    (s.k c).pc.toNat % 4 = 0 →
    let k := s.k c
    let pc := k.pc.toNat
    let line := pc / 128
    let en := s.dev.bit s.part (coreR c 0x48) 0
    let fetches := fun (t : State) (k' : CoreSt) (w : Nat) (regs : List Nat) =>
      t.k c = { k' with fetched := some (k.pc, BitVec.ofNat 32 w) } ∧ CoreOnly s t c regs ∧ Fixed s t ∧ ∀ a, t.byte a = s.byte a
    (en = false → Clean s c pc 4 → Answers (.instructionFetch c) s fun t => fetches t k (s.le (pantryAt c pc) 4) []) ∧
    (∀ x, en = true → smGet none k.ic (line % 128) = some x → x.line.toNat = line →
      Answers (.instructionFetch c) s fun t => fetches t k (leNat ((x.data.drop (pc % 128)).take 4)) []) ∧
    (en = true → (∀ x, smGet none k.ic (line % 128) = some x → x.line.toNat ≠ line) → Clean s c (line * 128) 128 →
      Answers (.instructionFetch c) s fun t =>
        (∃ x : ICLine, x.line.toNat = line ∧ (∀ i, i < 128 → x.data[i]? = some (s.byte (pantryAt c (line * 128 + i)))) ∧
          fetches t { k with ic := smSet none k.ic (line % 128) (some x) } (s.le (pantryAt c pc) 4) [coreR c 0x118]) ∧
        t.reg (coreR c 0x118) = countUp (s.reg (coreR c 0x118)) 1) ∧
    let bad := fun (t : State) (w : Nat) => (t.k c).st = .fault ∧ (t.k c).pc = k.pc ∧ (t.k c).s = k.s ∧ (t.k c).ic = k.ic ∧
      t.reg (coreR c 0x18) = BitVec.ofNat 64 (0x08 + 2 ^ 8 + pc * 2 ^ 32) ∧ t.reg (coreR c 0x20) = BitVec.ofNat 64 w ∧
      t.field (coreR c 0x40) 0 22 = w ∧ t.dev.bit t.part (coreR c 0x40) 33 = true ∧ ∀ a, t.byte a = s.byte a
    (en = false → (s.dev.mark (pantryAt c (pc / 8 * 8))).getLsbD 1 = true → Answers (.instructionFetch c) s fun t =>
      bad t (pc / 8 * 8)) ∧
    (∀ i, i < 16 → en = true → (∀ x, smGet none k.ic (line % 128) = some x → x.line.toNat ≠ line) →
      (s.dev.mark (pantryAt c (line * 128 + 8 * i))).getLsbD 1 = true →
      (∀ j, j < i → (s.dev.mark (pantryAt c (line * 128 + 8 * j))).getLsbD 1 = false) → Answers (.instructionFetch c) s fun t =>
        bad t (line * 128 + 8 * i)) ∧
    (en = false → s.dev.mark (pantryAt c (pc / 8 * 8)) = 1 → Answers (.instructionFetch c) s fun t =>
      t.k c = { k with fetched := some (k.pc, BitVec.ofNat 32 (s.le (pantryAt c pc) 4)) } ∧
      t.dev.mark (pantryAt c (pc / 8 * 8)) = 0 ∧ t.reg (coreR c 0x128) = countUp (s.reg (coreR c 0x128)) 1 ∧
      t.field (coreR c 0x40) 0 22 = pc / 8 * 8 ∧ t.dev.bit t.part (coreR c 0x40) 32 = true ∧ ∀ a, t.byte a = s.byte a)

/-- R86, R90, R96 and R148: PRT.DB and PRT.DBI move the tail of an enabled queue modulo 2^16, and QTAIL is written to it
directly; a tail more than 2^LOG2SIZE ahead of the head puts the queue into ERROR with cause 2 and the first excess index; a
doorbell to a queue whose EN is 0 raises exception 0x09; PRT.HEAD reads the head; writing EN to 1 clears the error and
writing it to 0 enables nothing further. Exception 0x01 for PRT.DBI with imm8 0 is the model's reading (DEDUCED, log entry
96). -/
def Obligations.PorterQueues : Prop :=
  ∀ (s : State) (c : CoreId) (q : BitVec 4) (ra rd : BitVec 6) (imm : BitVec 8) (tail : BitVec 16),
    ready s.part s.dev c [ra, rd] [] = true → s.dev.coreOpen s.part c = true →
    let n := q.toNat
    let en := s.dev.qEn s.part c n
    let head := s.dev.qHead s.part c n
    let size := 2 ^ s.dev.qLog2 s.part c n
    let regs := [prtReg c n 0x10, prtReg c n 0x18]
    let moved := fun (t : State) (v : BitVec 16) => t.dev.qTail t.part c n = v ∧
      (en = true → size < (v - head).toNat → s.dev.qCause s.part c n = 0 →
        t.dev.qCause t.part c n = 2 ∧ t.dev.qErrIndex t.part c n = head + BitVec.ofNat 16 size) ∧
      ((v - head).toNat ≤ size → t.reg (prtReg c n 0x18) = s.reg (prtReg c n 0x18))
    let rings := fun (i : Instr) (by' : BitVec 16) => Answers i s fun t =>
      (en = true → RetiresWith s t c (s.k c) regs ∧ moved t (s.dev.qTail s.part c n + by')) ∧
      (en = false → Excepts s t c 0x09 (BitVec.ofNat 64 n))
    rings (.prtDb c q ra) (BitVec.ofNat 16 ((s.k c).getS ra).toNat) ∧
    (imm ≠ 0 → rings (.prtDbi c q imm) (BitVec.ofNat 16 imm.toNat)) ∧
    (Answers (.prtDbi c q 0) s fun t => ∃ w, Excepts s t c 0x01 w) ∧
    (Answers (.prtHead c q rd) s fun t => Retires s t c ((s.k c).setS rd (BitVec.ofNat 32 head.toNat))) ∧
    (Answers (.qtailWrite c q tail) s fun t => moved t tail ∧ Still s t ∧ RegsOnly s t regs) ∧
    (en = false → (s.dev.qTail s.part c n - head).toNat ≤ size → Answers (.qcfgEn c q true) s fun t =>
      t.dev.qEn t.part c n = true ∧ t.dev.qCause t.part c n = 0 ∧ t.dev.qErrIndex t.part c n = 0 ∧
      t.field (prtReg c n 0) 1 63 = s.field (prtReg c n 0) 1 63 ∧ Still s t ∧ RegsOnly s t [prtReg c n 0, prtReg c n 0x18]) ∧
    (en = true → (∀ x ∈ s.dev.descs c n, x.phase ≠ .waitLedger) → Answers (.qcfgEn c q false) s fun t =>
      t.dev.qEn t.part c n = false ∧ t.field (prtReg c n 0) 1 63 = s.field (prtReg c n 0) 1 63 ∧
      t.dev.qHead t.part c n = (if s.dev.qCause s.part c n ∈ [1, 3, 4] ∧ head = s.dev.qErrIndex s.part c n then head + 1 else head) ∧
      Still s t ∧ RegsOnly s t [prtReg c n 0, prtReg c n 8])

/-- R500: in step 3 of an orderly stop no descriptor starts.
R81 to R87: the start of the descriptor at the head of an idle, enabled queue whose 32 bytes carry no error. COPY, FILL
and PUSH become active and the head advances; WAIT waits for the ledger and completes once the count reaches SRC; a malformed
descriptor puts the queue into ERROR with cause 1 and its index, and NOP and a malformed descriptor complete at once.
R82, R84 and R87: a WAIT descriptor whose count has been reached completes; with CPL its 16-byte completion record, with
TAG, STATUS 0, PHASE, DONE 0 and the ledger count, stands at its place in the completion ring, and no other byte changes. -/
def Obligations.DescriptorStart : Prop :=
  (∀ (s : State) (c : CoreId) (q : BitVec 4), s.dev.stopStep = 3 → Answers (.descriptorStart c q) s fun t => t = s) ∧
  (∀ (s : State) (c : CoreId) (q : BitVec 4), s.part.has c = true → (s.k c).st ≠ .fenced → s.dev.edgesHeld c = false → s.dev.stopStep ≠ 3 →
     let n := q.toNat
     let i := s.dev.qHead s.part c n
     let at' := (s.dev.qDbase s.part c n + 32 * (i.toNat % 2 ^ s.dev.qLog2 s.part c n)) % 0x400000
     let w := fun j => BitVec.ofNat 64 (s.le (pantryAt c (at' + 8 * j)) 8)
     let x : Desc := { idx := i, w0 := w 0, w1 := w 1, w2 := w 2, w3 := w 3 }
     s.dev.qEn s.part c n = true → s.dev.qCause s.part c n = 0 → i ≠ s.dev.qTail s.part c n → s.dev.descs c n = [] →
     (s.k c).activeDescs < 8 → Clean s c at' 32 →
     let starts := fun (y : Desc) => Answers (.descriptorStart c q) s fun t =>
       t.dev.descs c n = [y] ∧ t.dev.qHead t.part c n = i + 1 ∧ (t.k c).pc = (s.k c).pc ∧ (t.k c).s = (s.k c).s ∧
       (∀ m, m ≠ n → t.dev.descs c m = s.dev.descs c m) ∧ StillBut s t c ∧ (∀ a, a ≠ prtReg c n 8 → t.reg a = s.reg a)
     let counts := fun (t : State) => t.dev.descs c n = [] ∧ t.reg (prtR c 0x10) = countUp (s.reg (prtR c 0x10)) 1 ∧
       (∀ m, m ≠ n → t.dev.descs c m = s.dev.descs c m) ∧ ∀ e, e ≠ c → t.k e = s.k e
     (x.malformed = false → 1 ≤ x.op → x.op ≤ 3 → starts x) ∧
     (x.malformed = false → x.op = 4 → starts { x with phase := .waitLedger }) ∧
     (x.malformed = false → x.op = 0 → x.cpl = false → Answers (.descriptorStart c q) s fun t =>
       counts t ∧ t.dev.qHead t.part c n = i + 1 ∧ (∀ a, t.byte a = s.byte a) ∧ RegsKept s t [prtReg c n 8, prtR c 0x10]) ∧
     (x.malformed = true → Answers (.descriptorStart c q) s fun t =>
       counts t ∧ t.dev.qHead t.part c n = i ∧ t.dev.qCause t.part c n = 1 ∧ t.dev.qErrIndex t.part c n = i ∧
       t.reg (prtR c 0x20) = countUp (s.reg (prtR c 0x20)) 1 ∧
       t.reg (fltR c.site.toNat 0x40) = countUp (s.reg (fltR c.site.toNat 0x40)) 1)) ∧
  (∀ (s : State) (c : CoreId) (q : BitVec 4) (x : Desc), s.dev.edgesHeld c = false → s.dev.descs c q.toNat = [x] →
     x.phase = .waitLedger → x.op = 4 → x.status = 0 → x.errAt = none → (s.dev.snoop c - x.w1).toNat < 2 ^ 63 →
     s.dev.injBits c.site.toNat 1 c.p.toNat = 0 →
     let n := q.toNat
     let lg := s.dev.qLog2 s.part c n
     let a := pantryAt c ((s.dev.qCbase s.part c n + 16 * (x.idx.toNat % 2 ^ lg)) % 0x400000)
     Answers (.porterWaitReached c q) s fun t =>
       t.dev.descs c n = [] ∧ (∀ m, m ≠ n → t.dev.descs c m = s.dev.descs c m) ∧ (∀ e, e ≠ c → t.k e = s.k e) ∧
       (t.k c).pc = (s.k c).pc ∧ (t.k c).s = (s.k c).s ∧ t.reg (prtR c 0x10) = countUp (s.reg (prtR c 0x10)) 1 ∧
       (∀ r, r ≠ prtR c 0x10 → t.reg r = s.reg r) ∧ Fixed s t ∧
       (if x.cpl then MemKept s t a 16 ∧
           t.le a 8 = x.tag + (if x.idx.toNat / 2 ^ lg % 2 = 0 then 2 ^ 24 else 0) ∧ t.le (a + 8) 8 = (s.dev.snoop c).toNat
         else ∀ b, t.byte b = s.byte b))

/-- R79, R80, R82, R85, R162 and R167: the porter issues one packet of the queue it serves. A FILL to the core's own pantry
writes the pattern over the chunk; a FILL to another place sends it as a BULK WRITE; a PUSH from the own pantry sends the
header and up to three lines of its next tile as one PUSH packet. A refused tile whose 64 ticks have passed is sent again
from its header. Each takes the next packet tag. -/
def Obligations.PorterPackets : Prop :=
  ∀ (s : State) (c : CoreId) (q : BitVec 4) (x : Desc), s.dev.edgesHeld c = false →
    let n := q.toNat
    let sends := fun (t : State) (a : W64) (r : Req) => r.src = s.dev.coreSrc c ∧ r.addr = a ∧ r.tag = (s.k c).prtTag ∧
      r.bulk = true ∧ r.chan = x.w0.extractLsb' 8 8 ∧ r.ord = x.w0.getLsbD 6 ∧ t.dev.net = (s.dev.sendReq s.part r).net ∧
      (t.k c).prtTag = (s.k c).prtTag + 1 ∧ (∀ e, e ≠ c → t.k e = s.k e) ∧ Fixed s t ∧ ∀ b, t.byte b = s.byte b
    let tile := fun (off : Nat) (r : Req) => ∃ h lines, r.op = .push (h.extractLsb' 0 16) 0 (some h) lines ∧
      h.toNat = s.le (pantryAt c off) 16 ∧ lines.length = min 3 x.lineN ∧
      ∀ i j b, (lines[i]?.bind fun y => y[j]?) = some b → b = s.byte (pantryAt c (off + 16 + 128 * i + j))
    let own := fun (a : W64) => s.dev.ownPantry s.part c a
    let size := x.chunk (s.dev.srcOwn s.part c x x.issued) x.issued
    s.dev.descs c n = [x] → x.errAt = none →
    (s.dev.served s.part s.mem c = some n → s.dev.worker s.part s.mem c n = some x → x.phase = .active → x.buf = [] →
      x.op = 2 → x.w2.toNat % 16 = 0 → x.total % 16 = 0 → x.issued % 16 = 0 → x.pkts = [] →
      (∀ off, own (x.dstAt x.issued) = some off → x.issued + size < x.total →
        s.dev.injBits c.site.toNat 1 c.p.toNat = 0 → Answers (.porterPacketIssue c q) s fun t =>
          (∀ j, j < size → t.byte (pantryAt c (off + j)) = BitVec.ofNat 8 (x.w1.toNat / 256 ^ (j % 8))) ∧
          MemKept s t (pantryAt c off) size ∧ (t.dev.descs c n).map Desc.issued = [x.issued + size] ∧
          (∀ e, e ≠ c → t.k e = s.k e) ∧ Fixed s t) ∧
      (own (x.dstAt x.issued) = none → Answers (.porterPacketIssue c q) s fun t => ∃ r bs, sends t (x.dstAt x.issued) r ∧
        r.op = .write bs ∧ bs.length = size ∧
        ∀ j b, bs[j]? = some b → b = BitVec.ofNat 8 (x.w1.toNat / 256 ^ (j % 8)))) ∧
    (∀ off, s.dev.served s.part s.mem c = some n → s.dev.worker s.part s.mem c n = some x → x.phase = .active → x.op = 3 →
      x.half = none → x.retry = [] → own (x.srcAt (x.tiles * x.tileBytes)) = some off → Clean s c off x.tileBytes →
      Answers (.porterPacketIssue c q) s fun t => ∃ r, sends t x.w2 r ∧ tile off r ∧
        (t.dev.descs c n).map Desc.tiles = [x.tiles + 1]) ∧
    (∀ y off, x.retry = [y] → y.sent = false → (s.dev.snoop c - y.at').toNat < 2 ^ 63 → s.dev.offDie s.part c x.w2 = false →
      x.op = 3 → x.lineN ≤ 3 → own (x.srcAt (y.tile * x.tileBytes)) = some off → Clean s c off x.tileBytes →
      Answers (.pushRetry c q) s fun t => ∃ r, sends t x.w2 r ∧ tile off r ∧
        (t.dev.descs c n).map Desc.retry = [[{ y with tries := y.tries + 1, sent := true }]])

/-- R149, R150, R410, R411 and R413: PRT.ATOM of a block without ECC errors writes its DONE byte 0, numbers the atomic with
the core's next ASEQ and sends its operands; an attempt without a final answer is sent again 12,000 ticks after its send with
ATTEMPT one higher, at most three times; an answer with a final status of OK writes RESULT, STATUS 0x80 and DONE 1 into the
block and ends the atomic (R88, R399). That each attempt takes a packet tag of its own is the model's choice (DEDUCED, log entry
105). -/
def Obligations.PorterAtomics : Prop :=
  ∀ (s : State) (c : CoreId) (ra : BitVec 6) (op : BitVec 4), s.dev.injBits c.site.toNat 1 c.p.toNat = 0 →
    let k := s.k c
    let a := (k.getS ra).toNat
    let m := pantryAt c a
    let addr := BitVec.ofNat 64 (s.le m 8)
    let sent := fun (t : State) (x : Atom) => t.dev.net = (s.dev.sendReq s.part
      { src := s.dev.coreSrc c, addr := x.addr, tag := x.tag, op := .atomic x.op x.a x.b x.attempt x.aseq }).net
    (ready s.part s.dev c [ra] [] = true → op.toNat < 6 → a + 63 ≤ 0x3FFFFF → a % 64 = 0 → k.atoms = [] → Clean s c a 64 →
      addr.toNat % (if op = 5 then 16 else 8) = 0 → Answers (.prtAtom c ra op) s fun t =>
        let x : Atom := { block := BitVec.ofNat 22 a, aseq := k.aseq, tag := k.prtTag, op := op, addr := addr,
                          a := BitVec.ofNat 128 (s.le (m + 8) 16), b := BitVec.ofNat 128 (s.le (m + 24) 16),
                          attempt := 0, sentT := s.dev.snoop c, bad := [] }
        (t.k c).atoms = [x] ∧ sent t x ∧ (t.k c).aseq = k.aseq + 1 ∧ (t.k c).pc = k.pc + 4 ∧ (t.k c).s = k.s ∧
        t.byte (m + 57) = 0 ∧ MemKept s t (m + 57) 1 ∧ (∀ e, e ≠ c → t.k e = s.k e) ∧
        (∀ r, r ≠ coreR c 0x108 → t.reg r = s.reg r) ∧ Fixed s t) ∧
    (ready s.part s.dev c [ra] [] = true → 6 ≤ op.toNat → Answers (.prtAtom c ra op) s fun t => ∃ w, Excepts s t c 0x01 w) ∧
    (ready s.part s.dev c [ra] [] = true → op.toNat < 6 → a + 63 ≤ 0x3FFFFF → a % 64 ≠ 0 →
      Answers (.prtAtom c ra op) s fun t => Excepts s t c 0x03 (BitVec.ofNat 64 a)) ∧
    (∀ x : Atom, s.dev.edgesHeld c = false → k.atoms = [x] → x.attempt ≠ 3 →
      (s.dev.snoop c - (x.sentT + 12000)).toNat < 2 ^ 63 → Answers (.atomicRetry c x.aseq) s fun t =>
        let y := { x with attempt := x.attempt + 1, sentT := s.dev.snoop c, tag := k.prtTag, oldTags := x.oldTags ++ [x.tag] }
        (t.k c).atoms = [y] ∧ sent t y ∧ (t.k c).prtTag = k.prtTag + 1 ∧ StillBut s t c ∧ ∀ r, t.reg r = s.reg r) ∧
    (∀ (x : Atom) (r : Resp), s.dev.edgesHeld c = false → k.atoms = [x] → r.dst = s.dev.coreSrc c → r.tag = x.tag → r.status = 0 → x.op = 5 →
      r.data.length = 16 → x.block.toNat % 64 = 0 → Clean s c x.block.toNat 64 →
      (∀ y ∈ s.dev.net, (∃ z : Resp, y = .resp z ∧ z.dst = r.dst ∧ z.tag = r.tag) → y = .resp r) → Msg.resp r ∈ s.dev.net →
      s.dev.respWaits r = false →
      Answers (.atomicResult c x.tag) s fun t =>
        let b := pantryAt c x.block.toNat
        (t.k c).atoms = [] ∧ (∀ i, i < 16 → r.data[i]? = some (t.byte (b + 40 + i))) ∧ t.byte (b + 56) = 0x80 ∧
        t.byte (b + 57) = 1 ∧ (∀ z, (z < b + 40 ∨ b + 58 ≤ z) → t.byte z = s.byte z) ∧ t.dev.net = s.dev.net.erase (.resp r) ∧
        (∀ e, e ≠ c → t.k e = s.k e) ∧ (∀ z, t.reg z = s.reg z) ∧ Fixed s t)

/-- What step is: the command at the front of the queue is carried out with the queue's rest; with an empty queue the block
idles (the model's choice, log entry 1). -/
def Obligations.StepRunsFront : Prop :=
  ∀ (s : State) (i : Instr) (q : List Instr),
    (s.pending = i :: q → step s = exec i { s with pending := q }) ∧ (s.pending = [] → step s = .next s)

/-- Every step of a state whose memory is in its canonical form, and whose part has the good cores of its grade (R2), answers a
next state whose memory is in that form again, with the part as it was made and the rest of the queue still waiting. -/
def Obligations.StepsStaySound : Prop :=
  ∀ s : State, s.sound → ∃ t, step s = .next t ∧ t.sound ∧ t.part = s.part ∧ t.pending = s.pending.tail

/-- The state after cold reset: sound memory with nothing in it but the byte an unlisted address reads as (log entry 2), no
command waiting, every core in RESET with EN of its queues 0 and CORE.SRLFSR at its reset value, the ledger at 0, read
combining on, no barrier member, no fence, and every counter 0: every SAT field of every register (R15, R92). The GOOD mask of
all ones is that of the part the model takes (DESIGN CHOICE, log entry 3). -/
def Obligations.ResetState : Prop :=
  let s := State.reset
  s.sound ∧ s.pending = [] ∧ (∀ a, s.byte a = 0) ∧ s.dev.now = 0 ∧
  (∀ c : CoreId, (s.k c).st = .reset ∧ (s.k c).pc = 0 ∧ (∀ r, (s.k c).getS r = 0) ∧ s.reg (coreR c 0x38) = 1 ∧
    ∀ q : BitVec 4, s.dev.qEn s.part c q.toNat = false) ∧
  (∀ a fs, regFields s.part a = some fs → ∀ f ∈ fs, f.acc = .sat → s.field a f.lo (f.hi + 1 - f.lo) = 0) ∧
  (∀ w b : BitVec 4, s.reg (meshR w.toNat 0x10) = 0 ∧ s.reg (meshR w.toNat 8) = 0xFFFFFFFFFFFFFFFF ∧
    s.reg (cmnR w.toNat 0) = 1 ∧ s.reg (barReg w.toNat b.toNat 0) = 0 ∧ s.reg (barReg w.toNat b.toNat 8) = 0 ∧
    s.reg (barReg w.toNat b.toNat 0x10) = 0)

/-- R92: the counters of a core's CORE, MXU, VEC and PRT blocks. COUNT and OVF are 0 at reset; COUNT advances with each event and
holds at all ones, and OVF is set by an event that brings COUNT there or meets it there; a write of either half or of both sets
COUNT to zero whatever its value, and OVF is cleared by writing 1 to it and by nothing else. -/
def Obligations.CounterLayout : Prop :=
  (∀ w : W64, bits (countUp w 1) 0 48 = min (2 ^ 48 - 1) (bits w 0 48 + 1) ∧
    ((countUp w 1).getLsbD 63 = true ↔ w.getLsbD 63 = true ∨ 2 ^ 48 - 2 ≤ bits w 0 48)) ∧
  (∀ (c : CoreId), ∀ a ∈ (List.range 6).map (fun i => coreR c (0x100 + 8 * i)) ++ (List.range 4).map (fun i => mxuR c (0x100 + 8 * i)) ++
      [vecR c 0x100, vecR c 0x108] ++ (List.range 3).map (fun i => prtR c (0x10 + 8 * i)),
    State.reset.reg a = 0 ∧
    ∀ (s : State) (v : W64) (lower upper : Bool), s.dev.dead = false → s.dev.refusedAtSender s.part (.ctl a) = none →
      (s.k c).st ≠ .fenced → (lower = true ∨ upper = true) → Answers (.registerWrite (BitVec.ofNat 40 a) v lower upper) s fun t =>
        t.field a 0 48 = 0 ∧ (t.reg a).getLsbD 63 = ((s.reg a).getLsbD 63 && !(upper && v.getLsbD 63)) ∧
        Still s t ∧ RegsOnly s t [a])

/-- R209 to R212 and R214: BAR, EXT_ARRIVE and the writes of a barrier's MASK and CFG. A BAR on a barrier without members or
external arrivals retires at once; the last arrival completes the generation, which advances GEN, clears ARRIVED, takes EXT
from EXTCNT and lets every waiting core retire; an earlier arrival is recorded and waits. EXT_ARRIVE adds to EXTCNT, which
holds at 0xFFFF. A write of MASK or CFG.EXT is ignored with a Notice while a core waits on the barrier; otherwise it clears
ARRIVED, EXTCNT and LOST and advances EPOCH. Completions are stated where no waiting core's clock is withheld. What a barrier
with an empty MASK does is the model's choice (DEDUCED, log entry 23). -/
def Obligations.Barriers : Prop :=
  ∀ (s : State) (w b : BitVec 4),
    let n := w.toNat
    let m := b.toNat
    let mask := s.dev.barMask s.part n m
    let ext := s.dev.barExt s.part n m
    let cnt := s.dev.barExtCnt s.part n m
    let arr := s.dev.barArr n m
    let lost := s.dev.barLost s.part n m
    let stat := barReg n m 0x10
    let waits := fun (e : CoreId) => e.site = w ∧ (s.k e).onBar m = true
    let free := ∀ e, waits e → s.dev.edgesHeld e = false
    let done := fun (t : State) (left : Nat) (also : List Nat) => t.field stat 0 32 = (s.field stat 0 32 + 1) % 2 ^ 32 ∧ t.field stat 32 7 = 0 ∧
      t.field stat 40 8 = s.field stat 40 8 ∧ t.field stat 48 16 = left ∧ t.dev.barArr n m = 0 ∧
      (∀ e, waits e → (t.k e).st = .run ∧ (t.k e).wait = none ∧ (t.k e).pc = (s.k e).pc + 4 ∧ smGet none (t.k e).bars m = none ∧
        (t.k e).s = (s.k e).s ∧ t.reg (coreR e 0x108) = countUp (s.reg (coreR e 0x108)) 1) ∧
      (∀ a, a ∉ stat :: also → (∀ e, waits e → a ≠ coreR e 0x108) → t.reg a = s.reg a) ∧
      (∀ a, t.byte a = s.byte a) ∧ Fixed s t
    (∀ c : CoreId, c.site = w → ready s.part s.dev c [] [] = true →
      let k := s.k c
      let here := arr ||| BitVec.ofNat 64 (2 ^ c.p.toNat)
      (mask = 0 → ext = 0 → Answers (.bar c b) s fun t => Retires s t c { k with bars := smSet none k.bars m none }) ∧
      (mask.getLsbD c.p.toNat = true → smGet none k.bars m = none →
        (mask &&& ~~~here = 0 → ext ≤ cnt → lost = false → free → Answers (.bar c b) s fun t => done t (cnt - ext) [coreR c 0x108] ∧
          t.reg (coreR c 0x108) = countUp (s.reg (coreR c 0x108)) 1 ∧ (t.k c).pc = k.pc + 4 ∧ (t.k c).st = k.st ∧ smGet none (t.k c).bars m = none ∧
          (∀ e, e ≠ c → ¬waits e → t.k e = s.k e)) ∧
        (mask &&& ~~~here ≠ 0 ∨ cnt < ext ∨ lost = true → k.st = .run → s.dev.stopStep = 0 → Answers (.bar c b) s fun t =>
          t.k c = { k with step := false, st := .wait, wait := some (.bar b),
                           bars := smSet none k.bars m (some (s.dev.barEpoch s.part n m, s.dev.barGen s.part n m)) } ∧
          t.dev.barArr n m = here ∧ t.field stat 32 7 = popCount here ∧ t.field stat 0 32 = s.field stat 0 32 ∧
          t.field stat 48 16 = cnt ∧ (∀ a, a ≠ stat → t.reg a = s.reg a) ∧ StillBut s t c))) ∧
    (∀ add : BitVec 16, let sum := min 0xFFFF (cnt + add.toNat)
      (mask &&& ~~~arr ≠ 0 ∨ sum < ext ∨ lost = true ∨ (mask = 0 ∧ ext = 0) → Answers (.extArrive w b add) s fun t =>
        t.field stat 48 16 = sum ∧ t.field stat 0 48 = s.field stat 0 48 ∧ Still s t ∧ RegsOnly s t [stat]) ∧
      (mask ≠ 0 → mask &&& ~~~arr = 0 → ext ≤ sum → lost = false → free → Answers (.extArrive w b add) s fun t =>
        done t (sum - ext) [] ∧ ∀ e, ¬waits e → t.k e = s.k e)) ∧
    (∀ (x : BarWrite) (v : W64) (ext' : BitVec 16) (clear : Bool), (x = .mask v ∨ x = .cfg ext' clear) →
      ((∀ e : CoreId, e.site = w → (s.k e).waitsBar m = false) → Answers (.barMaskWrite w b x) s fun t =>
        t.reg (barReg n m 0) = (if x = .mask v then v else mask) ∧
        t.field (barReg n m 8) 0 16 = (if x = .mask v then ext else ext'.toNat) ∧ t.dev.barLost t.part n m = false ∧
        t.field stat 32 7 = 0 ∧ t.dev.barArr n m = 0 ∧ t.field stat 48 16 = 0 ∧ t.field stat 0 32 = s.field stat 0 32 ∧
        t.field stat 40 8 = (s.field stat 40 8 + 1) % 2 ^ 8 ∧ Still s t ∧
        ∀ a, a ∉ [barReg n m 0, barReg n m 8, stat] → t.reg a = s.reg a) ∧
      ((∃ e : CoreId, e.site = w ∧ (s.k e).waitsBar m = true) → Answers (.barMaskWrite w b x) s fun t => Raised s t n []))

/-- R205, R207 and R215 to R220: fencing a core. A request for a live core waits its turn with its cause, and one for another core
only raises a Notice. A fence takes up the oldest request: the core, and every live core it cuts off from the die controller,
read FENCED and are in the FENCED mask, and the route tables are computed over the rest unless a control router of theirs
still holds a message, which the end of the fence waits for; FENCE_STAT shows BUSY, the core and the cause; every barrier with one of them as a
member has LOST. At its end BUSY is clear, DONE_T holds the count, NFENCED has grown, and a Degraded fault stands for each
core, a Party-fatal one for each that was in RUN, WAIT, HALT or FAULT and for each barrier. That NFENCED grows at the end and
not at the start is the model's choice (DEDUCED, log entry 27). -/
def Obligations.Fences : Prop :=
  ∀ (s : State) (w : BitVec 4) (core : BitVec 6),
    let n := w.toNat
    let live := s.dev.liveMask s.part n
    let stat := meshR n 0x20
    let asks := fun (i : Instr) (cause : BitVec 4) =>
      (live.getLsbD core.toNat = true → Answers i s fun t => t.dev.fenceWait n = s.dev.fenceWait n ++ [(core, cause)] ∧
        (∀ a, t.reg a = s.reg a) ∧ t.dev = { s.dev with fenceQ := t.dev.fenceQ } ∧ Still s t) ∧
      (live.getLsbD core.toNat = false → Answers i s fun t => Raised s t n [])
    asks (.fenceReq w core true) 1 ∧ asks (.regionSupplyFault w core) 3 ∧
    (Answers (.fenceReq w core false) s fun t => t = s) ∧
    (∀ (cause : BitVec 4) (rest : List (BitVec 6 × BitVec 4)), s.dev.fenceOf n = none →
      s.dev.fenceWait n = (core, cause) :: rest → live.getLsbD core.toNat = true → Answers (.fenceStart w) s fun t =>
        let gone := (1#64 <<< core.toNat) ||| cutOff (live &&& ~~~(1#64 <<< core.toNat))
        t.reg (meshR n 0x10) = s.reg (meshR n 0x10) ||| gone ∧ t.dev.fenceWait n = rest ∧
        t.dev.routeMask n = (if s.dev.ctlHeld.any fun y => y.die == w && gone.getLsbD y.at'.toNat then s.dev.routeMask n
          else live &&& ~~~gone) ∧ t.field stat 0 1 = 1 ∧ t.field stat 8 6 = core.toNat ∧ t.field stat 16 4 = cause.toNat ∧
        (∀ e : CoreId, e.site = w → gone.getLsbD e.p.toNat = true → (t.k e).st = .fenced ∧ (t.k e).vq = [] ∧ (t.k e).mq = []) ∧
        (∀ e : CoreId, e.site ≠ w ∨ gone.getLsbD e.p.toNat = false → t.k e = s.k e) ∧
        (∀ b : BitVec 4, t.dev.barLost t.part n b.toNat =
          (s.dev.barLost s.part n b.toNat || s.dev.barMask s.part n b.toNat &&& gone != 0)) ∧
        (∀ a, ctlSite a ≠ n → t.reg a = s.reg a) ∧ (∀ a, t.byte a = s.byte a) ∧ Fixed s t) ∧
    (s.dev.undrained n = true → Answers (.fenceComplete w) s fun t => t = s) ∧
    (∀ f : Fence, s.dev.fenceOf n = some f → s.dev.undrained n = false → Answers (.fenceComplete w) s fun t =>
      let src := fun (u : BitVec 6) => mkSrc s.dev.node (w.zeroExtend 5) u
      t.dev.fenceOf n = none ∧ t.field stat 0 1 = 0 ∧ t.field stat 32 32 = (s.dev.dieCount n).toNat % 2 ^ 32 ∧
      t.field (meshR n 0) 8 7 = (s.field (meshR n 0) 8 7 + f.cores.length) % 2 ^ 7 ∧
      (∃ rs, t.dev.records = s.dev.records ++ rs ∧ (rs.map fun r => (r.cls, r.code, r.source, r.ctx0)) =
        (f.cores.flatMap fun x => (2#3, 0x0204#16, src x.1, x.2.1.zeroExtend 64) ::
          (if x.2.2 ∈ [.run, .wait, .halt, .fault] then [(3#3, 0x0205#16, src x.1, x.2.1.zeroExtend 64)] else [])) ++
        f.bars.map fun b => (3#3, 0x0206#16, src 0, b.zeroExtend 64)) ∧ RegsKept s t [stat, meshR n 0] ∧ Still s t)

/-- R188 to R193, R199 to R202, R204, R206 to R208, R217, R221, R456 and R457: a router of the die mesh forwards a packet it
holds one hop, first along x and then along y, or over the direct link that joins two adjacent cores, and counts its flits
and the link errors it corrects; a router that does not hold the packet does nothing; a packet with an uncorrectable error
is discarded and its requester gets PATH_ERROR; a response to a fenced core is discarded at its router. The seam that a hop
crosses keeps its highest occupancy and counts the cycles for which it held the sender; a multicast packet counts its flits
once for all its branches that share the hop. The end of a combining window closes
that line's entry, and COMBINE_EN written to 0 closes every entry of the die. A control message of a class enters a live
router with the flits of its class and takes its next router from the tables there, one of class 2 as the oldest record that its
core has raised and not sent; a router forwards what it holds to that router, none while it holds one of a higher class; one
whose next router has been fenced stays, with a new route; one that it delivers to the die controller counts, and a record goes
on to K0. The model's choices: the order of routes of one length (DESIGN CHOICE, log entry 82), the edge router of another
site's traffic (DEDUCED, log entry 83), and what becomes of a message for a fenced core (DESIGN CHOICE, log entry 101). -/
def Obligations.MeshAndCombining : Prop :=
  ∀ (s : State) (w bank : BitVec 4) (pos : BitVec 6) (direct : Bool) (flits : BitVec 8) (m : Msg) (u : SeamUse),
    let n := w.toNat
    let cnt := meshR n (if direct then 0x48 else 0x40)
    let to' := s.dev.hopTo s.part w pos direct m
    let seam := seamOf pos to'
    let at' := fun (i : Nat) => seamR n i
    -- the registers of the seam the packet crosses, and what they show then
    let seamRegs := match seam with | none => [] | some i => [at' i 0, at' i 8]
    let crossed := fun (t : State) => ∀ i, seam = some i →
      t.field (at' i 0) 8 4 = max (s.field (at' i 0) 8 4) u.occ.val ∧ t.field (at' i 0) 0 1 = s.field (at' i 0) 0 1 ∧
      t.reg (at' i 8) = countUp (s.reg (at' i 8)) u.held.toNat
    let next := s.dev.hopNext s.part w pos direct m
    let moved := fun (t : State) => ∀ h, h ∈ t.dev.hops ↔ (h ∈ s.dev.hops ∧ ¬(h.1 = w ∧ h.2.1 = m)) ∨ h = (w, m, next)
    let onlyRegs := fun (t : State) (l : List Nat) => (∀ a, a ∉ l → t.reg a = s.reg a) ∧
      { t.dev.noRegs with hops := [], combine := [] } = { s.dev.noRegs with hops := [], combine := [] }
    ((s.dev.held n pos.toNat = true ∨ s.dev.meshReady s.part w pos direct m = false) →
      ∀ e, Answers (.meshPacket w pos direct flits m e u) s fun t => t = s) ∧
    (s.dev.held n pos.toNat = false → s.dev.injBits n 3 pos.toNat = 0 → s.dev.meshReady s.part w pos direct m = true →
      (direct = false → (∀ x ∈ s.dev.movesWith s.part w pos m, ∀ c, respCore s.dev w x = some c → ¬(c.p = pos ∧ (s.k c).st = .fenced)) →
        Answers (.meshPacket w pos direct flits m .none u) s fun t => crossed t ∧ t.reg cnt = countUp (s.reg cnt) flits.toNat ∧
          (∀ h, h ∈ t.dev.hops ↔ (h ∈ s.dev.hops ∧ ¬(h.1 = w ∧ h.2.1 ∈ s.dev.movesWith s.part w pos m)) ∨
            ∃ x ∈ s.dev.movesWith s.part w pos m, h = (w, x, next)) ∧ onlyRegs t (cnt :: seamRegs) ∧ Still s t) ∧
      ((∀ g ∈ s.dev.mcast, m ∉ g) → (∀ c, respCore s.dev w m = some c → ¬(c.p = pos ∧ (s.k c).st = .fenced)) →
        (Answers (.meshPacket w pos direct flits m .none u) s fun t => crossed t ∧ moved t ∧
          t.reg cnt = countUp (s.reg cnt) flits.toNat ∧ onlyRegs t (cnt :: seamRegs) ∧ Still s t) ∧
        (Answers (.meshPacket w pos direct flits m .corrected u) s fun t => crossed t ∧ moved t ∧
          t.reg cnt = countUp (s.reg cnt) flits.toNat ∧ t.reg (meshR n 0x50) = countUp (s.reg (meshR n 0x50)) 1 ∧
          onlyRegs t (cnt :: meshR n 0x50 :: seamRegs) ∧ Still s t)) ∧
      (∀ r, m = .req r → m ∈ s.dev.net → (∀ g ∈ s.dev.mcast, m ∉ g) → Answers (.meshPacket w pos direct flits m .uncorrectable u) s fun t => crossed t ∧
        t.dev.net = s.dev.net.erase m ++
          [.resp { dst := r.src, tag := r.tag, status := stPathError, from' := w.zeroExtend 5, node := gaNode r.addr
                   origin := some (pos, false) }] ∧
        (∀ h, h ∈ t.dev.hops ↔ h ∈ s.dev.hops ∧ h.2.1 ≠ m) ∧
        t.reg cnt = countUp (s.reg cnt) flits.toNat ∧ t.reg (fltR n 0x40) = countUp (s.reg (fltR n 0x40)) 1 ∧
        RegsKept s t (cnt :: seamRegs) ∧ Still s t) ∧
      (∀ x : Resp, m = .resp x → m ∈ s.dev.net → x.dst = s.dev.coreSrc ⟨w, pos⟩ → (s.k ⟨w, pos⟩).st = .fenced →
        (∀ g ∈ s.dev.mcast, m ∉ g) →
        Answers (.meshPacket w pos direct flits m .none u) s fun t => crossed t ∧ t.dev.net = s.dev.net.erase m ∧
          (∀ h, h ∈ t.dev.hops ↔ h ∈ s.dev.hops ∧ h.2.1 ≠ m) ∧
          t.reg cnt = countUp (s.reg cnt) flits.toNat ∧ (∀ a, a ∉ cnt :: seamRegs → t.reg a = s.reg a) ∧ Still s t)) ∧
    (∀ line : BitVec 18, s.dev.held n (bankRouter bank.toNat).toNat = false → Answers (.combineWindowEnd w bank line) s fun t =>
      t.dev.entries n bank.toNat = (s.dev.entries n bank.toNat).filter (fun e => e.line != line.toNat) ∧
      (∀ i, i ≠ combineKey n bank.toNat → smGet [] t.dev.combine i = smGet [] s.dev.combine i) ∧
      t.dev = { s.dev with combine := t.dev.combine } ∧ Still s t) ∧
    (∀ line : BitVec 18, s.dev.held n (bankRouter bank.toNat).toNat = true →
      Answers (.combineWindowEnd w bank line) s fun t => t = s) ∧
    (Answers (.combineEn w false) s fun t => t.reg (cmnR n 0) = 0 ∧ (∀ i : BitVec 4, t.dev.entries n i.toNat = []) ∧
      (∀ i, i / 16 ≠ n → smGet [] t.dev.combine i = smGet [] s.dev.combine i) ∧ (∀ a, a ≠ cmnR n 0 → t.reg a = s.reg a) ∧ Still s t) ∧
    (Answers (.combineEn w true) s fun t => t.reg (cmnR n 0) = 1 ∧ RegsOnly s t [cmnR n 0] ∧ Still s t) ∧
    -- the control network
    (∀ (cls : BitVec 3) (fl : BitVec 4) (dst : Option (BitVec 6)), flitsOk cls fl = true →
      let live := (s.dev.liveMask s.part n).getLsbD pos.toNat
      let held := fun (x : CtlMsg) => x ∈ s.dev.ctlHeld ∧ x.die = w ∧ x.at' = pos
      let x : Option (BitVec 6) → Option FaultRec → CtlMsg := fun next f => ⟨w, pos, dst, next, cls, fl, f⟩
      let own := s.dev.recOut.find? fun y => y.1 == ⟨w, pos⟩
      (∀ next, live = true → cls ≠ 2 → routeStep n (s.dev.routeMask n) pos dst = some next →
        Answers (.controlMessage w pos cls fl ⟨dst, true⟩) s fun t =>
          t.dev = { s.dev with ctlHeld := s.dev.ctlHeld ++ [x next none] } ∧ Still s t) ∧
      (∀ next f, live = true → cls = 2 → dst = none → own = some f → routeStep n (s.dev.routeMask n) pos none = some next →
        Answers (.controlMessage w pos cls fl ⟨dst, true⟩) s fun t =>
          t.dev = { s.dev with recOut := s.dev.recOut.erase f, ctlHeld := s.dev.ctlHeld ++ [x next (some f.2)] } ∧ Still s t) ∧
      ((live = false ∨ routeStep n (s.dev.routeMask n) pos dst = none ∨ (cls = 2 ∧ (dst ≠ none ∨ own = none))) →
        Answers (.controlMessage w pos cls fl ⟨dst, true⟩) s fun t => t = s) ∧
      ((∃ y, held y ∧ y.cls.toNat < cls.toNat) → Answers (.controlMessage w pos cls fl ⟨dst, false⟩) s fun t => t = s) ∧
      (∀ f, s.dev.ctlHeld = [x none f] → Answers (.controlMessage w pos cls fl ⟨dst, false⟩) s fun t => t.dev.ctlHeld = [] ∧
        t.reg (meshR n 0x58) = (if dst = none then countUp (s.reg (meshR n 0x58)) 1 else s.reg (meshR n 0x58)) ∧
        t.dev.records = s.dev.records ++ (if dst = none then f.toList else []) ∧
        t.dev.routeMask n = (if (s.dev.fenceOf n).isSome then s.dev.liveMask s.part n else s.dev.routeMask n) ∧
        (∀ a, a ≠ meshR n 0x58 → t.reg a = s.reg a) ∧
        { t.dev.noRegs with ctlHeld := [], records := [], routes := [] } = { s.dev.noRegs with ctlHeld := [], records := [], routes := [] } ∧
        Still s t) ∧
      (∀ q next f, s.dev.ctlHeld = [x (some q) f] → (s.dev.liveMask s.part n).getLsbD q.toNat = true →
        routeStep n (s.dev.routeMask n) q dst = some next → Answers (.controlMessage w pos cls fl ⟨dst, false⟩) s fun t =>
          { t.dev with routes := [] } = { s.dev with ctlHeld := [⟨w, q, dst, next, cls, fl, f⟩], routes := [] } ∧
          (s.dev.fenceOf n = none → t.dev.routes = s.dev.routes) ∧ Still s t) ∧
      (∀ q f, s.dev.ctlHeld = [x (some q) f] → (s.dev.liveMask s.part n).getLsbD q.toNat = false →
        Answers (.controlMessage w pos cls fl ⟨dst, false⟩) s fun t => ∃ y : CtlMsg,
          t.dev = { s.dev with ctlHeld := [y] } ∧ y.die = w ∧ y.at' = pos ∧ y.cls = cls ∧ y.flits = fl ∧ y.fault = f ∧ Still s t))

/-- R52, R60, R62, R165, R197 to R203, R217, R396, R397, R401, R410 and R412: requests at the pantries, lobbies and commons of this
node. A READ answers with the bytes, a WRITE stores them, and a misshaped one is refused with BAD_REQUEST; a pantry serves
in every state of its core but FENCED, in which its windows answer CORE_FENCED. A whole-line READ of a core of the die that finds an open combining entry is answered from it; a
WRITE closes the entries of its lines. A first attempt of an atomic is performed once, returns the old value and is kept in
the die's store, and a later attempt of it is answered from there. A push packet that passes every check takes a slot. A
request waits while it is on the mesh or another goes before it (R191), while the commons' bank serves its other port (R197)
and where clock edges are withheld (R455). The model's choices among these: that a refusal stands at the target too (log entry
28), which requests go before another (log entry 92), how the ports of a bank alternate (log entry 103), errors and combining in
the commons (log entry 30), and the SEQ that a header packet and its header share (log entry 100). -/
def Obligations.Requests : Prop :=
  ∀ (s : State) (r : Req), s.dev.dead = false → gaNode r.addr = s.dev.node →
    let pl := s.dev.place s.part (gaLocal r.addr)
    s.dev.refusedAtSender s.part pl = none → Msg.req r ∈ s.dev.net →
    let waits := s.dev.onMesh (.req r) || s.dev.behind s.part r || s.dev.targetHeld r pl || s.dev.portWaits s.part r pl
    -- what has not arrived, or is held at its target, waits
    (waits = true → ∀ i, (i = .read r ∨ i = .write r ∨ i = .atomic r ∨ i = .push r) → exec i s = .next s) ∧
    (waits = false →
    let net := fun (st : BitVec 7) (data : List Byte) => s.dev.net.erase (.req r) ++
      [.resp { dst := r.src, tag := r.tag, status := st, data := data, from' := BitVec.ofNat 5 (s.dev.placeSite s.part pl),
               node := s.dev.node, origin := placeRouter pl }]
    let bytes := fun (a n : Nat) => (List.range n).map fun i => s.byte (a + i)
    let tells := fun (t : State) (st : BitVec 7) (data : List Byte) => t.dev = { s.dev.recv (.req r) with net := net st data } ∧
      (∀ a, t.byte a = s.byte a) ∧ Fixed s t
    let stored := fun (t : State) (a : Nat) (data : List Byte) => t.dev.net = net stOk [] ∧
      (∀ i x, data[i]? = some x → t.byte (a + i) = x) ∧ MemKept s t a data.length ∧ (∀ e, t.k e = s.k e) ∧ Fixed s t
    let cmnClean := fun (w off n : Nat) => ∀ b, off / 128 * 128 ≤ b → b < off + n + 128 → s.dev.mark (cmnAt w b) = 0
    -- GDDR7: a request is queued at its channels, refused by a channel that is DOWN, or stays in the receive buffers of its L die
    (∀ a, pl = .gddr a →
      let parts := lineParts a (reqSize r)
      let chans := parts.map fun x => (s.dev.channelOf s.part x.1).1
      let site := 16 + (s.dev.channelOf s.part a).1 / 12
      let down := ∃ c ∈ chans, s.dev.chanSt s.part c = 5
      let goes := (∀ c ∈ chans, (s.dev.chan c).held < 256) ∧ s.dev.waitsBehind s.part site r parts = false
      let owned := s.dev.ownerCheck s.part (srcNode r.src) a = none
      let queued := fun (t : State) (whole : Bool) => t.dev.greqs = s.dev.greqs ++ [{ id := s.dev.gnext, req := r, left := parts.length, answered := whole }] ∧
        (∀ c, (t.dev.chan c).q = (s.dev.chan c).q ++ (parts.filter fun x => (s.dev.channelOf s.part x.1).1 == c).map fun x => ⟨s.dev.gnext, x.1, x.2⟩) ∧
        (∀ z, t.reg z = s.reg z) ∧ Still s t
      let waits := fun (t : State) => t.dev.net = s.dev.net.erase (.req r) ∧ t.dev.greqs = s.dev.greqs ∧
        t.dev.arrived = s.dev.arrived ++ [(site, bodyVc (.req r), .req r)] ∧ (∀ z, t.reg z = s.reg z) ∧ Still s t
      (∀ n, r.op = .read n → shapeOk a (16 * n.toNat) = true →
        (down → Answers (.read r) s fun t => tells t stChannelDown []) ∧
        (¬down → goes → Answers (.read r) s fun t => queued t false ∧ t.dev.net = s.dev.net.erase (.req r)) ∧
        (¬down → ¬goes → Answers (.read r) s waits)) ∧
      (∀ x, r.op = .write x → shapeOk a x.length = true → owned →
        let whole := parts.all fun y => y.2 == 128
        (down → Answers (.write r) s fun t => tells t stChannelDown []) ∧
        (¬down → goes → Answers (.write r) s fun t => queued t whole ∧ t.dev.net = (if whole then net stOk [] else s.dev.net.erase (.req r))) ∧
        (¬down → ¬goes → Answers (.write r) s waits)) ∧
      (∀ op z1 z2 at' sq, r.op = .atomic op z1 z2 at' sq → ¬goes → Answers (.atomic r) s waits)) ∧
    -- pantries
    (∀ c off, pl = .pantry c off →
      (∀ n, r.op = .read n → (s.k c).st = .fenced → Answers (.read r) s fun t => tells t stCoreFenced []) ∧
      (∀ x, r.op = .write x → (s.k c).st = .fenced → Answers (.write r) s fun t => tells t stCoreFenced []) ∧
      ((s.k c).st ≠ .fenced → s.dev.tornDown s.part c = false →
        (∀ n, r.op = .read n → shapeOk off (16 * n.toNat) = true → Clean s c off (16 * n.toNat) → Answers (.read r) s fun t =>
          tells t stOk (bytes (pantryAt c off) (16 * n.toNat))) ∧
        (∀ n, r.op = .read n → shapeOk off (16 * n.toNat) = false → Answers (.read r) s fun t => tells t stBadRequest []) ∧
        (∀ x, r.op = .write x → shapeOk off x.length = true → s.dev.injBits c.site.toNat 1 c.p.toNat = 0 →
          Answers (.write r) s fun t => stored t (pantryAt c off) x ∧ ∀ a, t.reg a = s.reg a) ∧
        (∀ x, r.op = .write x → shapeOk off x.length = false → Answers (.write r) s fun t => tells t stBadRequest []))) ∧
    -- the commons
    (∀ w off, pl = .commons w off →
      (∀ n, r.op = .read n → shapeOk off (16 * n.toNat) = true → cmnClean w off (16 * n.toNat) →
        s.dev.combines s.part w r.src 128 = false → Answers (.read r) s fun t =>
          t.dev.net = net stOk (bytes (cmnAt w off) (16 * n.toNat)) ∧
          t.reg (cmnR w 0x100) = countUp (s.reg (cmnR w 0x100)) (lineParts off (16 * n.toNat)).length ∧
          (∀ a, a ≠ cmnR w 0x100 → t.reg a = s.reg a) ∧ Still s t) ∧
      (∀ e, r.op = .read 8 → off % 128 = 0 → s.dev.combines s.part w r.src 128 = true →
        (s.dev.entries w (cmnBank off)).find? (fun e => e.line == off / 128) = some e → Answers (.read r) s fun t =>
          t.dev.net = net stOk e.data ∧ t.reg (cmnR w 0x110) = countUp (s.reg (cmnR w 0x110)) 1 ∧
          (∀ a, a ∉ [cmnR w 0x110, cmnR w 0x118] → t.reg a = s.reg a) ∧ Still s t) ∧
      (∀ x, r.op = .write x → shapeOk off x.length = true → cmnClean w off x.length → (∀ b, s.dev.injBits w 2 b = 0) →
        Answers (.write r) s fun t => stored t (cmnAt w off) x ∧
          t.reg (cmnR w 0x108) = countUp (s.reg (cmnR w 0x108)) (lineParts off x.length).length ∧
          (∀ y ∈ lineParts off x.length, ∀ e ∈ t.dev.entries w (cmnBank y.1), e.line ≠ y.1 / 128) ∧
          ∀ a, a ∉ [cmnR w 0x108, cmnR w 0x120] → t.reg a = s.reg a)) ∧
    -- atomics
    (∀ (op : BitVec 4) (a b : BitVec 128) (attempt : BitVec 2) (aseq : BitVec 16) (die m : Nat),
      r.op = .atomic op a b attempt aseq →
      let n := if op = 5 then 16 else 8
      let old : W64 := BitVec.ofNat 64 (s.le m 8)
      let x : W64 := a.extractLsb' 0 64
      ((∃ c off, pl = .pantry c off ∧ die = c.site.toNat ∧ m = pantryAt c off ∧ s.dev.coreRefused s.part c = none ∧
          off % n = 0 ∧ Clean s c off n ∧ s.dev.injBits die 1 c.p.toNat = 0) ∨
        (∃ off, pl = .commons die off ∧ m = cmnAt die off ∧ off % n = 0 ∧ cmnClean die off n ∧
          ∀ b, s.dev.injBits die 2 b = 0)) →
      (op.toNat < 6 → attempt = 0 → (∀ e ∈ s.dev.store die, ¬(e.src = r.src ∧ e.aseq = aseq)) → (s.dev.store die).length < 32768 →
        Answers (.atomic r) s fun t => t.dev.net = net stOk (bytes m n) ∧
          (op = 5 → t.le m 16 = if s.le m 16 = a.toNat then b.toNat else s.le m 16) ∧
          (op ≠ 5 → t.le m 8 = (if op = 0 then old + x else if op = 1 then x
            else if op = 2 then (if x.toInt < old.toInt then x else old) else if op = 3 then (if old.toInt < x.toInt then x else old)
            else if old = x then b.extractLsb' 0 64 else old).toNat) ∧
          (∃ e ∈ t.dev.store die, e.src = r.src ∧ e.aseq = aseq ∧ e.result = some (stOk, bytes m n, s.dev.dieCount die)) ∧
          MemKept s t m n ∧ (∀ e, t.k e = s.k e) ∧ Fixed s t) ∧
      (∀ e st data t0, (s.dev.store die).find? (fun e => e.src == r.src && e.aseq == aseq) = some e →
        e.result = some (st, data, t0) → Answers (.atomic r) s fun t => t.dev.net = net st data ∧
          (∀ a, a ≠ cmnR die 0x140 → t.reg a = s.reg a) ∧ t.reg (cmnR die 0x140) = countUp (s.reg (cmnR die 0x140)) 1 ∧ Still s t)) ∧
    -- push packets
    (∀ c l o (seq : BitVec 16) (first : BitVec 2) (hdr : Option (BitVec 128)) (lines : List (List Byte)), pl = .lobby c l o →
      r.op = .push seq first hdr lines →
      let y := s.dev.lobby c l
      let dist := (seq - s.dev.readSeq s.part c l).toNat
      ((s.k c).st = .fenced → Answers (.push r) s fun t => tells t stCoreFenced []) ∧
      (s.dev.coreRefused s.part c = none →
        (s.dev.lobEn s.part c l = false → Answers (.push r) s fun t => t.dev.net = net stLobbyClosed [] ∧
          t.reg (lobReg c l 0x30) = countUp (s.reg (lobReg c l 0x30)) 1 ∧
          (∀ a, a ≠ lobReg c l 0x30 → t.reg a = s.reg a) ∧ Still s t) ∧
        (s.dev.lobEn s.part c l = true → r.src.toNat = s.field (lobReg c l 0) 10 27 → (∀ m ∈ y.marks, m.seq ≠ seq) →
          (∀ h, hdr = some h → first = 0 → hdrSeq h = seq → h.extractLsb' 20 4 = 0 →
            lines.length = min 3 ((hdrNl h).toNat + 1) → (∀ z ∈ y.slots, z.seq ≠ seq) → dist < 128 →
            (hdrNl h).toNat + (if seq = s.dev.lowMiss s.part c l then 1 else 5) ≤ y.free → Answers (.push r) s fun t =>
              t.dev.net = net stOk [] ∧ t.dev.lobby c l = { y with slots := y.slots ++ [{
                seq := seq, hdr := h, nl := hdrNl h, lines := lines.zipIdx.map fun z => (z.2, z.1), landed := 0 }] } ∧
              (∀ m, m ≠ l → t.dev.lobby c m = s.dev.lobby c m) ∧ (∀ a, t.reg a = s.reg a) ∧ StillBut s t c) ∧
          (∀ z line, hdr = none → first = 3 → lines = [line] → y.slot seq = some z → z.nl = 3 → z.landed.getLsbD 3 = false →
            Answers (.push r) s fun t => t.dev.net = net stOk [] ∧
              (∃ u, (t.dev.lobby c l).slot seq = some u ∧ u.lines = z.lines ++ [(3, line)] ∧ u.landed = z.landed ||| 8) ∧
              StillBut s t c)))))

/-- R14 to R16, R217, R277, R408: a CREAD of a register of the package's own answers OK with what the register shows, its WO
fields zero; a CWRITE of one answers OK, and a register without behaviour of its own takes each field of the halves it names as
its access says, with a Notice where a value is reserved. PC is written in RESET, IDLE and HALT alone; HANDOFF is refused, or
begins a hand-off and is answered when that completes; CONFIRM is K0's firmware's alone. A misaligned address answers
BAD_REQUEST, a register that does not exist NO_TARGET, one of a fenced core CORE_FENCED, but its STATE reads 6. An access waits
while it is on the mesh or another goes before it (R191; which ones is log entry 92). The model's choices among these: the
order of the checks (log entries 28 and 29), HANDOFF refused or written by halves (log entries 34 and 81), and the registers
that stand at every L die (log entry 32). -/
def Obligations.RegisterAccesses : Prop :=
  ∀ (s : State) (r : Req) (a : Nat), s.dev.dead = false → gaNode r.addr = s.dev.node →
    s.dev.place s.part (gaLocal r.addr) = .ctl a → s.dev.refusedAtSender s.part (.ctl a) = none → Msg.req r ∈ s.dev.net →
    let waits := s.dev.onMesh (.req r) || s.dev.behind s.part r
    (waits = true → exec (.cread r) s = .next s ∧ exec (.cwrite r) s = .next s) ∧ (waits = false →
    let net := fun (st : BitVec 7) (data : List Byte) => s.dev.net.erase (.req r) ++
      [.resp { dst := r.src, tag := r.tag, status := st, data := data, from' := BitVec.ofNat 5 (ctlSite a), node := s.dev.node }]
    let tells := fun (i : Instr) (st : BitVec 7) (data : List Byte) => Answers i s fun t =>
      t.dev = { s.dev.recv (.req r) with net := net st data } ∧ Still s t
    let word := fun (x : W64) => leBytes 16 x.toNat
    let site := ctlSite a
    let blk := ctlBlk a
    let off := ctlOff a
    let own := isG site = false ∧ a % 8 = 0
    -- blocks whose registers show and take what they hold
    let shows := (isW site = true ∧ (blk = 0x10 ∨ blk = 0x11)) ∨ (isK site = true ∧ blk = 0x50 ∧ off < 0x100) ∨
      (isBase site = true ∧ 0x80 ≤ blk ∧ blk < 0xC0)
    let plain := (isW site = true ∧ ((blk = 0x11 ∧ off ≠ 0) ∨ (0x140 ≤ blk ∧ blk < 0x1C0))) ∨ (isK site = true ∧ blk = 0x50 ∧ 8 ≤ off ∧ off < 0x100) ∨
      (isBase site = true ∧ 0x80 ≤ blk ∧ blk < 0xC0 ∧ off ≠ 0 ∧ off ≠ 0x400) ∨ (isL site = true ∧ blk = 0x3F ∧ (off = 0x10 ∨ off = 0x18)) ∨
      (isK site = true ∧ blk = 1 ∧ (off = 0x818 ∨ off = 0x820))
    (r.op = .cread →
      (∀ fs, regFields s.part a = some fs → own → s.dev.fencedReg a false = false →
        tells (.cread r) stOk (word (s.dev.regView s.part (canonAddr a) fs)) ∧
        (shows → tells (.cread r) stOk (word (maskWo fs (s.reg a))))) ∧
      (isG site = false → a % 8 ≠ 0 → tells (.cread r) stBadRequest []) ∧
      (∀ w b : BitVec 4, a = barReg w.toNat b.toNat 0 → tells (.cread r) stOk (word (s.reg a))) ∧
      (∀ c, (s.k c).st ≠ .fenced → a = coreR c 0x38 → tells (.cread r) stOk (word (s.reg a))) ∧
      (∀ c, (s.k c).st ≠ .fenced → a = coreR c 0x10 → tells (.cread r) stOk (word ((s.k c).pc.zeroExtend 64))) ∧
      (∀ c, (s.k c).st = .fenced → a = coreR c 8 → tells (.cread r) stOk (word 6)) ∧
      (∀ c, (s.k c).st = .fenced → a = coreR c 0x38 → tells (.cread r) stCoreFenced []) ∧
      (regFields s.part a = none → isG (ctlSite a) = false → a % 8 = 0 → s.dev.fencedReg a false = false →
        tells (.cread r) stNoTarget [])) ∧
    (∀ v lower upper, r.op = .cwrite v lower upper →
      (∀ fs, regFields s.part a = some fs → own → s.dev.fencedReg a true = false →
        (isK site = false → ¬(isL site = true ∧ blk = 0x3F ∧ off = 0x30) → Answers (.cwrite r) s fun t =>
          Msg.resp { dst := r.src, tag := r.tag, status := stOk, from' := BitVec.ofNat 5 site, node := s.dev.node } ∈ t.dev.net) ∧
        (plain → writesReserved fs (s.reg a) v lower upper = false → Answers (.cwrite r) s fun t => t.dev.net = net stOk [] ∧
          t.reg a = fieldsWritten fs (s.reg a) v lower upper ∧ (∀ z, z ≠ a → t.reg z = s.reg z) ∧ Still s t) ∧
        (plain → writesReserved fs (s.reg a) v lower upper = true → Answers (.cwrite r) s fun t => t.dev.net = net stOk [] ∧
          t.reg a = fieldsWritten fs (s.reg a) v lower upper ∧ t.reg (fltR site 0x40) = countUp (s.reg (fltR site 0x40)) 1 ∧
          RegsKept s t [a] ∧ Still s t)) ∧
      (isG site = false → a % 8 ≠ 0 → tells (.cwrite r) stBadRequest []) ∧
      (∀ c, (s.k c).st ≠ .fenced → a = coreR c 0x10 →
        (lower = true → (s.k c).st ∈ [.reset, .idle, .halt] → Answers (.cwrite r) s fun t => t.dev.net = net stOk [] ∧
          t.k c = { s.k c with pc := BitVec.ofNat 22 (v.toNat / 4 * 4) } ∧ (∀ z, t.reg z = s.reg z) ∧ StillBut s t c) ∧
        (lower = false ∨ (s.k c).st ∉ [.reset, .idle, .halt] → tells (.cwrite r) stOk [])) ∧
      (∀ l, l < 4 → a = memcR l 0x30 →
        let x : W64 := (if upper then v.extractLsb' 32 32 else 0) ++ (if lower then v.extractLsb' 0 32 else (0 : W32))
        (∀ st, s.dev.handoffRefused s.part l r.src x = some st → tells (.cwrite r) st []) ∧
        (s.dev.handoffRefused s.part l r.src x = none → Answers (.cwrite r) s fun t => t.dev.net = s.dev.net.erase (.req r) ∧
          (∃ h, t.dev.handoff = some h ∧ h.first = bits x 0 17 ∧ h.nm1 = bits x 17 10 ∧ h.answer = some r) ∧
          (∀ z, z ≠ memcR 0 0x38 → t.reg z = s.reg z) ∧ Still s t)) ∧
      (a = fwR 0x28 → ¬(srcNode r.src = s.dev.node ∧ (srcSite r.src).toNat = 20 ∧ (srcUnit r.src).toNat = 0) → tells (.cwrite r) stBadRequest []) ∧
      (∀ c, (s.k c).st ≠ .fenced → a = coreR c 0x38 → Answers (.cwrite r) s fun t => t.dev.net = net stOk [] ∧
        t.reg a = (let x := (if upper then v else s.reg a).extractLsb' 32 32 ++ (if lower then v else s.reg a).extractLsb' 0 32
          if x = 0 then 1 else x) ∧
        (∀ z, z ≠ a → t.reg z = s.reg z) ∧ Still s t) ∧
      (∀ c, (s.k c).st = .fenced → a = coreR c 0x38 → tells (.cwrite r) stCoreFenced []) ∧
      (regFields s.part a = none → isG (ctlSite a) = false → a % 8 = 0 → s.dev.fencedReg a true = false →
        tells (.cwrite r) stNoTarget [])) ∧
    -- a request that is no register access of its command
    ((∀ v lower upper, r.op ≠ .cwrite v lower upper) → Answers (.cwrite r) s fun t => t = s) ∧
    (r.op ≠ .cread → Answers (.cread r) s fun t => t = s))

/-- R79, R398, R413: the answer to a porter WRITE packet, whichever response carries it, ends the FILL that waits for it
alone; the final answer to an atomic ends the atomic, and one with a retried status is kept with the attempt it answers; an
answer to nothing the core has outstanding is discarded. It waits on the mesh, behind one sent before it from the same router
(R191), and while the core's clock edges are withheld (R455). That each attempt has a tag of its own is log entry 105, and that
RESULT keeps its other bytes log entry 76. -/
def Obligations.Responses : Prop :=
  ∀ (s : State) (c : CoreId) (r : Resp) (i : Instr), s.dev.dead = false → s.part.has c = true → (s.k c).st ≠ .fenced →
    r.dst = s.dev.coreSrc c → Msg.resp r ∈ s.dev.net → (i = .targetAck r ∨ i = .rdata r ∨ i = .rstat r) →
    let waits := s.dev.respWaits r || s.dev.edgesHeld c
    (waits = true → exec i s = .next s) ∧ (waits = false →
    let net := s.dev.net.erase (.resp r)
    (∀ q x y, (s.k c).pktOf r.tag = some (q, x, y) → s.dev.descs c q = [x] → x.pkts = [y] → y.kind = .wr → x.op = 2 →
      x.phase = .waitAcks → x.errAt = none → x.status = 0 → x.cpl = false → x.buf = [] → x.total ≤ x.issued → r.status = stOk →
      Answers i s fun t => t.dev.net = net ∧ t.dev.descs c q = [] ∧ (∀ n, n ≠ q → t.dev.descs c n = s.dev.descs c n) ∧
        t.reg (prtR c 0x10) = countUp (s.reg (prtR c 0x10)) 1 ∧
        t.reg (prtR c 0x18) = countUp (s.reg (prtR c 0x18)) (linesIn (x.dstAt y.pos).toNat y.size) ∧
        (∀ a, a ∉ [prtR c 0x10, prtR c 0x18] → t.reg a = s.reg a) ∧ StillBut s t c) ∧
    ((s.k c).pktOf r.tag = none → ∀ x : Atom, (s.k c).atoms = [x] → r.tag ∈ x.tags →
      (r.status = stOk → x.op ≠ 5 → r.data.length = 8 → x.block.toNat % 64 = 0 → Clean s c x.block.toNat 64 →
        s.dev.injBits c.site.toNat 1 c.p.toNat = 0 → Answers i s fun t =>
          let b := pantryAt c x.block.toNat
          t.dev.net = net ∧ (t.k c).atoms = [] ∧ (∀ j, j < 8 → r.data[j]? = some (t.byte (b + 40 + j))) ∧
          t.byte (b + 56) = 0x80 ∧ t.byte (b + 57) = 1 ∧
          (∀ z, (z < b + 40 ∨ (b + 48 ≤ z ∧ z < b + 56) ∨ b + 58 ≤ z) → t.byte z = s.byte z) ∧
          (∀ e, e ≠ c → t.k e = s.k e) ∧ (∀ z, t.reg z = s.reg z) ∧ Fixed s t) ∧
      (let kept := { x with bad := x.bad ++ [(x.tags.idxOf r.tag, r.status)] }
       r.status ∈ [stPathError, stBusy, stNoRoute, stOrderLost, stRemoteTimeout] → kept.ended < 4 → Answers i s fun t =>
        t.dev.net = net ∧ (t.k c).atoms = [kept] ∧ (∀ z, t.reg z = s.reg z) ∧ StillBut s t c)) ∧
    ((s.k c).pktOf r.tag = none → (∀ x ∈ (s.k c).atoms, r.tag ∉ x.tags) → Answers i s fun t =>
      t.dev = { s.dev.recv (.resp r) with net := net } ∧ Still s t))

/-- R227 to R237 and R262: the channels of a photonic bank. A feed line from the producer waits in its channel; a line with no
channel to take it changes nothing. A vector computes 64 sums of clamped inputs with the resident weights, scaled, clipped and
converted to BF16, as one output line. A complete tile leaves as a push with the header of its coach, SEQ, and the coach
number and DUE advance after a LAST tile; a refused tile is sent again; FLUSH closes the incomplete tile as LAST. The model's
choices among these: how clip and scales combine in an output (log entry 15), when a line and its tile are closed and which
EPOCH a tile carries (log entry 36), and what a write of EN discards (log entry 38). -/
def Obligations.BankChannels : Prop :=
  ∀ (s : State) (b : BitVec 5) (ch : BitVec 3),
    let n := b.toNat
    let c := ch.toNat
    let k := s.dev.bank n
    let x := s.dev.bch n c
    let cfg := chR n c 0
    let st := s.dev.bankState s.part n
    let others := fun (t : State) => (∀ i, i ≠ c → t.dev.bch n i = s.dev.bch n i) ∧ (∀ m, m ≠ n → t.dev.bank m = s.dev.bank m) ∧ Still s t
    let kept := fun (t : State) => (∀ a, t.reg a = s.reg a) ∧ others t
    let push := fun (tag : BitVec 12) (h : BitVec 128) (lines : List (List Byte)) => ({
      src := mkSrc s.dev.node 0x1F (BitVec.ofNat 6 n), addr := s.reg (chR n c 8), tag := tag
      op := .push (hdrSeq h) 0 (some h) lines, bulk := true } : Req)
    let sent := fun (t : State) (y : BTile) (tag : BitVec 12) (h : BitVec 128) =>
      h.extractLsb' 18 14 = (if y.tidx = 0 then 1 else 0) + (if y.last then 2 else 0) + BitVec.ofNat 14 (64 * n) ∧
      hdrNl h = BitVec.ofNat 2 (y.lines.length - 1) ∧ h.extractLsb' 64 16 = BitVec.ofNat 16 y.tidx ∧ h.extractLsb' 80 16 = y.epoch ∧
      t.dev.net = (s.dev.sendReq s.part (push tag h y.lines)).net
    let next := fun (t : State) (y : BTile) => t.field (chR n c 0x10) 32 16 = (s.field (chR n c 0x10) 32 16 + 1) % 2 ^ 16 ∧
      t.field (chR n c 0x10) 0 32 = (s.field (chR n c 0x10) 0 32 + if y.last then 1 else 0) % 2 ^ 32 ∧
      t.field (chR n c 0x18) 0 32 = (s.field (chR n c 0x18) 0 32 + if y.last then s.field (chR n c 0x18) 32 32 else 0) % 2 ^ 32 ∧
      (∀ a, a ∉ [chR n c 0x10, chR n c 0x18] → t.reg a = s.reg a) ∧ others t
    -- feed lines
    (∀ (src : Src) (off : BitVec 16) (line : List Byte), srcNode src = s.dev.node → (srcSite src).toNat = n / 2 →
      (src.toNat = s.field cfg 10 27 → s.dev.roleOut (n / 2) 3 (n % 2) = false → s.dev.chRun s.part n c = true →
        2 ≤ st → st ≤ 5 → off.toNat % 128 = 0 → line.length = 128 → x.feed.length < 64 →
        Answers (.feedLine src b ch off line) s fun t => t.dev.bch n c = { x with feed := x.feed ++ [line] } ∧ kept t) ∧
      (src.toNat = s.field cfg 10 27 → (s.dev.chRun s.part n c = false ∨ st = 0 ∨ st = 1 ∨ st = 6) →
        Answers (.feedLine src b ch off line) s fun t => t = s) ∧
      (src.toNat ≠ s.field cfg 10 27 → Answers (.feedLine src b ch off line) s fun t => Raised s t 31 [])) ∧
    -- vectors
    (∀ line rest, st = 3 → s.dev.bankTurn s.part n = some c → x.feed = line :: rest → line.length = 128 → x.half = false →
      k.q.length = 4096 → s.dev.bit s.part (pwbR n 0x10) 0 = false → x.part = none → x.lines.length < s.field cfg 1 2 →
      Answers (.bankVector b ch) s fun t =>
        let input := fun (i : Nat) => max (-32) (min 31 (line.getD i 0).toInt)
        let weight := fun (j i : Nat) => max (-127) (k.q.getD (64 * j + i) 0).toInt
        let sum := fun (j : Nat) => ((List.range 64).map fun i => weight j i * input i).sum
        let out := fun (j : Nat) => (bankOut (BitVec.ofNat 32 (s.field (pwbR n 0x18) 0 32)) (k.c.getD j 0) (s.field (pwbR n 0x10) 1 3)
          ((sum j * 2 ^ 20).fdiv 127 + s.dev.bankError s.part n j)).1
        (t.dev.bch n c).lines = x.lines ++ [(List.range 64).flatMap fun j => leBytes 2 (bf16.convert (val32 (out j)) none .sat).1] ∧
        (t.dev.bch n c).half = true ∧ (t.dev.bch n c).feed = x.feed ∧ (t.dev.bch n c).tiles = x.tiles ∧
        t.reg (pwbR n 0x100) = countUp (s.reg (pwbR n 0x100)) 1 ∧
        (s.field (pwbR n 0x10) 8 4 = 0 → t.reg (pwbR n 0x108) = s.reg (pwbR n 0x108)) ∧
        (∀ a, a ∉ [pwbR n 0x100, pwbR n 0x108, pwbR n 0x110, pwbR n 0x118] → t.reg a = s.reg a) ∧ others t) ∧
    -- output tiles
    (s.dev.chRun s.part n c = true → x.retrying = false →
      (∀ y rest, x.tiles = y :: rest → 1 ≤ y.lines.length → y.lines.length ≤ 3 → Answers (.outputTileSend b ch) s fun t =>
        ∃ h, sent t y k.tag h ∧ (hdrSeq h).toNat = s.field (chR n c 0x10) 32 16 ∧
          (h.extractLsb' 32 32).toNat = s.field (chR n c 0x10) 0 32 ∧
          (h.extractLsb' 96 32).toNat = (if y.last then s.field (chR n c 0x18) 0 32 else 0) ∧ next t y ∧
          t.dev.bch n c = { x with tiles := rest, sent := x.sent ++ [{ hdr := h, lines := y.lines, head := k.tag, tail := k.tag + 1 }] }) ∧
      (x.tiles = [] → x.part = none → x.lines ≠ [] → x.lines.length ≤ 3 → Answers (.flush b ch) s fun t =>
        ∃ h, let y : BTile := ⟨x.lines, x.epoch, true, x.tidx⟩
          sent t y k.tag h ∧ next t y ∧ (t.dev.bch n c).lines = [] ∧ (t.dev.bch n c).tidx = 0)) ∧
    (s.dev.chRun s.part n c = true → (x.tiles ≠ [] ∨ x.retrying = true) → x.part = none → x.lines ≠ [] →
      Answers (.flush b ch) s fun t => kept t ∧
        t.dev.bch n c = { x with lines := [], tiles := x.tiles ++ [⟨x.lines, x.epoch, true, x.tidx⟩], tidx := 0 }) ∧
    (x.part = none → x.lines = [] → Answers (.flush b ch) s fun t => t = s) ∧
    (∀ y due, x.sent = [y] → y.due = some due → (s.dev.now - due).toNat < 2 ^ 63 → y.lines.length ≤ 3 →
      Answers (.bankTileRetry b ch) s fun t =>
        t.dev.bch n c = { x with sent := [{ y with head := k.tag, tail := k.tag + 1, due := none, tries := y.tries + 1 }] } ∧
        t.dev.net = (s.dev.sendReq s.part (push k.tag y.hdr y.lines)).net ∧
        t.reg (pwbR n 0x140) = countUp (s.reg (pwbR n 0x140)) 1 ∧ (∀ a, a ≠ pwbR n 0x140 → t.reg a = s.reg a) ∧ others t) ∧
    -- EN
    (s.dev.chEn s.part n c = false → Answers (.chEn b ch true) s fun t => s.field cfg 1 63 = t.field cfg 1 63 ∧
      t.dev.chEn t.part n c = true ∧ t.dev.chCause t.part n c = 0 ∧ t.dev.bch n c = {} ∧
      (∀ a, a ∉ [cfg, chR n c 0x20] → t.reg a = s.reg a) ∧ others t) ∧
    (Answers (.chEn b ch false) s fun t => s.field cfg 1 63 = t.field cfg 1 63 ∧ t.dev.chEn t.part n c = false ∧
      t.dev.bch n c = {} ∧ (∀ a, a ≠ cfg → t.reg a = s.reg a) ∧ others t)

/-- R239 to R251 and R256 to R260: the states of a bank. A load or calibration asked of a bank in PARKED or FAILED, or while one is
asked for already, raises a Notice, and any other sets QUEUED. A load that may start reads the 34 lines of its image, or ends with result
1 where SRC is unaligned or of another node; verified, it makes WVALID 1, takes image and scales, goes to READY and advances EPOCH, and
failed it drops the weights with result 3. A calibration starts in CAL, writes its trims at once and ends in READY, STALLED or IDLE as
weights and rings stand; an automatic one is requested after 240,000 ticks or with no channel running. A probe window reports its
figures, and raises a fault and an automatic cause where ENOB is below its threshold. STALLED clears to READY with the EPOCH advanced; a
lantern that leaves LIT takes the bank to FAILED; a power monitor alarms by its loss, or by the input's own level; RESET parks the bank
and keeps what R258 keeps; parking ends after 19,200 ticks with every ring parked; and an unparked bank, but for one of a die held out
(R483), goes to IDLE with every ring sweeping. The model's choices among these: how locking, parking and losses show in STATE (log entry 37), that what a
calibration finds is free (log entry 40), and what the power monitors compare (log entry 84). -/
def Obligations.BankStates : Prop :=
  ∀ (s : State) (b : BitVec 5),
    let n := b.toNat
    let k := s.dev.bank n
    let st := s.dev.bankState s.part n
    let stat := pwbR n 8
    let load := pwbR n 0x28
    let cal := pwbR n 0x30
    let epoch := s.field stat 32 32
    let at' := fun (t : State) (now : Nat) => t.field stat 0 4 = now
    let epochUp := fun (t : State) => t.field stat 32 32 = (epoch + 1) % 2 ^ 32
    let settled := fun (t : State) => t.field stat 32 32 = epoch ∧
      at' t (if s.dev.wvalid s.part n then (if s.dev.bankTrack n then 3 else 4) else 1)
    let count := fun (t : State) (off m : Nat) => t.reg (pwbR n off) = countUp (s.reg (pwbR n off)) m
    let read := fun (src : W64) (i : Nat) => ({
      src := mkSrc s.dev.node 0x1F (BitVec.ofNat 6 n), addr := src + BitVec.ofNat 64 (128 * i)
      tag := k.tag + BitVec.ofNat 12 i, op := .read 8, bulk := true } : Req)
    let lowNow := s.dev.now.toNat % 2 ^ 32
    -- requests
    ((st = 0 ∨ st = 6) → (Answers (.pwbLoad b) s fun t => t.field load 4 4 = 4 ∧ Raised s t 31 [load]) ∧
      Answers (.pwbCal b) s fun t => Raised s t 31 []) ∧
    (st ≠ 0 → st ≠ 6 →
      (s.field load 0 2 = 0 → Answers (.pwbLoad b) s fun t => t.field load 0 2 = 2 ∧ t.field load 2 62 = s.field load 2 62 ∧
        Still s t ∧ RegsOnly s t [load]) ∧
      (s.field load 0 2 ≠ 0 → Answers (.pwbLoad b) s fun t => Raised s t 31 []) ∧
      (s.field cal 0 2 = 0 → Answers (.pwbCal b) s fun t => t.field cal 0 2 = 2 ∧ t.field cal 2 62 = s.field cal 2 62 ∧
        Still s t ∧ RegsOnly s t [cal]) ∧
      (s.field cal 0 2 ≠ 0 → Answers (.pwbCal b) s fun t => Raised s t 31 [])) ∧
    -- loads
    (s.dev.canLoad s.part n = true → (∀ m ∈ bankNeighbours n, m < n → s.dev.canLoad s.part m = false) →
      let src := s.reg (pwbR n 0x20)
      (src.toNat % 128 = 0 → gaNode src = s.dev.node → Answers (.loadStart b) s fun t => at' t 2 ∧ t.field load 0 2 = 1 ∧
        t.dev.net = ((List.range 34).foldl (fun d i => d.sendReq s.part (read src i)) s.dev).net ∧
        t.dev.bank n = { k with tag := k.tag + 34, load := some { reads := (List.range 34).map fun i => (k.tag + BitVec.ofNat 12 i, i) } } ∧
        (∀ a, a ∉ [stat, load] → t.reg a = s.reg a) ∧ Still s t) ∧
      (src.toNat % 128 ≠ 0 ∨ gaNode src ≠ s.dev.node → s.dev.bankRingFail n = false → Answers (.loadStart b) s fun t =>
        settled t ∧ t.field load 0 2 = 0 ∧ t.field load 4 4 = 1 ∧ t.field load 32 32 = lowNow ∧ t.dev.net = s.dev.net ∧
        (∀ a, a ∉ [stat, load] → t.reg a = s.reg a) ∧ Still s t)) ∧
    (∀ l, k.load = some l → st = 2 → l.ready = true → l.steps = 64 → s.dev.bankTrack n = true →
      (Answers (.loadComplete b true) s fun t =>
        let img := (l.got.map Prod.snd).flatten
        at' t 3 ∧ epochUp t ∧ t.field stat 4 1 = 1 ∧ t.field load 4 4 = 0 ∧ t.field load 0 1 = 0 ∧ t.field load 32 32 = lowNow ∧
        count t 0x130 1 ∧ t.dev.bank n = { k with load := none, q := img.take 4096, c := imageScales img } ∧
        (∀ a, a ∉ [stat, load, pwbR n 0x130] → t.reg a = s.reg a) ∧ Still s t) ∧
      (Answers (.loadComplete b false) s fun t => at' t 1 ∧ t.field stat 32 32 = epoch ∧ t.field stat 4 1 = 0 ∧ t.field load 4 4 = 3 ∧
        t.field load 0 1 = 0 ∧ (t.dev.bank n).q = [] ∧ (t.dev.bank n).c = [] ∧ RegsKept s t [stat, load] ∧
        t.reg (fltR 31 0x40) = countUp (s.reg (fltR 31 0x40)) 1 ∧ Still s t)) ∧
    -- calibration
    (s.dev.canCal s.part n = true → (∀ m ∈ bankNeighbours n, m < n → s.dev.canCal s.part m = false) →
      Answers (.calStart b) s fun t => at' t 5 ∧ t.field cal 0 2 = 1 ∧ t.field stat 4 60 = s.field stat 4 60 ∧ Still s t ∧
        RegsOnly s t [stat, cal]) ∧
    (∀ (i : BitVec 13) (v : W64), st = 5 → i.toNat < 4160 → s.dev.bankRingFail n = false → Answers (.calComplete b [(i, v)]) s fun t =>
      let trim := pwbR n (0x40000 + 8 * i.toNat)
      settled t ∧ t.reg trim = (if i.toNat < 64 then v else v &&& 0xFFFFFFFFFFFF) ∧ t.field cal 0 1 = 0 ∧
      t.field cal 32 32 = lowNow ∧ t.field (pwbR n 0x58) 16 16 = s.field (pwbR n 0x58) 0 16 ∧ count t 0x138 1 ∧ (t.dev.bank n).calT = some s.dev.now ∧
      (∀ a, a ∉ [stat, cal, trim, pwbR n 0x58, pwbR n 0x138] → t.reg a = s.reg a) ∧ Still s t) ∧
    (∀ cause, k.autoCause = some cause → st ≠ 0 → st ≠ 6 → s.field cal 0 2 = 0 →
      (240000 ≤ elapsed s.dev.now cause ∨ ∀ c : BitVec 3, s.dev.chRun s.part n c.toNat = false) → Answers (.autoCal b) s fun t =>
        t.field cal 0 2 = 2 ∧ t.dev.bank n = { k with autoCause := none } ∧ (∀ a, a ≠ cal → t.reg a = s.reg a) ∧ Still s t) ∧
    (∀ p : ProbeStats, st = 3 → s.field (pwbR n 0x10) 8 4 ≠ 0 → s.dev.injBits 31 12 n = 0 →
      (s.dev.bankPrecise s.part n = true → figuresOk p (s.field (pwbR n 0x10) 1 3) = true) → Answers (.probeWindow b p) s fun t =>
      let low := p.enob.toNat < s.field (pwbR n 0x10) 16 8
      let regs := [pwbR n 0x40, pwbR n 0x48, pwbR n 0x108]
      t.reg (pwbR n 0x40) = p.mean ++ p.rms ∧ t.field (pwbR n 0x48) 0 32 = p.maxAbs.toNat ∧ t.field (pwbR n 0x48) 32 8 = p.enob.toNat ∧
      t.field (pwbR n 0x48) 40 6 = p.worst.toNat ∧ t.field (pwbR n 0x48) 47 1 = 1 ∧
      t.field (pwbR n 0x48) 48 16 = (s.field (pwbR n 0x48) 48 16 + 1) % 2 ^ 16 ∧ count t 0x108 (4096 - k.probes) ∧
      (¬low → (∀ a, a ∉ regs → t.reg a = s.reg a) ∧ t.dev.bank n = { k with probes := 0 }) ∧
      (low → RegsKept s t regs ∧ t.reg (fltR 31 0x40) = countUp (s.reg (fltR 31 0x40)) 1 ∧
        (s.dev.bit s.part (pwbR n 0x10) 12 = true → (t.dev.bank n).autoCause.isSome = true)) ∧ Still s t) ∧
    -- states
    (st = 4 → s.dev.bankTrack n = true → Answers (.stallClear b) s fun t => at' t 3 ∧ epochUp t ∧
      t.field stat 4 28 = s.field stat 4 28 ∧ Still s t ∧ RegsOnly s t [stat]) ∧
    (st ≠ 0 → st ≠ 6 → s.field load 0 1 = 0 → Answers (.lanternInputLost b) s fun t => at' t 6 ∧ t.field stat 4 60 = s.field stat 4 60 ∧
      t.field cal 0 2 = 0 ∧ Raised s t 31 [stat, cal]) ∧
    (∀ (stage : Fin 5) (total : BitVec 16) (lines : List (BitVec 16)) (line : BitVec 6) (low : BitVec 16),
      let a := pwbR n (0x60 + 8 * stage.val)
      let reads := fun (t : State) => t.field a 0 16 = total.toNat ∧ t.field a 16 16 = low.toNat ∧ t.field a 32 6 = line.toNat ∧
        smGet [] (t.dev.bank n).levels stage.val = lines ∧ Still s t
      let raised := fun (t : State) (regs : List Nat) => t.reg (fltR 31 0x40) = countUp (s.reg (fltR 31 0x40)) 1 ∧ RegsKept s t regs
      lines.length = 64 → lines[line.toNat]? = some low → (∀ x ∈ lines, low.toInt ≤ x.toInt) →
      (∀ before : Int, stage.val ≠ 0 → smGet [] k.levels (stage.val - 1) ≠ [] →
        before = (BitVec.ofNat 16 (s.field (pwbR n (0x60 + 8 * (stage.val - 1))) 0 16)).toInt →
        let alarms := (if stage.val = 1 then 700 else if stage.val = 2 then 600 else if stage.val = 3 then 800 else 300) < before - total.toInt
        (alarms → Answers (.pmonAlarm b stage total lines line) s fun t => reads t ∧ t.field a 40 1 = 1 ∧ raised t [a]) ∧
        (¬alarms → Answers (.pmonAlarm b stage total lines line) s fun t => reads t ∧ t.field a 40 1 = s.field a 40 1 ∧
          ∀ z, z ≠ a → t.reg z = s.reg z)) ∧
      (stage.val = 0 → total.toInt < 1506 → st ≠ 0 → st ≠ 6 → s.field load 0 1 = 0 →
        Answers (.pmonAlarm b stage total lines line) s fun t => reads t ∧ at' t 6 ∧ raised t [a, stat, cal])) ∧
    (Answers (.pwbReset b) s fun t => t.dev.bankState t.part n = 0 ∧ at' t (s.field stat 0 4) ∧ t.field stat 4 1 = 0 ∧
      t.field stat 32 32 = epoch ∧ (t.dev.bank n).parking = (if s.field stat 0 4 = 0 then none else some (k.parking.getD s.dev.now)) ∧
      (s.field load 0 2 ≠ 0 → t.field load 4 4 = 4) ∧ (t.dev.bank n).q = [] ∧ (t.dev.bank n).ch = [] ∧ (t.dev.bank n).load = none ∧
      (∀ off, off < 0x80000 → bankKept (pwbR n off) = true → t.reg (pwbR n off) = s.reg (pwbR n off)) ∧
      (∀ a, ctlSite a ≠ 31 ∨ ctlBlk a ≠ 0x40 + n → t.reg a = s.reg a) ∧ (∀ m, m ≠ n → t.dev.bank m = s.dev.bank m) ∧ Still s t) ∧
    (∀ since, k.parking = some since →
      (19200 ≤ elapsed s.dev.now since → Answers (.parkComplete b) s fun t => t.dev.bank n = { k with parking := none, fed := [] } ∧
        at' t 0 ∧ t.field (pwbR n 0x50) 0 13 = 0 ∧ (∀ r, r < 4160 → t.dev.ringPh t.part (bankRing n r) = .park) ∧
        (∀ a, a ∉ [stat, pwbR n 0x50] → t.reg a = s.reg a) ∧ Still s t) ∧
      (elapsed s.dev.now since < 19200 → Answers (.parkComplete b) s fun t => t = s)) ∧
    (s.field stat 0 4 = 0 → k.parking = none → s.dev.heldOut s.part (n / 2) = false → s.dev.bootReached s.part 7 = true → s.dev.ltnSt s.part (bankLantern n) = 3 →
      Answers (.bankUnpark b) s fun t => at' t 1 ∧ t.field (pwbR n 0x50) 0 13 = 0 ∧ count t 0x128 4160 ∧
        (∀ r, r < 4160 → t.dev.ringPh t.part (bankRing n r) = .sweep) ∧
        (∀ a, a ∉ [stat, pwbR n 0x50, pwbR n 0x128] → t.reg a = s.reg a) ∧ Still s t)

/-- R252 to R255, R263, R267, R504 and R507: rings that leave TRACK and lock again, trims that move and the package
recalibration. A disturbed ring is verified, one on a wrong line or order is swept and counted, and a READY bank stalls; a
channel's suspect range covers the tiles since the last clean check. A trim word written moves from its live value in 64
steps, each 300 ticks after the one before; DEFAULTS moves every trim of a site to its fused word. The model's choices among
these: what a suspect range covers and how a failed sweep shows (log entry 39), that locking and losses show in STATE and LOCK
as read here (log entry 37), that calibration results are free (log entry 40), and the rings of planes (log entry 41). -/
def Obligations.RingsAndTrims : Prop :=
  (∀ (s : State) (b : BitVec 5) (r : Fin 4160),
    let n := b.toNat
    let i := bankRing n r.val
    let st := s.dev.bankState s.part n
    let lock := pwbR n 0x50
    let stat := pwbR n 8
    let shown := s.dev.bankShown s.part n
    let out := fun (t : State) (cause : Nat) => t.field lock 0 13 = s.field lock 0 13 - 1 ∧ t.field lock 16 13 = r.val ∧
      t.field lock 29 2 = cause ∧ t.field lock 32 32 = s.dev.now.toNat % 2 ^ 32 ∧
      (t.dev.ring i).cleanT = (s.dev.ring i).cleanT ∧ (t.dev.ring i).cleanSeq = (s.dev.ring i).cleanSeq ∧
      t.field stat 0 4 = (if st = 3 then 4 else shown) ∧ t.field stat 4 60 = s.field stat 4 60 ∧ Still s t
    let swept := fun (t : State) => t.reg (pwbR n 0x120) = countUp (s.reg (pwbR n 0x120)) 1 ∧
      t.reg (pwbR n 0x128) = countUp (s.reg (pwbR n 0x128)) 1
    let back := fun (t : State) (regs : List Nat) => t.dev.ring i = { s.dev.ring i with ph := .track, found := none } ∧
      t.field lock 0 13 = (s.field lock 0 13 + 1) % 2 ^ 13 ∧ (∀ a, a ∉ lock :: regs → t.reg a = s.reg a) ∧ Still s t
    ((s.dev.ring i).ph = .track → shown ≠ 0 →
      (Answers (.ringDisturbance (.bank b r)) s fun t => (t.dev.ring i).ph = .verify ∧ out t 3 ∧
        ∀ a, a ∉ [lock, stat] → t.reg a = s.reg a) ∧
      (Answers (.identityCheck (.bank b r) .right) s fun t => (t.dev.ring i).ph = .track ∧ (t.dev.ring i).cleanT = some s.dev.now ∧
        t.dev = { s.dev with rings := t.dev.rings } ∧ Still s t) ∧
      (∀ (found : RingId) (line : BitVec 6), (found = .wrongLine line ∨ found = .wrongOrder) →
        Answers (.identityCheck (.bank b r) found) s fun t => (t.dev.ring i).ph = .sweep ∧
          out t (if found = .wrongOrder then 2 else 1) ∧ swept t ∧ t.reg (fltR 31 0x40) = countUp (s.reg (fltR 31 0x40)) 1 ∧
          (st ∈ [2, 3, 4] → ∀ (c : BitVec 3) (lo : BitVec 16), s.dev.bit s.part (chR n c.toNat 0x28) 32 = false →
            (s.dev.ring i).cleanT.isSome = true → (s.dev.ring i).cleanSeq[c.toNat]? = some lo → lo ≠ s.dev.chNext s.part n c.toNat →
            t.field (chR n c.toNat 0x28) 0 16 = lo.toNat ∧
            t.field (chR n c.toNat 0x28) 16 16 = (s.dev.chNext s.part n c.toNat - 1).toNat ∧ t.field (chR n c.toNat 0x28) 32 1 = 1))) ∧
    ((s.dev.ring i).ph = .sweep → shown ≠ 0 →
      (∀ j : Fin 3, Answers (.sweepEnd (.bank b r) (some j)) s fun t => back t [pwbR n 0x128] ∧
        t.reg (pwbR n 0x128) = countUp (s.reg (pwbR n 0x128)) j.val) ∧
      (st ∈ [1, 4] → s.field (pwbR n 0x28) 0 1 = 0 → Answers (.sweepEnd (.bank b r) none) s fun t => (t.dev.ring i).ph = .fail ∧
        t.field stat 0 4 = 6 ∧ t.reg (pwbR n 0x128) = countUp (s.reg (pwbR n 0x128)) 2 ∧
        t.reg (fltR 31 0x40) = countUp (s.reg (fltR 31 0x40)) 1 ∧ RegsKept s t [stat, pwbR n 0x30, pwbR n 0x128] ∧ Still s t)) ∧
    ((s.dev.ring i).ph = .verify →
      (Answers (.ringVerify (.bank b r) true) s fun t => back t []) ∧
      (Answers (.ringVerify (.bank b r) false) s fun t => (t.dev.ring i).ph = .sweep ∧ swept t ∧
        (∀ a, a ∉ [pwbR n 0x120, pwbR n 0x128] → t.reg a = s.reg a) ∧ Still s t))) ∧
  (∀ (s : State) (f : BitVec 6) (k : BitVec 5), s.dev.bootReached s.part 7 = true →
    let r : Ring := .port f k
    let goes := fun (i : Instr) (ph : RingPh) => Answers i s fun t => (t.dev.ring (ringIx r)).ph = ph ∧
      (∀ j, j ≠ ringIx r → t.dev.ring j = s.dev.ring j) ∧ t.dev = { s.dev with rings := t.dev.rings } ∧ Still s t
    let ph := (s.dev.ring (ringIx r)).ph
    (ph = .track → goes (.ringDisturbance r) .verify ∧ goes (.identityCheck r .right) .track ∧ goes (.identityCheck r .wrongOrder) .sweep) ∧
    (ph = .sweep → (∀ j, goes (.sweepEnd r (some j)) .track) ∧ goes (.sweepEnd r none) .fail) ∧
    (ph = .verify → goes (.ringVerify r true) .track ∧ goes (.ringVerify r false) .sweep)) ∧
  (∀ (s : State) (e : Fin 25) (plane : Bool) (trunk : BitVec 4) (k : BitVec 6), s.dev.bootReached s.part 7 = true →
    let r : Ring := .lattice e plane trunk k
    (s.dev.ring (ringIx r)).ph = .track → s.dev.inFallback s.part e.val = false →
      Answers (.ringDisturbance r) s fun t => (t.dev.ring (ringIx r)).ph = .verify ∧ t.dev.planeOk t.part e.val plane = false ∧
        (∀ a, a ≠ latR e.val 0 → t.reg a = s.reg a) ∧ Still s t) ∧
  (∀ (s : State) (b : BitVec 5) (i : Fin 4160) (v : W64),
    let a := pwbR b.toNat (0x40000 + 8 * i.val)
    (s.dev.bankState s.part b.toNat ≠ 5 → Answers (.trimWrite (BitVec.ofNat 40 a) v) s fun t =>
      t.reg a = (if i.val < 64 then v else v &&& 0xFFFFFFFFFFFF) ∧ smGet none t.dev.slews a = some ⟨s.dev.liveTrim s.part a, 0, s.dev.now⟩ ∧
      (∀ z, z ≠ a → t.reg z = s.reg z ∧ smGet none t.dev.slews z = smGet none s.dev.slews z) ∧ Still s t) ∧
    (s.dev.bankState s.part b.toNat = 5 → Answers (.trimWrite (BitVec.ofNat 40 a) v) s fun t => Raised s t 31 [])) ∧
  (∀ (s : State) (a : BitVec 40) (x : Slew), smGet none s.dev.slews a.toNat = some x →
    (300 * (x.steps + 1) ≤ elapsed s.dev.now x.t →
      Answers (.trimSlewStep a) s fun t => smGet none t.dev.slews a.toNat = (if 63 ≤ x.steps then none else some { x with steps := x.steps + 1 }) ∧
        (∀ z, z ≠ a.toNat → smGet none t.dev.slews z = smGet none s.dev.slews z) ∧
        t.dev = { s.dev with slews := t.dev.slews } ∧ Still s t) ∧
    (elapsed s.dev.now x.t < 300 * (x.steps + 1) → Answers (.trimSlewStep a) s fun t => t = s)) ∧
  (∀ (s : State) (site : BitVec 5), (∀ a, isTrim s.part a = true → ctlSite a = site.toNat → s.dev.inCal s.part a = false) →
    Answers (.calDefaults site) s fun t =>
      (∀ a, isTrim s.part a = true → ctlSite a = site.toNat → t.reg a = resetWord s.part a) ∧
      (∀ a, isTrim s.part a = false ∨ ctlSite a ≠ site.toNat → t.reg a = s.reg a) ∧ Still s t) ∧
  (∀ s : State,
    let stat := calR 31 8
    (s.dev.recal = none → s.dev.stopStep = 0 → Answers .pkgGo s fun t => t.field stat 1 3 = 3 ∧
      (∃ r, t.dev.recal = some r ∧ r.phase = 1 ∧ r.eps = s.dev.recalEps1 s.part) ∧
      (∀ a ∈ [calR 31 0x10, calR 31 0x18, calR 31 0x20], t.reg a = 0) ∧
      (∀ a, a ∉ [stat, calR 31 0x10, calR 31 0x18, calR 31 0x20] → t.reg a = s.reg a) ∧ Still s t) ∧
    (s.dev.recal ≠ none → Answers .pkgGo s fun t => Raised s t 31 []) ∧
    (∀ r ok, s.dev.recal = some r → r.phase = 3 → r.round = 3 → r.banks = [] → (∀ f ∈ roundPorts 3, s.dev.portLit s.part f = false) →
      Answers (.pkgRecalPhase ok) s fun t => t.dev.recal = none ∧ t.field stat 1 3 = 0 ∧
        t.field stat 32 32 = s.dev.now.toNat % 2 ^ 32 ∧ (∀ b ∈ roundBanks 3, (t.reg (calR 31 0x10)).getLsbD (32 + b) = true) ∧
        (∀ a, a ∉ [stat, calR 31 0x10] → t.reg a = s.reg a) ∧ Still s t))

/-- R265, R268, R277, R280, R281, R285 to R301: the lattice. A slot shows its number and each endpoint's words; slot 0 fixes the
origin. Bytes that pass as the packet of the expected LSEQ are delivered and acknowledged, one already delivered is acknowledged
again, and bytes whose CRC or TYPE fails are discarded with a NAK; failures with three peers lose the plane. Planes become
unhealthy and healthy; a switch-over moves every pair that R286 moves but those of a peer that still switches; FORCE and RETURN
act unless a switch-over is in progress; an endpoint without a plane falls back, and RESUME restarts its pairs at LSEQ 0. Frames
carry what the voted wiring carries, and a lane's eighth error within 1 ms fails it. The model's choices among these: when a
RETURN acts, that the loss of an idle plane is a switch-over with no pair to move, and what a fall-back tells whom (log entry 41), STOP and the slot words (log entry 42), roles and lanes (log
entry 43), the bytes and votes of frames and notices (log entry 87), the lane plan (log entry 88), the repair of a berth's
modules (log entry 107), the order among bids and grants (log entry 102), and that the retry of an injected flit is a
FLIT_RETRY command (log entry 111). -/
def Obligations.Lattice : Prop :=
  ∀ (s : State) (e : Fin 25) (plane : Bool),
    let n := e.val
    let stat := latR n 0
    let only := fun (t : State) (regs : List Nat) => (∀ a, a ∉ regs → t.reg a = s.reg a) ∧ Still s t
    let count := fun (t : State) (m off : Nat) => t.reg (latR m off) = countUp (s.reg (latR m off)) 1
    -- with this failure, fewer than three peers have failed within 1,024 slots
    let few := fun (x : LatFail) => failPeers ((s.dev.failsOf x.ep x.plane x.tx) ++ [x]) < 3
    -- slots
    (s.dev.bootReached s.part 7 = true → Answers .slot s fun t => t.reg (latcR 0x80000) = BitVec.ofNat 64 s.dev.slotNext ∧
      t.dev.slotNext = s.dev.slotNext + 1 ∧
      t.reg (latcR 0x80008) = (if s.dev.slotNext = 0 then s.dev.now else s.reg (latcR 0x80008)) ∧ (∃ w ∈ t.dev.latWords, w.slot = s.dev.slotNext ∧ w.ep = n ∧ w.plane = plane) ∧ Still s t) ∧
    -- packets
    (∀ pkt : LatPkt, Msg.lattice plane pkt ∈ s.dev.net → pkt.dst = e → s.dev.inFallback s.part n = false → s.dev.dormant s.part n = false →
      let a := pkt.src.val
      let exp := s.dev.pairExpect s.part n a
      let net := s.dev.net.erase (.lattice plane pkt)
      let acks := fun (t : State) (nak : Bool) (l : BitVec 10) => ∃ b, (n, a, b, l) ∈ t.dev.latAcks ∧ (nak = true → b = true) ∧
        ((∀ l', (n, a, true, l') ∉ s.dev.latAcks) → b = nak) ∧
        t.dev.latAcks.filter (fun x => x.1 != n || x.2.1 != a) = s.dev.latAcks.filter (fun x => x.1 != n || x.2.1 != a)
      (∀ got, latGood s.dev.node pkt got = false → Msg.lattice plane pkt ∉ s.dev.corrupt →
        let x : LatFail := ⟨s.dev.slotNext, n, plane, false, a, false⟩
        Answers (.latticePacket plane pkt got) s fun t => acks t true (exp - 1) ∧ t.dev.arrived = s.dev.arrived ∧ count t n 0x220 ∧
          (few x → t.dev.net = net ∧ only t [latR n 0x220]) ∧
          (¬few x → t.dev.planeOk t.part n plane = false ∧ (s.dev.planeOk s.part n plane = true → t.field stat 8 4 = 3) ∧
            only t [latR n 0x220, stat])) ∧
      -- bytes that an injected error has spoilt are refused so too, but count toward no trigger of R285 (R528)
      (∀ got, Msg.lattice plane pkt ∈ s.dev.corrupt → Answers (.latticePacket plane pkt got) s fun t => acks t true (exp - 1) ∧
        t.dev.arrived = s.dev.arrived ∧ count t n 0x220 ∧ (n, a) ∈ t.dev.latInj ∧ t.dev.latFails = s.dev.latFails ∧
        only t [latR n 0x220]) ∧
      (∀ got, latGood s.dev.node pkt got = true → Msg.lattice plane pkt ∉ s.dev.corrupt →
        (pkt.lseq = exp → Answers (.latticePacket plane pkt got) s fun t => acks t false exp ∧ count t n 0x208 ∧
          t.dev.pairExpect t.part n a = exp + 1 ∧ t.dev.net = net ∧
          t.dev.arrived = s.dev.arrived ++ (match bodyMsg pkt.body with | some m => [(n, pkt.vc, m)] | none => []) ∧
          only t [latR n 0x208, pairR n a]) ∧
        (pkt.lseq ≠ exp → Answers (.latticePacket plane pkt got) s fun t =>
          acks t (decide (512 ≤ (exp - 1 - pkt.lseq).toNat)) (exp - 1) ∧ t.dev.net = net ∧ t.dev.arrived = s.dev.arrived ∧ only t []))) ∧
    (∀ (nd : BitVec 16) (pkt : LatPkt), bodyType pkt.body ≠ 0 → latGood nd pkt (latImage nd pkt) = true) ∧
    (∀ (dst : Fin 25) (nak : Bool) (x : LatSent), s.dev.latReplay.find? (fun y => y.pkt.src == e && y.pkt.dst == dst) = some x →
      (nak = true → (n, dst.val) ∈ s.dev.latNaks) →
      (nak = false → x.due = false ∧ x.slot + 256 ≤ s.dev.slotNext ∧ few ⟨s.dev.slotNext, n, s.dev.pairPlane s.part n dst.val, true, dst.val, false⟩) →
      Answers (.latticeRetransmit e dst nak) s fun t => (n, dst.val) ∉ t.dev.latNaks ∧
        t.dev.latReplay = s.dev.latReplay.map (fun y => if y.pkt.src.val = n ∧ y.pkt.dst.val = dst.val then { y with due := true } else y) ∧
        (let other := !s.dev.pairPlane s.part n dst.val
          if 8 ≤ x.tries ∧ s.dev.planeOk s.part n other = true ∧ s.dev.planeOk s.part dst.val other = true then
            t.dev.pairPlane t.part n dst.val = other ∧ t.field (pairR n dst.val) 50 1 = 1 ∧ only t [pairR n dst.val]
          else only t [])) ∧
    (∀ (dst : Fin 25) (ok : Bool),
      let pl := !s.dev.pairPlane s.part n dst.val
      s.dev.probeOpen s.part n dst.val = true →
      few ⟨s.dev.slotNext, n, pl, true, dst.val, true⟩ → few ⟨s.dev.slotNext, dst.val, pl, false, n, true⟩ →
      Answers (.latticeProbe e dst ok) s fun t => t.dev.probeOpen t.part n dst.val = false ∧ count t n 0x200 ∧ (ok = false → count t dst.val 0x220) ∧
        only t (latR n 0x200 :: if ok then [] else [latR dst.val 0x220])) ∧
    -- plane health
    (∀ (i : Instr) (cause : BitVec 4), 1 ≤ cause.toNat → cause.toNat ≤ 7 →
      ((i = .planeUnhealthy e plane cause ∧ s.dev.triggered n plane cause.toNat = true) ∨
        (i = .latForce e plane ∧ cause = 6 ∧ s.dev.switching s.part n = false)) →
      s.dev.planeOk s.part n plane = true → Answers i s fun t =>
        t.dev.planeOk t.part n plane = false ∧ t.dev.planeOk t.part n (!plane) = s.dev.planeOk s.part n (!plane) ∧
        t.field stat 8 4 = cause.toNat ∧ t.field stat 12 1 = (if plane then 1 else 0) ∧ t.field stat 32 32 = s.dev.now.toNat % 2 ^ 32 ∧
        (s.dev.inFallback s.part n = true ∨ s.dev.planeOk s.part n (!plane) = false → t.dev.net = s.dev.net) ∧
        (s.dev.inFallback s.part n = false → s.dev.planeOk s.part n (!plane) = true → t.dev.switching t.part n = true ∧
          n ∉ t.dev.returning ∧ t.dev.net = s.dev.net ++ List.replicate 24 (.notice e plane false)) ∧ only t [stat]) ∧
    (s.dev.switching s.part n = true → (Answers (.latForce e plane) s fun t => Raised s t 31 []) ∧
      Answers (.latReturn e) s fun t => Raised s t 31 []) ∧
    (s.dev.bootReached s.part 7 = true → s.dev.planeOk s.part n plane = false → s.dev.dormant s.part n = false →
      s.dev.planeTracks n plane = true → s.dev.planeLit s.part plane = true → s.dev.accessOut n = false →
      smGet 0 s.dev.planeErr (2 * n + (if plane then 1 else 0)) + 1024 ≤ s.dev.slotNext →
      Answers (.planeHealthy e plane) s fun t => t.dev.planeOk t.part n plane = true ∧ t.field stat 2 62 = s.field stat 2 62 ∧ only t [stat]) ∧
    -- switch-over
    (∀ gap : BitVec 5, s.dev.switching s.part n = true → (s.dev.planeOk s.part n false || s.dev.planeOk s.part n true) = true →
      Answers (.switchOver e gap) s fun t => t.dev.switching t.part n = false ∧ count t n 0x230 ∧
        (∀ (f : Fin 25) (pl : Bool), f ≠ e → s.dev.inFallback s.part f.val = false → s.dev.switching s.part f.val = false →
          s.dev.selectPlane s.part n f.val = some pl → t.dev.pairPlane t.part n f.val = pl ∧ t.dev.pairPlane t.part f.val n = pl) ∧
        t.field (latR n 0x10) 0 5 = min gap.toNat 16 ∧ t.field (latR n 0x10) 32 32 = s.dev.now.toNat % 2 ^ 32 ∧
        (n ∉ s.dev.returning → t.reg (fltR 31 0x40) = countUp (s.reg (fltR 31 0x40)) 1) ∧ Still s t) ∧
    (∀ at' : Fin 25, at' ≠ e →
      let w := noticeWord n plane false
      let f := noticeWord n plane true
      (s.dev.switching s.part n = true → Answers (.switchNotice at' e plane false ⟨w, w, w⟩) s fun t => (at'.val, n, plane) ∈ t.dev.noticed ∧
        t.dev.net = s.dev.net.erase (.notice e plane false) ∧ only t []) ∧
      (∀ y, y ≠ w → s.dev.switching s.part n = true → Answers (.switchNotice at' e plane false ⟨w, y, w⟩) s fun t =>
        (at'.val, n, plane) ∈ t.dev.noticed ∧ t.reg (fltR 31 0x40) = countUp (s.reg (fltR 31 0x40)) 1 ∧ RegsKept s t [] ∧ Still s t) ∧
      (s.dev.inFallback s.part n = true → Answers (.switchNotice at' e plane true ⟨f, f, f⟩) s fun t =>
        t.dev.pairDown t.part at'.val n = true ∧ t.dev.pairDown t.part n at'.val = true ∧ only t [pairR at'.val n, pairR n at'.val])) ∧
    (s.dev.switching s.part n = false → s.dev.inFallback s.part n = false →
      (∃ (f : Fin 25) (pl : Bool), f ≠ e ∧ s.dev.inFallback s.part f.val = false ∧ s.dev.selectPlane s.part n f.val = some pl ∧
        s.dev.pairPlane s.part n f.val ≠ pl) → Answers (.latReturn e) s fun t =>
        t.dev.switching t.part n = true ∧ n ∈ t.dev.returning ∧ (∃ pl, Msg.notice e pl false ∈ t.dev.net) ∧ only t [stat]) ∧
    -- fall-back
    (n < 23 → s.dev.bootReached s.part 7 = true → s.dev.dormant s.part n = false → s.dev.inFallback s.part n = false →
      s.dev.planeOk s.part n false = false → s.dev.planeOk s.part n true = false → s.dev.switching s.part n = false → s.dev.handoff = none →
      Answers (.fallBack e) s fun t => t.dev.inFallback t.part n = true ∧ t.dev.switching t.part n = false ∧
        (∀ f : Fin 25, f ≠ e → t.dev.pairDown t.part n f.val = true ∧ t.dev.pairDown t.part f.val n = true) ∧
        (∀ x ∈ t.dev.latReplay, x.pkt.src ≠ e ∧ x.pkt.dst ≠ e) ∧ (∀ pl pkt, Msg.lattice pl pkt ∈ t.dev.net → pkt.src ≠ e ∧ pkt.dst ≠ e) ∧
        (∀ r, Msg.req r ∈ s.dev.net → srcNode r.src = s.dev.node → isW (srcSite r.src).toNat = false → onWiring r = false →
          s.dev.endsTouch s.part n (.req r) = true → reqAttempt r = none →
          (∀ q, Msg.req q ∈ s.dev.net → q.src = r.src → q.tag = r.tag → q = r) →
          ∃ y : Resp, Msg.resp y ∈ t.dev.net ∧ y.dst = r.src ∧ y.tag = r.tag ∧ y.status = stSiteDown) ∧
        t.reg (fltR 31 0x40) = countUp (s.reg (fltR 31 0x40)) 1 ∧ Still s t) ∧
    (s.dev.inFallback s.part n = true → s.dev.planeOk s.part n plane = true → Answers (.latResume e) s fun t =>
      t.dev.inFallback t.part n = false ∧ (∀ x ∈ t.dev.latReplay, x.pkt.src ≠ e ∧ x.pkt.dst ≠ e) ∧
      (∀ x ∈ t.dev.noticed, x.1 ≠ n ∧ x.2.1 ≠ n) ∧
      (∀ f : Fin 25, f ≠ e → t.dev.pairNext t.part n f.val = 0 ∧ t.dev.pairNext t.part f.val n = 0 ∧
        t.dev.pairExpect t.part n f.val = 0 ∧ t.dev.pairExpect t.part f.val n = 0 ∧ t.dev.pairOut t.part n f.val = 0 ∧
        t.dev.pairDown t.part n f.val = s.dev.inFallback s.part f.val) ∧ Still s t) ∧
    -- the voted control wiring
    (∀ (site : BitVec 5) (x : BitVec 128) (r : Req), s.dev.injBits 31 10 site.toNat = 0 →
      (s.dev.framed s.part site.toNat (.req r) = true → Msg.req r ∈ s.dev.net →
        Answers (.frame site x x x (.req r)) s fun t => t.dev.net = s.dev.net.erase (.req r) ∧
          t.dev.arrived = s.dev.arrived ++ [(endpointOf site.toNat, .ctl, .req r)] ∧ count t (endpointOf site.toNat) 0x240 ∧
          only t [latR (endpointOf site.toNat) 0x240]) ∧
      (∀ opp at', Msg.departure site opp at' ∈ s.dev.net → Answers (.frame site x x x (.departure site opp at')) s fun t =>
        t.dev.net = s.dev.net.erase (.departure site opp at') ∧ only t []) ∧
      (∀ y, y ≠ x → s.dev.framed s.part site.toNat (.req r) = false →
        Answers (.frame site y x x (.req r)) s fun t => Raised s t 31 [])) ∧
    -- die-to-die lanes
    (∀ (site : BitVec 5) (g : BitVec 10), isG site.toNat = false → site.toNat < 23 → g.toNat < 768 →
      let a := laneR site.toNat g.toNat
      let role := s.field a 0 3
      let rr := roleR site.toNat role
      let bad := 768 * site.toNat + g.toNat
      let failed := fun (t : State) (regs : List Nat) => t.reg (fltR 31 0x40) = countUp (s.reg (fltR 31 0x40)) 1 ∧
        smGet 0 t.dev.lanesBad bad = smGet 0 s.dev.lanesBad bad + 1 ∧ RegsKept s t regs ∧ Still s t
      let spared := fun (t : State) => t.field a 16 2 = s.field a 16 2 + 1 ∧
        t.field rr 48 10 = (s.field rr 48 10 + 1) % 2 ^ 10 ∧ t.field a 0 16 = s.field a 0 16 ∧ failed t [a, rr]
      -- an injected error is retried and counts toward no lane's failure (R528)
      (∀ lane : BitVec 7, lane.toNat < 18 → s.dev.injBits site.toNat 4 g.toNat ≠ 0 → Answers (.flitRetry site ⟨g, lane⟩) s fun t =>
        t.field a 48 16 = min 0xFFFF (s.field a 48 16 + 1) ∧ t.dev.flitErrs = s.dev.flitErrs ∧
        t.reg (fltR site.toNat 0x50) = countUp (s.reg (fltR site.toNat 0x50)) 1 ∧ only t [a, fltR site.toNat 0, fltR site.toNat 0x50]) ∧
      (∀ lane : BitVec 7, lane.toNat < 18 → s.dev.injBits site.toNat 4 g.toNat = 0 →
        let recent := (smGet [] s.dev.flitErrs (bad * 128 + lane.toNat)).filter fun t => decide (elapsed s.dev.now t < 1200000)
        (recent.length < 7 → Answers (.flitRetry site ⟨g, lane⟩) s fun t =>
          t.field a 48 16 = min 0xFFFF (s.field a 48 16 + 1) ∧ t.field a 0 48 = s.field a 0 48 ∧
          smGet [] t.dev.flitErrs (bad * 128 + lane.toNat) = recent ++ [s.dev.now] ∧ only t [a]) ∧
        (7 ≤ recent.length → s.field a 13 2 < 2 → role < 4 → s.field a 16 2 < 2 → Answers (.flitRetry site ⟨g, lane⟩) s fun t =>
          t.field a 48 16 = min 0xFFFF (s.field a 48 16 + 1) ∧ spared t)) ∧
      (∀ left : LanesLeft, s.field a 13 2 < 2 → role < 4 →
        (s.field a 16 2 < 2 → Answers (.laneFail site g left) s spared) ∧
        (2 ≤ s.field a 16 2 → 8 ≤ left.good.toNat → s.field a 13 2 = 0 → Answers (.laneFail site g left) s fun t => t.field a 13 2 = 1 ∧
          t.field rr 16 10 = (s.field rr 16 10 + 1) % 2 ^ 10 ∧ failed t [a, rr]) ∧
        (2 ≤ s.field a 16 2 → left.good.toNat < 8 → s.field a 13 2 = 0 → Answers (.laneFail site g left) s fun t =>
          t.field a 13 2 = 2 ∧ t.field rr 32 10 = (s.field rr 32 10 + 1) % 2 ^ 10 ∧ Still s t)) ∧
      -- a memory group with no spare takes its channel out (R325)
      (∀ left : LanesLeft, 16 ≤ site.toNat → site.toNat < 20 → role = 4 → s.field a 16 2 = 2 → s.field a 13 2 = 0 → s.field a 8 5 < 12 →
        let c := 12 * (site.toNat - 16) + s.field a 8 5
        let st := s.dev.chanSt s.part c
        Answers (.laneFail site g left) s fun t => t.field a 13 2 = 2 ∧ t.dev.chanCut c = true ∧
          t.dev.chanSt t.part c = (if st = 1 ∨ st = 2 then 5 else st) ∧ Still s t)) ∧
    -- the UCIe modules of a berth (R446)
    (∀ (site : BitVec 5) (g : BitVec 10) (left : LanesLeft), isG site.toNat = true → g.toNat < 768 →
      let a := laneR site.toNat g.toNat
      let role := s.field a 0 3
      let rr := roleR site.toNat role
      let key := fun (h : Nat) => 2 * (768 * site.toNat + g.toNat) + h
      let half := if left.upper then 1 else 0
      let now := smGet 0 s.dev.halfBad (key half) + 1
      let other := smGet 0 s.dev.halfBad (key (1 - half))
      let failed := fun (t : State) (regs : List Nat) => t.reg (fltR 31 0x40) = countUp (s.reg (fltR 31 0x40)) 1 ∧
        smGet 0 t.dev.halfBad (key half) = now ∧ RegsKept s t regs ∧ Still s t
      s.field a 13 2 = 0 → role < 5 →
      (now ≤ 2 → Answers (.laneFail site g left) s fun t => t.field a 16 2 = max now (min 2 other) ∧
        t.field rr 48 10 = (s.field rr 48 10 + 1) % 2 ^ 10 ∧ failed t [a, rr]) ∧
      (2 < now → other ≤ 2 → Answers (.laneFail site g left) s fun t => t.field a 13 2 = 1 ∧
        t.field rr 16 10 = (s.field rr 16 10 + 1) % 2 ^ 10 ∧ failed t [a, rr]) ∧
      (2 < now → 2 < other → Answers (.laneFail site g left) s fun t => t.field a 13 2 = 2 ∧
        t.field rr 32 10 = (s.field rr 32 10 + 1) % 2 ^ 10 ∧ Still s t)) ∧
    -- the lane plan
    (∀ (p : Part) (site : Fin 21),
      let groups := fun (r : Nat) => bits (resetWord p (roleR site.val r)) 0 10
      let nbrs := match adjacentSites.find? (fun x => x.1 == site.val) with | some x => x.2.length | none => 0
      groups 1 = 164 ∧ groups 0 + groups 2 = 32 + 80 * nbrs ∧ (p.berth ≠ 0 → groups 0 = 32) ∧
      groups 3 = (if site.val < 16 then 132 else 0) ∧ groups 4 = if site.val < 16 ∨ site.val = 20 then 0 else 96)

/-- R344 to R363: a fabric port. A block beyond correction is discarded and counted, and a correctable one acts in UP; a packet
of the expected LSEQ is delivered, one that fails its CRC is lost and reported; unacknowledged packets are sent again. Identity
is compared row by row, widths follow the good lanes, and a port that leaves UP records its cause, counts, raises its fault and
hands its packets back. The model's choices among these: how packets fill blocks, when a block answers one, and that a codeword
beyond correction tells nothing (log entries 91 and 104), what an IDENT is compared with (log entry 44), how LEAVE is sent and
taken (log entry 45), the CRC (log entry 10), and the header fields a rule names only for some packets (log entry 86). -/
def Obligations.Ports : Prop :=
  ∀ (s : State) (f : BitVec 6),
    let n := f.toNat
    let st := s.dev.portSt s.part n
    let x := s.dev.port n
    let r := fun off => portR n off
    let only := fun (t : State) (regs : List Nat) => (∀ a, a ∉ regs → t.reg a = s.reg a) ∧ Still s t
    let count := fun (t : State) (off k : Nat) => t.reg (r off) = countUp (s.reg (r off)) k
    let faults := fun (t : State) => t.reg (fltR 31 0x40) = countUp (s.reg (fltR 31 0x40)) 1
    let now := s.dev.now.toNat % 2 ^ 32
    let enters := fun (t : State) (k : Nat) => t.field (r 8) 0 4 = k ∧ t.field (r 8) 32 32 = now ∧ (t.dev.port n).since = s.dev.now
    let lost := fun (t : State) (cause k : Nat) => enters t k ∧ t.field (r 8) 4 4 = cause ∧ count t 0x248 1 ∧
      t.field (r 0x28) 0 11 = 0 ∧ (t.dev.port n).replay = [] ∧ (t.dev.port n).rx = x.rx ∧ faults t
    let leaveRegs := [r 8, r 0x28, r 0x248, rtR 0x408, rtR 0x410] ++ (List.range 64).flatMap fun g => [portR g 0x238, portR g 0x240]
    let leftFor := fun (t : State) (cause k : Nat) => lost t cause k ∧ RegsKept s t leaveRegs ∧ Still s t
    let moves := fun (t : State) (k : Nat) => enters t k ∧ only t [r 8]
    let sends := fun (t : State) (m : PortMsg) => Msg.port f m ∈ t.dev.net
    let me : Ident := s.dev.identOf s.part n
    let inj := [fltR 31 0, fltR 31 0x50]
    let used := fun (y : FabPkt) => (((x.rx ++ [y]).filter fun z => z.vc = y.vc).map fabSize).sum
    -- link blocks
    (∀ b : LinkBlock, b.data.length ≠ 640 → Answers (.linkBlock f b) s fun t => t = s) ∧
    (∀ b : LinkBlock, b.data.length = 640 →
      let errs := symbolErrs b
      let c := b.ctrl
      let stop := s.field (r 0x28) 20 4
      -- the block sent in turn: IDLE, or DATA with the packets that wait, the first of them at byte 0 or gone on with
      let filled := fillBlock 640 x.out
      let kind := if x.out = [] then 0 else if x.outPart then 1 else 2
      let answers := fun (t : State) (ackv nak : Bool) => (t.dev.port n).sent = blockCtrl kind ackv nak (x.expect - 1) stop ∧
        (t.dev.port n).sentData = filled.1 ++ List.replicate (640 - filled.1.length) 0 ∧
        (t.dev.port n).out = filled.2.1 ∧ (t.dev.port n).outPart = filled.2.2 ∧
        (t.dev.port n).sentErrs = 8 * s.dev.injBits 31 7 n ∧ (t.dev.port n).nak = false ∧ count t 0x238 (if stop = 0 then 0 else 1)
      (5 ≤ st → st ≤ 9 → st ≠ 6 → 15 < errs.length → Answers (.linkBlock f b) s fun t => count t 0x218 1 ∧ only t [r 0x218] ∧
        t.dev.noRegs = s.dev.noRegs) ∧
      (st = 6 → x.cut = none → 15 < errs.length → Answers (.linkBlock f b) s fun t => count t 0x218 1 ∧ (t.dev.port n).resync = true ∧
        (t.dev.port n).expect = x.expect ∧ answers t (x.ackv || !x.resync) (x.nak || !x.resync) ∧ only t ([r 0x218, r 0x238] ++ inj)) ∧
      (st = 6 → errs = [] → Answers (.linkBlock f b) s fun t => t.field (r 0x28) 16 4 = (blockStop c).toNat ∧
        (t.dev.port n).blockT = s.dev.now ∧ answers t x.ackv x.nak ∧
        (t.dev.port n).resync = (x.resync && !(blockKind c == 2 && headLseq b.data == some x.expect)) ∧
        (blockAckv c = true → (∃ z ∈ x.replay, z.pkt.lseq = blockAseq c) → t.field (r 0x28) 48 12 = (blockAseq c).toNat ∧
          (t.dev.port n).replay = (x.replay.dropWhile fun z => z.pkt.lseq ≠ blockAseq c).drop 1) ∧
        (blockAckv c = true → blockNak c = true → count t 0x230 1) ∧
        (blockAckv c = false → (t.dev.port n).replay = x.replay ∧ t.field (r 0x28) 48 12 = s.field (r 0x28) 48 12) ∧
        only t ([r 0x28, r 0x230, r 0x238] ++ inj)) ∧
      (∀ k, 5 ≤ st → st ≤ 9 → errs = [k] →
        let w := symbolLane (s.dev.bit s.part (r 8) 13) (s.dev.goodLanes s.part n) k
        Answers (.linkBlock f b) s fun t => count t 0x210 1 ∧
          t.field (portLane n w) 48 16 = min 0xFFFF (s.field (portLane n w) 48 16 + 1) ∧ t.dev.symRecent n w = s.dev.symRecent n w ++ [s.dev.now] ∧
          only t ([r 0x28, r 0x210, r 0x230, r 0x238, portLane n w] ++ inj)) ∧
      (st = 1 → x.lit = false → Answers (.linkBlock f b) s fun t => faults t ∧ (t.dev.port n).lit = true ∧ RegsKept s t [] ∧ Still s t)) ∧
    -- the codeword of a block is its 514 message symbols and 30 of check
    (∀ (c : BitVec 20) (data : List Byte), (blockCodeword c data).length = 544 ∧ (blockCodeword c data).take 514 = blockSymbols c data) ∧
    -- packets
    (∀ (y : FabPkt) (got : List Byte), st = 6 →
      (fabGood y got = false → x.cut = none → Answers (.fabricPacket f y got) s fun t => count t 0x220 1 ∧
        t.dev.port n = { x with resync := true, nak := x.nak || !x.resync, ackv := x.ackv || !x.resync, head := [] } ∧ only t [r 0x220]) ∧
      (fabGood y got = true → x.resync = true → Answers (.fabricPacket f y got) s fun t => t = s) ∧
      (fabGood y got = true → x.resync = false → y.lseq = x.expect → Answers (.fabricPacket f y got) s fun t => count t 0x208 1 ∧
        (t.dev.port n).rx = (if x.cut = none then x.rx ++ [y] else x.rx) ∧ (t.dev.port n).cut = none ∧
        (t.dev.port n).expect = x.expect + 1 ∧ (t.dev.port n).ackv = true ∧
        (x.cut = none → (49152 < used y → t.field (r 0x28) (20 + vcCode y.vc) 1 = 1) ∧
          (used y ≤ 32768 → t.field (r 0x28) (20 + vcCode y.vc) 1 = 0)) ∧ only t [r 0x28, r 0x208]) ∧
      (fabGood y got = true → x.resync = false → x.cut = none → y.lseq ≠ x.expect → Answers (.fabricPacket f y got) s fun t =>
        (t.dev.port n).rx = x.rx ∧ (t.dev.port n).expect = x.expect ∧
        (t.dev.port n).resync = decide ((y.lseq - x.expect).toNat < 2048) ∧ only t []) ∧
      -- a packet already passed on is lost: its copy, launched at port g, ends with an ABORT (R352)
      (∀ (g : BitVec 6) (z : FabPkt) (w : LinkSent), fabGood y got = false → x.cut = some z → g ≠ f → (s.dev.port g.toNat).replay = [w] →
        samePkt w.pkt z = true → w.aborted = false → (∀ h, h ≠ g.toNat → (s.dev.port h).replay = [] ∧ (s.dev.port h).tq = []) →
        Answers (.fabricPacket f y got) s fun t => Msg.port g (.abort w.pkt.lseq) ∈ t.dev.net ∧
          (t.dev.port g.toNat).replay = [{ w with aborted := true }] ∧ (t.dev.port n).cut = none ∧
          t.reg (portR g.toNat 0x240) = countUp (s.reg (portR g.toNat 0x240)) 1 ∧ count t 0x220 1 ∧
          (t.dev.port g.toNat).sentData = ctrlBytes (.abort w.pkt.lseq) ∧
          only t ([r 0x220, portR g.toNat 0x238, portR g.toNat 0x240] ++ inj))) ∧
    (∀ (l : BitVec 12) (block : List Byte), st = 6 → ctrlMsgOf block = some (.abort l) → x.cut = none →
      Answers (.abort f block) s fun t => count t 0x240 1 ∧ (t.dev.port n).rx = x.rx ∧
        (t.dev.port n).expect = (if x.expect = l then l + 1 else x.expect) ∧ only t [r 0x240]) ∧
    (∀ nak : Bool, st = 6 → (nak = true → x.nakIn = true) → (nak = false → ∃ z, x.replay.head? = some z ∧ 720 ≤ elapsed s.dev.now z.last) →
      let copies := (x.replay.filter fun z => !z.aborted).length
      Answers (.portRetransmit f nak) s fun t => count t 0x200 copies ∧ count t 0x228 copies ∧ count t 0x240 (x.replay.length - copies) ∧
        t.dev.net = s.dev.net ++ x.replay.map (fun z => if z.aborted then Msg.port f (.abort z.pkt.lseq) else Msg.fabric f { z.pkt with rpl := true, ring := 0 }) ∧
        (t.dev.port n).replay = x.replay.map (fun z => { z with pkt := { z.pkt with rpl := true }, last := s.dev.now }) ∧
        (0 < copies → blockKind (t.dev.port n).sent = 2) ∧ (s.dev.injBits 31 6 n = 0 → t.dev.corrupt = s.dev.corrupt) ∧
        only t ([r 0x200, r 0x228, r 0x238, r 0x240] ++ inj)) ∧
    -- control messages carry a CRC and are read back; one that fails it, or of an unlisted type, is discarded (R347)
    (∀ m : PortMsg, (ctrlBytes m).length = 640 ∧ ctrlMsgOf (ctrlBytes m) = some m) ∧
    (∀ y : FabPkt, fabType y ≠ 0 → fabGood y (fabImage y) = true) ∧
    (∀ block : List Byte, ctrlMsgOf block = none → ∀ i ∈ [Instr.train f block, .ident f block, .identAck f block, .leave f block, .abort f block],
      Answers i s fun t => t = s) ∧
    -- leaving UP
    (∀ z, st = 6 → x.replay.head? = some z → 1800 ≤ elapsed s.dev.now z.first → Answers (.ackDeadline f) s fun t => leftFor t 1 11) ∧
    (384 ≤ elapsed s.dev.now x.blockT →
      (st = 6 → Answers (.blockLoss f) s fun t => leftFor t 2 11) ∧
      (st ∈ [5, 7, 8] → Answers (.blockLoss f) s fun t => moves t 11)) ∧
    (∀ (why : BitVec 8) (block : List Byte), ctrlMsgOf block = some (.leave why) →
      (st = 6 → Answers (.leave f block) s fun t => leftFor t 3 11) ∧
      (st ∈ [5, 7, 8] → Answers (.leave f block) s fun t => moves t 11) ∧
      -- both ends send LEAVE together (R363)
      (∀ t0 up, st = 3 → x.leftT = some (t0, up) → elapsed s.dev.now t0 ≤ 24 → Answers (.leave f block) s fun t => enters t 11 ∧
        t.field (r 8) 4 4 = (if up then 3 else s.field (r 8) 4 4) ∧ only t [r 8])) ∧
    (∀ y : LaneSeen,
      let a := portLane n y.lane.toNat
      let good := -900 ≤ y.rx.toInt ∧ (s.dev.symRecent n y.lane.toNat).length < 1024
      let read := fun (t : State) => t.field a 0 16 = y.tx.toNat ∧ t.field a 16 16 = y.rx.toNat
      (st = 6 → s.field a 40 1 = 1 → ¬good → Answers (.laneNotGood f y) s fun t => lost t 4 3 ∧ read t ∧ t.field a 40 1 = 0 ∧
        RegsKept s t (a :: leaveRegs) ∧ Still s t) ∧
      (st ≠ 6 ∨ s.field a 40 1 = 0 → ¬good → Answers (.laneNotGood f y) s fun t => read t ∧ t.field a 40 1 = 0 ∧ only t [a]) ∧
      (good → Answers (.laneNotGood f y) s fun t => read t ∧ t.field a 40 1 = 1 ∧ only t [a])) ∧
    (∀ light : Bool,
      (st = 6 → Answers (.portDisable f true false) s fun t => lost t 7 1 ∧ t.field (r 0) 0 1 = 1 ∧ sends t (.leave 2) ∧
        RegsKept s t (r 0 :: leaveRegs) ∧ Still s t) ∧
      (st ≠ 6 → Answers (.portDisable f true false) s fun t => t.field (r 0) 0 1 = 1 ∧ t.field (r 8) 0 4 = 1 ∧
        (5 ≤ st → st ≤ 9 → sends t (.leave 2)) ∧ only t ([r 0, r 8, r 0x238] ++ inj)) ∧
      (st = 1 → s.dev.listed s.part n = true → Answers (.portDisable f false light) s fun t => t.field (r 0) 0 1 = 0 ∧
        t.field (r 8) 0 4 = (if s.dev.portLit s.part n then 3 else 2) ∧ only t [r 0, r 8, r 0x18])) ∧
    (5 ≤ st → st ≤ 9 → Answers (.portRetrain f) s fun t => enters t 3 ∧ sends t (.leave 3) ∧ (st = 6 → lost t 7 3) ∧
      RegsKept s t leaveRegs ∧ Still s t) ∧
    -- training and identity
    (∀ (good : BitVec 16) (block : List Byte), st = 4 → ctrlMsgOf block = some (.train good) → Answers (.train f block) s fun t => t.field (r 0x18) 40 16 = good.toNat ∧
      t.field (r 0x18) 0 40 = s.field (r 0x18) 0 40 ∧ only t [r 0x18]) ∧
    (∀ q : BitVec 2, st = 3 → s.dev.offTrack (400000 + 32 * n) (400000 + 32 * (n + 1)) = [] → Answers (.portRingsTrack f q) s fun t =>
      enters t 4 ∧ t.field (r 8) 16 2 = q.toNat ∧ (∀ w : Fin 16, t.field (portLane n w.val) 32 6 = 16 * q.toNat + w.val) ∧
      (∃ g, sends t (.train g)) ∧ only t (r 8 :: r 0x238 :: inj ++ (List.range 16).map (portLane n))) ∧
    (∀ (locked : BitVec 16) (deskewed : Bool), st = 4 →
      let lane := fun (w : Nat) => s.dev.laneGood n w (BitVec.ofNat 16 (s.field (portLane n w) 16 16))
      let rg := s.dev.lockGood s.part n locked
      let tg := BitVec.ofNat 16 (s.field (r 0x18) 40 16)
      let low := min (laneCount rg) (laneCount tg)
      let ver := s.field (r 8) 8 4
      let v := if ver = 0 then s.dev.ownVmax s.part n else ver
      (∀ w : Fin 16, rg.getLsbD w.val = (locked.getLsbD w.val && lane w.val)) ∧
      (deskewed = false ∨ x.trained = false → Answers (.codewordLock f locked deskewed) s fun t => t = s) ∧
      (deskewed = true → x.trained = true → low < 8 ∨ (low < 16 ∧ v < 2) → Answers (.codewordLock f locked deskewed) s fun t => enters t 11 ∧
        only t (r 8 :: (List.range 16).map (portLane n))) ∧
      (deskewed = true → x.trained = true → 8 ≤ low → low = 16 ∨ 2 ≤ v → Answers (.codewordLock f locked deskewed) s fun t => enters t 5 ∧
        t.field (r 8) 12 1 = (if laneCount tg = 16 then 0 else 1) ∧ t.field (r 8) 13 1 = (if laneCount rg = 16 then 0 else 1) ∧
        (∀ w : Fin 16, t.field (portLane n w.val) 40 1 = if rg.getLsbD w.val then 1 else 0) ∧
        (∃ i, sends t (.ident i) ∧ i.node = s.dev.node ∧ i.port = f ∧ i.vmin = 1 ∧ i.good = rg) ∧
        only t (r 8 :: r 0x238 :: inj ++ (List.range 16).map (portLane n)))) ∧
    (∀ (i : Ident) (ack : Bool) (block : List Byte) (c : Instr), ctrlMsgOf block = some (if ack then .identAck i else .ident i) →
      c = (if ack then .identAck f block else .ident f block) →
      let own := s.dev.ownVmax s.part n
      let v := min own i.vmax.toNat
      let lists := fun g => s.dev.listed s.part g && s.field (portR g 0x10) 0 16 == i.node.toNat
      let matches' := lists n = true ∧ s.field (r 0x10) 16 6 = i.port.toNat
      let peer := fun (t : State) => t.field (r 0x18) 0 16 = i.node.toNat ∧ t.field (r 0x18) 16 6 = i.port.toNat ∧
        t.field (r 0x18) 24 4 = i.vmin.toNat ∧ t.field (r 0x18) 28 4 = i.vmax.toNat ∧ t.field (r 0x18) 36 1 = 1 ∧
        t.field (r 0x20) 0 32 = i.rcid.toNat ∧ t.field (r 0x20) 32 1 = (if i.rcid.toNat = s.dev.ownRcid s.part then 0 else 1)
      let kept := fun (t : State) => peer t ∧ RegsKept s t [r 8, r 0x18, r 0x20, r 0x28, r 0x238] ∧ Still s t
      let fails := fun (k : Nat) => Answers c s fun t => t.field (r 8) 0 4 = k ∧ (t.dev.port n).faulted = true ∧ kept t ∧
        (st = k → (t.dev.port n).refreshT = x.refreshT) ∧ (i.rcid.toNat = s.dev.ownRcid s.part → x.faulted = false → faults t)
      (st ∈ [5, 7, 8] →
        (v < 1 ∨ v < i.vmin.toNat → fails 9) ∧
        (1 ≤ v → i.vmin.toNat ≤ v → ¬matches' →
          (i.node = s.dev.node ∨ (∃ g : Fin 64, lists g.val = true) → fails 7) ∧
          (i.node ≠ s.dev.node → (∀ g : Fin 64, lists g.val = false) → fails 8)) ∧
        (1 ≤ v → i.vmin.toNat ≤ v → matches' →
          (v = 1 → s.field (r 8) 12 2 ≠ 0 → Answers c s fun t => t.field (r 8) 0 4 = 11 ∧ kept t) ∧
          (v ≠ 1 ∨ s.field (r 8) 12 2 = 0 → Answers c s fun t => t.field (r 8) 8 4 = v ∧ kept t ∧
            (x.sentAck = false → sends t (.identAck me)) ∧
            (ack = true ∨ x.gotAck = true → t.field (r 8) 0 4 = 6 ∧ t.field (r 0x28) 0 20 = 0 ∧ t.field (r 0x28) 32 32 = 0 ∧
              (t.dev.port n).expect = 0 ∧ (t.dev.port n).replay = []) ∧
            (ack = false → x.gotAck = false → t.field (r 8) 0 4 = st)))) ∧
      (st = 6 →
        (s.dev.peerNode s.part n = i.node.toNat → s.field (r 0x18) 16 6 = i.port.toNat → 1 ≤ v → i.vmin.toNat ≤ v →
          v = s.field (r 8) 8 4 → Answers c s fun t => peer t ∧ RegsKept s t [r 0x18, r 0x20] ∧ Still s t) ∧
        (s.dev.peerNode s.part n ≠ i.node.toNat ∨ s.field (r 0x18) 16 6 ≠ i.port.toNat ∨ v < 1 ∨ v < i.vmin.toNat ∨
          v ≠ s.field (r 8) 8 4 → Answers c s fun t => peer t ∧ t.field (r 8) 4 4 = 5 ∧ count t 0x248 1 ∧
            (t.dev.port n).replay = [] ∧ RegsKept s t (r 0x18 :: r 0x20 :: leaveRegs) ∧ Still s t))) ∧
    (12000000 ≤ elapsed s.dev.now x.since →
      (st = 3 ∨ st = 4 → Answers (.portStateTimeout f) s fun t => enters t 10 ∧ RegsKept s t [r 8] ∧ Still s t ∧
        (s.dev.listed s.part n = true → x.noPeer = false → faults t)) ∧
      (st = 10 ∨ st = 11 → Answers (.portStateTimeout f) s fun t => moves t 3)) ∧
    (st = 5 ∨ st = 8 → x.sentAck = true → x.gotAck = false → x.faulted = false → 12000000 ≤ elapsed s.dev.now x.ackT →
      Answers (.identAckTimeout f) s fun t => enters t 7 ∧ faults t ∧ RegsKept s t [r 8] ∧ Still s t) ∧
    (let m : PortMsg := if st = 6 ∨ x.sentAck = true then .identAck me else .ident me
     st ∈ [6, 7, 8] → 1200000 ≤ elapsed s.dev.now x.refreshT → Answers (.identRefresh f) s fun t =>
      t.dev.net = s.dev.net ++ [.port f m] ∧ (t.dev.port n).refreshT = s.dev.now ∧ blockKind (t.dev.port n).sent = 3 ∧
      (t.dev.port n).sentData = ctrlBytes m ∧ (t.dev.port n).out = x.out ∧ only t (r 0x238 :: inj))

/-- R336, R339, R340, R342 and R544: lanterns walk their state machine, and one that leaves LIT is counted and takes its four
ports to DARK, leaving UP with cause 8; the presence contact acts at the next poll, while the base runs. A route card for another
node is refused, as is, with a Notice, one of which a group names two nodes; another is kept in K0's store, gives FW.RCID and,
from step 8 of the boot on, is copied to every EXPECT. The model's choices among these: what a poll takes and when it acts (log
entry 46), what the loss of light does to planes (log entry 41), which ports send LEAVE (log entry 45), and that a card whose
zero bytes are not zero is refused (log entry 65). -/
def Obligations.LanternsAndRouteCard : Prop :=
  (∀ (s : State) (g : BitVec 4),
    let n := g.toNat
    let st := s.dev.ltnSt s.part n
    let a := ltnR n 0x408
    let regs := a :: ltnR n 0x418 :: rtR 0x408 :: rtR 0x410 :: ((List.range 25).map fun e => latR e 0) ++ ((ltnPorts n).flatMap fun f => [portR f 8, portR f 0x18, portR f 0x28, portR f 0x248]) ++
      (List.range 64).flatMap fun f => [portR f 0x238, portR f 0x240]
    let now := s.dev.now.toNat % 2 ^ 32
    let failsFor := fun (t : State) (cause : Nat) => t.field a 0 3 = 4 ∧ t.field a 4 4 = cause ∧ t.field a 32 32 = now
    let fails := fun (i : Instr) (cause : Nat) => Answers i s fun t => failsFor t cause ∧
      t.reg (fltR 31 0x40) = countUp (s.reg (fltR 31 0x40)) 1 ∧ RegsKept s t [a] ∧ Still s t
    -- the loss of a LIT lantern
    let loses := fun (t : State) => t.reg (ltnR n 0x418) = countUp (s.reg (ltnR n 0x418)) 1 ∧
      (∀ f ∈ ltnPorts n, s.dev.listed s.part f = true → s.dev.portDisabled s.part f = false → 3 ≤ s.dev.portSt s.part f →
        t.dev.portSt t.part f = 2 ∧ (s.dev.portUp s.part f = true → t.field (portR f 8) 4 4 = 8 ∧
          t.reg (portR f 0x248) = countUp (s.reg (portR f 0x248)) 1)) ∧
      (∀ (e : Fin 25) (pl : Bool), s.dev.dormant s.part e.val = false → t.dev.planeOk t.part e.val pl = false) ∧ Still s t
    let dark := fun (t : State) => ∀ b : BitVec 5, bankLantern b.toNat = n → s.dev.bankState s.part b.toNat ≠ 0 →
      t.dev.bankState t.part b.toNat = 6
    (∀ i on, (i = .lanternInserted g ∧ on = true) ∨ (i = .lanternRemoved g ∧ on = false) → Answers i s fun t =>
      t.dev = { s.dev with ltnPres := smSet false s.dev.ltnPres n on } ∧ Still s t) ∧
    (∀ (avg min : BitVec 16) (line : BitVec 6) (temp : BitVec 16) (alarm : Bool),
      let reads := fun (t : State) => t.field (ltnR n 0x410) 0 16 = avg.toNat ∧ t.field (ltnR n 0x410) 16 16 = min.toNat ∧
        t.field (ltnR n 0x410) 32 6 = line.toNat ∧ t.field a 8 16 = temp.toNat
      let poll := Instr.lanternPoll g avg min line temp alarm
      (s.dev.baseUp s.part = false → Answers poll s fun t => t = s) ∧
      (s.dev.baseUp s.part = true → smGet false s.dev.ltnPres n = false →
        (st = 0 → Answers poll s fun t => t = s) ∧
        (st ≠ 0 → st ≠ 3 → Answers poll s fun t => t.field a 0 3 = 0 ∧ t.field a 4 4 = 1 ∧ (∀ z, z ≠ a → t.reg z = s.reg z) ∧ Still s t) ∧
        (st = 3 → Answers poll s fun t => t.field a 0 3 = 0 ∧ t.field a 4 4 = 1 ∧ loses t ∧ dark t)) ∧
      (s.dev.baseUp s.part = true → smGet false s.dev.ltnPres n = true →
        (st = 0 → Answers poll s fun t => reads t ∧ t.field a 0 3 = 1 ∧ t.field a 32 32 = now ∧ smGet false t.dev.ltnId n = false ∧
          (∀ z, z ≠ a → z ≠ ltnR n 0x410 → t.reg z = s.reg z) ∧ Still s t) ∧
        (st ≠ 0 → st ≠ 3 ∨ (600 ≤ avg.toInt ∧ 300 ≤ min.toInt ∧ alarm = false) → Answers poll s fun t => reads t ∧
          t.field a 0 3 = st ∧ (∀ z, z ≠ a → z ≠ ltnR n 0x410 → t.reg z = s.reg z) ∧ Still s t) ∧
        (st = 3 → avg.toInt < 600 ∨ min.toInt < 300 → Answers poll s fun t => reads t ∧ failsFor t 4 ∧ loses t ∧
          RegsKept s t (ltnR n 0x410 :: regs)) ∧
        (st = 3 → 600 ≤ avg.toInt → 300 ≤ min.toInt → alarm = true → Answers poll s fun t => reads t ∧ failsFor t 5 ∧ loses t ∧ dark t))) ∧
    (st = 1 → smGet false s.dev.ltnId n = false →
      (Answers (.identityRead g true) s fun t => smGet false t.dev.ltnId n = true ∧
        t.field a 0 3 = (if s.dev.stopStep = 0 ∧ s.field (ltnR n 0x400) 0 1 = 1 ∧ s.dev.bootReached s.part 7 = true then 2 else 1) ∧
        (∀ z, z ≠ a → t.reg z = s.reg z) ∧ Still s t) ∧ fails (.identityRead g false) 2) ∧
    (st = 2 →
      let late := 60000000 < (now + 2 ^ 32 - s.field a 32 32) % 2 ^ 32
      (late → fails (.lanternWarmCheck g true) 3) ∧ (¬late → Answers (.lanternWarmCheck g true) s fun t => t.field a 0 3 = 3 ∧
        (∀ f ∈ ltnPorts n, s.dev.listed s.part f = true → s.dev.portDisabled s.part f = false → s.dev.portSt s.part f = 2 →
          t.dev.portSt t.part f = 3 ∧ t.field (portR f 0x18) 36 1 = 0) ∧ Still s t) ∧ fails (.lanternWarmCheck g false) 3) ∧
    (∀ on : Bool, Answers (.ltnEn g on) s fun t => t.reg (ltnR n 0x400) = (if on then 1 else 0) ∧
      (on = false → st = 2 → t.field a 0 3 = 1) ∧ (on = false → st = 3 → t.field a 0 3 = 1 ∧ loses t ∧ dark t) ∧
      (on = false → st = 4 → t.field a 0 3 = 4 ∧ smGet false t.dev.ltnOff n = true) ∧
      (on = true → st = 4 → smGet false s.dev.ltnOff n = true → t.field a 0 3 = 1 ∧ smGet false t.dev.ltnId n = false) ∧
      (on = true → st = 1 → smGet false s.dev.ltnId n = true → s.dev.stopStep = 0 → s.dev.bootReached s.part 7 = true → t.field a 0 3 = 2) ∧
      (st ≠ 3 → ∀ z, z ≠ a → z ≠ ltnR n 0x400 → t.reg z = s.reg z) ∧ Still s t)) ∧
  (∀ (s : State) (c : CardBytes),
    let e := fun (f : Nat) => cardEntry c f
    let bad := ∃ f h : Fin 64, f.val / 4 = h.val / 4 ∧ e f.val / 2 ^ 24 % 2 = 1 ∧ e h.val / 2 ^ 24 % 2 = 1 ∧ e f.val % 2 ^ 16 ≠ e h.val % 2 ^ 16
    let id := leNat (c.take 4)
    let mine := imgF c 4 2 = s.dev.node.toNat ∧ imgF c 6 10 = 0
    let kept := fun (t : State) => t.dev.nv.card = some c ∧ t.dev.ownRcid t.part = id ∧
      (∀ w, t.dev.kView t.part (fwR 0x40) w = BitVec.ofNat 64 id) ∧ Still s t
    s.dev.dead = false →
    (¬mine → Answers (.routeCardInstall c) s fun t => t = s) ∧
    (mine → bad → Answers (.routeCardInstall c) s fun t => Raised s t 31 []) ∧
    (mine → ¬bad → s.dev.bootReached s.part 8 = false → Answers (.routeCardInstall c) s fun t => kept t ∧
      t.reg (fltR 20 0x40) = countUp (s.reg (fltR 20 0x40)) 1 ∧ RegsKept s t []) ∧
    (mine → ¬bad → s.dev.bootReached s.part 8 = true → Answers (.routeCardInstall c) s fun t => kept t ∧
      (∀ f : Fin 64, t.reg (portR f.val 0x10) = BitVec.ofNat 64 (e f.val % 2 ^ 22 + e f.val / 2 ^ 24 % 2 * 2 ^ 24)) ∧
      (∀ f : Fin 64, s.dev.portUp s.part f.val = true → e f.val / 2 ^ 24 % 2 = 0 → t.dev.portSt t.part f.val = 1) ∧
      RegsKept s t (rtR 0x408 :: rtR 0x410 ::
        (List.range 64).flatMap fun f => [portR f 8, portR f 0x10, portR f 0x18, portR f 0x20, portR f 0x28, portR f 0x238, portR f 0x240, portR f 0x248]) ∧
      (∀ f : Fin 64, s.field (portR f.val 0x18) 36 1 = 1 →
        t.field (portR f.val 0x20) 32 1 = (if s.field (portR f.val 0x20) 0 32 = id then 0 else 1))))

/-- R348, R349, R370 to R374, R378, R379 and R382 to R386: the routing stage. A packet is forwarded to the port its route gives where
the transit queue admits it, discarded without a route or after 63 hops, and delivered in its stream's order; the source numbers its
packets and keeps them until they are acknowledged end to end; a port launches its transit packets in order. In an orderly stop
the stage takes nothing in (R391). The model's choices among these: what the stage takes and when phase and ring change (log entry
47), the receive side and which acknowledgement is due (log entry 48), the order at the shelf (log entry 92), and the CRC that
hashes and checks (log entry 10). -/
def Obligations.Routing : Prop :=
  ∀ s : State,
    let only := fun (t : State) (regs : List Nat) => (∀ a, a ∉ regs → t.reg a = s.reg a) ∧ Still s t
    let count := fun (t : State) (off k : Nat) => t.reg (rtR off) = countUp (s.reg (rtR off)) k
    let faults := fun (t : State) => t.reg (fltR 31 0x40) = countUp (s.reg (fltR 31 0x40)) 1
    let status := fun (x : FabPkt) (st : BitVec 7) => match x.body with
      | some (.req r) => [Msg.resp ({ dst := r.src, tag := r.tag, status := st } : Resp)]
      | _ => []
    let needs := fun (g : Nat) (ring : BitVec 4) => s.dev.slotsNeeded s.part g ring.toNat
    let tq := fun (t : State) (g : Nat) => (t.dev.port g).tq
    let covers := fun (x : FabPkt) (z : E2eSent) => z.pkt.dnode = x.snode ∧ (2 ^ 31 ≤ (z.pkt.eseq - x.ackBase).toNat ∨
      (0 < (z.pkt.eseq - x.ackBase).toNat ∧ (z.pkt.eseq - x.ackBase).toNat ≤ 64 ∧
        x.ackMap.getLsbD ((z.pkt.eseq - x.ackBase).toNat - 1) = true))
    let acked := fun (x : FabPkt) (t : State) => ∀ z ∈ s.dev.e2e, z ∈ t.dev.e2e ↔ ¬covers x z
    -- a packet in a receive buffer
    (∀ (f : BitVec 6) (x : FabPkt),
      let n := f.toNat
      let rx := (s.dev.port n).rx
      let sw := !x.phase && (x.iboard.toNat == boardOf s.dev.node || boardOf x.dnode == boardOf s.dev.node)
      let y : FabPkt := { x with hops := x.hops + 1, phase := x.phase || sw }
      let ring : BitVec 4 := if sw then 0 else BitVec.ofNat 4 (s.dev.ringOf s.part 20 (some n))
      let goes := fun (P : State → Prop) (regs : List Nat) => Answers (.routePacket f x) s fun t =>
        (t.dev.port n).rx = rx.erase x ∧ P t ∧ RegsKept s t (portR n 0x28 :: regs) ∧ Still s t
      (s.dev.stopStep ≠ 0 → Answers (.routePacket f x) s fun t => t = s) ∧
      ((rx.filter fun z => z.vc = x.vc).head? = some x → s.dev.stopStep = 0 →
      (x.hops = 63 → goes (fun t => count t 0x418 1 ∧ faults t) [rtR 0x418]) ∧
      (x.hops ≠ 63 → ¬(x.dnode = s.dev.node ∧ y.phase = true) →
        (s.dev.pickPort s.part y = none → goes (fun t => count t 0x410 1 ∧ t.dev.net = s.dev.net ++ status x 0x20) [rtR 0x410]) ∧
        (∀ alt g, s.dev.pickPort s.part y = some (alt, g) →
          (needs g ring ≤ (s.dev.port g).free x.vc → goes (fun t => count t 0x400 1 ∧ count t 0x408 (alt - x.alt.toNat) ∧
            tq t g = tq s g ++ [{ y with alt := BitVec.ofNat 2 alt, ring := ring }] ∧ t.dev.net = s.dev.net) [rtR 0x400, rtR 0x408]) ∧
          ((s.dev.port g).free x.vc < needs g ring → (rx.filter fun z => z.vc = x.vc) = [x] → s.dev.headCame n x = false →
            Answers (.routePacket f x) s fun t => t = s))) ∧
      (x.hops ≠ 63 → x.dnode = s.dev.node → y.phase = true →
        let r := smGet {} s.dev.rxNodes x.snode.toNat
        let k := streamKey x.snode x.chan x.ord
        let c := (s.dev.rx k).getD {}
        let e := if n < 32 then 23 else 24
        -- a request goes on with the channel, mode and flag of its packet
        let msg := match x.body.bind bodyMsg with
          | some (.req r) => some (Msg.req { r with chan := x.chan, ord := x.ord, flag := x.flag })
          | m => m
        let down := s.dev.inFallback s.part e || (match msg with | some m => s.dev.inFallback s.part (s.dev.shelfDest s.part m) | none => false)
        let ackRegs := [rtR 0x408, rtR 0x410]
        let delivers := (down = false → goes (fun t => (s.dev.shelf ++ (msg.map fun m => (e, m)).toList) <+: t.dev.shelf) ackRegs) ∧
          (∀ r, down = true → x.body = some (.req r) → onWiring r = false → goes (fun t =>
            Msg.resp { dst := r.src, tag := r.tag, status := stSiteDown, from' := 0x1F, node := s.dev.node } ∈ t.dev.net) ackRegs)
        let holds := (s.dev.heldCount < 1024 → goes (fun t => t.dev.shelf = s.dev.shelf ∧
            (t.dev.rx k).map RxStream.held = some (c.held ++ [(y, s.dev.now)])) ackRegs) ∧
          (1024 ≤ s.dev.heldCount → goes (fun t => t.dev.shelf = s.dev.shelf ∧ t.dev.rxNodes = s.dev.rxNodes ∧ count t 0x430 1) [rtR 0x430])
        let late := goes (fun t => t.dev.shelf = s.dev.shelf ∧ ∀ m ∈ status x 0x21, m ∈ t.dev.net) ackRegs
        let dist := (x.epoch - c.epoch).toNat
        (x.body = none → goes (acked x) []) ∧
        (x.body ≠ none →
          (r.has x.eseq = true → goes (fun t => t.dev.shelf = s.dev.shelf ∧ t.dev.rxNodes = s.dev.rxNodes ∧
            ∀ j, t.dev.rx j = if j = k then (s.dev.rx k).map fun c => { c with last := s.dev.now } else s.dev.rx j) ackRegs) ∧
          (r.has x.eseq = false → (x.eseq - r.base).toNat ≤ 4096 → (s.dev.rx k ≠ none ∨ s.dev.rxStreams.length < 16384) →
            (x.ord = false →
              (x.cseq = c.cseq → delivers) ∧
              (x.cseq ≠ c.cseq → (x.cseq - c.cseq).toNat < 2 ^ 31 → holds) ∧ (2 ^ 31 ≤ (x.cseq - c.cseq).toNat → late)) ∧
            (x.ord = true →
              (x.flag = false → dist < 4 ∨ 32768 ≤ dist → delivers) ∧
              (x.flag = true → dist = 0 → c.countOf c.epoch = x.pred.toNat → delivers) ∧
              (x.flag = true → dist < 4 → ¬(dist = 0 ∧ c.countOf c.epoch = x.pred.toNat) → holds) ∧
              (x.flag = true → 32768 ≤ dist → late) ∧
              (4 ≤ dist → dist < 32768 → goes (fun t => t.dev.shelf = s.dev.shelf ∧ t.dev.rxNodes = s.dev.rxNodes ∧
                ∀ j, (t.dev.rx j).map RxStream.held = (if j = k then some c.held else (s.dev.rx j).map RxStream.held)) []))))))) ∧
    (∀ x : FabPkt, x.body = none → x.dnode = s.dev.node → Answers (.e2eack x) s fun t => acked x t ∧
      (∀ z ∈ s.dev.e2e, covers x z → ∀ c, s.dev.tx (streamKey z.pkt.dnode z.pkt.chan z.pkt.ord) = some c →
        t.dev.tx (streamKey z.pkt.dnode z.pkt.chan z.pkt.ord) = some { c with last := s.dev.now }) ∧ only t []) ∧
    -- a packet whose header alone has arrived goes on toward another port, behind every whole one (R352, R378)
    (∀ (f : BitVec 6) (x : FabPkt),
      let n := f.toNat
      let sw := !x.phase && (x.iboard.toNat == boardOf s.dev.node || boardOf x.dnode == boardOf s.dev.node)
      let y : FabPkt := { x with hops := x.hops + 1, phase := x.phase || sw }
      let ring : BitVec 4 := if sw then 0 else BitVec.ofNat 4 (s.dev.ringOf s.part 20 (some n))
      ((s.dev.port n).rx.filter fun z => z.vc = x.vc) = [] → s.dev.headCame n x = true → s.dev.stopStep = 0 → x.hops ≠ 63 → ¬(x.dnode = s.dev.node ∧ y.phase = true) →
      ∀ alt g, s.dev.pickPort s.part y = some (alt, g) → needs g ring ≤ (s.dev.port g).free x.vc → Answers (.routePacket f x) s fun t =>
        (t.dev.port n).cut = some y ∧ (t.dev.port n).rx = (s.dev.port n).rx ∧ tq t g = tq s g ++ [{ y with alt := BitVec.ofNat 2 alt, ring := ring }] ∧
        t.dev.net = s.dev.net ∧ count t 0x400 1 ∧ only t [rtR 0x400, rtR 0x408]) ∧
    -- injection
    (∀ (e : Fin 25) (node : BitVec 16) (body : Body), 23 ≤ e.val →
      let z := s.dev.startPkt s.part node body
      let x := z.1
      let k := streamKey node x.chan x.ord
      let c := (s.dev.tx k).getD {}
      let i := Instr.fabricInject e node body
      let room := s.dev.rtState s.part = 0 ∧ s.dev.stopStep = 0 ∧ s.dev.e2eBytes + fabSize x ≤ 8388608
      let taken := fun (t : State) => ∀ m, bodyMsg body = some m → m ∈ s.dev.net → s.dev.net.erase m <+: t.dev.net
      (¬room → Answers i s fun t => t = s) ∧
      (room → (s.dev.tx k ≠ none ∨ s.dev.txStreams.length < 16384) →
        (s.dev.pickPort s.part x = none → Answers i s fun t => count t 0x410 1 ∧ taken t ∧ t.dev.e2e = s.dev.e2e ∧ only t [rtR 0x410]) ∧
        (∀ alt g, s.dev.pickPort s.part x = some (alt, g) →
          (needs g 0 ≤ (s.dev.port g).free x.vc → Answers i s fun t => ∃ w : FabPkt,
            t.dev.e2e = s.dev.e2e ++ [{ pkt := w, last := s.dev.now, first := s.dev.now }] ∧ tq t g = tq s g ++ [{ w with alt := BitVec.ofNat 2 alt }] ∧
            w.eseq = smGet 0 s.dev.eseq node.toNat ∧ smGet 0 t.dev.eseq node.toNat = w.eseq + 1 ∧ w.body = some body ∧
            w.dnode = node ∧ w.snode = s.dev.node ∧
            (x.ord = false → w.cseq = c.cseq ∧ (t.dev.tx k).map TxStream.cseq = some (c.cseq + 1)) ∧
            (x.ord = true → w.epoch = c.epoch ∧
              (x.flag = true ∨ c.n = 0xFFFFFFFF → w.flag = true ∧ w.pred = c.n ∧
                t.dev.tx k = some ⟨c.cseq, c.epoch + 1, 0, s.dev.now⟩) ∧
              (x.flag = false → c.n ≠ 0xFFFFFFFF → w.flag = false ∧ t.dev.tx k = some ⟨c.cseq, c.epoch, c.n + 1, s.dev.now⟩)) ∧
            taken t ∧ only t [rtR 0x408]) ∧
          ((s.dev.port g).free x.vc < needs g 0 → Answers i s fun t => t = s)))) ∧
    -- launch
    (∀ (f : BitVec 6) (vc : Vc) (y : FabPkt),
      let n := f.toNat
      let x := s.dev.port n
      let link := portR n 0x28
      s.dev.portUp s.part n = true → s.dev.nextVc s.part n = some vc → (x.tq.find? fun z => z.vc == vc) = some y →
      let sent : FabPkt := { y with lseq := BitVec.ofNat 12 (s.field link 32 12), rpl := false }
      let full := 1024 ≤ s.field link 0 11 ∨ 131072 < (x.replay.map fun z => fabSize z.pkt).sum + fabSize y
      (full → Answers (.transitLaunch f) s fun t => t = s) ∧
      (¬full → Answers (.transitLaunch f) s fun t => Msg.fabric f { sent with ring := 0 } ∈ t.dev.net ∧
        (t.dev.port n).replay = x.replay ++ [{ pkt := sent, first := s.dev.now, last := s.dev.now }] ∧ t.field link 32 12 = (s.field link 32 12 + 1) % 2 ^ 12 ∧
        t.field link 0 11 = s.field link 0 11 + 1 ∧ t.reg (portR n 0x200) = countUp (s.reg (portR n 0x200)) 1 ∧
        RegsKept s t [link, portR n 0x200, portR n 0x238, rtR 0x408, rtR 0x410] ∧ Still s t))

/-- R385, R387 to R389, R393 and R394: a packet not acknowledged is sent again and then given up, a hold expires, unused stream contexts
are released, and routing tables are written only when DRAINED. A request acknowledged end to end whose answer has not come 9 us
after its first send ends as REMOTE_TIMEOUT (R405; DEDUCED, log entry 105). The other choices of the model among these are those
of the routing stage (log entry 47) and of the receive side (log entry 48). -/
def Obligations.StreamsAndDraining : Prop :=
  ∀ s : State,
    let only := fun (t : State) (regs : List Nat) => (∀ a, a ∉ regs → t.reg a = s.reg a) ∧ Still s t
    let count := fun (t : State) (off k : Nat) => t.reg (rtR off) = countUp (s.reg (rtR off)) k
    let faults := fun (t : State) => t.reg (fltR 31 0x40) = countUp (s.reg (fltR 31 0x40)) 1
    let status := fun (x : FabPkt) (st : BitVec 7) => match x.body with
      | some (.req r) => [Msg.resp ({ dst := r.src, tag := r.tag, status := st } : Resp)]
      | _ => []
    let needs := fun (g : Nat) (ring : BitVec 4) => s.dev.slotsNeeded s.part g ring.toNat
    let tq := fun (t : State) (g : Nat) => (t.dev.port g).tq
    -- end-to-end retransmission
    (∀ (node : BitVec 16) (eseq : W32) (x : E2eSent), s.dev.e2eFind node eseq = some x → 3600 ≤ elapsed s.dev.now x.last →
      (∀ body, x.tries < 2 → x.pkt.body = some body →
        let z := (s.dev.startPkt s.part node body).1
        let y : FabPkt := { x.pkt with erpl := true, alt := 0, iboard := z.iboard, rmode := z.rmode, phase := z.phase }
        (s.dev.pickPort s.part y = none → Answers (.e2eRetransmit node eseq) s fun t => count t 0x410 1 ∧
          t.dev.e2e = s.dev.e2e.erase x ∧ t.dev.net = s.dev.net ++ status x.pkt 0x20 ∧ only t [rtR 0x410]) ∧
        (∀ alt g, s.dev.pickPort s.part y = some (alt, g) → needs g y.ring ≤ (s.dev.port g).free y.vc →
          Answers (.e2eRetransmit node eseq) s fun t => count t 0x420 1 ∧ tq t g = tq s g ++ [{ y with alt := BitVec.ofNat 2 alt }] ∧
            t.dev.e2e = s.dev.e2e.map (fun w => if w = x then { x with pkt := y, last := s.dev.now, tries := x.tries + 1 } else w) ∧ only t [rtR 0x408, rtR 0x420])) ∧
      (2 ≤ x.tries → Answers (.e2eGiveUp node eseq) s fun t => count t 0x428 1 ∧ t.dev.e2e = s.dev.e2e.erase x ∧
        t.dev.net = s.dev.net ++ status x.pkt 0x22 ∧
        ((∃ r, x.pkt.body = some (.req r)) → smGet none s.dev.timeouts node.toNat = none → faults t) ∧
        RegsKept s t [rtR 0x428] ∧ Still s t)) ∧
    (∀ (node : BitVec 16) (eseq : W32) (x : E2eSent), s.dev.e2eFind node eseq = none →
      (s.dev.awaited.find? fun y => y.pkt.dnode == node && y.pkt.eseq == eseq) = some x → 10800 ≤ elapsed s.dev.now x.first →
      Answers (.e2eGiveUp node eseq) s fun t => t.dev.awaited = s.dev.awaited.erase x ∧ t.dev.net = s.dev.net ++ status x.pkt 0x22 ∧
        only t []) ∧
    -- stream contexts
    (∀ (node : BitVec 16) (chan : BitVec 8) (ord : Bool),
      let k := streamKey node chan ord
      (∀ (c : RxStream), s.dev.rx k = some c →
        ((∃ h ∈ c.held, 14400 ≤ elapsed s.dev.now h.2) → Answers (.holdExpiry node chan ord) s fun t =>
          count t 0x430 c.held.length ∧ faults t ∧ (∀ h ∈ c.held, ∀ m ∈ status h.1 0x21, m ∈ t.dev.net) ∧
          (∃ h ∈ c.held, ∃ c', t.dev.rx k = some c' ∧ c'.held = [] ∧
            (ord = false → c'.cseq = h.1.cseq + 1 ∧ ∀ g ∈ c.held, (g.1.cseq - c.cseq).toNat ≤ (h.1.cseq - c.cseq).toNat) ∧
            (ord = true → c'.epoch = h.1.epoch + 1 ∧ ∀ g ∈ c.held, (g.1.epoch - c.epoch).toNat ≤ (h.1.epoch - c.epoch).toNat)) ∧
          RegsKept s t [rtR 0x430] ∧ Still s t) ∧
        (120000 ≤ elapsed s.dev.now c.last → c.held = [] → Answers (.contextRelease false node chan ord) s fun t =>
          t.dev.rx k = none ∧ t.dev = { s.dev with rxStreams := t.dev.rxStreams } ∧ Still s t)) ∧
      (∀ c : TxStream, s.dev.tx k = some c → 240000 ≤ elapsed s.dev.now c.last →
        (∀ y ∈ s.dev.e2e, ¬(y.pkt.dnode = node ∧ y.pkt.chan = chan ∧ y.pkt.ord = ord)) → Answers (.contextRelease true node chan ord) s
          fun t => t.dev.tx k = none ∧ t.dev = { s.dev with txStreams := t.dev.txStreams } ∧ Still s t)) ∧
    -- draining and tables
    (let rt := s.dev.rtState s.part
     let drained := s.dev.e2e = [] ∧ s.dev.rerouted = [] ∧ (∀ x ∈ s.dev.ports, x.2.tq = []) ∧ s.dev.heldCount = 0
     (rt = 0 → Answers .drain s fun t => t.dev.rtState t.part = 1 ∧ t.dev.drainT = s.dev.now ∧ only t [rtR 8]) ∧
     (rt = 2 ∨ rt = 3 → Answers .rtResume s fun t => t.dev.rtState t.part = 0 ∧ only t [rtR 8]) ∧
     (rt = 1 ∨ rt = 3 → drained → Answers .drainComplete s fun t => t.dev.rtState t.part = 2 ∧ only t [rtR 8]) ∧
     (rt = 1 → ¬drained → 12000000 ≤ elapsed s.dev.now s.dev.drainT → Answers .drainFail s fun t => t.dev.rtState t.part = 3 ∧ faults t ∧
       RegsKept s t [rtR 8] ∧ Still s t) ∧
     (∀ (a : Nat) (m v : W64), ((∃ b : BitVec 13, a = boardR b.toNat) ∨ ∃ j : BitVec 3, a = posR j.toNat) ∧ m = 0x3FFFFFFFFFFFF ∨
         (∃ c : BitVec 2, a = rtR (0x300 + 8 * c.toNat)) ∧ m = BitVec.allOnes 64 →
       (rt = 2 → Answers (.routingTableWrite (BitVec.ofNat 40 a) v) s fun t => t.reg a = v &&& m ∧ only t [a]) ∧
       (rt ≠ 2 → Answers (.routingTableWrite (BitVec.ofNat 40 a) v) s fun t => Raised s t 31 [])) ∧
     (∀ (i : BitVec 4) (v : W64), rt = 2 → Answers (.routingTableWrite (BitVec.ofNat 40 (nbrR i.toNat)) v) s fun t =>
       t.field (nbrR i.toNat) 0 25 = v.toNat % 2 ^ 25 ∧ only t [nbrR i.toNat]))

/-- R309, R312, R313, R315, R317 to R323, R325 to R330: the Larder. An OPEN channel performs its oldest line access: a read answers with
memory's bytes, a write and an atomic store theirs, an uncorrectable line answers DATA_ERROR; five CRC failures hold it and want a
retrain. Channels retrain or go DOWN, the scrub walks the lines, INIT zeroes a die, and OPEN, MAP, TIMING and records take the
writes that their rules accept. The model's choices among these: how a line's accesses end and are recorded (log entry 33), what
the check makes of a line and what stays of it (log entry 89), what training and resets do to a channel (log entry 90), and the
registers that act at L0 only (log entry 32). -/
def Obligations.Larder : Prop :=
  (∀ (s : State) (ch : ChanId),
    let c := chanIx ch
    let l := c / 12
    let site := 16 + l
    let st := s.dev.chanSt s.part c
    let k := s.dev.chan c
    let stat := chanR c 0
    let count := fun (t : State) (off n : Nat) => t.reg (chanR c off) = countUp (s.reg (chanR c off)) n
    let only := fun (t : State) (regs : List Nat) => (∀ a, a ∉ regs → t.reg a = s.reg a) ∧ Still s t
    let raises := fun (t : State) => t.reg (fltR site 0x40) = countUp (s.reg (fltR site 0x40)) 1
    let resp := fun (r : Req) (z : BitVec 7) (data : List Byte) => Msg.resp ({ dst := r.src, tag := r.tag, status := z, data := data
                                                                               from' := BitVec.ofNat 5 (s.dev.placeSite s.part (s.dev.place s.part (gaLocal r.addr))), node := s.dev.node
                                                                               origin := placeRouter (s.dev.place s.part (gaLocal r.addr)) } : Resp)
    -- what the device holds of a line and of its check words: listed memory stands for what differs from what INIT wrote
    let cell := fun (t : State) (lam b : Nat) => t.byte (cellKey c lam b) ^^^ (t.dev.lineBase t.part c lam).getD b 0
    let word := fun (t : State) (lam i : Nat) => t.byte (checkKey t.part c lam + i) ^^^ (t.dev.wordBase c lam).getD i 0
    -- accesses
    (∀ (x : GAcc) (rest : List GAcc) (g : GReq) (seen : MemEvent), st = 2 → k.want = false → k.q = x :: rest →
      s.dev.injBits site 9 (c % 12) = 0 →
      let go := Instr.memoryAccess ch seen
      let fails := seen.crcFails.toNat
      let lam := (s.dev.channelOf s.part x.addr).2
      let off := x.addr % 128
      let line := cellKey c lam 0
      let key := cellKey c lam off
      let check := checkKey s.part c lam
      let on := s.dev.checkOn s.part
      let bytes := fun (t : State) => (List.range x.n).map fun i => cell t lam (off + i)
      let le := fun (t : State) (n : Nat) => leNat ((List.range n).map fun i => cell t lam (off + i))
      let right := s.dev.lineBad s.part line = false ∧ (s.dev.mark line).getLsbD 0 = false ∧ seen.wrong = none
      let good := right ∧ seen.flips = []
      let stats := [0x100, 0x108, 0x110, 0x128].map fun o => chanR c o
      let ends := fun (t : State) => (t.dev.chan c).q = rest ∧ t.dev.greqs = s.dev.greqs.filter (fun y => y.id ≠ g.id) ∧
        count t 0x110 fails ∧ count t 0x128 seen.odecc.toNat
      -- what a store leaves: its bytes, the two check words of its line, and every other byte as it was
      let stores := fun (t : State) (n : Nat) =>
        (∀ a, ¬(key ≤ a ∧ a < key + n) → (on = true → ¬(check ≤ a ∧ a < check + 4)) → t.byte a = s.byte a) ∧
        (∀ a, a ∉ stats → t.reg a = s.reg a) ∧ (∀ e, t.k e = s.k e) ∧ Fixed s t
      let checked := fun (t : State) => on = true → ∀ i, i < 4 →
        (lineCheck lam ((List.range 128).map fun j => cell t lam j))[i]? = some (word t lam i)
      (5 ≤ fails → Answers go s fun t => (t.dev.chan c).want = true ∧ (t.dev.chan c).q = k.q ∧ t.dev.greqs = s.dev.greqs ∧
        count t 0x110 4 ∧ count t 0x128 seen.odecc.toNat ∧ only t stats) ∧
      (fails < 5 → (s.dev.greqs.find? fun y => y.id == x.id) = some g → g.status = stOk → lam < s.dev.usable s.part / 128 → off + x.n ≤ 128 →
        (∀ n, g.req.op = .read n → good → g.answered = false →
          (g.left = 1 → g.data = [] → Answers go s fun t => ends t ∧ t.dev.net = s.dev.net ++ [resp g.req stOk (bytes s)] ∧ count t 0x100 1 ∧
            only t stats) ∧
          (1 < g.left → Answers go s fun t => (t.dev.chan c).q = rest ∧ t.dev.net = s.dev.net ∧ count t 0x100 1 ∧
            (∃ g' ∈ t.dev.greqs, g'.id = g.id ∧ g'.left = g.left - 1 ∧ g'.data = insertBuf x.addr (bytes s) g.data) ∧ only t stats)) ∧
        (∀ data, g.req.op = .write data → x.n = 128 ∨ good → g.left = 1 → g.data = [] → s.dev.injBits site 8 (c % 12) = 0 →
          x.addr - gaLocal g.req.addr + x.n ≤ data.length →
          let bs := (data.drop (x.addr - gaLocal g.req.addr)).take x.n
          Answers go s fun t => ends t ∧ t.dev.net = s.dev.net ++ (if g.answered then [] else [resp g.req stOk []]) ∧ count t 0x108 1 ∧
            count t 0x100 (if x.n = 128 then 0 else 1) ∧ (∀ i b, bs[i]? = some b → cell t lam (off + i) = b) ∧ stores t x.n ∧ checked t ∧
            t.dev.mark line = 0) ∧
        (∀ (op : BitVec 4) (a b : BitVec 128) (at' : BitVec 2) (seq : BitVec 16), g.req.op = .atomic op a b at' seq → op.toNat < 6 →
          good → g.left = 1 → g.data = [] → g.answered = false → x.n = (if op = 5 then 16 else 8) → s.dev.injBits site 8 (c % 12) = 0 →
          let old : W64 := BitVec.ofNat 64 (le s 8)
          let y : W64 := a.extractLsb' 0 64
          Answers go s fun t => ends t ∧ resp g.req stOk (bytes s) ∈ t.dev.net ∧ count t 0x100 1 ∧
            (op = 5 → le t 16 = if le s 16 = a.toNat then b.toNat else le s 16) ∧
            (op ≠ 5 → le t 8 = (if op = 0 then old + y else if op = 1 then y
              else if op = 2 then (if y.toInt < old.toInt then y else old) else if op = 3 then (if old.toInt < y.toInt then y else old)
              else if old = y then b.extractLsb' 0 64 else old).toNat) ∧
            stores t x.n ∧ (op.toNat < 4 → checked t)) ∧
        -- what the check makes of a line (R317, R318)
        (on = true → g.left = 1 → g.answered = false →
          (∀ n (i : BitVec 14), g.req.op = .read n → g.data = [] → right → i.toNat < 1056 → seen.flips = [i] → Answers go s fun t => ends t ∧
            resp g.req stOk (bytes s) ∈ t.dev.net ∧ count t 0x118 1 ∧ count t 0x120 0 ∧ (∀ a, ctlSite a ≠ site → t.reg a = s.reg a) ∧ Still s t) ∧
          (((∃ n, g.req.op = .read n) ∨ (∃ data, g.req.op = .write data ∧ x.n ≠ 128) ∨ ∃ op a b at' seq, g.req.op = .atomic op a b at' seq) →
            (s.dev.lineBad s.part line = true ∨ (∃ l, seen.wrong = some l ∧ l.toNat ≠ lam) ∨
              (right ∧ ∃ i j : BitVec 14, seen.flips = [i, j] ∧ i ≠ j ∧ i.toNat < 1024 ∧ j.toNat < 1024 ∧ i.toNat / 512 = j.toNat / 512) ∨
              (right ∧ seen.flips.Nodup ∧ 2 ≤ seen.flips.length ∧ ∃ b, b < 132 ∧ ∀ i ∈ seen.flips, i.toNat / 8 = b)) →
            Answers go s fun t => ends t ∧ resp g.req stDataError [] ∈ t.dev.net ∧ count t 0x120 1 ∧ t.dev.lineBad t.part line = true ∧
              (∀ a, ctlSite a ≠ site → t.reg a = s.reg a) ∧ Still s t)) ∧
        -- with the check off nothing is seen: the inverted bit is returned and stays, and another place's data is returned
        (∀ n, on = false → g.req.op = .read n → g.left = 1 → g.answered = false → g.data = [] →
          (∀ i : BitVec 14, i.toNat < 1024 → seen.wrong = none → seen.flips = [i] → Answers go s fun t => ends t ∧
            t.byte (line + i.toNat / 8) = s.byte (line + i.toNat / 8) ^^^ (1 <<< (i.toNat % 8)) ∧ MemKept s t (line + i.toNat / 8) 1 ∧
            resp g.req stOk (bytes t) ∈ t.dev.net) ∧
          (∀ l : BitVec 25, l.toNat ≠ lam → seen.wrong = some l → seen.flips = [] → Answers go s fun t => ends t ∧
            resp g.req stOk ((List.range x.n).map fun i => cell s l.toNat (off + i)) ∈ t.dev.net ∧ Still s t)))) ∧
    (∀ (sub : BitVec 2) (b : BitVec 4), Answers (.refresh ch sub b) s fun t => t = s) ∧
    -- states of the channel
    (st = 2 → k.want = true → Answers (.retrain ch) s fun t => t.field stat 0 3 = 3 ∧ count t 0x130 1 ∧ (t.dev.chan c).q = k.q ∧
      only t [stat, chanR c 0x130]) ∧
    (st = 3 →
      let downs := fun (t : State) => t.field stat 0 3 = 5 ∧ t.field (memcR 0 0x28) c 1 = 1 ∧ (t.dev.chan c).q = [] ∧
        raises t ∧ (∀ x g, x ∈ k.q → (s.dev.greqs.find? fun y => y.id == x.id) = some g →
          let n := (k.q.filter fun y => y.id == x.id).length
          (g.left ≤ n → (t.dev.greqs.find? fun y => y.id == x.id) = none ∧
            (g.answered = false → resp g.req (if g.status = stOk then stChannelDown else g.status) [] ∈ t.dev.net)) ∧
          (n < g.left → ∃ g', (t.dev.greqs.find? fun y => y.id == x.id) = some g' ∧ g'.left = g.left - n ∧ g'.req = g.req ∧
            g'.answered = g.answered)) ∧
        RegsKept s t [stat, memcR 0 0x28] ∧ Still s t
      (s.dev.chanCut c = false → k.selfDue = false → Answers (.retrainComplete ch true) s fun t => t.field stat 0 3 = 2 ∧
        (t.dev.chan c).want = false ∧ (t.dev.chan c).q = k.q ∧ raises t ∧ RegsKept s t [stat] ∧ Still s t) ∧
      (s.dev.chanCut c = false → k.selfDue = true → k.q = [] → Answers (.retrainComplete ch true) s fun t =>
        t.field stat 0 3 = (if s.dev.stopStep = 0 ∧ s.dev.bootReached s.part 5 = true then 2 else 4) ∧ (t.dev.chan c).selfDue = false ∧ raises t ∧
        RegsKept s t [stat] ∧ Still s t) ∧
      (s.dev.chanCut c = true → Answers (.retrainComplete ch true) s downs) ∧ Answers (.retrainComplete ch false) s downs) ∧
    (∀ seen : MemEvent, (st ≠ 2 ∨ k.want = true ∨ s.field (memcR l 0x18) 0 8 = 0) → Answers (.patrolScrubRead ⟨ch, seen⟩) s fun t => t = s) ∧
    (∀ seen : MemEvent, st = 2 → k.want = false → s.field (memcR l 0x18) 0 8 ≠ 0 → s.dev.injBits site 9 (c % 12) = 0 →
      let lines := s.dev.usable s.part / 128
      let total := lines + (s.part.rows - s.dev.dataRows s.part) * 64
      let at' := k.scrub
      let moves := fun (t : State) =>
        if total ≤ at' + 1 then (t.dev.chan c).scrub = 0 ∧ t.field stat 32 16 = (s.field stat 32 16 + 1) % 2 ^ 16
        else (t.dev.chan c).scrub = at' + 1 ∧ t.reg stat = s.reg stat
      let scrub := Instr.patrolScrubRead ⟨ch, seen⟩
      let r := fun (i : Nat) => recR l i 0
      let on := s.dev.checkOn s.part
      let flips := seen.flips.map BitVec.toNat
      let fails := seen.crcFails.toNat
      -- a read that fails its CRC is tried again, and one that fails a fifth time waits for RETRAIN (R320)
      let retries := fun (t : State) (on : Bool) => count t 0x110 (if on then fails else 0) ∧ count t 0x128 (if on then seen.odecc.toNat else 0)
      (5 ≤ fails → ((∃ y ∈ k.q, y.addr / 128 = s.dev.lineAddr s.part c at' / 128) → lines ≤ at') → Answers scrub s fun t =>
        (t.dev.chan c).want = true ∧ (t.dev.chan c).scrub = at' ∧ (t.dev.chan c).q = k.q ∧ count t 0x110 4 ∧
        count t 0x128 seen.odecc.toNat ∧ only t [chanR c 0x110, chanR c 0x128]) ∧
      (fails < 5 →
      -- a line with one inverted bit is corrected, written back, recorded and raised; one that cannot be corrected is recorded
      let corrects := fun (key : Nat) => Answers scrub s fun t => moves t ∧ t.dev.mark key = 0 ∧ count t 0x118 1 ∧
        (∀ z, ctlSite z ≠ site → t.reg z = s.reg z) ∧ Still s t
      let records := fun (key a : Nat) => Answers scrub s fun t => moves t ∧ count t 0x120 1 ∧ t.dev.lineBad t.part key = true ∧
        (∀ i, (List.range 64).find? (fun i => s.field (r i) 55 1 == 0) = some i →
          (∀ j < 64, s.field (r j) 55 1 = 1 → s.field (r j) 0 48 ≠ a) →
          t.reg (r i) = BitVec.ofNat 64 (a + c % 12 * 2 ^ 48 + 3 * 2 ^ 52 + 2 ^ 55 + 2 ^ 56) ∧ raises t) ∧
        (∀ z, ctlSite z ≠ site → t.reg z = s.reg z) ∧ Still s t
      (at' < lines →
        let a := s.dev.lineAddr s.part c at'
        let key := cellKey c at' 0
        let queued := ∃ x ∈ k.q, x.addr / 128 = a / 128
        let sound := s.dev.lineBad s.part key = false ∧ (∀ l, seen.wrong = some l → l.toNat = at')
        let marked := (s.dev.mark key).getLsbD 0
        (queued ∨ on = false ∨ (sound ∧ marked = false ∧ flips = []) → Answers scrub s fun t => moves t ∧
          retries t (!k.q.any fun x => x.addr / 128 == a / 128) ∧ only t [stat, chanR c 0x110, chanR c 0x128]) ∧
        (¬queued → on = true → sound → (marked = true ∧ flips = []) ∨ (marked = false ∧ ∃ i, flips = [i] ∧ i < 1056) → corrects key) ∧
        (¬queued → on = true → ¬sound ∨ (marked = false ∧ ∃ i j, flips = [i, j] ∧ i < j ∧ j < 1024 ∧ i / 512 = j / 512) → records key a)) ∧
      -- a check row holds the check words of 512 lines of the bank 8 away (R313)
      (lines ≤ at' → at' < total → on = true →
        let u := at' - lines
        let lam := fun (i : Nat) => lineAt (u / 64 * 32 + i / 512) (u / 4 % 16 ^^^ 8) (u % 4) (i / 32 % 16)
        let sound := fun (i : Nat) => lineRow (lam i) < s.dev.dataRows s.part ∧ s.dev.lineBad s.part (cellKey c (lam i) 0) = false ∧
          (s.dev.mark (cellKey c (lam i) 0)).getLsbD 0 = false
        (flips = [] → Answers scrub s fun t => moves t ∧ retries t true ∧ only t [stat, chanR c 0x110, chanR c 0x128]) ∧
        (∀ i, flips = [i] → sound i → corrects (cellKey c (lam i) 0)) ∧
        (∀ i j, flips = [i, j] → i < j → i / 16 = j / 16 → sound i → records (cellKey c (lam i) 0) (s.dev.lineAddr s.part c (lam i)))))) ∧
    (∀ v : W64, (st = 1 ∨ st = 5 → Answers (.timingWrite ch v) s fun t =>
        (∀ f ∈ timingFields, t.field (chanR c 8) f.1 f.2 = max (bits v f.1 f.2) (bits (Config.timingLimit (s.field stat 4 2)) f.1 f.2)) ∧
        only t [chanR c 8]) ∧
      (st ≠ 1 → st ≠ 5 → Answers (.timingWrite ch v) s fun t => Raised s t site []))) ∧
  (∀ (s : State) (l : BitVec 2),
    let n := l.toNat
    let only := fun (t : State) (regs : List Nat) => (∀ a, a ∉ regs → t.reg a = s.reg a) ∧ Still s t
    let opened := isOpen s.part s.dev
    let busy := s.dev.anyInit s.part
    (opened = false → Answers (.memInit l) s fun t => t.field (memcR n 0x20) 0 1 = 1 ∧ only t [memcR n 0x20]) ∧
    (opened = true → Answers (.memInit l) s fun t => t = s) ∧
    (s.field (memcR n 0x20) 0 1 = 1 → Answers (.initComplete l) s fun t =>
      let inside := fun (a : Nat) => 12 * n * 2 ^ 32 ≤ a ∧ a < 12 * (n + 1) * 2 ^ 32
      let zeros := List.replicate 128 (0 : Byte)
      t.field (memcR n 0x20) 0 3 = s.field (memcR n 0x20) 1 1 * 2 ∧
      (∀ c lam, c / 12 = n → lam < s.dev.usable s.part / 128 →
        (∀ b, b < 128 → t.byte (cellKey c lam b) ^^^ (t.dev.lineBase t.part c lam).getD b 0 = 0) ∧
        (s.dev.checkOn s.part = true → ∀ i x, (lineCheck lam zeros)[i]? = some x →
          t.byte (checkKey s.part c lam + i) ^^^ (t.dev.wordBase c lam).getD i 0 = x)) ∧ (∀ a, inside a → t.byte a = 0 ∧ t.dev.mark a = 0) ∧
      (∀ a, ¬inside a → t.byte a = s.byte a ∧ t.dev.mark a = s.dev.mark a) ∧ (∀ a, a ≠ memcR n 0x20 → t.reg a = s.reg a) ∧
      (∀ e, t.k e = s.k e) ∧ Fixed s t) ∧
    (∀ on : Bool, (l ≠ 0 → Answers (.memOpen l on) s fun t => t = s) ∧
      (l = 0 → on = false ∨ busy = false → Answers (.memOpen l on) s fun t => isOpen t.part t.dev = on ∧ only t [memcR 0 0]) ∧
      (l = 0 → on = true → busy = true → Answers (.memOpen l on) s fun t => Raised s t 16 [])) ∧
    (∀ v : W64, (l ≠ 0 → Answers (.mapWrite l v) s fun t => t = s) ∧
      (l = 0 → opened = true ∨ busy = true → Answers (.mapWrite l v) s fun t => Raised s t 16 []) ∧
      (l = 0 → opened = false → busy = false →
        let u := (if s.part.mem192 then 4 * 2 ^ 30 else 3 * 2 ^ 30) / 32 * (if v.getLsbD 0 then 31 else 32)
        (bits v 8 8 * 0x2000000 ≤ u → Answers (.mapWrite l v) s fun t => t.reg (memcR 0 8) = v &&& 0xFF01 ∧ only t [memcR 0 8]) ∧
        (u < bits v 8 8 * 0x2000000 → Answers (.mapWrite l v) s fun t => t.reg (memcR 0 8) = v &&& 1 ∧ RegsKept s t [memcR 0 8] ∧
          t.reg (fltR 16 0x40) = countUp (s.reg (fltR 16 0x40)) 1 ∧ Still s t))) ∧
    (∀ (r : BitVec 6) (valid : Bool), Answers (.recValidWrite l r valid) s fun t =>
        t.field (recR n r.toNat 0) 55 1 = (if valid then s.field (recR n r.toNat 0) 55 1 else 0) ∧ t.field (recR n r.toNat 0) 56 8 = 0 ∧
        t.field (recR n r.toNat 0) 0 55 = s.field (recR n r.toNat 0) 0 55 ∧ only t [recR n r.toNat 0])) ∧
  -- where a line and its check words lie (R312, R313)
  (∀ (p : Part) (c c' lam lam' b b' : Nat), lam < p.rows * 1024 → lam' < p.rows * 1024 → b < 128 → b' < 128 →
    lineAt (lineRow lam) (lineBank lam) (lineSub lam) (lineCol lam) = lam ∧
    (cellKey c lam b = cellKey c' lam' b' → c = c' ∧ lam = lam' ∧ b = b') ∧
    (lam < p.checkedRows * 1024 → lam' < p.checkedRows * 1024 →
      (∀ i, i < 4 → cellKey c' lam b ≠ checkKey p c lam' + i ∧ checkKey p c lam' + i < (c + 1) * 2 ^ 32) ∧
      (lam ≠ lam' → checkKey p c lam + 4 ≤ checkKey p c lam' ∨ checkKey p c lam' + 4 ≤ checkKey p c lam)))

/-- R406 to R409, R412 and R418 to R421: hand-offs, exactly-once entries and parties. An accepted hand-off marks its regions and,
once their accepted writes are done, gives them their new owner and party; none is accepted from the owner of a region whose party
was torn down, or while an L die is in fall-back; parties start, are torn down with a fault and are freed, and anchor probes
keep them ACTIVE. The model's choices among these: what a refused hand-off leaves (log entry 34), when an entry is released (log
entry 35), and that a core so reset stays in RESET (log entry 24). -/
def Obligations.OwnershipAndParties : Prop :=
  (∀ s : State,
    let only := fun (t : State) (regs : List Nat) => (∀ a, a ∉ regs → t.reg a = s.reg a) ∧ Still s t
    let same := fun (t : State) (r : Region → Prop) (first n : Nat) => (∀ i, first ≤ i → i < first + n → r (t.dev.region i)) ∧
      ∀ i, i < first ∨ first + n ≤ i → t.dev.region i = s.dev.region i
    (∀ (l : BitVec 2) (src : Src) (v : W64),
      let first := bits v 0 17
      let n := bits v 17 10 + 1
      let ok := l = 0 ∧ first + n ≤ s.part.regions ∧ (first + n) * 0x200000 ≤ 48 * s.dev.usable s.part ∧ s.dev.handoff = none ∧
        ((srcNode src = s.dev.node ∧ (srcSite src).toNat = 20) ∨
          ∀ i < n, (s.dev.region (first + i)).owner = srcNode src ∧ (s.dev.region (first + i)).cut = false) ∧
        ∀ x < 4, s.dev.inFallback s.part (16 + x) = false
      (ok → Answers (.handoffWrite l src v) s fun t => (∃ h, t.dev.handoff = some h ∧ h.first = first ∧ h.nm1 = n - 1 ∧
          h.owner = v.extractLsb' 32 16 ∧ h.party = v.extractLsb' 48 16) ∧
        (∀ i, first ≤ i → i < first + n → t.dev.region i = { s.dev.region i with moving := true }) ∧
        (∀ i, i < first ∨ first + n ≤ i → t.dev.region i = s.dev.region i) ∧
        t.reg (memcR 0 0x38) = BitVec.ofNat 64 (1 + first * 2 ^ 8 + (n - 1) * 2 ^ 25) ∧ only t [memcR 0 0x38]) ∧
      (¬ok → Answers (.handoffWrite l src v) s fun t => t = s)) ∧
    (∀ h : HandOff, s.dev.handoff = some h → s.dev.runBusy h = false → Answers .handoffComplete s fun t => t.dev.handoff = none ∧
      same t (fun r => r = ⟨h.owner, h.party, false, false⟩) h.first (h.nm1 + 1) ∧
      t.reg (memcR 0 0x38) = BitVec.ofNat 64 (h.first * 2 ^ 8 + h.nm1 * 2 ^ 25) ∧
      (∀ r, h.answer = some r → ∃ w, t.dev.net = s.dev.net ++ [.resp w] ∧ w.dst = r.src ∧ w.tag = r.tag ∧ w.status = stOk) ∧
      (h.answer = none → h.host = true → ∀ c q, s.dev.hostQ = c :: q → c.begun = true → t.dev.hostQ = { c with done := some stOk } :: q) ∧
      only t [memcR 0 0x38]) ∧
    ((∀ h : HandOff, s.dev.handoff = some h → s.dev.runBusy h = true) → Answers .handoffComplete s fun t => t = s) ∧
    (∀ (die : BitVec 5) (src : Src) (aseq : BitVec 16), Answers (.storeEntryRelease die src aseq) s fun t =>
      (∀ e ∈ s.dev.store die.toNat, e ∈ t.dev.store die.toNat ↔ ¬(e.src = src ∧ e.aseq = aseq ∧
        ∃ r, e.result = some r ∧ 60000 ≤ elapsed (s.dev.dieCount die.toNat) r.2.2)) ∧
      (t.dev.store die.toNat).Sublist (s.dev.store die.toNat) ∧
      (∀ i, i ≠ die.toNat → t.dev.store i = s.dev.store i) ∧ only t [])) ∧
  (∀ (s : State) (e : BitVec 4),
    let n := e.toNat
    let st := s.dev.ptySt s.part n
    let cfg := ptyR n 0
    let stat := ptyR n 0x10
    let party := s.field cfg 0 16
    let only := fun (t : State) (regs : List Nat) => (∀ a, a ∉ regs → t.reg a = s.reg a) ∧ Still s t
    let others := ∃ f : BitVec 4, f ≠ e ∧ s.dev.ptySt s.part f.toNat ≠ 0 ∧ s.dev.ptyNo s.part f.toNat = party
    let now := s.dev.now.toNat % 2 ^ 32
    -- the entry is torn down: its member cores are reset and held, its channels stop
    let aborts := fun (t : State) (cause : Nat) => t.field stat 0 2 = 2 ∧ t.field stat 4 4 = cause ∧
      (∀ c : CoreId, s.part.has c = true → (s.reg (ptyR n (0x80 + 8 * c.site.toNat))).getLsbD c.p.toNat = true → (s.k c).st ≠ .fenced →
        (t.k c).st = .reset ∧ (t.k c).heldReset = true) ∧
      (∀ c : CoreId, (s.reg (ptyR n (0x80 + 8 * c.site.toNat))).getLsbD c.p.toNat = false ∨ (s.k c).st = .fenced → t.k c = s.k c) ∧
      (party ≠ 0 → ∀ i, t.dev.region i = if (s.dev.region i).party.toNat = party then { s.dev.region i with cut := true } else s.dev.region i) ∧
      (∀ (b : BitVec 5) (k : BitVec 3), s.dev.chNamesMember s.part n b.toNat k.toNat = true → t.field (chR b.toNat k.toNat 0) 0 1 = 0) ∧
      (∀ a, t.byte a = s.byte a) ∧ Fixed s t
    (st = 0 → party ≠ 0 → ¬others → Answers (.ptyStart e) s fun t => t.field stat 0 2 = 1 ∧ t.field stat 32 32 = now ∧
      t.field stat 4 28 = s.field stat 4 28 ∧ smGet 0 t.dev.probeT n = s.dev.now ∧ t.dev.probeOut = s.dev.probeOut.filter (· != n) ∧
      only t [stat]) ∧
    (st = 0 → party = 0 ∨ others → Answers (.ptyStart e) s fun t => Raised s t 31 []) ∧
    (st ≠ 0 → Answers (.ptyStart e) s fun t => t = s) ∧
    (st = 1 → Answers (.ptyAbort e) s fun t => aborts t 1) ∧
    (st ≠ 1 → Answers (.ptyAbort e) s fun t => t = s) ∧
    (st = 3 → Answers (.ptyFree e) s fun t => t.field stat 0 2 = 0 ∧ t.field stat 2 62 = s.field stat 2 62 ∧ only t [stat]) ∧
    (st ≠ 3 → Answers (.ptyFree e) s fun t => t = s) ∧
    (st ≠ 2 → Answers (.teardownComplete e) s fun t => t = s) ∧
    (st = 2 → Answers (.teardownComplete e) s fun t => t.field stat 0 2 = 3 ∧ t.field stat 4 4 = s.field stat 4 4 ∧ Raised s t 31 [stat] ∧
      ∃ f : FaultRec, f.cls = 3 ∧ f.code = 0x0706 ∧ f.ctx0 = BitVec.ofNat 64 party ∧ f.ctx1 = BitVec.ofNat 64 (s.field stat 4 4) ∧
        Logged s.part s.dev t.dev 31 f) ∧
    (let anchor := s.dev.ptyAnchor s.part n
     (st = 1 → anchor ≠ s.dev.node → 1200000 ≤ elapsed s.dev.now (smGet 0 s.dev.probeT n) → Answers (.anchorProbe e) s fun t =>
        smGet 0 t.dev.probeT n = s.dev.now ∧ t.dev.probeOut.contains n = true ∧
        (∀ z ∈ t.dev.e2e, z ∈ s.dev.e2e ∨ (z.pkt.dnode = anchor ∧ ∃ r, z.pkt.body = some (.req r) ∧ r.op = .cread)) ∧
        t.reg (ptyR n 0x18) = (if s.dev.probeOut.contains n then countUp (s.reg (ptyR n 0x18)) 1 else s.reg (ptyR n 0x18)) ∧
        only t [ptyR n 0x18, rtR 0x408, rtR 0x410, rtR 0x430]) ∧
     (st ≠ 1 ∨ anchor = s.dev.node ∨ elapsed s.dev.now (smGet 0 s.dev.probeT n) < 1200000 → Answers (.anchorProbe e) s fun t => t = s) ∧
     (∀ (status : BitVec 7) (v : W64), s.dev.probeOut.contains n = false → Answers (.anchorProbeAnswer e status v) s fun t => t = s) ∧
     (∀ (status : BitVec 7) (v : W64), s.dev.probeOut.contains n = true →
        (status ≠ stOk → Answers (.anchorProbeAnswer e status v) s fun t =>
          t.reg (ptyR n 0x18) = countUp (s.reg (ptyR n 0x18)) 1 ∧ t.dev.probeOut.contains n = false ∧ only t [ptyR n 0x18]) ∧
        (status = stOk → bits v 0 2 = 1 ∧ bits v 16 16 = party → Answers (.anchorProbeAnswer e status v) s fun t =>
          t.field stat 32 32 = now ∧ t.field stat 0 32 = s.field stat 0 32 ∧ t.dev.probeOut.contains n = false ∧ only t [stat]) ∧
        (status = stOk → ¬(bits v 0 2 = 1 ∧ bits v 16 16 = party) → st = 1 → Answers (.anchorProbeAnswer e status v) s
          fun t => aborts t 3) ∧
        (status = stOk → ¬(bits v 0 2 = 1 ∧ bits v 16 16 = party) → st ≠ 1 → Answers (.anchorProbeAnswer e status v) s
          fun t => t.dev.probeOut.contains n = false ∧ only t [])) ∧
     (st = 1 → anchor ≠ s.dev.node → 60000000 ≤ (now + 2 ^ 32 - s.field stat 32 32) % 2 ^ 32 → Answers (.anchorLost e) s
        fun t => aborts t 2) ∧
     (st ≠ 1 ∨ anchor = s.dev.node ∨ (now + 2 ^ 32 - s.field stat 32 32) % 2 ^ 32 < 60000000 → Answers (.anchorLost e) s
        fun t => t = s)))

/-- R424 to R430, R434, R438, R440 and R447: the host port. Frames are dropped, counted or answered from the
device's addresses, held while their priority is paused; a command packet to CMDPORT is checked in the order of R430 and held, refused,
or its stored reply sent again; a session times out. The model's own choices: which drops are counted, what a link that goes down loses
and what a retraining keeps (log entry 53); the order of a full queue before the checks and the flags of a reply that is not stored (log
entry 49); that the bytes a buffer holds and the FEC codewords of a frame come with it, and the length of a pause quantum (log entry
106). -/
def Obligations.HostPort : Prop :=
  ∀ s : State,
    let net := s.reg (hostR 0x38)
    let pcp : BitVec 3 := BitVec.ofNat 3 (bits net 29 3)
    let tag : Option (BitVec 12) := if net.getLsbD 28 then some (BitVec.ofNat 12 (bits net 16 12)) else none
    let frame := fun (to' : HostAddr) (payload : List Byte) => Msg.frame to' pcp (BitVec.ofNat 6 (bits net 32 6)) tag payload
    -- a frame is sent, or waits while its priority is paused
    let sends := fun (t : State) (m : Msg) => if s.dev.paused.getLsbD pcp.toNat then t.dev.txHeld = s.dev.txHeld ++ [m] ∧ t.dev.net = s.dev.net
      else t.dev.net = s.dev.net ++ [m] ∧ t.dev.txHeld = s.dev.txHeld
    let quiet := fun (t : State) => t.dev.net = s.dev.net ∧ t.dev.txHeld = s.dev.txHeld
    let only := fun (t : State) (regs : List Nat) => (∀ a, a ∉ regs → t.reg a = s.reg a) ∧ Still s t
    -- a frame's FEC codewords are counted, whatever becomes of it
    let fec := fun (t : State) (h : EthHead) => t.reg (hostR 0x238) = countUp (s.reg (hostR 0x238)) h.fecCorr.toNat ∧
      t.reg (hostR 0x240) = countUp (s.reg (hostR 0x240)) h.fecUnc.toNat
    let fecs := [hostR 0x238, hostR 0x240]
    let counts := fun (t : State) (h : EthHead) (off : Nat) => t.reg (hostR off) = countUp (s.reg (hostR off)) 1 ∧ fec t h ∧
      only t (hostR off :: fecs) ∧ quiet t
    let up := s.dev.linkUp s.part
    -- a frame for an address of the device, for its command port, and one that the port accepts
    let full := fun (h : EthHead) => 0x400000 < h.buffered.toNat + h.len.toNat
    let own := fun (h : EthHead) => s.dev.ownIp s.part h.from'.v6 h.to' = true
    let port := fun (h : EthHead) => h.dstPort.toNat = bits net 0 16
    let accepted := fun (h : EthHead) => up = true ∧ ¬full h ∧ h.fcsOk = true ∧ h.len.toNat ≤ 9216 ∧ h.vlan = tag ∧ h.fragmentOrExt = false
    let k0 := (s.dev.dieCount 20).toNat % 2 ^ 32
    -- frames
    (∀ (h : EthHead) (i : Instr) (payload : List Byte) (answers : Prop),
      (i = .ethernetFrame h ∧ ¬answers) ∨
      (i = .arpRequest h ∧ payload = s.dev.macBytes s.part ∧ (answers ↔ h.from'.v6 = false ∧ own h)) ∨
      (i = .neighbourSolicitation h ∧ payload = s.dev.macBytes s.part ∧ (answers ↔ h.from'.v6 = true ∧ own h)) ∨
      (i = .icmpEcho h payload ∧ (answers ↔ own h)) ∨
      (i = .commandPacket h payload ∧ ¬answers ∧ ¬(accepted h ∧ own h ∧ port h)) →
      (up = false → Answers i s fun t => t = s) ∧
      (up = true →
        (full h → Answers i s fun t => counts t h 0x210) ∧
        (¬full h →
          (h.fcsOk = false → Answers i s fun t => counts t h 0x248) ∧
          (h.fcsOk = true →
            (9216 < h.len.toNat → Answers i s fun t => counts t h 0x210) ∧
            (h.len.toNat ≤ 9216 →
              (h.vlan ≠ tag ∨ h.fragmentOrExt = true ∨ ¬answers → Answers i s fun t => quiet t ∧ fec t h ∧ only t fecs) ∧
              (h.vlan = tag → h.fragmentOrExt = false → answers → Answers i s fun t =>
                sends t (frame h.from' payload) ∧ fec t h ∧ only t fecs)))))) ∧
    -- a priority pauses for its own time, and a time of 0 ends its pause
    (∀ (pri : BitVec 8) (quanta : List (BitVec 16)), up = true → Answers (.pfcFrame pri quanta) s fun t =>
      (∀ j, j < 8 → t.dev.paused.getLsbD j = if pri.getLsbD j then decide (quanta.getD j 0 ≠ 0) else s.dev.paused.getLsbD j) ∧
      (∀ j, j < 8 → pri.getLsbD j = true → quanta.getD j 0 ≠ 0 → ∃ n,
        smGet 0 t.dev.pauseT j = s.dev.raw + BitVec.ofNat 64 n ∧ n = s.dev.pauseTicks s.part (quanta.getD j 0)) ∧
      (∀ a p b c d, (Msg.frame a p b c d ∈ t.dev.txHeld ↔ Msg.frame a p b c d ∈ s.dev.txHeld ∧ t.dev.paused.getLsbD p.toNat = true) ∧
        (Msg.frame a p b c d ∈ s.dev.txHeld → t.dev.paused.getLsbD p.toNat = false → Msg.frame a p b c d ∈ t.dev.net)) ∧ only t []) ∧
    (∀ pri : BitVec 3,
      (reached s.dev.raw (smGet 0 s.dev.pauseT pri.toNat) = true → Answers (.pauseTimeExpiry pri) s fun t =>
        (∀ j : BitVec 3, t.dev.paused.getLsbD j.toNat = if j = pri then false else s.dev.paused.getLsbD j.toNat) ∧
        (∀ a b c d, Msg.frame a pri b c d ∈ s.dev.txHeld → Msg.frame a pri b c d ∈ t.dev.net ∧ Msg.frame a pri b c d ∉ t.dev.txHeld) ∧
        only t []) ∧
      (reached s.dev.raw (smGet 0 s.dev.pauseT pri.toNat) = false → Answers (.pauseTimeExpiry pri) s fun t => t = s)) ∧
    -- the link
    (s.dev.kRuns s.part = true →
      (∀ (offer : BitVec 3) (trained : BitVec 8), s.field (hostR 8) 0 2 ≠ 2 →
        -- a speed the port and the partner offer, on free lanes that all train; C2M offers SPEED_MAX on its first free set alone
        let free := fun sp set => set ∈ laneSets sp ∧ set &&& s.field (hostR 0) 8 8 = 0
        let may := fun (sp set : Nat) => free sp set ∧ set &&& trained.toNat = set ∧
          if s.field (hostR 0) 4 2 = 2 then sp = s.field (hostR 0) 0 2 ∧ ∀ l, free sp l → set ≤ l
          else sp ≤ s.field (hostR 0) 0 2 ∧ (s.field (hostR 0) 2 1 = 1 → offer.getLsbD sp = true)
        (∀ sp set, may sp set → (∀ x y, may x y → x < sp ∨ x = sp ∧ set ≤ y) →
          Answers (.ethLinkUp offer trained) s fun t => t.field (hostR 8) 0 2 = 2 ∧ t.field (hostR 8) 2 2 = sp ∧
            t.field (hostR 8) 8 8 = set ∧ t.field (hostR 8) 32 32 = k0 ∧ only t [hostR 8]) ∧
        ((∀ x y, ¬may x y) → Answers (.ethLinkUp offer trained) s fun t => t = s)) ∧
      (s.field (hostR 8) 0 2 = 2 → Answers .ethLinkDown s fun t => t.field (hostR 8) 0 2 = 0 ∧ t.field (hostR 8) 8 8 = 0 ∧
        t.field (hostR 8) 32 32 = k0 ∧ t.dev.txHeld = [] ∧ t.dev.paused = 0 ∧ t.dev.hostQ = s.dev.hostQ ∧ only t [hostR 8]) ∧
      Answers .ethRetrain s fun t => t.field (hostR 8) 0 2 = 1 ∧ t.field (hostR 8) 32 32 = k0 ∧ only t [hostR 8]) ∧
    -- command packets
    (∀ (o : Origin) (i : Instr) (bs : List Byte),
      (∃ h, o = .eth h.from' ∧ i = .commandPacket h bs ∧ accepted h ∧ own h ∧ port h) ∨
      (∃ (g : BitVec 1) (src : Src), o = .berth g ∧ i = .gdoorRing src g ∧ bs = s.dev.windowBytes s.part g.toNat ∧
        s.dev.kRuns s.part = true ∧ s.dev.berthLive s.part g.toNat = true ∧ srcNode src = s.dev.node ∧ (srcSite src).toNat = 21 + g.toNat) →
      let door := fun (t : State) => ∀ g, o = .berth g → t.field (hostR (0x1A0 + 8 * g.toNat)) 1 1 = 0
      let fec := fun (t : State) => ∀ h, i = .commandPacket h bs → fec t h
      let regs := match o with | .eth _ => fecs | .berth g => [hostR (0x1A0 + 8 * g.toNat)]
      let n := cmdSession bs
      let key := slotKey n (cmdTag bs)
      let slot := ringR n (0x100 * ((cmdTag bs).toNat % 64))
      let refused := fun (t : State) (st : Nat) (res : List Byte) => t.dev.hostQ = s.dev.hostQ ∧ door t ∧ fec t ∧
        (∀ h, o = .eth h → (s.dev.badT.filter fun x => elapsed s.dev.now x < 1200000000).length < 1000 →
          sends t (frame h (replyBytes bs n (cmdKey bs) st 1 res)))
      let form := bs.head? = some 1 ∧ 16 + cmdLen bs ≤ bs.length ∧ cmdLen bs % 8 = 0 ∧ cmdLen bs ≤ 1024
      (256 ≤ s.dev.hostQ.length → Answers i s fun t => t.reg (hostR 0x210) = countUp (s.reg (hostR 0x210)) 1 ∧ t.dev.hostQ = s.dev.hostQ ∧
        door t ∧ fec t ∧ only t (hostR 0x210 :: regs)) ∧
      (s.dev.hostQ.length < 256 →
        (bs.head? ≠ some 1 → Answers i s fun t => refused t 2 (leBytes 8 1) ∧ only t regs) ∧
        (bs.head? = some 1 → ¬form → Answers i s fun t => refused t 3 [] ∧ only t regs) ∧
        (form → s.dev.sessionOk s.part o bs = false → Answers i s fun t => refused t 4 [] ∧
          t.reg (hostR 0x218) = countUp (s.reg (hostR 0x218)) 1 ∧ only t (hostR 0x218 :: regs)) ∧
        (form → s.dev.sessionOk s.part o bs = true →
          (cmdOp bs ∉ opcodes → Answers i s fun t => refused t 5 [] ∧ only t regs) ∧
          (cmdOp bs ∈ opcodes →
            (n = 0 ∨ (smGet none s.dev.hostUse key = none ∧ s.dev.slotFinal s.part n (cmdTag bs) = false) → Answers i s fun t =>
              t.dev.hostQ = s.dev.hostQ ++ [{ from' := o, bytes := bs }] ∧ (n ≠ 0 → smGet none t.dev.hostUse key = some bs) ∧ quiet t ∧
              door t ∧ fec t ∧ only t regs) ∧
            (n ≠ 0 → smGet none s.dev.hostUse key = none → s.dev.slotFinal s.part n (cmdTag bs) = true → Answers i s fun t =>
              t.reg (hostR 0x208) = countUp (s.reg (hostR 0x208)) 1 ∧ t.dev.hostQ = s.dev.hostQ ∧ fec t ∧
              (∀ h, o = .eth h → ∃ reply, sends t (frame h reply) ∧ reply.take 4 = (leBytes 8 (s.reg slot).toNat).take 4 ∧
                reply[4]? = some (BitVec.ofNat 8 (s.field slot 32 8 ||| 2))) ∧ only t (hostR 0x208 :: regs)) ∧
            (∀ old, n ≠ 0 → smGet none s.dev.hostUse key = some old →
              let running := ∃ x ∈ s.dev.deferred, x.sess = n ∧ x.slot = (cmdTag bs).toNat % 64
              (old = bs → ¬running → Answers i s fun t => t.dev.hostQ = s.dev.hostQ ∧ quiet t ∧ fec t ∧ only t regs) ∧
              (old ≠ bs ∨ running → Answers i s fun t => refused t 7 [] ∧ only t regs)))))) ∧
    (∀ (src : Src) (g : BitVec 1), srcNode src ≠ s.dev.node ∨ (srcSite src).toNat ≠ 21 + g.toNat → Answers (.gdoorRing src g) s fun t => t = s) ∧
    -- sessions and rings
    (∀ n : BitVec 5, 1 ≤ n.toNat → n.toNat ≤ 16 → s.dev.kRuns s.part = true → s.field (sessR n.toNat) 0 1 = 1 →
      1200000000 * s.field (sessR n.toNat) 16 12 ≤ elapsed s.dev.now (smGet 0 s.dev.sessT n.toNat) → Answers (.sessionTimeout n) s fun t =>
        t.reg (sessR n.toNat) = 0 ∧ (∀ i q, smGet none t.dev.qps i = some q → q.sess ≠ n.toNat) ∧ (∀ m ∈ t.dev.mrs, m.sess ≠ n.toNat) ∧
        (∀ c ∈ t.dev.hostQ, c.begun = true ∨ cmdSession c.bytes ≠ n.toNat) ∧ (∀ x ∈ t.dev.deferred, x.sess ≠ n.toNat) ∧
        (∀ o : Fin 19, o.val ≠ 0 → o.val ≠ n.toNat → s.dev.sessOpen s.part o.val = true →
          let e := fun off => ringR o.val (0x4000 + 0x40 * ((s.dev.eprod s.part o.val).toNat % 256) + off)
          (s.dev.eprod s.part o.val - s.dev.econs s.part o.val).toNat < 256 → t.reg (ecbR o.val 0) = s.dev.eprod s.part o.val + 1 ∧
            t.field (e 0) 0 8 = 3 ∧ t.reg (e 16) = BitVec.ofNat 64 (n.toNat + 3 * 2 ^ 8)) ∧ Still s t) ∧
    (∀ (n : BitVec 5) (v : W64), s.dev.sessOpen s.part n.toNat = true →
      let cons := s.dev.econs s.part n.toNat
      let ok := (v - cons).toNat ≤ (s.dev.eprod s.part n.toNat - cons).toNat
      (ok → Answers (.econsWrite n v) s fun t => t.reg (ecbR n.toNat 8) = v ∧ only t [ecbR n.toNat 8]) ∧
      (¬ok → Answers (.econsWrite n v) s fun t => t = s))

/-- R443 to R445: RDMA packets are checked for their frame, ICRC, source, PSN, size and region before K0 performs them; the answers to
K0's accesses end an operation with its ACK, or its message with the NAK of the first that fails. The model's own choices: the header bytes
of an answer (log entry 13); the order of the checks, the UDP source of the first packet, accesses of one line each, one queue pair's
operations one after the other, and which sequence error is answered (log entry 55); the FEC codewords of a frame (log entry 106). -/
def Obligations.RdmaPackets : Prop :=
  ∀ s : State,
    let net := s.reg (hostR 0x38)
    let pcp : BitVec 3 := BitVec.ofNat 3 (bits net 29 3)
    let tag : Option (BitVec 12) := if net.getLsbD 28 then some (BitVec.ofNat 12 (bits net 16 12)) else none
    let frame := fun (to' : HostAddr) (payload : List Byte) => Msg.frame to' pcp (BitVec.ofNat 6 (bits net 32 6)) tag payload
    let paused := s.dev.paused.getLsbD pcp.toNat = true
    -- a frame is sent, or waits while its priority is paused
    let sends := fun (t : State) (m : Msg) => (paused → t.dev.txHeld = s.dev.txHeld ++ [m] ∧ t.dev.net = s.dev.net) ∧
      (¬paused → t.dev.net = s.dev.net ++ [m] ∧ t.dev.txHeld = s.dev.txHeld)
    let quiet := fun (t : State) => t.dev.net = s.dev.net ∧ t.dev.txHeld = s.dev.txHeld ∧ t.dev.rdma = s.dev.rdma
    let only := fun (t : State) (regs : List Nat) => (∀ a, a ∉ regs → t.reg a = s.reg a) ∧ Still s t
    let up := s.dev.linkUp s.part
    -- packets received
    (∀ (n : BitVec 6) (h : EthHead) (psn : BitVec 24) (pos : RdmaPos) (va : W64) (rkey len : W32) (data : List Byte) (ok : Bool) (i : Instr) (q : QP),
      let write := Instr.rdmaWrite n h psn pos va rkey len data ok
      let read := Instr.rdmaRead n h psn va rkey len ok
      let at' := fun (t : State) => smGet none t.dev.qps n.toNat
      let fecs := [hostR 0x238, hostR 0x240]
      let fec := fun (t : State) => t.reg (hostR 0x238) = countUp (s.reg (hostR 0x238)) h.fecCorr.toNat ∧
        t.reg (hostR 0x240) = countUp (s.reg (hostR 0x240)) h.fecUnc.toNat
      let counted := fun (t : State) => fec t ∧ only t fecs
      let nak := fun (t : State) (p : BitVec 24) (syndrome : Nat) =>
        t.reg (hostR 0x230) = countUp (s.reg (hostR 0x230)) 1 ∧ sends t (frame h.from' (bthBytes 0x11 q p ++ aethBytes syndrome q)) ∧
        t.dev.rdma = s.dev.rdma ∧ fec t ∧ only t (hostR 0x230 :: fecs)
      let accepted := 0x400000 ≥ h.buffered.toNat + h.len.toNat ∧ h.fcsOk = true ∧ h.len.toNat ≤ 9216 ∧ h.vlan = tag ∧
        h.fragmentOrExt = false ∧ s.dev.ownIp s.part h.from'.v6 h.to' = true ∧ h.dstPort = 4791
      let ours := h.from'.v6 = q.ipv6 ∧ h.from'.ip = q.gid ∧ (q.udp = none ∨ q.udp = some h.from'.udp)
      let q1 := { q with nakSent := false, udp := some h.from'.udp }
      let idle := s.dev.rdma = []
      let others := ∀ o ∈ s.dev.rdma, o.issued = true ∧ o.parts ≠ []
      let busy := others ∧ ∃ o ∈ s.dev.rdma, o.qp = n.toNat
      let takes := fun (what : RdmaWhat) (a : W64) (size : Nat) (q' : QP) =>
        0 < size → a.toNat + size ≤ 2 ^ 48 →
        (busy → Answers i s fun t => at' t = some q' ∧ t.dev.net = s.dev.net ∧ t.dev.txHeld = s.dev.txHeld ∧
          t.dev.rdma = s.dev.rdma ++ [{ qp := n.toNat, psn := psn, to' := h.from', addr := a, what := what }] ∧ counted t) ∧
        (idle → Answers i s fun t => at' t = some q' ∧ Still s t ∧
          ∃ o, t.dev.rdma = [o] ∧ o.qp = n.toNat ∧ o.psn = psn ∧ o.to' = h.from' ∧ o.addr = a ∧ o.what = what ∧ o.issued = true ∧
            o.parts.map (fun x => (x.2.1.toNat, x.2.2)) = rdmaParts a.toNat size)
      let starts := pos = .first ∨ pos = .only
      let ends := pos = .last ∨ pos = .only
      up = true → i = write ∨ i = read →
      (0x400000 ≥ h.buffered.toNat + h.len.toNat → h.fcsOk = true → h.len.toNat ≤ 9216 → ¬accepted → Answers i s fun t => quiet t ∧ counted t) ∧
      (accepted → ok = false → Answers i s fun t => t.reg (hostR 0x248) = countUp (s.reg (hostR 0x248)) 1 ∧ quiet t ∧ fec t ∧
        only t (hostR 0x248 :: fecs)) ∧
      (accepted → ok = true → smGet none s.dev.qps n.toNat = none → Answers i s fun t => quiet t ∧ counted t) ∧
      (accepted → ok = true → smGet none s.dev.qps n.toNat = some q →
        (¬ours → Answers i s fun t => nak t psn 0x62 ∧ at' t = some q) ∧
        (ours →
          (psn ≠ q.epsn → (psn - q.epsn).toNat < 2 ^ 23 →
            (q.nakSent = false → Answers i s fun t => nak t q.epsn 0x60 ∧ at' t = some { q1 with nakSent := true }) ∧
            (q.nakSent = true → Answers i s fun t => quiet t ∧ counted t)) ∧
          (2 ^ 23 ≤ (psn - q.epsn).toNat →
            (i = write → idle → Answers i s fun t =>
              sends t (frame h.from' (bthBytes 0x11 q (q.epsn - 1) ++ aethBytes 0x1F q)) ∧ at' t = some q ∧ counted t) ∧
            (i = read → q.msg = none → idle → s.dev.mrOk rkey false va.toNat len.toNat = true → takes (.read len.toNat) va len.toNat q)) ∧
          (psn = q.epsn → i = write →
            (pos = .unsupported ∨ (starts ∧ q.msg ≠ none) ∨ (¬starts ∧ q.msg = none) → Answers i s fun t => nak t psn 0x61) ∧
            (∀ a left k, (starts ∧ q.msg = none ∧ a = va ∧ left = len.toNat ∧ k = rkey) ∨ (¬starts ∧ pos ≠ .unsupported ∧ q.msg = some (a, left, k)) →
              let sized := if ends then data.length = left ∧ left ≤ q.mtu else data.length = q.mtu ∧ q.mtu < left
              let rest := if ends then none else some (a + BitVec.ofNat 64 data.length, left - data.length, k)
              (¬sized → Answers i s fun t => nak t psn 0x61) ∧
              (sized → starts → s.dev.mrOk k true a.toNat left = false → Answers i s fun t => nak t psn 0x62) ∧
              (sized → (starts → s.dev.mrOk k true a.toNat left = true) →
                takes (.write data (decide ends)) a data.length { q1 with epsn := psn + 1, msg := rest }))) ∧
          (psn = q.epsn → i = read →
            (q.msg ≠ none → Answers i s fun t => nak t psn 0x61) ∧
            (q.msg = none → 16 ≤ (s.dev.rdma.filter fun o => o.qp == n.toNat && o.isRead).length → Answers i s fun t => nak t psn 0x61) ∧
            (q.msg = none → idle ∨ (busy ∧ s.dev.rdma.length < 16) →
              (s.dev.mrOk rkey false va.toNat len.toNat = false → Answers i s fun t => nak t psn 0x62) ∧
              (s.dev.mrOk rkey false va.toNat len.toNat = true →
                takes (.read len.toNat) va len.toNat { q1 with epsn := psn + BitVec.ofNat 24 (q.readPkts len.toNat) })))))) ∧
    -- the answer to the last access of an operation, the only one under way
    (∀ (r : Resp) (o : RdmaOp) (a : W64) (m : Nat) (q : QP), s.dev.dead = false → r.dst = s.dev.hostSrc → s.dev.respWaits r = false → up = true →
      s.dev.rdma = [o] → o.issued = true → o.parts = [(r.tag, a, m)] → smGet none s.dev.qps o.qp = some q →
      let leaves := fun (t : State) (x : Msg) => (paused → t.dev.txHeld = s.dev.txHeld ++ [x]) ∧ (¬paused → x ∈ t.dev.net)
      (∀ data, o.what = .write data true → r.status = stOk → Answers (.rstat r) s fun t => t.dev.rdma = [] ∧
        t.reg (hostR 0x220) = countUp (s.reg (hostR 0x220)) (linesOf a.toNat m) ∧ smGet none t.dev.qps o.qp = some { q with msn := q.msn + 1 } ∧
        leaves t (frame o.to' (bthBytes 0x11 q o.psn ++ aethBytes 0x1F { q with msn := q.msn + 1 })) ∧ only t [hostR 0x220]) ∧
      (r.status ≠ stOk → o.qp < 64 → Answers (.rstat r) s fun t => t.dev.rdma = [] ∧
        t.field (hostR 0x1C0) 0 48 = a.toNat % 2 ^ 48 / 128 * 128 ∧ t.field (hostR 0x1C0) 48 7 = r.status.toNat ∧ t.field (hostR 0x1C0) 56 6 = o.qp ∧
        t.reg (hostR 0x230) = countUp (s.reg (hostR 0x230)) 1 ∧
        (o.ends = true → smGet none t.dev.qps o.qp = some q) ∧
        (o.ends = false → smGet none t.dev.qps o.qp = some { q with msg := none }) ∧
        leaves t (frame o.to' (bthBytes 0x11 q o.psn ++ aethBytes 0x63 q)) ∧ only t [hostR 0x1C0, hostR 0x230]))

/-- R431 to R438, R441, R442 and R500: K0 executes the command at the head of its queue, if the row names its opcode: its reply is
stored in its slot and sent, and the command is counted. A command not allowed in an orderly stop, barred to a berth or of a wrong
length is answered so; deferred ones answer STARTED and complete with a DONE event. The model's own choices: the order and flags of the
checks (log entry 49), the lengths of the opcodes and the statuses of their parameters (log entry 50), that a command which waits stays
at the head of the queue until its row comes again, with the answer of a far register access in the row (log entry 51), and that a
session's key and RKEY are free values (log entry 6). -/
def Obligations.HostCommands : Prop :=
  (∀ (s : State) (c : HCmd) (q : List HCmd), s.dev.hostQ = c :: q → s.dev.kRuns s.part = true →
    (∀ g, c.from' = .berth g → s.field (brtR g.toNat 0) 8 1 = 0) →
    let bs := c.bytes
    let n := cmdSession bs
    let tag := cmdTag bs
    let ps := cmdParams bs
    let op := cmdOp bs
    let d0 : Dev := { s.dev with hostQ := q }
    let slot := fun (k i : Nat) => ringR k (0x100 * (tag.toNat % 64) + 8 * i)
    let slots := (List.range 32).map (slot n)
    let cnt := hostR 0x200
    let net := s.reg (hostR 0x38)
    let frame := fun (h : HostAddr) (x : List Byte) => Msg.frame h (BitVec.ofNat 3 (bits net 29 3)) (BitVec.ofNat 6 (bits net 32 6))
      (if net.getLsbD 28 then some (BitVec.ofNat 12 (bits net 16 12)) else none) x
    let holds := fun (t : State) (k : Nat) (r : List Byte) => ∀ i < 32, t.reg (slot k i) = BitVec.ofNat 64 (leNat ((r.drop (8 * i)).take 8))
    let sent := fun (t : State) (r : List Byte) => ∀ h, c.from' = .eth h → s.dev.linkUp s.part = true →
      frame h r ∈ t.dev.net ∨ frame h r ∈ t.dev.txHeld
    let reply := fun (st flags : Nat) (res : List Byte) => replyBytes bs n (cmdKey bs) st flags res
    -- the command ends with a status and results; `regs` are the registers it writes beside its slot and CNT_CMD
    let ended := fun (t : State) (st flags : Nat) (res : List Byte) => t.dev.hostQ = q ∧ holds t n (reply st flags res) ∧
      sent t (reply st flags res) ∧ t.reg cnt = if countsAsRun st then countUp (s.reg cnt) 1 else s.reg cnt
    let only := fun (t : State) (regs : List Nat) => (∀ a, a ∉ cnt :: slots ++ regs → t.reg a = s.reg a) ∧ Still s t
    let ends := fun (i : Instr) (st : Nat) (res : List Byte) => Answers i s fun t => ended t st 5 res ∧ only t []
    let berth := ∃ g, c.from' = .berth g
    let rows : List (Instr × Nat) := [(.hostNop, 0), (.sessionOpen, 1), (.sessionClose, 2), (.sessionList, 3), (.deviceInfo, 4), (.eventPoll, 5),
      (.regRead [], 0x10), (.regWrite [], 0x11), (.coreCtrl, 0x12), (.partyStart, 0x20), (.partyAbort, 0x21), (.partyFree, 0x22), (.handoff, 0x23),
      (.qpCreate, 0x30), (.qpDestroy, 0x31), (.mrRegister, 0x32), (.mrDeregister, 0x33), (.freqSet, 0x40), (.calBank, 0x41), (.calPackage, 0x42),
      (.hostReset, 0x48), (.stop, 0x49)]
    -- checks that every opcode shares
    (∀ x ∈ rows, op ≠ x.2 → Answers x.1 s fun t => t = s) ∧
    (1 ≤ n → n ≤ 18 →
      (∀ x ∈ rows, op = x.2 →
        (s.dev.stopStep ≠ 0 → stopAllows op = false → c.begun = false → ends x.1 0xA []) ∧
        (s.dev.stopStep = 0 → berth → berthBarred op = true → (op = 2 → 17 ≤ n) → ends x.1 0xD []) ∧
        (s.dev.stopStep = 0 → ¬berth → lengthOk op (cmdLen bs) = false → ends x.1 3 [])) ∧
      (s.dev.stopStep = 0 → ¬(berth ∧ berthBarred op = true) → lengthOk op (cmdLen bs) = true → c.begun = false → c.made = 0 → c.done = none →
        (op = 0 → ends .hostNop 0 ps) ∧
        -- sessions
        (op = 2 → n ≤ 16 → Answers .sessionClose s fun t => sent t (reply 0 5 []) ∧ t.reg (sessR n) = 0 ∧
          (∀ i z, smGet none t.dev.qps i = some z → z.sess ≠ n) ∧ (∀ m ∈ t.dev.mrs, m.sess ≠ n) ∧
          (∀ x ∈ t.dev.hostQ, x ∈ q) ∧ (∀ x ∈ t.dev.deferred, x.sess ≠ n) ∧ Still s t) ∧
        (op = 3 → ends .sessionList 0 (sessions.map fun k => leBytes 8 (s.dev.sessWord s.part k).toNat).flatten) ∧
        (op = 4 → ends .deviceInfo 0 (s.dev.deviceInfo s.part)) ∧
        (op = 5 →
          let top := par ps 0 1
          let cons := s.dev.econs s.part n
          let m := min top (s.dev.eprod s.part n - cons).toNat
          let entry := fun (i : Nat) => ((List.range 8).map fun j =>
            leBytes 8 (s.reg (ringR n (0x4000 + 0x40 * ((cons.toNat + i) % 256) + 8 * j))).toNat).flatten
          (top = 0 ∨ 3 < top → ends .eventPoll 6 []) ∧
          (1 ≤ top → top ≤ 3 → Answers .eventPoll s fun t => t.reg (ecbR n 8) = cons + BitVec.ofNat 64 m ∧
            ended t 0 5 (leBytes 8 m ++ leBytes 8 (s.reg (ecbR n 0x10)).toNat ++ ((List.range m).map entry).flatten) ∧ only t [ecbR n 8])) ∧
        -- registers
        (∀ (a : W64) (ans : RemoteAns), par ps 0 2 = 1 → BitVec.ofNat 64 (par ps 8 8) = a → ctlWindow a = true →
          let far := gaNode a ≠ s.dev.node
          let near := gaNode a = s.dev.node ∧ isG (ctlSite (ctlOf a)) = false
          let res := fun (st : BitVec 7) (v : W64) => leBytes 1 st.toNat ++ List.replicate 15 0 ++ leBytes 8 v.toNat
          let sts := fun (st : BitVec 7) => if st = stOk then 0 else 0xB
          (op = 0x10 → ps.length = 16 →
            (far → Answers (.regRead [ans]) s fun t => ended t (sts ans.status) 5 (res ans.status (if ans.status = stOk then ans.value else 0))) ∧
            (near → (d0.refusedAtSender s.part (.ctl (ctlOf a))) = none → Answers (.regRead []) s fun t =>
              let z := d0.ctlRead s.part (ctlOf a)
              ended t (sts z.1) 5 (res z.1 z.2) ∧ only t [])) ∧
          (op = 0x11 → ps.length = 24 →
            let v := BitVec.ofNat 64 (par ps 16 8)
            (far → Answers (.regWrite [ans]) s fun t => ended t (sts ans.status) 5 (regWriteRes (if ans.status = stOk then 1 else 0) ans.status)) ∧
            (near → ¬berth → (d0.refusedAtSender s.part (.ctl (ctlOf a))) = none →
              let z := d0.ctlWrite s.part d0.hostSrc none (ctlOf a) v true true
              ∀ st, z.2.2 = some st → Answers (.regWrite []) s fun t => t.dev.hostQ = z.1.hostQ ∧
                holds t n (reply (sts st) 5 (regWriteRes (if st = stOk then 1 else 0) st)) ∧
                ∀ x, x ∉ cnt :: slots → t.reg x = z.1.get s.part x))) ∧
        -- cores
        (op = 0x12 →
          let w := par ps 0 1
          let act := par ps 1 1
          let mask := par ps 8 8
          (16 ≤ w ∨ act = 0 ∨ 4 < act → ends .coreCtrl 6 []) ∧
          (w < 16 → 1 ≤ act → act ≤ 4 →
            (s.dev.siteReady s.part w = false → ends .coreCtrl 0xC []) ∧
            (∀ k : BitVec 6, s.dev.siteReady s.part w = true → mask = 2 ^ k.toNat →
              let e : CoreId := ⟨BitVec.ofNat 4 w, k⟩
              let x := s.k e
              let setPc := par ps 2 1 % 2 = 1
              let pcOk := x.st = .reset ∨ x.st = .idle ∨ x.st = .halt
              (s.part.has e = false ∨ x.st = .fenced → ends .coreCtrl 0 (leBytes 8 mask)) ∧
              (s.part.has e = true → x.st ≠ .fenced → act ≠ 4 → Answers .coreCtrl s fun t =>
                let y := if setPc ∧ pcOk then { x with pc := BitVec.ofNat 22 (par ps 16 4 / 4 * 4) } else x
                t.k e = (if act = 1 then y.start true else if act = 2 then y.halt else y.resume) ∧ (∀ f, f ≠ e → t.k f = s.k f) ∧
                ended t 0 5 (leBytes 8 (if setPc ∧ ¬pcOk then mask else 0)) ∧ (∀ z, t.byte z = s.byte z) ∧ Fixed s t ∧
                ∀ z, z ∉ cnt :: slots → t.reg z = s.reg z) ∧
              (s.part.has e = true → x.st ≠ .fenced → act = 4 → Answers .coreCtrl s fun t => (t.k e).st = .reset ∧
                (∀ f, f ≠ e → t.k f = s.k f) ∧ (∀ z, t.byte z = s.byte z) ∧ Fixed s t)))) ∧
        -- parties and hand-off
        (op = 0x20 →
          let e := par ps 0 1
          let party := par ps 2 2
          let bad := 16 ≤ e ∨ 16 ≤ par ps 6 1 ∨ party = 0
          let clash := s.dev.ptySt s.part e ≠ 0 ∨ ∃ f < 16, f ≠ e ∧ s.dev.ptySt s.part f ≠ 0 ∧ s.dev.ptyNo s.part f = party
          (bad → ends .partyStart 6 []) ∧ (¬bad → clash → ends .partyStart 0xA []) ∧
          (¬bad → ¬clash → Answers .partyStart s fun t => t.dev.ptySt t.part e = 1 ∧ t.field (ptyR e 0) 0 16 = party ∧
            t.field (ptyR e 0) 16 16 = par ps 4 2 ∧ t.field (ptyR e 0) 32 4 = par ps 6 1 ∧
            (∀ k : Fin 16, t.reg (ptyR e (0x80 + 8 * k.val)) = BitVec.ofNat 64 (par ps (8 + 8 * k.val) 8)) ∧
            ended t 0 5 [] ∧ only t ([ptyR e 0, ptyR e 0x10] ++ (List.range 16).map fun k => ptyR e (0x80 + 8 * k)))) ∧
        (op = 0x21 →
          let party := par ps 0 2
          let holders := fun (e : Nat) => s.dev.ptySt s.part e ≠ 0 ∧ s.dev.ptyNo s.part e = party
          ((∀ e < 16, ¬holders e ∨ s.dev.ptySt s.part e = 3) → ends .partyAbort 0 []) ∧
          (∀ e < 16, holders e → s.dev.ptySt s.part e = 1 → Answers .partyAbort s fun t => t.dev.ptySt t.part e = 2 ∧
            t.field (ptyR e 0x10) 4 4 = 1 ∧ (∀ k, s.dev.isMember s.part e k = true → s.part.has k = true → (s.k k).st ≠ .fenced →
              (t.k k).st = .reset ∧ (t.k k).heldReset = true) ∧ t.dev.hostQ = { c with begun := true } :: q ∧ t.dev.net = s.dev.net)) ∧
        (op = 0x22 →
          let e := par ps 0 1
          (16 ≤ e → ends .partyFree 6 []) ∧ (e < 16 → s.dev.ptySt s.part e ≠ 3 → ends .partyFree 0xA []) ∧
          (e < 16 → s.dev.ptySt s.part e = 3 → Answers .partyFree s fun t => t.dev.ptySt t.part e = 0 ∧ ended t 0 5 [] ∧ only t [ptyR e 0x10])) ∧
        (op = 0x23 →
          let first := par ps 0 4
          let nm1 := par ps 4 2
          let v := packFields [(0, first), (17, nm1), (32, par ps 8 2), (48, par ps 10 2)]
          (2 ^ 17 ≤ first ∨ 1024 ≤ nm1 → ends .handoff 6 []) ∧
          (first < 2 ^ 17 → nm1 < 1024 → d0.refusedAtSender s.part (.ctl (memcR 0 0x30)) = none →
            (∀ st, d0.handoffRefused s.part 0 d0.hostSrc v = some st → ends .handoff (0x100 + st.toNat) (leBytes 8 (s.reg (memcR 0 0x38)).toNat)) ∧
            (d0.handoffRefused s.part 0 d0.hostSrc v = none → Answers .handoff s fun t =>
              (∃ h, t.dev.handoff = some h ∧ h.first = first ∧ h.nm1 = nm1 ∧ h.host = true) ∧
              t.dev.hostQ = { c with begun := true } :: q ∧ (∀ a, a ≠ memcR 0 0x38 → t.reg a = s.reg a) ∧ Still s t))))) ∧
    -- a new session
    (n = 0 → op = 1 → s.dev.stopStep = 0 → ¬berth → cmdLen bs = 8 → ∀ k : Fin 17, 1 ≤ k.val → s.field (sessR k.val) 0 1 = 0 →
      (∀ j : Fin 17, 1 ≤ j.val → j < k → s.field (sessR j.val) 0 1 = 1) → par ps 0 2 ≤ 3600 → par ps 2 1 ≤ 4 → Answers .sessionOpen s fun t =>
        let key := t.field (sessR k.val) 32 32
        t.field (sessR k.val) 0 1 = 1 ∧ t.field (sessR k.val) 3 3 = par ps 2 1 ∧
        t.field (sessR k.val) 16 12 = (if par ps 0 2 = 0 then 10 else par ps 0 2) ∧ key ≠ 0 ∧ t.dev.hostQ = q ∧
        (∃ m, t.dev.mrs = s.dev.mrs ++ [m] ∧ m.sess = k.val ∧ m.ring = true ∧
          (let r := replyBytes bs k.val key 0 5 (leBytes 8 m.rkey.toNat ++ leBytes 8 (localOf (ringR k.val 0)) ++ leBytes 8 (localOf (ecbR k.val 0)))
           holds t k.val r ∧ sent t r)) ∧ Still s t))

/-- R432, R435 to R438, R441, R443, R459, R474 and R507: the host commands for RDMA objects, the operating point, calibration and resets,
carried out at the head of K0's queue, and the completion of a deferred command: its reply replaces STARTED in its slot and a DONE
event is posted. A reset or a stop counts its 1,200,000 ticks from the reply leaving. The model's own choices: the statuses of
parameters (log entry 50), the RKEY of a region as a free value (log entry 6), and which banks a deferred calibration names and
counts (log entry 52). -/
def Obligations.HostObjectsAndControl : Prop :=
  (∀ (s : State) (c : HCmd) (q : List HCmd), s.dev.hostQ = c :: q → s.dev.kRuns s.part = true →
    (∀ g, c.from' = .berth g → s.field (brtR g.toNat 0) 8 1 = 0) →
    let bs := c.bytes
    let n := cmdSession bs
    let tag := cmdTag bs
    let ps := cmdParams bs
    let op := cmdOp bs
    let slot := fun (k i : Nat) => ringR k (0x100 * (tag.toNat % 64) + 8 * i)
    let slots := (List.range 32).map (slot n)
    let cnt := hostR 0x200
    let net := s.reg (hostR 0x38)
    let frame := fun (h : HostAddr) (x : List Byte) => Msg.frame h (BitVec.ofNat 3 (bits net 29 3)) (BitVec.ofNat 6 (bits net 32 6))
      (if net.getLsbD 28 then some (BitVec.ofNat 12 (bits net 16 12)) else none) x
    let holds := fun (t : State) (k : Nat) (r : List Byte) => ∀ i < 32, t.reg (slot k i) = BitVec.ofNat 64 (leNat ((r.drop (8 * i)).take 8))
    let sent := fun (t : State) (r : List Byte) => ∀ h, c.from' = .eth h → s.dev.linkUp s.part = true →
      frame h r ∈ t.dev.net ∨ frame h r ∈ t.dev.txHeld
    let reply := fun (st flags : Nat) (res : List Byte) => replyBytes bs n (cmdKey bs) st flags res
    -- the command ends with a status and results; `regs` are the registers it writes beside its slot and CNT_CMD
    let ended := fun (t : State) (st flags : Nat) (res : List Byte) => t.dev.hostQ = q ∧ holds t n (reply st flags res) ∧
      sent t (reply st flags res) ∧ t.reg cnt = if countsAsRun st then countUp (s.reg cnt) 1 else s.reg cnt
    let only := fun (t : State) (regs : List Nat) => (∀ a, a ∉ cnt :: slots ++ regs → t.reg a = s.reg a) ∧ Still s t
    let ends := fun (i : Instr) (st : Nat) (res : List Byte) => Answers i s fun t => ended t st 5 res ∧ only t []
    let berth := ∃ g, c.from' = .berth g
    -- a reset or stop is asked for; where its reply waits in a paused priority, its time waits with it
    let asks := fun (i : Instr) (kind : Nat) => Answers i s fun t => ended t 0 5 [] ∧ only t [] ∧
      ∃ x, t.dev.resetDue = s.dev.resetDue ++ [x] ∧ x.kind = kind ∧ x.t = s.dev.now ∧ (x.waits = none ↔ t.dev.txHeld = s.dev.txHeld) ∧
        (∀ m, x.waits = some m → t.dev.txHeld = s.dev.txHeld ++ [m])
    (1 ≤ n → n ≤ 18 → s.dev.stopStep = 0 → ¬(berth ∧ berthBarred op = true) → lengthOk op (cmdLen bs) = true → c.begun = false → c.made = 0 →
        c.done = none →
        -- RDMA objects
        (op = 0x30 →
          let held := (s.dev.qps.filter fun e => match e.2 with | some z => z.sess == n | none => false).length
          (2 < par ps 12 1 → ends .qpCreate 6 []) ∧
          (par ps 12 1 ≤ 2 → 8 ≤ held ∨ (∀ i < 64, smGet none s.dev.qps i ≠ none) → ends .qpCreate 9 []) ∧
          (∀ i < 64, par ps 12 1 ≤ 2 → held < 8 → smGet none s.dev.qps i = none → (∀ j < i, smGet none s.dev.qps j ≠ none) →
            Answers .qpCreate s fun t => ended t 0 5 (leBytes 8 (0x100 + i)) ∧ only t [] ∧ ∃ z, smGet none t.dev.qps i = some z ∧ z.sess = n ∧
              z.rqpn = BitVec.ofNat 24 (par ps 0 3) ∧ z.epsn = BitVec.ofNat 24 (par ps 4 3) ∧ z.psn = BitVec.ofNat 24 (par ps 8 3) ∧
              z.pmtu.toNat = par ps 12 1 ∧ z.ipv6 = (par ps 13 1 % 2 == 1) ∧ z.gid = BitVec.ofNat 128 (par ps 16 16) ∧ z.msg = none)) ∧
        (op = 0x31 →
          let k := par ps 0 3
          (k < 0x100 ∨ 0x140 ≤ k → ends .qpDestroy 6 []) ∧
          (0x100 ≤ k → k < 0x140 →
            (smGet none s.dev.qps (k - 0x100) = none → ends .qpDestroy 0xA []) ∧
            (smGet none s.dev.qps (k - 0x100) ≠ none → Answers .qpDestroy s fun t => smGet none t.dev.qps (k - 0x100) = none ∧
              (∀ i, i ≠ k - 0x100 → smGet none t.dev.qps i = smGet none s.dev.qps i) ∧ ended t 0 5 [] ∧ only t []))) ∧
        (op = 0x32 →
          let own := s.dev.mrs.filter fun m => !m.ring
          let a := par ps 0 8
          let len := par ps 8 8
          let bad := a % 4096 ≠ 0 ∨ len % 4096 ≠ 0 ∨ 2 ^ 48 < a + len
          let full := 256 ≤ own.length ∨ 32 ≤ (own.filter fun m => m.sess == n).length
          (bad → ends .mrRegister 6 []) ∧ (¬bad → full → ends .mrRegister 9 []) ∧
          (¬bad → ¬full → Answers .mrRegister s fun t => only t [] ∧ ∃ m, t.dev.mrs = s.dev.mrs ++ [m] ∧ m.sess = n ∧ m.base = a ∧
            m.len = len ∧ m.rd = (par ps 16 1).testBit 0 ∧ m.wr = (par ps 16 1).testBit 1 ∧ m.ring = false ∧ ended t 0 5 (leBytes 8 m.rkey.toNat))) ∧
        (op = 0x33 →
          let k : W32 := BitVec.ofNat 32 (par ps 0 4)
          ((∃ m ∈ s.dev.mrs, m.rkey = k ∧ m.ring = false) → Answers .mrDeregister s fun t => ended t 0 5 [] ∧ only t [] ∧
            ∀ m, m ∈ t.dev.mrs ↔ m ∈ s.dev.mrs ∧ ¬(m.rkey = k ∧ m.ring = false)) ∧
          ((∀ m ∈ s.dev.mrs, ¬(m.rkey = k ∧ m.ring = false)) → ends .mrDeregister 0xA [])) ∧
        -- clock, calibration, resets
        (op = 0x40 →
          let dep : W64 := BitVec.ofNat 64 (par ps 8 8)
          let ahead := (dep - s.dev.now).toNat
          (4 ≤ par ps 0 1 → ends .freqSet 6 []) ∧
          (par ps 0 1 < 4 → ahead < 120000 ∨ 2 ^ 63 < ahead → Answers .freqSet s fun t => ended t 6 5 [] ∧
            t.field (clkR 31 0x20) 4 4 = 1 ∧ t.dev.freqPend = s.dev.freqPend ∧ only t [clkR 31 0x20]) ∧
          (par ps 0 1 < 4 → 120000 ≤ ahead → ahead ≤ 2 ^ 63 → s.dev.freqPend = none → Answers .freqSet s fun t => ended t 0 5 [] ∧
            t.dev.freqPend = some (BitVec.ofNat 2 (par ps 0 1), dep) ∧ t.field (clkR 31 0x20) 0 1 = 1 ∧
            t.field (clkR 31 0x20) 1 2 = par ps 0 1 ∧ t.field (clkR 31 0x20) 32 32 = dep.toNat % 2 ^ 32 ∧ only t [clkR 31 0x20])) ∧
        (op = 0x41 →
          let named := fun (b : BitVec 5) => (BitVec.ofNat 64 (par ps 0 4)).getLsbD b.toNat = true
          let bad := fun (b : BitVec 5) => s.dev.bankState s.part b.toNat = 0 ∨ s.dev.bankState s.part b.toNat = 6
          (s.dev.calRuns = true → ends .calBank 7 []) ∧
          (s.dev.calRuns = false → Answers .calBank s fun t => ended t 1 1 [] ∧ Still s t ∧
            (∀ b, named b → ¬bad b → t.field (pwbR b.toNat 0x30) 0 2 ≠ 0) ∧
            (∀ b, ¬named b → t.reg (pwbR b.toNat 0x30) = s.reg (pwbR b.toNat 0x30)) ∧
            ∃ x, t.dev.deferred = s.dev.deferred ++ [x] ∧ x.sess = n ∧ x.slot = tag.toNat % 64 ∧ x.opcode = 0x41 ∧ x.tag = tag ∧
              (∀ b : BitVec 5, (b.toNat ∈ x.banks ↔ named b ∧ ¬bad b) ∧ (b.toNat ∈ x.refused ↔ named b ∧ bad b)))) ∧
        (op = 0x42 →
          (s.dev.calRuns = true ∨ s.dev.recalBusy = true → ends .calPackage 7 []) ∧
          (s.dev.calRuns = false → s.dev.recalBusy = false → Answers .calPackage s fun t => ended t 1 1 [] ∧ t.dev.recalBusy = true ∧
            t.field (calR 31 8) 1 3 = 3 ∧ (∃ x, t.dev.deferred = s.dev.deferred ++ [x] ∧ x.sess = n ∧ x.opcode = 0x42 ∧ x.tag = tag) ∧
            only t [calR 31 8, calR 31 0x10, calR 31 0x18, calR 31 0x20])) ∧
        (op = 0x48 →
          (par ps 0 1 = 1 ∨ par ps 0 1 = 2 → asks .hostReset (par ps 0 1)) ∧
          (par ps 0 1 ≠ 1 → par ps 0 1 ≠ 2 → ends .hostReset 6 [])) ∧
        (op = 0x49 → asks .stop 3))) ∧
  -- a deferred command completes
  (∀ (s : State) (x : Deferred), s.dev.kRuns s.part = true → (s.dev.deferred.find? fun y => y.sess == x.sess && y.slot == x.slot) = some x → 1 ≤ x.sess → x.sess ≤ 18 → x.slot < 64 →
      x.slot = x.tag.toNat % 64 → s.dev.deferredOver s.part x = true →
      Answers (.deferredDone (BitVec.ofNat 5 x.sess) (BitVec.ofNat 6 x.slot)) s fun t =>
        let res := s.dev.deferredRes s.part x
        let w := ringR x.sess (0x100 * x.slot)
        let prod := s.dev.eprod s.part x.sess
        let e := fun off => ringR x.sess (0x4000 + 0x40 * (prod.toNat % 256) + off)
        (x.opcode = 0x41 → x.banks.Nodup → (∀ b ∈ x.banks, b < 32) → ∀ b, b < 32 → ((leNat (res.take 4)).testBit b = true ↔ b ∈ x.banks ∧ b ∈ x.calibrated)) ∧
        t.dev.deferred = s.dev.deferred.erase x ∧ t.field w 8 8 = x.opcode % 2 ^ 8 ∧ t.field w 16 16 = x.tag.toNat ∧ t.field w 32 8 = 5 ∧
        t.field (w + 8) 16 16 = 0 ∧ (∀ i < res.length / 8, t.reg (w + 16 + 8 * i) = BitVec.ofNat 64 (leNat ((res.drop (8 * i)).take 8))) ∧
        ((prod - s.dev.econs s.part x.sess).toNat < 256 → t.reg (ecbR x.sess 0) = prod + 1 ∧ t.field (e 0) 0 8 = 2 ∧
          t.field (e 0) 16 16 = x.tag.toNat) ∧ t.dev.net = s.dev.net ∧ Still s t)

/-- R451, R453 to R455, R459, R460, R463 to R467: clocks and the ledger. The reference and the root PLL set their status bits and
raise their faults; a region measures, stretches, holds and is fenced by its rules; a frequency change departs at its count; the
ledger counts, votes, slews and loads for all its users, and snoops are corrected to it. The model's own choices: the measures of a window,
and which holds count toward a fence (log entry 56); the order of slew, load and vote at an edge, when an edge of LSYNC counts and what a
snoop that holds does (log entry 57); that the path delay added to a synchronisation message is exact (log entry 108); that a row whose
condition does not hold changes nothing (log entry 17). -/
def Obligations.ClocksAndLedger : Prop :=
  ∀ s : State,
    let only := fun (t : State) (regs : List Nat) => (∀ a, a ∉ regs → t.reg a = s.reg a) ∧ Still s t
    let raises := fun (t : State) (site : Nat) => t.reg (fltR site 0x40) = countUp (s.reg (fltR site 0x40)) 1
    let now := s.dev.now.toNat % 2 ^ 32
    let st := clkR 31 0
    s.dev.dead = false →
    -- reference and root PLL
    (s.field st 2 1 = 0 → Answers .referenceLost s fun t => t.field st 1 2 = 2 ∧ t.field st 32 32 = now ∧ Raised s t 31 [st]) ∧
    (Answers .referenceRestored s fun t => t.field st 1 2 = 1 ∧ t.field st 32 32 = now ∧ only t [st]) ∧
    (s.dev.stopStep = 0 → Answers .rootPllUnlock s fun t => t.field st 0 1 = 0 ∧ t.dev.stopStep = 2 ∧ t.field (thmR 31 0x10) 3 3 = 6 ∧
      ∃ rs, t.dev.records = s.dev.records ++ rs ∧ (∃ r ∈ rs, r.cls = 4 ∧ r.code = 0x0802) ∧ ∃ r ∈ rs, r.cls = 4 ∧ r.code = 0x0904) ∧
    (∀ clock : BitVec 4, Answers (.clockRatioError clock) s fun t => Raised s t 31 []) ∧
    -- regions
    (∀ (w : BitVec 4) (q : BitVec 2),
      let n := w.toNat
      let a := fun off => regionR n q.toNat off
      let x := s.dev.clkReg n q.toNat
      let target := s.field (a 0) 0 11
      let fences := fun (t : State) => ∀ core : BitVec 6, (s.dev.liveMask s.part n).getLsbD core.toNat = true → regionOf core.toNat = q.toNat →
        ∃ cause, (core, cause) ∈ t.dev.fenceWait n ∧ ((core, cause) ∈ s.dev.fenceWait n ∨ cause = 3)
      let unfenced := fun (t : State) => ∀ v, t.dev.fenceWait v = s.dev.fenceWait v
      let keeps := fun (t : State) => (∀ v p, v ≠ n ∨ p ≠ q.toNat → p < 4 → t.dev.clkReg v p = s.dev.clkReg v p)
      (∀ free made : BitVec 11, elapsed s.dev.raw x.winT < 1024 → Answers (.disciplineWindow w q free made) s fun t => t = s) ∧
      (∀ free made : BitVec 11, 1024 ≤ elapsed s.dev.raw x.winT → Answers (.disciplineWindow w q free made) s fun t =>
        t.dev.clkReg n q.toNat = { x with winT := s.dev.raw } ∧ t.field (a 0) 16 11 = free.toNat ∧
        t.reg (a 0x10) = countUp (s.reg (a 0x10)) (target - made.toNat) ∧
        (if 50 * free.toNat + target < 50 * target ∨ 51 * target < 50 * free.toNat then fences t else unfenced t) ∧ only t [a 0, a 0x10]) ∧
      (∀ k : BitVec 8, Answers (.supplyDroop w q k) s fun t => (t.dev.clkReg n q.toNat).stretch.toNat = min 30 k.toNat ∧
        (t.dev.clkReg n q.toNat).strMax.toNat = max x.strMax.toNat (min 30 k.toNat) ∧ keeps t ∧ only t []) ∧
      (x.below = false → Answers (.supplyBelowLimit w q) s fun t => (t.dev.clkReg n q.toNat).below = true ∧
        (t.dev.clkReg n q.toNat).belowT = s.dev.now ∧ t.field (a 0) 34 1 = 1 ∧ keeps t ∧ only t [a 0]) ∧
      (Answers (.supplyAboveLimit w q) s fun t => t.dev.clkReg n q.toNat = { x with below := false } ∧ keeps t ∧ only t []) ∧
      (let e := elapsed s.dev.now x.belowT
       let recent := (x.longs.filter fun z => elapsed s.dev.now z < 1200000000).length
       x.below = true → 1200 < e →
        (x.longDone = false → Answers (.holdTimeout w q) s fun t => raises t n ∧ RegsKept s t [] ∧ Still s t ∧
          (if x.fenceDone = false ∧ (120000 < e ∨ 16 ≤ recent) then fences t else unfenced t)) ∧
        (x.longDone = true → Answers (.holdTimeout w q) s fun t => only t [] ∧
          (if x.fenceDone = false ∧ 120000 < e then fences t else unfenced t))) ∧
      (∀ jit lo hi : BitVec 8, Answers (.clockMonitorWindow w q jit lo hi) s fun t =>
        let duty := lo.toNat < 90 ∨ 110 < hi.toNat
        let bad := 60 < jit.toNat ∨ lo.toNat < 80 ∨ 120 < hi.toNat
        t.field (a 8) 0 8 = jit.toNat ∧ t.field (a 8) 8 8 = lo.toNat ∧ t.field (a 8) 16 8 = hi.toNat ∧ t.field (a 8) 24 8 = x.strMax.toNat ∧
        t.reg (a 0x20) = countUp (s.reg (a 0x20)) (if 25 < jit.toNat then 1 else 0) ∧
        t.field (a 0) 32 1 = (if 25 < jit.toNat then 1 else s.field (a 0) 32 1) ∧
        t.field (a 0) 33 1 = (if duty then 1 else s.field (a 0) 33 1) ∧
        (25 < jit.toNat → s.field (a 0) 32 1 = 0 → ¬(duty ∧ s.field (a 0) 33 1 = 0) → raises t n) ∧
        (jit.toNat ≤ 25 → duty → s.field (a 0) 33 1 = 0 → raises t n) ∧
        (t.dev.clkReg n q.toNat).badWin = decide bad ∧ (if bad ∧ x.badWin = true then fences t else unfenced t) ∧
        RegsKept s t [a 0, a 8, a 0x20] ∧ Still s t)) ∧
    -- the operating point
    (∀ opp : BitVec 2,
      let stat := clkR 31 0x20
      let dep := s.reg (clkR 31 0x18)
      let ahead := (dep - s.dev.now).toNat
      let pends := fun (t : State) (result : Nat) => t.dev.freqPend = some (opp, dep) ∧
        t.reg stat = BitVec.ofNat 64 (1 + opp.toNat * 2 + result * 16 + dep.toNat % 2 ^ 32 * 2 ^ 32) ∧
        (∀ w : BitVec 4, s.dev.heldOut s.part w.toNat = false → Msg.departure (w.zeroExtend 5) opp dep ∈ t.dev.net) ∧ only t [stat]
      (ahead < 120000 ∨ 2 ^ 63 < ahead → Answers (.freqGo opp) s fun t => t.field stat 4 4 = 1 ∧ t.dev.freqPend = s.dev.freqPend ∧ only t [stat]) ∧
      (120000 ≤ ahead → ahead ≤ 2 ^ 63 →
        (s.dev.freqPend = none → Answers (.freqGo opp) s fun t => pends t 0) ∧
        (∀ o d, s.dev.freqPend = some (o, d) →
          (24000 < (d - s.dev.now).toNat → (d - s.dev.now).toNat < 2 ^ 63 → Answers (.freqGo opp) s fun t => pends t 2) ∧
          ((d - s.dev.now).toNat ≤ 24000 ∨ reached s.dev.now d = true → Answers (.freqGo opp) s fun t => t.field stat 4 4 = 3 ∧
            t.dev.freqPend = s.dev.freqPend ∧ Raised s t 31 [stat]))) ∧
      (∀ d, s.dev.freqPend = some (opp, d) → reached s.dev.now d = true → Answers .departure s fun t => t.dev.freqPend = none ∧
        t.field stat 0 1 = 0 ∧ (s.field st 4 2 ≠ opp.toNat →
          (∀ x ∈ clkSites, t.field (clkR x 0) 4 2 = opp.toNat) ∧
          ∀ (w : BitVec 4) (q : BitVec 2), t.field (regionR w.toNat q.toNat 0) 0 11 = oppTarget opp.toNat) ∧
        (s.field st 4 2 = opp.toNat → only t [stat]) ∧ Still s t ∧
        ∀ (w : BitVec 4) (q : BitVec 2), (t.dev.clkReg w.toNat q.toNat).winT = s.dev.raw)) ∧
    -- the ledger
    (s.dev.ledOn = true →
      let adj : Int := (BitVec.ofNat 32 (s.field (ledbR 0x30) 0 32)).toInt
      let raw := s.dev.raw + 1
      let slew := raw.toNat % 1024 = 0 ∧ adj ≠ 0
      let add : W64 := if slew then (if 0 < adj then 2 else 0) else 1
      let adj' : Int := if slew then (if 0 < adj then adj - 1 else adj + 1) else adj
      let limits := fun (t : State) => ∀ (w : BitVec 4) (q : BitVec 2), t.reg (regionR w.toNat q.toNat 0x18) =
        countUp (s.reg (regionR w.toNat q.toNat 0x18)) (if (s.dev.clkReg w.toNat q.toNat).below then 1 else 0)
      let ticks := fun (t : State) => t.dev.raw = raw ∧ t.field (ledbR 0x30) 0 32 = (BitVec.ofInt 32 adj').toNat ∧ limits t ∧ Still s t
      let vote := ledbR 8
      let info := ledbR 0x28
      (∀ x y z : W64, s.dev.led = [x, y, z] → s.dev.injBits 31 11 0 = 0 →
        ((∀ v at', s.dev.loadDue = some (v, at') → at' ≠ raw) →
          (x = y → y = z → Answers .ledgerTick s fun t => ticks t ∧ t.dev.led = [x + add, x + add, x + add] ∧ t.dev.own = s.dev.own + add ∧
            t.reg vote = s.reg vote ∧ t.reg (fltR 31 0x40) = s.reg (fltR 31 0x40)) ∧
          (∀ v i, (i = 0 ∧ y = z ∧ x ≠ y ∧ v = y) ∨ (i = 1 ∧ x = z ∧ y ≠ x ∧ v = x) ∨ (i = 2 ∧ x = y ∧ z ≠ x ∧ v = x) →
            Answers .ledgerTick s fun t => ticks t ∧ t.dev.led = [v + add, v + add, v + add] ∧ t.field vote i 1 = 1 ∧
              t.reg (ledbR 0x100) = countUp (s.reg (ledbR 0x100)) 1 ∧ raises t 31) ∧
          (x ≠ y → y ≠ z → x ≠ z → Answers .ledgerTick s fun t => ticks t ∧
            (let m := median3 (x + add) (y + add) (z + add); t.dev.led = [m, m, m] ∧
              ∃ f ∈ t.dev.records, f.cls = 2 ∧ f.code = 0x0808 ∧ f.ctx1 = m) ∧ t.field vote 3 1 = 1 ∧
              t.reg (ledbR 0x100) = countUp (s.reg (ledbR 0x100)) 1 ∧ raises t 31)) ∧
        (∀ v, x = y → y = z → s.dev.loadDue = some (v, raw) →
          (reached v (x + add) = true → Answers .ledgerTick s fun t => ticks t ∧ t.dev.led = [v, v, v] ∧ t.dev.loadDue = none ∧
            t.dev.own = s.dev.own + (v - x) ∧
            t.field info 16 1 = 1 ∧ t.reg (fltR 31 0x40) = s.reg (fltR 31 0x40)) ∧
          (reached v (x + add) = false → Answers .ledgerTick s fun t => ticks t ∧ t.dev.led = [x + add, x + add, x + add] ∧
            t.dev.loadDue = none ∧ t.field info 17 1 = 1 ∧ raises t 31))) ∧
      (elapsed s.dev.raw s.dev.syncT < 1024 → Answers .ledgerSync s fun t => t = s) ∧
      (1024 ≤ elapsed s.dev.raw s.dev.syncT → Answers .ledgerSync s fun t => t.dev.syncT = s.dev.raw - BitVec.ofNat 64 (s.dev.raw.toNat % 1024) ∧ t.reg (ledbR 0x108) = countUp (s.reg (ledbR 0x108)) 1 ∧
        t.dev.net = s.dev.net ++ (s.dev.syncDies s.part).map (fun x => Msg.ledgerSync (BitVec.ofNat 5 x) s.dev.now) ∧ only t [ledbR 0x108]) ∧
      ((∀ t0, s.dev.lsyncT = some t0 → 12000 ≤ elapsed s.dev.raw t0) → Answers .lsyncEdge s fun t => t.reg (ledbR 0x20) = s.dev.now ∧
        t.field info 0 16 = (s.field info 0 16 + 1) % 2 ^ 16 ∧ t.reg (ledbR 0x110) = countUp (s.reg (ledbR 0x110)) 1 ∧
        (s.field (ledbR 0x10) 0 1 = 1 → t.field (ledbR 0x10) 0 1 = 0 ∧ t.dev.loadDue = some (s.reg (ledbR 0x18), s.dev.raw + 8)) ∧
        (s.field (ledbR 0x10) 0 1 = 0 → t.dev.loadDue = s.dev.loadDue) ∧ only t [ledbR 0x20, info, ledbR 0x110, ledbR 0x10]) ∧
      (∀ t0, s.dev.lsyncT = some t0 → elapsed s.dev.raw t0 < 12000 → Answers .lsyncEdge s fun t => t = s)) ∧
    (∀ v : W32, Answers (.ledAdj v) s fun t => t.field (ledbR 0x30) 0 32 = v.toNat ∧ only t [ledbR 0x30]) ∧
    -- snoops: the message that its die received last, with its path delay added
    (∀ (c : CoreId) (count : W64), s.dev.coreOpen s.part c = true →
      let got := smGet none s.dev.syncGot c.site.toNat = some count
      let own := s.dev.snoop c
      let at' := count + s.dev.pathDelay count
      let diff : Int := (at' - own).toInt
      (¬got → Answers (.snoopSync c count) s fun t => t = s) ∧
      (got →
        (∀ v, (s.k c).snoopHold = some v → reached s.dev.now v = false → Answers (.snoopSync c count) s fun t => t = s) ∧
        ((∀ v, (s.k c).snoopHold = some v → reached s.dev.now v = true) →
          (-1 ≤ diff → diff ≤ 1 → Answers (.snoopSync c count) s fun t =>
            t.k c = { s.k c with snoopHold := none, snoopOff := own - s.dev.own } ∧ StillBut s t c ∧ ∀ a, t.reg a = s.reg a) ∧
          (2 ≤ diff ∨ diff ≤ -2 → Answers (.snoopSync c count) s fun t => (t.k c).snoopOff = at' - s.dev.own ∧
            (t.k c).snoopHold = (if 0 < diff then none else some own) ∧ t.field (ledR c 8) 8 1 = 1 ∧
            t.field (ledR c 8) 0 8 = (BitVec.ofInt 8 (max (-127) (min 127 diff))).toNat ∧
            t.reg (ledR c 0x100) = countUp (s.reg (ledR c 0x100)) 1 ∧ raises t c.site.toNat ∧ RegsKept s t [ledR c 8, ledR c 0x100] ∧
            StillBut s t c))))

/-- R474 to R479, R482 to R484, R486, R560 to R562 and R566: power, the two package resets and the boot order. A cold reset returns
everything to its reset value but K0's store and the hard-trip latch (memory then reads as blank memory does, log entry 2); a
warm reset keeps the ledger, the GDDR7 contents, the operating point, the region table, the package log and which cores are
fenced, and restarts the boot order; each boot step does its work and hands on to the next. The model's own choices: what memory
holds after a cold reset (log entry 2); that POWER_CUT of a package already off stands for the loss of VAUX (log entry 109); that a
selector write of the same tick may be cut short by a reset, by a free value (log entry 112); what a fault or a RECOVERY of the boot keeps,
and when a reset counts as released (log entry 61); the lane plan's choice of groups (log entry 88) and of a berth's lanes (log entry
107); how a bank without the states of R545 is treated (log entry 12). -/
def Obligations.PowerAndBoot : Prop :=
  ∀ s : State,
    let p := s.part
    let boot := idR 20 0x100
    let rdy := idR 20 0x108
    let same := fun (i : Instr) => Answers i s fun t => t = s
    let only := fun (t : State) (regs : List Nat) => (∀ a, a ∉ regs → t.reg a = s.reg a) ∧ Still s t
    let blank := fun (t : State) => (∀ a, t.reg a = resetWord p a) ∧ (∀ c, t.k c = {}) ∧ (∀ a, a < 2 ^ 60 → t.byte a = 0) ∧
      t.dev.nv = s.dev.nvLeft ∧ (s.dev.cutsWrite = false → t.dev.nv = s.dev.nv) ∧ Fixed s t
    let raises := fun (t : State) (regs : List Nat) => t.reg (fltR 31 0x40) = countUp (s.reg (fltR 31 0x40)) 1 ∧ RegsKept s t regs ∧ Still s t
    -- a reset that a command asked for has fallen due
    let due := fun (kind : Nat) => ∃ x ∈ s.dev.resetDue, x.kind = kind ∧ x.waits = none ∧ 1200000 ≤ elapsed s.dev.now x.t
    let cold := fun (t : State) (cause : Nat) => blank t ∧ t.dev.off = false ∧ t.dev.bootStopped = false ∧ t.dev.warmBoot = false ∧
      t.dev.ledOn = false ∧ t.dev.rstCause = cause ∧ t.dev.tripLatch = s.dev.tripLatch ∧ t.dev.thermTrip = s.dev.tripLatch ∧
      t.dev.wrstLow = false ∧ t.dev.stopStep = 0
    -- power and cold reset
    (s.dev.vaux = true → Answers .powerOn s fun t => cold t 1 ∧ t.dev.pwrOk = true) ∧
    (s.dev.vaux = false → same .powerOn) ∧
    (s.dev.off = true → Answers .vauxApplied s fun t =>
      t.dev = { s.dev with vaux := true, pwrOk := false, tripLatch := false, thermTrip := false, pwrOff := false, aliveLvl := 0, faultPin := none } ∧ Still s t) ∧
    (s.dev.off = false → same .vauxApplied) ∧
    (s.dev.off = false → Answers .powerCut s fun t => blank t ∧ t.dev.off = true ∧ t.dev.pwrOk = false ∧
      t.dev.records = [] ∧ t.dev.tripLatch = s.dev.tripLatch ∧ t.dev.thermTrip = s.dev.thermTrip ∧
      t.dev.vaux = s.dev.vaux) ∧
    (s.dev.off = true → s.dev.pwrOk = true → Answers .powerCut s fun t => t.dev = { s.dev with pwrOk := false } ∧ Still s t) ∧
    (s.dev.off = true → s.dev.pwrOk = false → s.dev.vaux = true → Answers .powerCut s fun t => t.dev.vaux = false ∧ t.dev.tripLatch = false ∧
      t.dev.faultPin.isSome = true ∧ t.dev.freeCount = s.dev.freeCount + 1 ∧ t.dev.nv = s.dev.nv ∧ (∀ a, t.reg a = s.reg a) ∧ Still s t) ∧
    (s.dev.off = false → Answers (.rstN true true) s fun t => cold t 2 ∧ t.dev.rstLow = true) ∧
    same (.rstN true false) ∧ same (.wrstN true false) ∧
    (∀ longPulse : Bool, (Answers (.rstN false longPulse) s fun t => t.dev = { s.dev with rstLow := false } ∧ Still s t) ∧
      Answers (.wrstN false longPulse) s fun t => Still s t ∧
        t.dev = if s.dev.wrstLow then { s.dev with wrstLow := false, resetRaw := s.dev.raw } else s.dev) ∧
    (∀ cause : BitVec 4, s.dev.dead = false → 1 ≤ cause.toNat → cause.toNat ≤ 4 →
      (cause ≠ 3 ∨ due 2 → Answers (.coldReset cause) s fun t => cold t cause.toNat) ∧ (cause = 3 → ¬due 2 → same (.coldReset cause))) ∧
    -- warm reset
    (let warm := fun (t : State) (cause : Nat) =>
        t.field boot 0 4 = 1 ∧ t.field boot 5 1 = 1 ∧ t.dev.rstCause = cause ∧
        t.field (idR 20 0x110) 16 16 = min 0xFFFF (s.field (idR 20 0x110) 16 16 + 1) ∧
        t.dev.led = s.dev.led ∧ t.dev.raw = s.dev.raw ∧ t.dev.ledOn = s.dev.ledOn ∧ t.dev.node = s.dev.node ∧
        t.dev.aliveLvl = 0 ∧ t.dev.hostQ = [] ∧ t.dev.freqPend = none ∧ t.dev.loadDue = none ∧
        (s.dev.recal = none → s.dev.greqs = [] →
          (∀ a, t.byte a = s.byte a) ∧ t.dev.nv = s.dev.nvLeft ∧
          (∀ g : BitVec 4, t.dev.ltnSt p g.toNat = if s.dev.ltnSt p g.toNat = 3 then 3 else 0) ∧
          (∀ c : CoreId, t.k c = { st := if (s.k c).st = .fenced then .fenced else .reset, aseq := (s.k c).aseq
                                   snoopOff := (s.k c).snoopOff, snoopHold := (s.k c).snoopHold }) ∧
          (∀ l r off, l < 4 → r < 64 → off < 0x18 → t.reg (recR l r off) = s.reg (recR l r off)) ∧
          (∀ i w, i < 512 → w < 8 → t.reg (plogR i w) = s.reg (plogR i w)) ∧
          (∀ w : BitVec 4, t.reg (meshR w.toNat 0x10) = s.reg (meshR w.toNat 0x10)) ∧
          (∀ a, a ∈ [fltR 20 0x800, fltR 20 0x808, clkR 31 0] → t.reg a = s.reg a) ∧
          (∀ i, smGet none t.dev.regions i = (smGet none s.dev.regions i).map fun r => { r with moving := false }) ∧
          (∀ c, c < 48 → t.dev.chanSt p c = (if s.dev.chanSt p c = 2 then 4 else s.dev.chanSt p c) ∧
            (s.dev.chanSt p c = 3 → (t.dev.chan c).selfDue = true)) ∧
          (∀ l, l < 4 → s.dev.initBusy p l = true → t.field (memcR l 0x20) 2 1 = 1)) ∧ Fixed s t
     s.dev.dead = false → s.dev.stopStep = 0 →
      (Answers (.wrstN true true) s fun t => warm t 5 ∧ t.dev.wrstLow = true) ∧
      (∀ cause : BitVec 4, 5 ≤ cause.toNat → cause.toNat ≤ 7 →
        (cause ≠ 6 ∨ due 1 → Answers (.warmReset cause) s fun t => warm t cause.toNat) ∧ (cause = 6 → ¬due 1 → same (.warmReset cause)))) ∧
    -- the boot order
    (∀ x : BootIn,
      let goes := fun (P : State → Prop) => Answers (.bootStep x) s P
      let at' := s.dev.bootAt p
      let isOut := fun (site : Nat) => x.heldOut.contains (BitVec.ofNat 5 site) = true
      (s.dev.dead = true ∨ s.dev.wrstLow = true ∨ s.dev.bootStopped = true ∨ s.dev.stopStep ≠ 0 ∨ 9 ≤ at' → same (.bootStep x)) ∧
      -- a group's heartbeat is missed from the end of its step on (R525)
      (goes fun t => ∀ g, g < 8 → s.dev.bootDone p (groupStep g) = false → t.dev.bootDone p (groupStep g) = true → smGet 0 t.dev.beatT g = t.dev.now) ∧
      (s.dev.dead = false → s.dev.wrstLow = false → s.dev.bootStopped = false → s.dev.stopStep = 0 →
        (at' ≤ 1 →
          (s.dev.warmBoot = true → goes fun t => t.field boot 0 4 = 2 ∧ t.field (idR 20 0x110) 0 4 = s.dev.rstCause % 16 ∧
            t.dev.node = s.dev.node ∧ t.dev.ledOn = s.dev.ledOn ∧ only t [boot, idR 20 0x110, clkR 20 0]) ∧
          (s.dev.warmBoot = false → x.pllLock = true → goes fun t => t.field boot 0 4 = 2 ∧
            t.field (idR 20 0x110) 0 4 = s.dev.rstCause % 16 ∧ t.dev.node = x.straps ∧ t.dev.ledOn = true ∧
            t.field (clkR 31 0) 0 2 = 3 ∧ only t [boot, idR 20 0x110, clkR 31 0, clkR 20 0]) ∧
          (s.dev.warmBoot = false → x.pllLock = false → goes fun t => t.dev.bootStopped = true ∧ t.field boot 0 4 = 1 ∧
            t.field boot 4 1 = 1 ∧ only t [boot, idR 20 0x110])) ∧
        (at' = 2 →
          (s.dev.nv.selector = none → goes fun t => t.field boot 0 4 = 14 ∧ t.dev.bootStopped = true ∧
            t.reg (fltR 20 0x40) = countUp (s.reg (fltR 20 0x40)) 1 ∧ RegsKept s t [boot] ∧ Still s t) ∧
          (∀ r, s.dev.nv.selector = some r →
            let b := s.dev.nv.bank r.active
            let runs := fun (t : State) (x : Bool) => t.field boot 0 4 = 3 ∧ t.field boot 6 1 = (if x then 1 else 0) ∧
              t.field (hostR 8) 0 2 = 1 ∧ t.reg (fwR 8) = imgVersion (s.dev.nv.bank x).header
            let regs := [boot, hostR 8, fwR 0, fwR 8]
            let marked := s.dev.nv.setBank r.active { b with st := 4 }
            let fails := (b.st = 2 ∧ r.tried = true) ∨ (b.st = 3 ∧ bankPasses p s.dev.nv r.active = false)
            (b.st = 3 → bankPasses p s.dev.nv r.active = true → goes fun t => runs t r.active ∧ t.dev.nv = s.dev.nv ∧ t.dev.wdogT = none ∧ only t regs) ∧
            (b.st = 2 → r.tried = false → bankPasses p (s.dev.nv.writeSelector r.active true true) r.active = true → goes fun t =>
                runs t r.active ∧ t.dev.nv = s.dev.nv.writeSelector r.active true true ∧ t.dev.wdogT = some s.dev.resetRaw ∧ only t regs) ∧
            (fails → (s.dev.nv.bank !r.active).st = 3 → bankPasses p s.dev.nv (!r.active) = true → goes fun t => runs t (!r.active) ∧
                t.dev.nv = marked.writeSelector (!r.active) false false ∧ t.dev.wdogT = none ∧
                t.reg (fltR 20 0x40) = countUp (s.reg (fltR 20 0x40)) 1 ∧ RegsKept s t regs ∧ Still s t) ∧
            (fails → (s.dev.nv.bank !r.active).st ≠ 3 ∨ bankPasses p s.dev.nv (!r.active) = false → goes fun t => t.field boot 0 4 = 14 ∧
                t.dev.bootStopped = true ∧ t.dev.nv = marked ∧ RegsKept s t [boot] ∧ Still s t))) ∧
        (at' = 3 →
          let chs := (List.range 48).map fun c => chanR c 0
          (s.dev.warmBoot = true → x.wiringBad = none → goes fun t => t.field boot 0 4 = 4 ∧ only t [boot]) ∧
          (∀ i, s.dev.warmBoot = true → x.wiringBad = some i → goes fun t => t.field boot 0 4 = 4 ∧ raises t [boot]) ∧
          -- every channel in OFF enters TRAIN (R325)
          (s.dev.warmBoot = false → x.wiringBad = none → x.roleShort = [] → x.laneFails = [] → goes fun t => t.field boot 0 4 = 4 ∧
            (∀ c, c < 48 → t.dev.chanSt p c = (if s.dev.chanSt p c = 0 then 1 else s.dev.chanSt p c) ∧
              t.field (chanR c 0) 3 61 = s.field (chanR c 0) 3 61) ∧ only t (boot :: chs)) ∧
          -- one lane group has failed lanes (R300)
          (∀ (site : BitVec 5) (g : BitVec 10) (n : BitVec 7), s.dev.warmBoot = false → x.wiringBad = none → x.roleShort = [] →
            x.laneFails = [(site, g, n)] → site.toNat < 23 → g.toNat < 768 →
            let a := laneR site.toNat g.toNat
            let role := s.field a 0 3
            let rr := roleR site.toNat role
            role < 5 → s.field a 13 2 < 2 →
            (n = 1 ∨ n = 2 → goes fun t => t.field boot 0 4 = 4 ∧ t.field a 16 2 = n.toNat ∧
              t.field rr 48 10 = (s.field rr 48 10 + n.toNat) % 2 ^ 10 ∧ only t ([boot, a, rr] ++ chs)) ∧
            (isG site.toNat = true → 2 < n.toNat → n.toNat ≤ 34 → goes fun t => t.field boot 0 4 = 4 ∧ t.field a 13 2 = 1 ∧
              t.field rr 16 10 = (s.field rr 16 10 + 1) % 2 ^ 10 ∧ raises t ([boot, a, rr] ++ chs)) ∧
            (isG site.toNat = false ∨ 34 < n.toNat → 2 < n.toNat → role ≠ 0 → goes fun t => t.field boot 0 4 = 4 ∧ t.field a 13 2 = 2 ∧
              ((∃ h : Fin 768, h.val ≠ g.toNat ∧ s.field (laneR site.toNat h.val) 0 4 = s.field a 3 1 * 8 ∧ s.field (laneR site.toNat h.val) 13 2 = 0) →
                t.field a 0 3 = 0 ∧ ∃ h : Fin 768, t.field (laneR site.toNat h.val) 0 4 = s.field a 0 4 ∧
                  t.field (laneR site.toNat h.val) 8 5 = s.field a 8 5 ∧ s.field (laneR site.toNat h.val) 0 3 = 0 ∧
                  only t ([boot, a, laneR site.toNat h.val, roleR site.toNat 0] ++ chs)) ∧
              ((∀ h : Fin 768, s.field (laneR site.toNat h.val) 0 3 = 0 → s.field (laneR site.toNat h.val) 13 2 ≠ 0) →
                t.field a 0 3 = role ∧ Still s t))) ∧
          (∀ i, s.dev.warmBoot = false → x.wiringBad = some i → x.roleShort = [] → x.laneFails = [] → goes fun t => t.field boot 0 4 = 4 ∧ raises t (boot :: chs)) ∧
          (∀ e, s.dev.warmBoot = false → x.wiringBad = none → x.roleShort = [e] → x.laneFails = [] → goes fun t => t.field boot 0 4 = 4 ∧ raises t (boot :: chs))) ∧
        (at' = 4 → goes fun t => t.field boot 0 4 = 5 ∧ (∀ c, t.k c = s.k c) ∧ (∀ a, 48 * 0x100000000 ≤ a → t.byte a = s.byte a) ∧ Fixed s t ∧
          ∀ l, l < 4 →
            let mem := fun (f : Nat → Byte → Prop) => ∀ a, 12 * l * 0x100000000 ≤ a → a < 12 * (l + 1) * 0x100000000 → f a (t.byte a)
            let init := s.dev.bit p (memcR l 0x20) 2 = true ∨ (s.dev.warmBoot = false ∧ s.dev.checkOn p = true)
            (isOut (16 + l) → t.field rdy (48 + l) 1 = 1 ∧ (∀ k, k < 12 → t.dev.chanSt p (12 * l + k) = 5) ∧ mem fun a b => b = s.byte a) ∧
            (¬isOut (16 + l) → (init → (mem fun _ b => b = 0) ∧ t.field (memcR l 0x20) 2 1 = 0) ∧ (¬init → mem fun a b => b = s.byte a) ∧
              ∀ k, k < 12 →
                let c := 12 * l + k
                let st := s.dev.chanSt p c
                let cut := s.dev.chanCut c = true
                (st = 5 ∨ st = 3 → t.dev.chanSt p c = st) ∧
                (∀ b, x.bins.getD c (some 2) = some b → st ≠ 5 → st ≠ 3 → ¬cut → t.dev.chanSt p c = 2 ∧
                  (s.dev.warmBoot = false → t.field (chanR c 0) 4 2 = min b.toNat (s.field (memcR l 0x10) 0 2)) ∧
                  (s.dev.warmBoot = true → st = 4 → t.field (chanR c 0) 4 2 = s.field (chanR c 0) 4 2)) ∧
                (x.bins.getD c (some 2) = none ∨ cut → st ≠ 5 → st ≠ 3 → t.dev.chanSt p c = 5))) ∧
        (at' = 5 → goes fun t => t.field boot 0 4 = 6 ∧ (∀ c, t.k c = s.k c) ∧ Fixed s t ∧
          (∀ w : BitVec 4, isOut w.toNat → t.field rdy (32 + w.toNat) 1 = 1) ∧
          (∀ a, t.byte a = if (0x400000000000 ≤ a ∧ a < 0x400400000000) ∨ (0x600000000000 ≤ a ∧ a < 0x600020000000) then 0 else s.byte a) ∧
          t.reg (idR 20 0x118) < 256 ∧
          ∀ j, j < 8 → ((t.reg (idR 20 0x118)).getLsbD j = true ↔
            ∀ site ∈ List.range 21 ++ [31], t.dev.heldOut p site = false → (t.reg (idR site 8)).getLsbD j = true)) ∧
        (at' = 6 → goes fun t => t.field boot 0 4 = 7 ∧ Still s t ∧
          (∀ g, g < 2 → s.dev.berthLive p g = true →
            (isOut (21 + g) → t.field rdy (53 + g) 1 = 1 ∧ t.dev.dormant p (21 + g) = true) ∧ t.reg (brtR g 0) = s.reg (brtR g 0)) ∧
          ∀ g : BitVec 4, s.dev.ltnSt p g.toNat = 1 → smGet false s.dev.ltnId g.toNat = true →
            s.field (ltnR g.toNat 0x400) 0 1 = 1 → t.dev.ltnSt p g.toNat = 2) ∧
        (at' = 7 → goes fun t => t.field boot 0 4 = 8 ∧ t.field (memcR 0 0) 0 1 = 1 ∧ (∀ a, t.byte a = s.byte a) ∧ Fixed s t ∧
          (∀ site, site < 21 → t.field rdy site 1 = if s.dev.heldOut p site then s.field rdy site 1 else 1) ∧
          (∀ g, g < 2 → s.dev.berthLive p g = true → t.field rdy (21 + g) 1 = 1) ∧
          (∀ (e : Fin 25) (pl : Bool), s.dev.dormant p e.val = false → s.dev.heldOut p (epSite e.val) = false →
            s.dev.planeTracks e.val pl = true → s.dev.planeLit p pl = true → s.dev.accessOut e.val = false →
            (t.dev.planeOk p e.val pl = true ↔ (e, pl) ∉ x.probesBad)) ∧
          (∀ (e : Fin 25) (pl : Bool), s.dev.dormant p e.val = false → s.dev.heldOut p (epSite e.val) = false →
            s.dev.startTrigger p e.val pl ≠ none → t.dev.planeOk p e.val pl = false) ∧
          ∀ b : BitVec 5, s.dev.heldOut p (b.toNat / 2) = false → s.dev.bankShown p b.toNat = 0 → (s.dev.bank b.toNat).parking = none →
            s.dev.ltnSt p (bankLantern b.toNat) = 3 → t.dev.bankState p b.toNat = 1) ∧
        (at' = 8 → goes fun t => t.field boot 0 4 = 15 ∧ t.field boot 32 32 = s.dev.now.toNat % 2 ^ 32 ∧
          (∀ a, t.byte a = s.byte a) ∧ Fixed s t)))

/-- R488 to R491 and R493 to R497: sensors and rests. A sample is stored with its rate of rise and the temperature of the site is
the hottest reading; a sensor without samples for three periods, or that fails its self-test, reads as broken at 107 °C; ABS,
RATE and POW follow their thresholds, the fraction in force waits for an array operation to rise and falls one sixteenth per 120,000
ticks, and the limits of 110 °C, 30 K/ms and 105 °C of a GDDR7 device start an orderly stop. A consumer over its allocation raises a
Notice. The model's own choices: the rate before 25 samples, and as a free value against a sample that was missed (log entry 58); when a
rise takes effect (log entry 110); the measure of the feed-forward corrections (log entry 85); that the averages come with the row (log
entry 59) and a consumer's name is a free word (log entry 69). -/
def Obligations.SensorsAndRests : Prop :=
  ∀ s : State, s.dev.dead = false →
    let p := s.part
    let only := fun (t : State) (regs : List Nat) => (∀ a, a ∉ regs → t.reg a = s.reg a) ∧ Still s t
    let mem := fun (t : State) => (∀ a, t.byte a = s.byte a) ∧ Fixed s t
    let reports := fun (t : State) (cls : BitVec 3) (code : BitVec 16) =>
      ∃ rs, t.dev.records = s.dev.records ++ rs ∧ ∃ r ∈ rs, r.cls = cls ∧ r.code = code
    -- a rise of the fraction in force waits for an array operation, but for the stop itself
    let frac := fun (t : State) (n : Nat) => t.field (thmR n 8) 0 4 =
      if s.dev.stopStep = 0 ∧ t.dev.stopStep ≠ 0 then 15 else s.field (thmR n 8) 0 4
    -- broken sensors
    (∀ (site : BitVec 5) (i : BitVec 6), i.toNat < sensCount site.toNat →
      let n := site.toNat
      let k := i.toNat
      let x := s.dev.sens n k
      let broken := fun (t : State) (code : Nat) => t.field (sensR n k) 0 16 = 1712 ∧ t.field (sensR n k) 16 16 = 0 ∧
        t.field (sensR n k) 32 1 = 1 ∧ t.field (sensR n k) 33 3 = code ∧
        t.field (thmR n 0) 48 8 = (s.field (thmR n 0) 48 8 + 1) % 256 ∧ reports t 2 0x0901 ∧ mem t ∧
        (sensCount n < 2 * (s.field (thmR n 0) 48 8 + 1) → t.dev.stopStep ≠ 0)
      let sampled := if k = 0 then [thmR n 0x58] else []
      (s.dev.sensBroken p n k = false →
        (x.miss < 2 → Answers (.sensorSample site i none) s fun t => t.dev.sens n k = { x with miss := x.miss + 1, hist := (none :: x.hist).take 25 } ∧
          (k = 0 → t.reg (thmR n 0x58) = countUp (s.reg (thmR n 0x58)) 1) ∧ only t sampled) ∧
        (2 ≤ x.miss → Answers (.sensorSample site i none) s fun t => broken t 4) ∧
        (Answers (.sensorSelfTest site i false) s fun t => broken t 2) ∧
        (∀ v : BitVec 16, v.toInt < -640 ∨ 2400 < v.toInt → Answers (.sensorSample site i (some v)) s fun t => broken t 1)) ∧
      (s.dev.sensBroken p n k = true → ∀ v, (Answers (.sensorSample site i v) s fun t => only t sampled) ∧
        Answers (.sensorSelfTest site i false) s fun t => t = s) ∧
      (Answers (.sensorSelfTest site i true) s fun t => t = s)) ∧
    -- a reading of a sound sensor of a W site
    (∀ (w : BitVec 4) (i : BitVec 6) (v : BitVec 16), i.toNat < 16 →
      let n := w.toNat
      let k := i.toNat
      let x := s.dev.sens n k
      let others := s.dev.othersSum p n k
      s.dev.sensBroken p n k = false → -640 ≤ v.toInt → v.toInt ≤ 2400 → x.far < 99 →
        Answers (.sensorSample (w.zeroExtend 5) i (some v)) s fun t =>
          let temp := int16 (t.field (thmR n 0) 0 16)
          let rate := int16 (t.field (thmR n 0) 32 16)
          let own := t.dev.sensRate p n k
          let abs0 := s.field (thmR n 8) 4 4
          let rate0 := s.field (thmR n 8) 8 4
          let abs := t.field (thmR n 8) 4 4
          t.field (sensR n k) 0 16 = v.toNat ∧ t.field (sensR n k) 32 32 = 0 ∧
          (let q := k % 4 / 2 + 2 * (k / 8)
            ∀ hot, t.dev.regionTemp p n q = some hot → smGet {} t.dev.loops (4 * n + q) =
              ⟨s.dev.loopNow (4 * n + q), s.dev.trimInt p (calR n (0x2000 + 8 * q)) 16 * hot, s.dev.now⟩) ∧
          (x.hist.length < 25 ∨ x.taken < 25 → own = 0) ∧
          (∀ old, 25 ≤ x.hist.length → 25 ≤ x.taken → x.hist.getLast? = some (some old) → own = int16 (nat16 (4 * (v.toInt - old.toInt)))) ∧
          (∃ far, t.dev.sens n k = { taken := min 25 (x.taken + 1), hist := (some v :: x.hist).take 25, far := far } ∧
            far = if 320 * others.2 < (v.toInt * others.2 - others.1).natAbs then x.far + 1 else 0) ∧
          -- TEMP and RATE are the highest of the readings, and each is one of them
          (∀ j, j < 16 → t.dev.sensReads p n j = true → t.dev.sensTemp p n j ≤ temp ∧ t.dev.sensRate p n j ≤ rate) ∧
          (∀ j, j < 2 → t.dev.sensReads p 31 (2 * n + j) = true →
            t.dev.sensTemp p 31 (2 * n + j) ≤ temp ∧ t.dev.sensRate p 31 (2 * n + j) ≤ rate) ∧
          ((∃ j, j < 16 ∧ t.dev.sensReads p n j = true ∧ temp = t.dev.sensTemp p n j) ∨
            ∃ j, j < 2 ∧ t.dev.sensReads p 31 (2 * n + j) = true ∧ temp = t.dev.sensTemp p 31 (2 * n + j)) ∧
          ((∃ j, j < 16 ∧ t.dev.sensReads p n j = true ∧ rate = t.dev.sensRate p n j) ∨
            ∃ j, j < 2 ∧ t.dev.sensReads p 31 (2 * n + j) = true ∧ rate = t.dev.sensRate p 31 (2 * n + j)) ∧
          -- ABS, which a band holds until the temperature is 1 K below its edge
          (temp ≤ 1504 → abs = 0) ∧
          (∀ j, j < 6 → 1520 + 32 * (j : Int) ≤ temp → temp < 1552 + 32 * (j : Int) ∨ j = 5 → abs0 ≤ 2 * (j + 1) → abs = 2 * (j + 1)) ∧
          (∀ j, j < 6 → 1504 + 32 * (j : Int) < temp → temp < 1520 + 32 * (j : Int) → abs0 = 2 * (j + 1) → abs = 2 * (j + 1)) ∧
          -- RATE
          t.field (thmR n 8) 8 4 = (if 192 ≤ rate then 8 else if 64 ≤ rate then max rate0 4 else rate0) ∧
          t.field (thmR n 8) 12 8 = s.field (thmR n 8) 12 8 ∧ frac t n ∧
          t.reg (thmR n 0x40) = countUp (s.reg (thmR n 0x40)) (if 64 ≤ own then 1 else 0) ∧
          t.reg (thmR n 0x48) = countUp (s.reg (thmR n 0x48)) (if 192 ≤ own then 1 else 0) ∧
          t.reg (thmR n 0x58) = countUp (s.reg (thmR n 0x58)) (if k = 0 then 1 else 0) ∧
          (abs0 < 12 → 1680 ≤ temp → t.field (thmR n 0x10) 0 1 = 1 ∧ reports t 2 0x0902) ∧
          (int16 (s.field (thmR n 0) 32 16) < 192 → 192 ≤ rate → t.field (thmR n 0x10) 1 1 = 1) ∧
          (s.dev.stopStep = 0 →
            (1760 ≤ temp → t.dev.stopStep = 2 ∧ t.field (thmR 31 0x10) 3 3 = 1 ∧ reports t 4 0x0904) ∧
            (temp < 1760 → 480 ≤ rate → t.dev.stopStep = 2 ∧ t.field (thmR 31 0x10) 3 3 = 2 ∧ reports t 4 0x0904) ∧
            (temp < 1760 → rate < 480 → t.dev.stopStep = 0)) ∧
          (temp < 1680 → rate < 192 →
            (∀ a, a ∉ [sensR n k, thmR n 0, thmR n 8, thmR n 0x40, thmR n 0x48, thmR n 0x58] → t.reg a = s.reg a) ∧ Still s t) ∧ mem t) ∧
    -- a GDDR7 device
    (∀ (l : BitVec 2) (k : Nat) (v : BitVec 16), k < 12 →
      let c := 12 * l.toNat + k
      let i := Instr.sensorSample (BitVec.ofNat 5 (16 + l.toNat)) (BitVec.ofNat 6 (16 + k)) (some v)
      let st := chanR c 0
      let shown := fun (t : State) => t.field st 8 16 = v.toNat ∧ t.field st 24 1 = (if 1360 < v.toInt then 1 else 0) ∧
        t.field st 0 8 = s.field st 0 8 ∧ mem t
      let was := int16 (s.field st 8 16)
      (v.toInt < 1600 ∨ (v.toInt < 1680 ∧ 1600 ≤ was) → Answers i s fun t => shown t ∧ only t [st]) ∧
      (1600 ≤ v.toInt → v.toInt < 1680 → was < 1600 → Answers i s fun t => shown t ∧ Raised s t (16 + l.toNat) [st]) ∧
      (1680 ≤ v.toInt → s.dev.stopStep = 0 → Answers i s fun t => shown t ∧ t.dev.stopStep = 2 ∧ t.field (thmR 31 0x10) 3 3 = 3 ∧
        reports t 4 0x0904)) ∧
    -- the fraction in force
    (∀ w : BitVec 4,
      let n := w.toNat
      let rest := thmR n 8
      let r := s.field rest 8 4
      let target := if s.dev.stopStep ≠ 0 then 15 else min 15 (max (max (s.field rest 4 4) r) (max (s.field rest 12 4) (s.field rest 16 4)))
      let due := target < s.field rest 0 4 ∧ 120000 ≤ elapsed s.dev.now (smGet 0 s.dev.restT n)
      (due → Answers (.restStepDown w) s fun t => t.field rest 0 4 = s.field rest 0 4 - 1 ∧ t.field rest 4 60 = s.field rest 4 60 ∧
        smGet 0 t.dev.restT n = s.dev.now ∧ only t [rest]) ∧
      (¬due → Answers (.restStepDown w) s fun t => t = s) ∧
      (let hi := int16 (s.field (thmR n 0) 32 16)
       let over4 := hi < 64 ∧ 1200000 ≤ elapsed s.dev.now (smGet 0 s.dev.rate4T n)
       let over12 := hi < 192 ∧ 1200000 ≤ elapsed s.dev.now (smGet 0 s.dev.rate12T n)
       let ends := fun (x : Nat) => Answers (.rateHoldEnd w) s fun t => t.field rest 8 4 = x ∧ t.field rest 0 8 = s.field rest 0 8 ∧
         t.field rest 12 52 = s.field rest 12 52 ∧ only t [rest]
       (over4 → r < 8 ∨ over12 → ends 0) ∧ (¬over4 → over12 → ends (min r 4)) ∧ (over4 → 8 ≤ r → ¬over12 → ends r) ∧
       (¬over4 → ¬over12 → ends r)) ∧
      (∀ (siteMw packageMw : W32) (other : Option (Consumer × W32)),
        let limit := 1000 * s.field (thmR n 0x20) 0 16
        let all := 1000 * s.field (thmR 31 0x20) 0 16
        let pow := s.field rest 12 4
        let shown := fun (t : State) => t.field (thmR n 0x18) 0 32 = siteMw.toNat ∧ t.field (thmR 31 0x18) 0 32 = packageMw.toNat
        let i := Instr.powerAverage w siteMw packageMw other
        let beyond := match other with | some (x, mw) => allocationMw x < mw.toNat | none => False
        -- what is left as it was: all but `regs`, and with a Notice of the base nothing more than FLT blocks and records
        let rest' := fun (t : State) (regs : List Nat) => Still s t ∧ (¬beyond → ∀ a, a ∉ regs → t.reg a = s.reg a) ∧
          (beyond → t.reg (fltR 31 0x40) = countUp (s.reg (fltR 31 0x40)) 1 ∧ RegsKept s t regs)
        let now' := elapsed s.dev.now (smGet 0 s.dev.powT n)
        (now' < 120000 → Answers i s fun t => shown t ∧ rest' t [thmR n 0x18, thmR 31 0x18]) ∧
        (120000 ≤ now' → Answers i s fun t => shown t ∧ smGet 0 t.dev.powT n = s.dev.now ∧
          t.field rest 12 4 = (if limit < siteMw.toNat ∨ all < packageMw.toNat then min 15 (pow + 1)
            else if 100 * siteMw.toNat < 95 * limit ∧ 100 * packageMw.toNat < 95 * all then pow - 1 else pow) ∧
          t.field rest 4 8 = s.field rest 4 8 ∧ t.field rest 16 4 = s.field rest 16 4 ∧ frac t n ∧
          t.reg (thmR n 0x50) = countUp (s.reg (thmR n 0x50)) (if pow = 0 then 0 else 1) ∧
          rest' t [thmR n 0x18, thmR 31 0x18, rest, thmR n 0x50])))

/-- R354, R365, R499 to R502, R540 and R560: the orderly stop and the hard trip. A cause starts the stop, which halts waiting
cores, sends LEAVE from every port and rests every W site at 15; each step ends in turn until the package is in STOPPED; a hard
trip takes the supplies off at once and is latched. The model's own choices: what a step that has done its work before its limit looks
like, and that an uncertain row ends it then (log entry 60); a selector write of the same tick may be cut short, by a free value (log
entry 112). -/
def Obligations.OrderlyStop : Prop :=
  (∀ s : State, s.dev.dead = false →
    let p := s.part
    let stat := thmR 31 0x10
    let mem := fun (t : State) => (∀ a, t.byte a = s.byte a) ∧ Fixed s t
    (∀ cause : BitVec 3,
      let hot := 1 ≤ cause.toNat ∧ cause.toNat ≤ 4
      let due := ∃ x ∈ s.dev.resetDue, x.kind = 3 ∧ x.waits = none ∧ 1200000 ≤ elapsed s.dev.now x.t
      (cause = 0 ∨ (cause = 5 ∧ ¬due) → Answers (.orderlyStop cause) s fun t => t = s) ∧
      (cause ≠ 0 → (cause ≠ 5 ∨ due) →
        (s.dev.stopStep = 0 → Answers (.orderlyStop cause) s fun t => t.dev.stopStep = 2 ∧ t.field stat 3 3 = cause.toNat ∧
          t.field stat 2 1 = 1 ∧ (t.dev.thermTrip = true ↔ s.dev.thermTrip = true ∨ hot) ∧ t.dev.freqPend = none ∧ t.dev.xfer = none ∧ t.dev.stopT = s.dev.now ∧
          (∃ rs, t.dev.records = s.dev.records ++ rs ∧ ∃ r ∈ rs, r.cls = 4 ∧ r.code = 0x0904 ∧ r.ctx0 = BitVec.ofNat 64 cause.toNat) ∧
          (∀ w : BitVec 4, t.field (thmR w.toNat 8) 0 4 = 15 ∧ t.field (thmR w.toNat 8) 4 60 = s.field (thmR w.toNat 8) 4 60) ∧
          (∀ f : BitVec 6, leaves (s.dev.portSt p f.toNat) = true →
            Msg.port f (.leave 4) ∈ t.dev.net ∧ t.dev.portSt p f.toNat = 0) ∧
          (∀ c : CoreId, t.k c = if (s.k c).st = .wait then { s.k c with st := .halt, wait := none, ending := false } else s.k c) ∧ mem t) ∧
        (s.dev.stopStep ≠ 0 → cause ≠ 5 → Answers (.orderlyStop cause) s fun t =>
          t.dev = { s.dev with thermTrip := s.dev.thermTrip || (decide (5 ≤ s.field stat 3 3) && decide hot) } ∧ mem t))) ∧
    (let since := elapsed s.dev.now s.dev.stopT
     -- a step ends once its work is done, at the latest at its limit
     let limit := fun (n : Nat) => if n = 2 then (if s.field stat 3 3 = 2 then 120000 else 1200000) else if n = 3 then 1440000
       else if n = 4 then 1464000 else if n = 5 then 2640000 else 6000000
     let next := fun (n : Nat) (P : State → Prop) => s.dev.stopStep = n → s.dev.stopDone = true ∨ limit n ≤ since →
        Answers .orderlyStepLimit s fun t => t.dev.stopStep = n + 1 ∧ t.dev.thermTrip = s.dev.thermTrip ∧ Fixed s t ∧ P t
     let still := fun (t : State) => Still s t
     next 2 (fun t => (∀ c : CoreId, t.k c = if (s.k c).st = .run ∨ (s.k c).st = .wait then
         { s.k c with st := .halt, wait := none, ending := false } else s.k c) ∧ (∀ a, t.reg a = s.reg a) ∧ mem t) ∧
     next 3 (fun t => (∀ c : CoreId, (s.k c).st ≠ .fenced → p.has c = true → t.k c = (s.k c).afterReset .reset) ∧
       (∀ c : CoreId, (s.k c).st = .fenced ∨ p.has c = false → t.k c = s.k c) ∧
       (∀ b : BitVec 5, t.dev.bankState p b.toNat = 0) ∧
       (s.dev.recal = none → (∀ b : BitVec 5, t.dev.bankEpoch p b.toNat = s.dev.bankEpoch p b.toNat) ∧
         ∀ g : BitVec 4, t.dev.ltnSt p g.toNat = if s.dev.ltnSt p g.toNat = 2 ∨ s.dev.ltnSt p g.toNat = 3 then 1 else s.dev.ltnSt p g.toNat) ∧
       mem t) ∧
     next 4 (fun t => (∀ b : BitVec 5, (t.dev.bank b.toNat).parking = none ∧ t.dev.bankShown p b.toNat = 0) ∧ t.dev.rings = [] ∧
       (∀ a, (∀ b : BitVec 5, a ∉ [pwbR b.toNat 8, pwbR b.toNat 0x50]) → t.reg a = s.reg a) ∧ still t) ∧
     next 5 (fun t => s.dev.greqs = [] → (∀ c, c < 48 → t.dev.chanSt p c =
       if s.dev.chanSt p c = 2 then 4 else s.dev.chanSt p c) ∧ still t) ∧
     next 6 (fun t => t.dev = { s.dev with stopStep := 7, nv := { s.dev.nv with saved := t.dev.nv.saved } } ∧
       (∀ a, ctlBlk a = 1 ∨ ctlBlk a = 2 ∨ isTrim p a = true → smGet (resetWord p a) t.dev.nv.saved a = s.reg a) ∧ still t) ∧
     next 7 (fun t => t.dev.pwrOff = true ∧ t.reg (idR 20 0x108) = BitVec.ofNat 64 (2 ^ 20) ∧
       (∀ a, a ≠ idR 20 0x108 → t.reg a = s.reg a) ∧ still t) ∧
     (s.dev.stopDone = false → since < limit s.dev.stopStep → Answers .orderlyStepLimit s fun t => t = s) ∧
     (s.dev.stopStep < 2 ∨ 8 ≤ s.dev.stopStep → Answers .orderlyStepLimit s fun t => t = s))) ∧
  -- the hard trip
  (∀ s : State,
    let p := s.part
    (s.dev.vaux = false → Answers .hardTrip s fun t => t = s) ∧
    (s.dev.vaux = true → s.dev.off = true → Answers .hardTrip s fun t => t.dev = { s.dev with tripLatch := true, thermTrip := true } ∧ Still s t) ∧
    (s.dev.vaux = true → s.dev.off = false → Answers .hardTrip s fun t => t.dev.off = true ∧ t.dev.tripLatch = true ∧ t.dev.thermTrip = true ∧
      t.dev.nv = s.dev.nvLeft ∧ (s.dev.cutsWrite = false → t.dev.nv = s.dev.nv) ∧
      t.dev.records = [] ∧ (∀ a, t.reg a = resetWord p a) ∧ (∀ c, t.k c = {}) ∧ (∀ a, a < 2 ^ 60 → t.byte a = 0) ∧ Fixed s t))

/-- R45, R215, R517, R519 to R527, R529, R530, R577: fault reporting and the berth supplies. A record reaches the package log with the
next SEQ, one class higher while another of its class is unacknowledged; acknowledgement clears it; the policy fences or stops;
the ALIVE pins toggle and heartbeats are watched; an injection starts or is ignored; a guest's record joins those on their way;
and a berth over its limits is reported and cut. The model's own choices: what a full log keeps and when a class counts as
unacknowledged (log entry 63); when a step of the boot order has completed (log entry 62); the levels and the time of the pins (log entry
93); frames of the wiring (log entry 87); INTAKE takes its record at word 5 (log entry 70); and what a cut berth leaves (log entry 64). -/
def Obligations.FaultReporting : Prop :=
  ∀ s : State, s.dev.dead = false →
    let p := s.part
    let only := fun (t : State) (regs : List Nat) => (∀ a, a ∉ regs → t.reg a = s.reg a) ∧ Still s t
    let pstat := fltR 20 0x800
    let lostN := fltR 20 0x850
    let next := s.dev.nextSeq p
    let pend := fun (t : State) (c : Nat) => t.field (fltR 20 0x808) (10 * c) 10
    -- a record arrives
    ((∀ f ∈ s.dev.records, s.dev.recWired p f = true) → Answers .faultRecordArrival s fun t => t = s) ∧
    (∀ (f : FaultRec) (pre post : List FaultRec) (come : Instr) (ch : BitVec 128), s.dev.records = pre ++ f :: post → f.cls.toNat ≤ 4 →
      -- over the lattice the first by count and then by source number, or on the voted wiring one of a site in fall-back
      let before := fun (x y : FaultRec) => x.ledger.toNat < y.ledger.toNat ∨ (x.ledger = y.ledger ∧ x.source.toNat < y.source.toNat)
      (come = .faultRecordArrival ∧ s.dev.recWired p f = false ∧ (∀ g ∈ pre, s.dev.recWired p g = true ∨ before f g) ∧
          ∀ g ∈ post, s.dev.recWired p g = true ∨ ¬before g f) ∨
        (come = .frame (srcSite f.source) ch ch ch (.record f) ∧ s.dev.recWired p f = true ∧ f ∉ pre ∧
          s.dev.injBits 31 10 (srcSite f.source).toNat = 0) →
      let rest := pre ++ post
      let i := next % 512
      let up := f.cls.toNat < 4 ∧ 1 ≤ pend s f.cls.toNat
      let isOpen := s.dev.plogOpen p i
      let old := s.dev.plogClass p i
      let logged := fun (t : State) => ∃ g : FaultRec, t.dev.policyQ = s.dev.policyQ ++ [g] ∧
        (∀ w x, (recWords g)[w]? = some x → t.reg (plogR i w) = x) ∧ t.reg (plogR i 6) = 1 ∧
        g.seq.toNat = next ∧ g.cls.toNat = f.cls.toNat + (if up then 1 else 0) ∧ (g.esc = true ↔ up) ∧
        g.ledger = f.ledger ∧ g.source = f.source ∧ g.code = f.code ∧ g.inj = f.inj ∧
        g.ctx0 = f.ctx0 ∧ g.ctx1 = f.ctx1 ∧ g.ctx2 = f.ctx2 ∧ g.ctx3 = f.ctx3 ∧
        t.field pstat 0 16 = (next + 1) % 2 ^ 16 ∧ t.field pstat 16 1 = s.field pstat 16 1 ∧
        t.reg (fltR 20 0x840) = countUp (s.reg (fltR 20 0x840)) 1 ∧
        t.reg (fltR 20 0x848) = countUp (s.reg (fltR 20 0x848)) (if up then 1 else 0) ∧
        (∀ a, ctlBlk a ≠ 1 → ctlBlk a ≠ 0x50 → t.reg a = s.reg a)
      (7 ≤ s.dev.stopStep → Answers come s fun t => t.dev = { s.dev with records := rest } ∧ Still s t) ∧
      (s.dev.stopStep < 7 →
        (isOpen = false → Answers come s fun t => logged t ∧ t.dev.records = rest ∧ Still s t ∧
          pend t f.cls.toNat = (pend s f.cls.toNat + 1) % 1024 ∧ (∀ c, c ≤ 4 → c ≠ f.cls.toNat → pend t c = pend s c) ∧
          t.reg lostN = s.reg lostN) ∧
        (isOpen = true → old ≤ 1 → Answers come s fun t => logged t ∧ t.dev.records = rest ∧ Still s t ∧
          t.reg lostN = countUp (s.reg lostN) 1) ∧
        (isOpen = true → 2 ≤ old → f.cls.toNat + (if up then 1 else 0) ≤ 1 → Answers come s fun t =>
          t.dev.records = rest ∧ t.dev.policyQ = s.dev.policyQ ∧ t.reg lostN = countUp (s.reg lostN) 1 ∧ only t [lostN]) ∧
        (isOpen = true → 2 ≤ old → 2 ≤ f.cls.toNat + (if up then 1 else 0) → Answers come s fun t =>
          t.dev.records = rest ∧ t.dev.policyQ = s.dev.policyQ ∧ t.reg lostN = countUp (s.reg lostN) 1 ∧ t.field pstat 16 1 = 1 ∧
          t.field pstat 0 16 = next ∧ only t [lostN, pstat]))) ∧
    -- acknowledgement
    (∀ seq : BitVec 16,
      let i := seq.toNat % 512
      let names := s.dev.plogOpen p i = true ∧ s.dev.plogSeq p i = seq.toNat
      let age := fun (x : BitVec 16) => (BitVec.ofNat 16 next - 1 - x).toNat
      (names → Answers (.fltAck seq false) s fun t => t.field (plogR i 6) 1 1 = 1 ∧ s.field (plogR i 6) 0 1 = t.field (plogR i 6) 0 1 ∧
        (s.dev.plogOrig p i ≤ 4 → pend t (s.dev.plogOrig p i) = pend s (s.dev.plogOrig p i) - 1) ∧ only t [plogR i 6, fltR 20 0x808]) ∧
      (names → Answers (.fltAck seq true) s fun t => Still s t ∧ (∀ a, a ≠ fltR 20 0x808 → (∀ j, j < 512 → a ≠ plogR j 6) → t.reg a = s.reg a) ∧
        ∀ j, j < 512 → t.dev.plogOpen p j = (s.dev.plogOpen p j && !decide (age seq ≤ age (BitVec.ofNat 16 (s.dev.plogSeq p j))))) ∧
      (∀ upto : Bool, ¬names → Answers (.fltAck seq upto) s fun t => Raised s t 20 [])) ∧
    -- the policy
    (∀ seq : BitVec 16,
      let rest := s.dev.policyQ.filter fun g : FaultRec => g.seq != seq
      let act := s.field (fltR 20 0x820) 0 2
      let unc := s.field (fltR 20 0x820) 3 1
      let many := s.field (fltR 20 0x820) 16 8
      (s.dev.policyQ.find? (fun g : FaultRec => g.seq == seq) = none → Answers (.faultPolicy seq) s fun t => t = s) ∧
      (∀ f : FaultRec, s.dev.policyQ.find? (fun g : FaultRec => g.seq == seq) = some f →
        let quiet := Answers (.faultPolicy seq) s fun t => t.dev = { s.dev with policyQ := rest } ∧ Still s t
        (f.cls ≠ 4 → f.code ≠ 0x0101 → f.code ≠ 0x0102 → quiet) ∧ (f.code = 0x0101 → f.cls ≠ 4 → unc = 0 → quiet) ∧
        (f.code = 0x0102 → f.cls ≠ 4 → many = 0 → quiet) ∧
        (∀ c : CoreId, f.source = s.dev.coreSrc c → p.has c = true → f.cls ≠ 4 →
          (f.code = 0x0101 ∧ f.ctx0 = 8 ∧ unc = 1) ∨ (f.code = 0x0102 ∧ many ≠ 0 ∧ many ≤ (smGet [] s.dev.ceTimes f.source.toNat).length) →
          (s.dev.liveMask p c.site.toNat).getLsbD c.p.toNat = true → Answers (.faultPolicy seq) s fun t => t.dev.policyQ = rest ∧
            t.dev.fenceWait c.site.toNat = s.dev.fenceWait c.site.toNat ++ [(c.p, 2)] ∧ only t []) ∧
        (f.cls = 4 → f.esc = false → f.code ∉ [0x0101, 0x0102, 0x0802, 0x0904] →
          (act = 0 → quiet) ∧
          (act = 1 → s.dev.rstLow = false → s.dev.stopStep = 0 → Answers (.faultPolicy seq) s fun t =>
            t.dev.rstCause = 7 ∧ t.field (idR 20 0x100) 0 4 = 1 ∧ t.dev.policyQ = []) ∧
          (act = 2 → s.dev.stopStep = 0 → Answers (.faultPolicy seq) s fun t => t.dev.stopStep = 2 ∧ t.field (thmR 31 0x10) 3 3 = 7 ∧
            t.dev.policyQ = rest)) ∧
        (f.code = 0x0802 ∨ f.code = 0x0904 → quiet) ∧ (f.cls = 4 → f.esc = true → s.field (fltR 20 0x820) 2 1 = 0 →
          f.code ∉ [0x0101, 0x0102] → quiet))) ∧
    -- pins and heartbeats
    (s.dev.now.toNat % 600000 ≠ 0 → Answers .aliveToggle s fun t => t = s) ∧
    (s.dev.now.toNat % 600000 = 0 → Answers .aliveToggle s fun t => only t [] ∧ ∀ g : BitVec 3,
      let runs := s.dev.stopStep < 8 ∧ s.dev.bootDone p (groupStep g.toNat) = true ∧ s.dev.beatLost.getLsbD g.toNat = false ∧
        ∀ i, i < 512 → s.dev.plogOpen p i = true → s.field (fltR 20 0x818) 4 3 ≤ s.dev.plogClass p i → s.dev.plogGroup p i ≠ g.toNat
      (runs → t.dev.aliveLvl.getLsbD g.toNat = !s.dev.aliveLvl.getLsbD g.toNat) ∧
      (¬runs → t.dev.aliveLvl.getLsbD g.toNat = s.dev.aliveLvl.getLsbD g.toNat)) ∧
    (∀ g : BitVec 3,
      let n := g.toNat
      (Answers (.heartbeat g) s fun t => smGet 0 t.dev.beatT n = s.dev.now ∧ t.dev.beatLost.getLsbD n = false ∧
        (∀ h, h ≠ n → t.dev.beatLost.getLsbD h = s.dev.beatLost.getLsbD h) ∧ only t []) ∧
      (let lost := s.dev.stopStep < 8 ∧ s.dev.bootDone p (groupStep n) = true ∧ s.dev.beatLost.getLsbD n = false ∧ 2400000 ≤ elapsed s.dev.now (smGet 0 s.dev.beatT n)
       (lost → Answers (.heartbeatMissing g) s fun t => t.dev.beatLost.getLsbD n = true ∧
         (∃ f : FaultRec, f.cls = 2 ∧ f.code = 0x0003 ∧ f.ctx0 = BitVec.ofNat 64 n ∧ Logged p s.dev t.dev 31 f) ∧ RegsKept s t [] ∧ Still s t) ∧
       (¬lost → Answers (.heartbeatMissing g) s fun t => t = s))) ∧
    -- injection
    (∀ (site : BitVec 5) (v : W64), (site.toNat < 21 ∨ site = 31) →
      let n := site.toNat
      let inj := fltR n 8
      let chk := bits v 0 4
      let kind := bits v 4 2
      let unit := bits v 8 6
      let cnt := bits v 16 8
      let group := unit + 64 * bits v 24 4
      let sound := smGet none s.dev.inj n = none ∧ hasChecker n chk = true ∧ (kind = 1 ∨ kind = 2) ∧ 1 ≤ cnt ∧ ¬(chk = 10 ∧ kind = 2) ∧
        bits v 24 4 ≤ 11
      let starts := fun (u : Nat) => Answers (.injGo site v) s fun t =>
        smGet none t.dev.inj n = some { checker := chk, bits := kind, unit := u, left := cnt } ∧
        (∀ m, m ≠ n → smGet none t.dev.inj m = smGet none s.dev.inj m) ∧ t.field (fltR n 0) 4 12 = cnt * 16 + 1 ∧
        t.field (fltR n 0) 0 4 = s.field (fltR n 0) 0 4 ∧ only t [inj, fltR n 0]
      (sound → chk ≠ 4 → starts unit) ∧
      (sound → chk = 4 → s.field (latR (endpointOf n) (0x1000 + 8 * group)) 13 2 ≠ 3 → starts group) ∧
      (sound → chk = 4 → s.field (latR (endpointOf n) (0x1000 + 8 * group)) 13 2 = 3 → Answers (.injGo site v) s fun t =>
        t.dev.inj = s.dev.inj ∧ Raised s t n [inj]) ∧
      ((smGet none s.dev.inj n).isSome = true ∨ chk = 0 ∨ 13 ≤ chk ∨ kind = 0 ∨ kind = 3 ∨ cnt = 0 ∨ (chk = 10 ∧ kind = 2) ∨
          hasChecker n chk = false → Answers (.injGo site v) s fun t =>
        t.dev.inj = s.dev.inj ∧ RegsKept s t [inj] ∧ Still s t)) ∧
    -- guest records
    (∀ (src : Src) (w0 w1 w2 w3 w4 w5 : W64),
      let own := isG (srcSite src).toNat = true ∧ w1.extractLsb' 6 5 = srcSite src
      let cls : BitVec 3 := w1.extractLsb' 27 3
      (own → Answers (.intake src w0 w1 w2 w3 w4 w5) s fun t => only t [] ∧ ∃ g : FaultRec, t.dev = { s.dev with records := s.dev.records ++ [g] } ∧
        g.ledger = w0 ∧ g.source = w1.extractLsb' 0 27 ∧ g.code = w1.extractLsb' 32 16 ∧ g.cls = (if 4 ≤ cls.toNat then 3 else cls) ∧
        g.ctx0 = w2 ∧ g.ctx1 = w3 ∧ g.ctx2 = w4 ∧ g.ctx3 = w5) ∧
      (¬own → Answers (.intake src w0 w1 w2 w3 w4 w5) s fun t => t = s)) ∧
    -- berth supplies
    (∀ (g : BitVec 1) (mw : W32),
      let info := brtR g.toNat 0
      let peak := max mw.toNat (s.field info 16 48)
      (s.dev.berthLive p g.toNat = true → 150000 < mw.toNat → Answers (.berthPowerOver g mw) s fun t => Raised s t 31 []) ∧
      (s.dev.berthLive p g.toNat = false ∨ mw.toNat ≤ 150000 → Answers (.berthPowerOver g mw) s fun t => t = s) ∧
      (s.dev.berthLive p g.toNat = true → mw.toNat ≤ 165000 → Answers (.berthSupplyCut g mw) s fun t => t.field info 16 48 = peak ∧
        t.field info 0 16 = s.field info 0 16 ∧ only t [info]) ∧
      (s.dev.berthLive p g.toNat = true → 165000 < mw.toNat → Answers (.berthSupplyCut g mw) s fun t => t.field info 16 48 = peak ∧
        t.field info 0 1 = 0 ∧ t.field info 8 1 = 1 ∧ t.field (latR (21 + g.toNat) 0) 5 1 = 1 ∧ t.dev.berthLive p g.toNat = false ∧
        (∃ rs, t.dev.records = s.dev.records ++ rs ∧ ∃ r ∈ rs, r.cls = 2 ∧ r.code = 0x0A02) ∧ Still s t) ∧
      (s.dev.berthLive p g.toNat = false → Answers (.berthSupplyCut g mw) s fun t => t = s))

/-- R533 to R541, R543, R546 to R548, R551 and R552: the service port, image transfers, the firmware banks and the health watchdog. The
port takes its addresses and answers MCTP control; an image is checked header first, arrives in order and is taken at its end;
COMMIT puts a STAGED bank on trial, CONFIRM makes it GOOD, and the watchdog resets the package. The model's own choices: the byte layout
of an MCTP control answer (log entry 14); a message before the port has an address, and the order of an image's checks (log entry 65);
what a register access of the port ends with (log entry 66); the layout of a selector record, and that a write of the same tick may be
cut short by the watchdog's reset, by a free value (log entry 112). -/
def Obligations.ServicePort : Prop :=
  ∀ s : State,
    let p := s.part
    let svc := fwR 0x48
    let last := fwR 0x20
    let only := fun (t : State) (regs : List Nat) => (∀ a, a ∉ regs → t.reg a = s.reg a) ∧ Still s t
    let same := fun (i : Instr) => Answers i s fun t => t = s
    let sent := fun (t : State) (eid : BitVec 8) (bytes : List Byte) => t.dev.net = s.dev.net ++ [.service eid bytes]
    let up := s.dev.dead = false ∧ s.dev.vaux = true ∧ s.dev.wrstLow = false
    let hears := up ∧ s.field svc 0 7 ≠ 0
    -- addresses and MCTP control
    (∀ addr : BitVec 7, (up → Answers (.entdaa addr) s fun t => t.field svc 0 7 = addr.toNat ∧ t.field svc 7 57 = s.field svc 7 57 ∧ only t [svc]) ∧
      (¬up → same (.entdaa addr))) ∧
    (∀ eid : BitVec 8,
      let ctl := fun (i : Instr) (bytes : List Byte) => Answers i s fun t => sent t eid ([0, 0] ++ bytes) ∧ only t []
      (hears → (Answers (.setEndpointId eid) s fun t => t.field svc 8 8 = eid.toNat ∧ sent t 0 [0, 0, 1, 0, 0, eid, 0] ∧ only t [svc]) ∧
        ctl (.getEndpointId eid) [2, 0, BitVec.ofNat 8 (s.field svc 8 8), 0, 0] ∧
        ctl (.getMctpVersionSupport eid) [4, 0, 1, 0xF1, 0xF3, 0xF1, 0] ∧ ctl (.getMessageTypeSupport eid) [5, 0, 2, 0x05, 0x7F] ∧
        ctl (.getVendorDefinedMessageSupport eid) ([6, 0, 0xFF, 1] ++ ianaBytes ++ [0, 0])) ∧
      (¬hears → same (.setEndpointId eid) ∧ same (.getEndpointId eid) ∧ same (.getMctpVersionSupport eid) ∧ same (.getMessageTypeSupport eid) ∧
        same (.getVendorDefinedMessageSupport eid) ∧ ∀ tag h, same (.imgBegin eid tag h) ∧ same (.imgEnd eid tag) ∧ same (.imgAbort eid tag))) ∧
    -- image transfers
    (∀ eid tag : BitVec 8, hears →
      let reply := fun (t : State) (cmd st : Nat) (res : List Byte) =>
        sent t eid ([0x7F] ++ ianaBytes ++ leBytes 1 cmd ++ [tag] ++ leBytes 2 st ++ res) ∧ t.field last 16 16 = st
      let refuses := fun (i : Instr) (cmd st : Nat) (res : List Byte) => Answers i s fun t => reply t cmd st res ∧ t.dev.xfer = s.dev.xfer ∧
        t.dev.nv = s.dev.nv ∧ only t [last]
      let from' := fun (x : Xfer) => s.dev.xfer = some x ∧ x.eid = eid
      let none' := ∀ x, s.dev.xfer = some x → x.eid ≠ eid
      (∀ h : List Byte,
        let go := Instr.imgBegin eid tag h
        let st := imgStatus p s.dev.nv h
        (1091 < h.length → same go) ∧ (h.length ≤ 1091 →
        (∀ x, s.dev.xfer = some x → x.eid ≠ eid → refuses go 1 1 []) ∧
        ((s.dev.xfer = none ∨ ∃ x, from' x) →
          (st ≠ 0 → Answers go s fun t => reply t 1 st [] ∧ t.dev.xfer = s.dev.xfer ∧ t.dev.nv = s.dev.nv ∧
            t.reg (fltR 20 0x40) = countUp (s.reg (fltR 20 0x40)) 1 ∧ RegsKept s t [last] ∧ Still s t) ∧
          (st = 0 → imgType h = 1 → s.dev.nv.trial = true → refuses go 1 1 []) ∧
          (st = 0 → imgType h ≠ 1 ∨ s.dev.nv.trial = false → Answers go s fun t => reply t 1 0 [] ∧ only t [last] ∧
            t.dev.xfer = some { eid := eid, header := h, since := s.dev.now } ∧
            t.dev.nv = if imgType h = 1 then s.dev.nv.setBank s.dev.nv.inactive {} else s.dev.nv)))) ∧
      (∀ (off : W32) (data : List Byte),
        let go := Instr.imgData eid tag off data
        (1087 < data.length → same go) ∧
        (data.length ≤ 1087 → (none' → refuses go 2 0xC []) ∧
          ∀ x, from' x →
            let ends := off.toNat + data.length
            let total := imgLen x.header
            let refuses := fun (st : Nat) (res : List Byte) => Answers go s fun t => reply t 2 st res ∧
              t.dev.xfer = some { x with since := s.dev.now } ∧ t.dev.nv = s.dev.nv ∧ only t [last]
            (x.prev = some (off.toNat, data.length) → Answers go s fun t => reply t 2 0 (leBytes 4 x.body.length) ∧ only t [last] ∧
              t.dev.xfer = some { x with since := s.dev.now } ∧ t.dev.nv = s.dev.nv) ∧
            (x.prev ≠ some (off.toNat, data.length) →
              (off.toNat ≠ x.body.length → refuses 0xA (leBytes 4 x.body.length)) ∧
              (off.toNat = x.body.length → data.length = 0 ∨ 1024 < data.length → refuses 0x10 []) ∧
              (off.toNat = x.body.length → 1 ≤ data.length → data.length ≤ 1024 → total < ends ∨ (data.length % 16 ≠ 0 ∧ ends ≠ total) →
                refuses 8 []) ∧
              (off.toNat = x.body.length → 1 ≤ data.length → data.length ≤ 1024 → ends ≤ total → data.length % 16 = 0 ∨ ends = total →
                Answers go s fun t => reply t 2 0 (leBytes 4 ends) ∧ only t [last] ∧ t.dev.nv = s.dev.nv ∧
                  t.dev.xfer = some { x with body := x.body ++ data, prev := some (off.toNat, data.length), since := s.dev.now })))) ∧
      (none' → refuses (.imgEnd eid tag) 3 0xC [] ∧ refuses (.imgAbort eid tag) 4 0xC []) ∧
      (∀ x, from' x → (Answers (.imgAbort eid tag) s fun t => reply t 4 0 [] ∧ t.dev.xfer = none ∧ t.dev.nv = s.dev.nv ∧ only t [last]) ∧
        (x.body.length < imgLen x.header → refuses (.imgEnd eid tag) 3 0xD []) ∧
        (imgLen x.header ≤ x.body.length →
          let ends := fun (P : State → Prop) => Answers (.imgEnd eid tag) s fun t => t.dev.xfer = none ∧ Still s t ∧ P t
          let ty := imgType x.header
          let mask : BitVec 4 := BitVec.ofNat 4 (imgF x.body 0 1)
          let bad := mask.getLsbD (imgKey x.header) = true ∨ s.dev.nv.revoked ||| mask = 0xF
          (sha512 x.body ≠ imgHash x.header → ends fun t => reply t 3 0xB [] ∧ t.dev.nv = s.dev.nv ∧
            t.reg (fltR 20 0x40) = countUp (s.reg (fltR 20 0x40)) 1 ∧ RegsKept s t [last]) ∧
          (sha512 x.body = imgHash x.header →
            (ty = 1 → ends fun t => reply t 3 0 [] ∧ t.dev.nv = s.dev.nv.setBank s.dev.nv.inactive ⟨1, x.header, x.body⟩ ∧ only t [last]) ∧
            (ty = 2 → imgF x.body 4 2 ≠ s.dev.node.toNat → ends fun t => reply t 3 0xE [] ∧ t.dev.nv = s.dev.nv ∧ only t [last]) ∧
            (ty = 2 → imgF x.body 4 2 = s.dev.node.toNat → imgF x.body 6 10 = 0 → cardBadGroup x.body = none → s.dev.bootReached p 8 = false →
              ends fun t => reply t 3 0 [] ∧ t.dev.nv = { s.dev.nv with card := some x.body } ∧
                t.dev.kView p (fwR 0x40) 0 = BitVec.ofNat 64 (imgF x.body 0 4) ∧
                t.reg (fltR 20 0x40) = countUp (s.reg (fltR 20 0x40)) 1 ∧ RegsKept s t [last]) ∧
            (ty = 3 → bad → ends fun t => reply t 3 0x10 [] ∧ t.dev.nv = s.dev.nv ∧ only t [last]) ∧
            (ty = 3 → ¬bad → ends fun t => reply t 3 0 [] ∧ t.dev.nv = { s.dev.nv with revoked := s.dev.nv.revoked ||| mask } ∧
              t.reg (fltR 20 0x40) = countUp (s.reg (fltR 20 0x40)) 1 ∧ RegsKept s t [last])))) ∧
      -- COMMIT and FW_STATUS
      (∀ reset : Bool,
        let go := Instr.commit eid tag reset
        let cnt := match s.dev.nv.selector with | some r => r.cnt + 1 | none => 1
        (s.dev.nv.bank0.st ≠ 1 → s.dev.nv.bank1.st ≠ 1 → refuses go 5 0xD []) ∧ (s.dev.nv.trial = true → refuses go 5 0xD []) ∧
        (∀ b : Bool, (s.dev.nv.bank b).st = 1 → (b = true → s.dev.nv.bank0.st ≠ 1) → s.dev.nv.trial = false → Answers go s fun t =>
          reply t 5 0 [] ∧ only t [last, fwR 0] ∧ t.dev.nv.bank b = { s.dev.nv.bank b with st := 2 } ∧ t.dev.nv.bank (!b) = s.dev.nv.bank (!b) ∧
          (if s.dev.nv.inSlot1 then t.dev.nv.slot0 else t.dev.nv.slot1) = some (SelRec.sealed b true false cnt) ∧
          (if s.dev.nv.inSlot1 then t.dev.nv.slot1 = s.dev.nv.slot1 else t.dev.nv.slot0 = s.dev.nv.slot0) ∧
          t.field (fwR 0) 32 32 = (match t.dev.nv.selector with | some r => r.cnt.toNat | none => 0) ∧
          t.dev.selWrite = some ⟨s.dev.now, !s.dev.nv.inSlot1, b, 1, s.dev.nv.svnMin⟩ ∧
          t.dev.resetDue = if reset then s.dev.resetDue ++ [{ kind := 2, t := s.dev.now }] else s.dev.resetDue)) ∧
      (Answers (.fwStatus eid tag) s fun t => only t [] ∧ t.dev = { s.dev with net := t.dev.net } ∧
        sent t eid ([0x7F] ++ ianaBytes ++ [6, tag, 0, 0] ++ leBytes 8 (s.reg (fwR 0)).toNat ++ leBytes 8 (bankWord s.dev.nv.bank0).toNat ++
          leBytes 8 (bankWord s.dev.nv.bank1).toNat ++ leBytes 8 (s.dev.xferWord p).toNat)) ∧
      -- registers
      (let said := fun (i : Instr) (cmd : Byte) (st : Byte) (res : List Byte) => Answers i s fun t => only t [] ∧
         sent t eid ([0x7F] ++ ianaBytes ++ [cmd, tag, st, 0] ++ res) ∧ t.dev = { s.dev with net := t.dev.net }
       let capset : BitVec 40 := BitVec.ofNat 40 (idR 20 0x118)
       (∀ addrs, 136 < addrs.length → same (.svcRegRead eid tag addrs)) ∧ (∀ writes, 68 < writes.length → same (.svcRegWrite eid tag writes)) ∧
       (∀ addrs, addrs.length ≤ 136 → s.dev.bootAt p = 14 → (∃ a ∈ addrs, svcOpen a.toNat = false) → said (.svcRegRead eid tag addrs) 0x10 0xF []) ∧
       (∀ addrs, s.dev.bootAt p ≠ 14 → addrs.length = 0 ∨ (16 < addrs.length ∧ addrs.length ≤ 136) → said (.svcRegRead eid tag addrs) 0x10 0x10 []) ∧
       (s.dev.heldOut p 20 = false → said (.svcRegRead eid tag [capset]) 0x10 0 (leBytes 8 0 ++ leBytes 8 (s.reg (idR 20 0x118)).toNat)) ∧
       (∀ writes, writes.length ≤ 68 → s.dev.bootAt p = 14 → said (.svcRegWrite eid tag writes) 0x11 0xF []) ∧
       (∀ writes, s.dev.bootAt p ≠ 14 → writes.length = 0 ∨ (8 < writes.length ∧ writes.length ≤ 68) → said (.svcRegWrite eid tag writes) 0x11 0x10 []) ∧
       (∀ v : W64, s.dev.bootAt p ≠ 14 → s.dev.heldOut p 20 = false → said (.svcRegWrite eid tag [(BitVec.ofNat 40 (fwR 0x28), v)]) 0x11 0
         (leBytes 2 0 ++ leBytes 2 stBadRequest.toNat)) ∧
       (∀ (c : CoreId) (v : W64), s.dev.bootAt p ≠ 14 → p.has c = true → (s.k c).st ≠ .fenced → v ≠ 0 →
         s.dev.refusedAtSender p (.ctl (coreR c 0x38)) = none →
         Answers (.svcRegWrite eid tag [(BitVec.ofNat 40 (coreR c 0x38), v)]) s fun t => t.reg (coreR c 0x38) = v ∧ only t [coreR c 0x38] ∧
           sent t eid ([0x7F] ++ ianaBytes ++ [0x11, tag, 0, 0] ++ leBytes 2 1 ++ leBytes 2 0)))) ∧
    -- confirmation and the watchdogs
    (∀ x, s.dev.xfer = some x → (12000000000 ≤ elapsed s.dev.now x.since → Answers .transferTimeout s fun t =>
        t.dev = { s.dev with xfer := none } ∧ Still s t) ∧ (elapsed s.dev.now x.since < 12000000000 → same .transferTimeout)) ∧
    (s.dev.xfer = none → same .transferTimeout) ∧ same (.confirm false) ∧
    (let now20 := s.dev.raw
     let b := s.dev.bit p (fwR 0) 0
     let h := (s.dev.nv.bank b).header
     let rise := imgF h 26 2 % 2 = 1 ∧ s.dev.nv.svnMin.toNat < imgSvn h
     ∀ t0, s.dev.wdogT = some t0 →
      (144000000000 ≤ elapsed now20 t0 →
        (s.dev.dead = false → Answers .firmwareWatchdog s fun t => t.dev.rstCause = 4 ∧ t.dev.warmBoot = false ∧ t.dev.nv = s.dev.nvLeft ∧
          (s.dev.cutsWrite = false → t.dev.nv = s.dev.nv) ∧
          t.dev.off = false ∧ (∀ a, t.reg a = resetWord p a) ∧ (∀ c, t.k c = {}) ∧ Fixed s t) ∧ same (.confirm true)) ∧
      (elapsed now20 t0 < 144000000000 → same .firmwareWatchdog ∧
        (s.dev.dead = false → s.dev.bootReached p 3 = true → Answers (.confirm true) s fun t => t.dev.wdogT = none ∧
          t.dev.nv.bank b = { s.dev.nv.bank b with st := 3 } ∧ t.dev.nv.bank (!b) = s.dev.nv.bank (!b) ∧ t.field (fwR 0) 1 1 = 0 ∧
          (∃ cnt, (if s.dev.nv.inSlot1 then t.dev.nv.slot0 else t.dev.nv.slot1) = some (SelRec.sealed b false false cnt)) ∧
          (rise → t.dev.nv.svnMin = BitVec.ofNat 6 (imgSvn h) ∧ t.reg (fltR 20 0x40) = countUp (s.reg (fltR 20 0x40)) 1 ∧
            RegsKept s t [fwR 0] ∧ Still s t) ∧
          (¬rise → t.dev.nv.svnMin = s.dev.nv.svnMin ∧ only t [fwR 0]))))

/-- R549 and R550: SPDM. A request that is heard gets its answer at its place of the exchange, and ERROR elsewhere; slots 1 to 7 and a
requester that offers neither algorithm get ERROR, a challenge is answered with a signature of the device key over the transcript with a
fresh nonce, and the measurement blocks are taken from the state at the request. The bytes of DSP0274, the order of its requests and the
transcripts are the model's reading (log entry 14); a nonce is a free value (log entry 6). -/
def Obligations.Attestation : Prop :=
  ∀ s : State, s.dev.svcHears s.part = true → ∀ eid : BitVec 8,
    let p := s.part
    let x := s.dev.spdmOf eid
    let quiet := { x with meas := [] }
    let kept := fun (t : State) (y : SpdmSt) => (∀ a, t.reg a = s.reg a) ∧ Still s t ∧ t.dev.spdmOf eid = y ∧
      (∀ e, e ≠ eid → t.dev.spdmOf e = s.dev.spdmOf e) ∧
      t.dev = { s.dev with net := t.dev.net, freeCount := t.dev.freeCount, spdm := t.dev.spdm }
    let tells := fun (i : Instr) (rsp : List Byte) (y : SpdmSt) => Answers i s fun t =>
      t.dev.net = s.dev.net ++ [.service eid (0x05 :: rsp)] ∧ t.dev.freeCount = s.dev.freeCount ∧ kept t y
    let error := fun (code : Byte) => [0x12, 0x7F, code, 0]
    -- a request that comes at its place, elsewhere, or in a message of more than 1,100 bytes
    let comes := fun (i : Instr) (place : Nat) (req : List Byte) (here : Prop) =>
      (1099 < req.length → Answers i s fun t => t = s) ∧
      (req.length ≤ 1099 → (x.at' ≠ place → tells i (error 4) quiet) ∧ (x.at' = place → here))
    -- an answer with a nonce, and what it leaves
    let signed := fun (i : Instr) (rsp sig : List Byte → List Byte) (y : List Byte → SpdmSt) => Answers i s fun t =>
      t.dev.freeCount = s.dev.freeCount + 4 ∧ ∃ nonce : List Byte, nonce.length = 32 ∧ kept t (y nonce) ∧
        t.dev.net = s.dev.net ++ [.service eid (0x05 :: (rsp nonce ++ sig nonce))]
    let chain := Config.certChain
    (let rsp : List Byte := [0x10, 0x04, 0, 0, 0, 1, 0, 0x12]
     tells (.getVersion eid) rsp { at' := 1, vca := [0x10, 0x84, 0, 0] ++ rsp }) ∧
    (∀ head tail : List Byte,
      let req := [0x12, 0xE1] ++ head ++ tail
      let rsp := [0x12, 0x61, 0, 0] ++ ([0, 0, 0, 0] ++ leBytes 4 0x16 ++ leBytes 4 1099 ++ leBytes 4 1099)
      let go := Instr.getCapabilities ⟨eid, head, tail⟩
      comes go 1 req (tells go rsp { quiet with at' := 2, vca := x.vca ++ req ++ rsp })) ∧
    (∀ (head tail : List Byte) (asym hash : W32),
      let a := asym.getLsbD 6
      let h := hash.getLsbD 2
      let req := [0x12, 0xE3] ++ head ++ leBytes 4 asym.toNat ++ leBytes 4 hash.toNat ++ tail
      let rsp := [0x12, 0x63, 0, 0] ++ (leBytes 2 36 ++ [1, 0] ++ leBytes 4 8 ++ leBytes 4 (if a then 64 else 0) ++
        leBytes 4 (if h then 4 else 0) ++ List.replicate 16 0)
      let go := Instr.negotiateAlgorithms ⟨eid, head, tail⟩ asym hash
      comes go 2 req ((a = false → h = false → tells go (error 1) quiet) ∧
        (a = true ∨ h = true → tells go rsp { quiet with at' := 3, vca := x.vca ++ req ++ rsp }))) ∧
    (let req := [0x12, 0x81, 0, 0]
     let rsp := [0x12, 0x01, 0, 1] ++ sha512 chain
     comes (.getDigests eid) 3 req (tells (.getDigests eid) rsp { quiet with certs := x.certs ++ req ++ rsp })) ∧
    (∀ (slot : BitVec 8) (off len : BitVec 16),
      let n := min (min len.toNat 1091) (chain.length - off.toNat)
      let req := [0x12, 0x82, slot, 0] ++ (leBytes 2 off.toNat ++ leBytes 2 len.toNat)
      let rsp := [0x12, 0x02, 0, 0] ++ (leBytes 2 n ++ leBytes 2 (chain.length - off.toNat - n) ++ (chain.drop off.toNat).take n)
      let go := Instr.getCertificate eid slot off len
      comes go 3 req ((slot ≠ 0 ∨ chain.length < off.toNat → tells go (error 1) quiet) ∧
        (slot = 0 → off.toNat ≤ chain.length → tells go rsp { quiet with certs := x.certs ++ req ++ rsp }))) ∧
    (∀ (slot : BitVec 8) (nonce : List Byte),
      let req := [0x12, 0x83, slot, 0] ++ nonce
      let rsp := fun (n : List Byte) => [0x12, 0x03, 0, 1] ++ (sha512 chain ++ n ++ [0, 0])
      let go := Instr.challenge eid slot nonce
      comes go 3 req ((slot ≠ 0 ∨ nonce.length ≠ 32 → tells go (error 1) quiet) ∧
        (slot = 0 → nonce.length = 32 → signed go rsp (fun n => spdmSign "responder-challenge_auth signing" (x.vca ++ x.certs ++ req ++ rsp n))
          fun _ => { quiet with certs := [] }))) ∧
    (∀ (index : BitVec 8) (sign : Bool) (nonce : List Byte),
      let go := Instr.getMeasurements eid index sign nonce
      let req := [0x12, 0xE0, if sign then 1 else 0, index] ++ (if sign then nonce ++ [0] else [])
      let block := fun (i ty : Nat) (v : List Byte) => leBytes 1 i ++ [1] ++ leBytes 2 (v.length + 3) ++ leBytes 1 ty ++ leBytes 2 v.length ++ v
      let zeros := fun (n : Nat) => List.replicate n (0 : Byte)
      let runs := s.dev.kRuns p = true
      let bank := s.dev.bit p (fwR 0) 0
      let h := (s.dev.nv.bank bank).header
      let card := fun (hash : List Byte) => (∃ c, s.dev.nv.card = some c ∧ s.dev.bootReached p 8 = true ∧ hash = sha512 c) ∨
        ((s.dev.nv.card = none ∨ s.dev.bootReached p 8 = false) ∧ hash = zeros 64)
      let b1 := block 1 0 Config.romHash
      let b2 := block 2 1 (if runs then imgHash h else zeros 64)
      let b3 := block 3 0x83 (if runs then
        leBytes 8 (imgVersion h).toNat ++ leBytes 2 (imgSvn h) ++ leBytes 1 (imgKey h) ++ leBytes 1 (if bank then 1 else 0) else zeros 12)
      let b5 := block 5 0x82 (leBytes 1 s.dev.nv.revoked.toNat ++ leBytes 1 s.dev.nv.svnMin.toNat ++
        leBytes 1 (65 + p.grade.val) ++ leBytes 1 (if p.mem192 then 1 else 0) ++ leBytes 1 p.berth.toNat)
      let b6 := block 6 0x82 (leBytes 8 (s.reg (idR 20 0x118)).toNat ++ leBytes 1 (p.revOf 31).toNat ++ ((s.dev.deviceInfo p).drop 24).take 23)
      let b7 := block 7 0x82 (leBytes 8 (s.reg (brtR 0 0)).toNat ++ leBytes 8 (s.reg (brtR 1 0)).toNat)
      let answers := fun (total cnt : Nat) (blocks : List Byte) =>
        let rsp := fun (n : List Byte) => [0x12, 0x60, BitVec.ofNat 8 total, 0] ++ (leBytes 1 cnt ++ leBytes 3 blocks.length ++ blocks ++ n ++ [0, 0])
        signed go rsp (fun n => if sign then spdmSign "responder-measurements signing" (x.vca ++ (x.meas ++ req ++ rsp n)) else [])
          fun n => { x with certs := [], meas := if sign then [] else x.meas ++ req ++ rsp n }
      comes go 3 req (((8 ≤ index.toNat ∧ index ≠ 0xFF) ∨ (sign = true ∧ nonce.length ≠ 32) → tells go (error 1) quiet) ∧
        ((sign = true → nonce.length = 32) → ∀ hash, card hash →
          let b4 := block 4 3 hash
          (index = 0 → answers 7 0 []) ∧ (index = 1 → answers 0 1 b1) ∧ (index = 2 → answers 0 1 b2) ∧ (index = 3 → answers 0 1 b3) ∧
          (index = 4 → answers 0 1 b4) ∧ (index = 5 → answers 0 1 b5) ∧ (index = 6 → answers 0 1 b6) ∧ (index = 7 → answers 0 1 b7) ∧
          (index = 0xFF → answers 0 7 (b1 ++ b2 ++ b3 ++ b4 ++ b5 ++ b6 ++ b7)))))
end

