-- ==== Sys2Proof/Laws/SMap.lean ====
section
/-! SUPPORT. What the sparse maps and the byte memory do: reads after writes, and the canonical form kept. -/

namespace Sys2Proof.Machine

/-! ### Reads after writes -/

@[simp] theorem smGet_nil {α : Type} (d : α) (k : Nat) : smGet d [] k = d := rfl

@[simp] theorem smGet_cons_same {α : Type} (d x : α) (m : SMap α) (k : Nat) : smGet d ((k, x) :: m) k = x := by
  simp [smGet]

theorem smGet_cons_ne {α : Type} (d x : α) (m : SMap α) {i k : Nat} (h : i ≠ k) : smGet d ((i, x) :: m) k = smGet d m k := by
  simp [smGet, h]

theorem smGet_erase_same {α : Type} (d : α) (m : SMap α) (k : Nat) : smGet d (smErase k m) k = d := by
  induction m with
  | nil => rfl
  | cons e m ih =>
    obtain ⟨i, x⟩ := e
    by_cases h : i = k
    · simpa [smErase, h] using ih
    · simp only [smErase, List.filter_cons] at *
      simpa [h, smGet] using ih

theorem smGet_erase_ne {α : Type} (d : α) (m : SMap α) {j k : Nat} (h : j ≠ k) : smGet d (smErase k m) j = smGet d m j := by
  induction m with
  | nil => rfl
  | cons e m ih =>
    obtain ⟨i, x⟩ := e
    simp only [smErase, List.filter_cons] at *
    by_cases hi : i = k
    · have : i ≠ j := fun e => h (e ▸ hi)
      simpa [hi, smGet, this, Ne.symm h] using ih
    · by_cases hj : i = j <;> simp [hi, smGet, hj, h, ih]

/-- A read of the index written gives the value written. -/
@[simp] theorem smGet_set_same {α : Type} [DecidableEq α] (d : α) (m : SMap α) (k : Nat) (v : α) :
    smGet d (smSet d m k v) k = v := by
  induction m with
  | nil => by_cases h : v = d <;> simp [smSet, h]
  | cons e m ih =>
    obtain ⟨i, x⟩ := e
    by_cases h : i < k
    · simpa [smSet, h, smGet, Nat.ne_of_lt h] using ih
    · by_cases hv : v = d
      · simpa [smSet, h, hv] using smGet_erase_same d ((i, x) :: m) k
      · simp [smSet, h, hv]

/-- A write leaves every other index alone. -/
theorem smGet_set_ne {α : Type} [DecidableEq α] (d e : α) (m : SMap α) {j k : Nat} (v : α) (h : j ≠ k) :
    smGet e (smSet d m k v) j = smGet e m j := by
  induction m with
  | nil => by_cases hv : v = d <;> simp [smSet, hv, smGet, Ne.symm h]
  | cons y m ih =>
    obtain ⟨i, x⟩ := y
    by_cases hi : i < k
    · simp only [smSet, hi, if_true, smGet, ih]
    · by_cases hv : v = d
      · simpa [smSet, hi, hv] using smGet_erase_ne e ((i, x) :: m) h
      · simpa [smSet, hi, hv, smGet, Ne.symm h] using smGet_erase_ne e ((i, x) :: m) h

/-! ### The canonical form -/

theorem smAbove_iff {α : Type} (k : Nat) (m : SMap α) : smAbove k m = true ↔ ∀ e ∈ m, k < e.1 := by
  induction m with
  | nil => simp [smAbove]
  | cons e m ih => obtain ⟨i, x⟩ := e; simp [smAbove, ih]

theorem smAbove_filter {α : Type} (k : Nat) (m : SMap α) (f : Nat × α → Bool) (h : smAbove k m = true) :
    smAbove k (m.filter f) = true := by
  rw [smAbove_iff] at *
  exact fun e he => h e (List.mem_filter.1 he |>.1)

/-- A filter keeps the canonical form. -/
theorem smWf_filter {α : Type} [DecidableEq α] (d : α) (m : SMap α) (f : Nat × α → Bool) (h : smWf d m = true) :
    smWf d (m.filter f) = true := by
  induction m with
  | nil => rfl
  | cons e m ih =>
    obtain ⟨i, x⟩ := e
    simp only [smWf, Bool.and_eq_true] at h
    by_cases hf : f (i, x) = true
    · simp only [List.filter_cons, hf, if_true, smWf, Bool.and_eq_true]
      exact ⟨⟨smAbove_filter i m f h.1.1, h.1.2⟩, ih h.2⟩
    · simpa [List.filter_cons, hf] using ih h.2

theorem smAbove_set {α : Type} [DecidableEq α] (d : α) (m : SMap α) {i k : Nat} (v : α) (hk : i < k)
    (h : smAbove i m = true) : smAbove i (smSet d m k v) = true := by
  induction m with
  | nil => by_cases hv : v = d <;> simp [smSet, hv, smAbove, hk]
  | cons e m ih =>
    obtain ⟨j, x⟩ := e
    have h' := h
    simp only [smAbove, Bool.and_eq_true, decide_eq_true_eq] at h
    by_cases hj : j < k
    · simp [smSet, hj, smAbove, h.1, ih h.2]
    · by_cases hv : v = d
      · simpa [smSet, hj, hv, smErase] using smAbove_filter i _ _ h'
      · simp only [smSet, hj, hv, if_false, smAbove, Bool.and_eq_true, decide_eq_true_eq]
        exact ⟨hk, smAbove_filter i _ _ h'⟩

/-- A write keeps the canonical form. -/
theorem smWf_set {α : Type} [DecidableEq α] (d : α) (m : SMap α) (k : Nat) (v : α) (h : smWf d m = true) :
    smWf d (smSet d m k v) = true := by
  induction m with
  | nil => by_cases hv : v = d <;> simp [smSet, hv, smWf, smAbove]
  | cons e m ih =>
    obtain ⟨i, x⟩ := e
    have h0 := h
    simp only [smWf, Bool.and_eq_true, decide_eq_true_eq] at h
    by_cases hi : i < k
    · simp [smSet, hi, smWf, h.1.2, ih h.2, smAbove_set d m v hi h.1.1]
    · by_cases hv : v = d
      · simpa [smSet, hi, hv, smErase] using smWf_filter d _ _ h0
      · have hall : smAbove k (smErase k ((i, x) :: m)) = true := by
          rw [smAbove_iff]
          intro e he
          have hm := List.mem_filter.1 he
          have hne : e.1 ≠ k := by simpa using hm.2
          rcases List.mem_cons.1 hm.1 with rfl | hm'
          · exact Nat.lt_of_le_of_ne (Nat.le_of_not_lt hi) (Ne.symm hne)
          · have := (smAbove_iff i m).1 h.1.1 e hm'
            omega
        simp only [smSet, hi, hv, if_false, smWf, Bool.and_eq_true, decide_eq_true_eq]
        exact ⟨⟨hall, hv⟩, smWf_filter d _ _ h0⟩

/-! ### Memory -/

/-- A byte written reads back, and the others are left alone. -/
theorem Memory.get_set (m : List Host.Cell) (a b : Nat) (x : Byte) :
    Memory.get (Memory.set m a x) b = if b = a then x else Memory.get m b := by
  by_cases h : b = a
  · simp [Memory.get, Memory.set, h]
  · simpa [Memory.get, Memory.set, h] using smGet_set_ne Memory.blank Memory.blank m x h

/-- What a run of bytes written leaves at every address. -/
theorem Memory.get_write (m : List Host.Cell) (a : Nat) (bs : List Byte) (b : Nat) :
    Memory.get (Memory.write m a bs) b = if a ≤ b ∧ b < a + bs.length then bs.getD (b - a) 0 else Memory.get m b := by
  induction bs generalizing m a with
  | nil => simp [Memory.write]
  | cons x bs ih =>
    rw [Memory.write, ih, Memory.get_set]
    by_cases h1 : b = a
    · subst h1; simp
    · by_cases h2 : a + 1 ≤ b ∧ b < a + 1 + bs.length
      · have h3 : a ≤ b ∧ b < a + (x :: bs).length := by simp; omega
        have : b - a = (b - (a + 1)) + 1 := by omega
        rw [if_pos h2, if_pos h3, this]; rfl
      · have h3 : ¬(a ≤ b ∧ b < a + (x :: bs).length) := by simp; omega
        rw [if_neg h2, if_neg h1, if_neg h3]

theorem Memory.wf_set (m : List Host.Cell) (a : Nat) (x : Byte) (h : Memory.wf m = true) : Memory.wf (Memory.set m a x) = true :=
  smWf_set _ m a x h

theorem Memory.wf_write (m : List Host.Cell) (a : Nat) (bs : List Byte) (h : Memory.wf m = true) :
    Memory.wf (Memory.write m a bs) = true := by
  induction bs generalizing m a with
  | nil => exact h
  | cons x bs ih => exact ih _ _ (Memory.wf_set m a x h)

/-- Every list of writes keeps the canonical form. -/
theorem applyWr_wf (m : List Host.Cell) (w : Wr) (h : Memory.wf m = true) : Memory.wf (applyWr m w) = true := by
  induction w generalizing m with
  | nil => exact h
  | cons x w ih => exact ih _ (Memory.wf_write m x.1 x.2 h)

/-- Blanking a range keeps the canonical form. -/
theorem clearRange_wf (m : List Host.Cell) (lo hi : Nat) (h : Memory.wf m = true) : Memory.wf (clearRange m lo hi) = true :=
  smWf_filter _ m _ h

theorem clearRanges_wf (m : List Host.Cell) (r : List (Nat × Nat)) (h : Memory.wf m = true) : Memory.wf (clearRanges m r) = true := by
  induction r generalizing m with
  | nil => exact h
  | cons x r ih => exact ih _ (clearRange_wf m x.1 x.2 h)

/-- A byte outside a list of writes is left alone. -/
theorem applyWr_get (m : List Host.Cell) (w : Wr) (b : Nat) (h : ∀ x ∈ w, ¬(x.1 ≤ b ∧ b < x.1 + x.2.length)) :
    Memory.get (applyWr m w) b = Memory.get m b := by
  induction w generalizing m with
  | nil => rfl
  | cons x w ih =>
    rw [applyWr, ih _ fun y hy => h y (List.mem_cons_of_mem _ hy), Memory.get_write, if_neg (h x (List.mem_cons_self ..))]

/-! ### What a command may do to the state -/

/-- A command that goes through State.upd answers a next state with part, memory and queue unchanged. -/
theorem State.upd_next (s : State) (f : Part → List Host.Cell → Dev → Dev) :
    s.upd f = .next { s with dev := f s.part s.mem s.dev } := rfl

theorem State.updW_next (s : State) (f : Part → List Host.Cell → Dev → Dev × Wr) :
    s.updW f = .next { s with mem := applyWr s.mem (f s.part s.mem s.dev).2, dev := (f s.part s.mem s.dev).1 } := rfl

theorem State.updC_next (s : State) (f : Part → List Host.Cell → Dev → Dev × Wr × List (Nat × Nat)) :
    s.updC f = .next { s with
      mem := clearRanges (applyWr s.mem (f s.part s.mem s.dev).2.1) (f s.part s.mem s.dev).2.2
      dev := (f s.part s.mem s.dev).1 } := rfl

end Sys2Proof.Machine
end

