-- ==== Sys2Proof/Laws/State.lean ====
section
/-! SUPPORT. What each named update of the state leaves of each part of it, so that no proof unfolds a record update. -/

namespace Sys2Proof.Machine

/-! ### Registers -/

@[simp] theorem Dev.get_put_same (p : Part) (d : Dev) (a : Nat) (v : W64) : (d.put p a v).get p a = v := by
  simp [Dev.get, Dev.put]
theorem Dev.get_put_ne (p : Part) (d : Dev) {a b : Nat} (v : W64) (h : b ≠ a) : (d.put p a v).get p b = d.get p b := by
  unfold Dev.get Dev.put
  exact smGet_set_ne _ _ d.ctl v h
@[simp] theorem Dev.get_setF_same (p : Part) (d : Dev) (a lo n v : Nat) :
    (d.setF p a lo n v).get p a = withBits (d.get p a) lo n v := by simp [Dev.setF]
theorem Dev.get_setF_ne (p : Part) (d : Dev) {a b : Nat} (lo n v : Nat) (h : b ≠ a) :
    (d.setF p a lo n v).get p b = d.get p b := by simp [Dev.setF, Dev.get_put_ne p d _ h]
theorem Dev.get_setB_ne (p : Part) (d : Dev) {a b : Nat} (i : Nat) (x : Bool) (h : b ≠ a) :
    (d.setB p a i x).get p b = d.get p b := Dev.get_setF_ne p d i 1 _ h
@[simp] theorem Dev.get_count_same (p : Part) (d : Dev) (a n : Nat) :
    (d.count p a n).get p a = countUp (d.get p a) n := by simp [Dev.count]
theorem Dev.get_count_ne (p : Part) (d : Dev) {a b : Nat} (n : Nat) (h : b ≠ a) :
    (d.count p a n).get p b = d.get p b := by simp [Dev.count, Dev.get_put_ne p d _ h]

/-! ### Cores -/

theorem coreIx_inj {c e : CoreId} (h : coreIx c = coreIx e) : c = e := by
  obtain ⟨a, b⟩ := c
  obtain ⟨x, y⟩ := e
  have hb := b.isLt
  have hy := y.isLt
  simp only [coreIx] at h
  have h1 : a.toNat = x.toNat := by omega
  have h2 : b.toNat = y.toNat := by omega
  rw [BitVec.eq_of_toNat_eq h1, BitVec.eq_of_toNat_eq h2]
@[simp] theorem Dev.core_setCore_same (d : Dev) (c : CoreId) (k : CoreSt) : (d.setCore c k).core c = k := by
  simp [Dev.core, Dev.setCore]
theorem Dev.core_setCore_ne (d : Dev) {c e : CoreId} (k : CoreSt) (h : e ≠ c) : (d.setCore c k).core e = d.core e := by
  simpa [Dev.core, Dev.setCore] using smGet_set_ne {} {} d.cores k fun x => h (coreIx_inj x)
@[simp] theorem Dev.core_modCore_same (d : Dev) (c : CoreId) (f : CoreSt → CoreSt) : (d.modCore c f).core c = f (d.core c) := by
  simp [Dev.modCore]
theorem Dev.core_modCore_ne (d : Dev) {c e : CoreId} (f : CoreSt → CoreSt) (h : e ≠ c) : (d.modCore c f).core e = d.core e :=
  Dev.core_setCore_ne d _ h

/-! ### What the updates leave alone -/

@[simp] theorem Dev.put_cores (p : Part) (d : Dev) (a : Nat) (v : W64) : (d.put p a v).cores = d.cores := rfl
@[simp] theorem Dev.put_ecc (p : Part) (d : Dev) (a : Nat) (v : W64) : (d.put p a v).ecc = d.ecc := rfl
@[simp] theorem Dev.put_node (p : Part) (d : Dev) (a : Nat) (v : W64) : (d.put p a v).node = d.node := rfl
@[simp] theorem Dev.put_raw (p : Part) (d : Dev) (a : Nat) (v : W64) : (d.put p a v).raw = d.raw := rfl
@[simp] theorem Dev.put_led (p : Part) (d : Dev) (a : Nat) (v : W64) : (d.put p a v).led = d.led := rfl
@[simp] theorem Dev.put_net (p : Part) (d : Dev) (a : Nat) (v : W64) : (d.put p a v).net = d.net := rfl
@[simp] theorem Dev.put_records (p : Part) (d : Dev) (a : Nat) (v : W64) : (d.put p a v).records = d.records := rfl
@[simp] theorem Dev.put_storm (p : Part) (d : Dev) (a : Nat) (v : W64) : (d.put p a v).storm = d.storm := rfl
@[simp] theorem Dev.put_clkRegs (p : Part) (d : Dev) (a : Nat) (v : W64) : (d.put p a v).clkRegs = d.clkRegs := rfl
@[simp] theorem Dev.put_off (p : Part) (d : Dev) (a : Nat) (v : W64) : (d.put p a v).off = d.off := rfl
@[simp] theorem Dev.put_stopStep (p : Part) (d : Dev) (a : Nat) (v : W64) : (d.put p a v).stopStep = d.stopStep := rfl
@[simp] theorem Dev.put_nv (p : Part) (d : Dev) (a : Nat) (v : W64) : (d.put p a v).nv = d.nv := rfl
@[simp] theorem Dev.put_banks (p : Part) (d : Dev) (a : Nat) (v : W64) : (d.put p a v).banks = d.banks := rfl
@[simp] theorem Dev.put_ports (p : Part) (d : Dev) (a : Nat) (v : W64) : (d.put p a v).ports = d.ports := rfl
@[simp] theorem Dev.setF_cores (p : Part) (d : Dev) (a lo n v : Nat) : (d.setF p a lo n v).cores = d.cores := rfl
@[simp] theorem Dev.setF_ecc (p : Part) (d : Dev) (a lo n v : Nat) : (d.setF p a lo n v).ecc = d.ecc := rfl
@[simp] theorem Dev.setF_node (p : Part) (d : Dev) (a lo n v : Nat) : (d.setF p a lo n v).node = d.node := rfl
@[simp] theorem Dev.setF_raw (p : Part) (d : Dev) (a lo n v : Nat) : (d.setF p a lo n v).raw = d.raw := rfl
@[simp] theorem Dev.setF_led (p : Part) (d : Dev) (a lo n v : Nat) : (d.setF p a lo n v).led = d.led := rfl
@[simp] theorem Dev.setF_net (p : Part) (d : Dev) (a lo n v : Nat) : (d.setF p a lo n v).net = d.net := rfl
@[simp] theorem Dev.setF_records (p : Part) (d : Dev) (a lo n v : Nat) : (d.setF p a lo n v).records = d.records := rfl
@[simp] theorem Dev.setF_storm (p : Part) (d : Dev) (a lo n v : Nat) : (d.setF p a lo n v).storm = d.storm := rfl
@[simp] theorem Dev.setF_clkRegs (p : Part) (d : Dev) (a lo n v : Nat) : (d.setF p a lo n v).clkRegs = d.clkRegs := rfl
@[simp] theorem Dev.setF_off (p : Part) (d : Dev) (a lo n v : Nat) : (d.setF p a lo n v).off = d.off := rfl
@[simp] theorem Dev.setF_stopStep (p : Part) (d : Dev) (a lo n v : Nat) : (d.setF p a lo n v).stopStep = d.stopStep := rfl
@[simp] theorem Dev.setF_nv (p : Part) (d : Dev) (a lo n v : Nat) : (d.setF p a lo n v).nv = d.nv := rfl
@[simp] theorem Dev.setF_banks (p : Part) (d : Dev) (a lo n v : Nat) : (d.setF p a lo n v).banks = d.banks := rfl
@[simp] theorem Dev.setF_ports (p : Part) (d : Dev) (a lo n v : Nat) : (d.setF p a lo n v).ports = d.ports := rfl
@[simp] theorem Dev.setB_cores (p : Part) (d : Dev) (a i : Nat) (b : Bool) : (d.setB p a i b).cores = d.cores := rfl
@[simp] theorem Dev.setB_ecc (p : Part) (d : Dev) (a i : Nat) (b : Bool) : (d.setB p a i b).ecc = d.ecc := rfl
@[simp] theorem Dev.setB_node (p : Part) (d : Dev) (a i : Nat) (b : Bool) : (d.setB p a i b).node = d.node := rfl
@[simp] theorem Dev.setB_raw (p : Part) (d : Dev) (a i : Nat) (b : Bool) : (d.setB p a i b).raw = d.raw := rfl
@[simp] theorem Dev.setB_led (p : Part) (d : Dev) (a i : Nat) (b : Bool) : (d.setB p a i b).led = d.led := rfl
@[simp] theorem Dev.setB_net (p : Part) (d : Dev) (a i : Nat) (b : Bool) : (d.setB p a i b).net = d.net := rfl
@[simp] theorem Dev.setB_records (p : Part) (d : Dev) (a i : Nat) (b : Bool) : (d.setB p a i b).records = d.records := rfl
@[simp] theorem Dev.setB_storm (p : Part) (d : Dev) (a i : Nat) (b : Bool) : (d.setB p a i b).storm = d.storm := rfl
@[simp] theorem Dev.setB_clkRegs (p : Part) (d : Dev) (a i : Nat) (b : Bool) : (d.setB p a i b).clkRegs = d.clkRegs := rfl
@[simp] theorem Dev.setB_off (p : Part) (d : Dev) (a i : Nat) (b : Bool) : (d.setB p a i b).off = d.off := rfl
@[simp] theorem Dev.setB_stopStep (p : Part) (d : Dev) (a i : Nat) (b : Bool) : (d.setB p a i b).stopStep = d.stopStep := rfl
@[simp] theorem Dev.setB_nv (p : Part) (d : Dev) (a i : Nat) (b : Bool) : (d.setB p a i b).nv = d.nv := rfl
@[simp] theorem Dev.setB_banks (p : Part) (d : Dev) (a i : Nat) (b : Bool) : (d.setB p a i b).banks = d.banks := rfl
@[simp] theorem Dev.setB_ports (p : Part) (d : Dev) (a i : Nat) (b : Bool) : (d.setB p a i b).ports = d.ports := rfl
@[simp] theorem Dev.count_cores (p : Part) (d : Dev) (a n : Nat) : (d.count p a n).cores = d.cores := rfl
@[simp] theorem Dev.count_ecc (p : Part) (d : Dev) (a n : Nat) : (d.count p a n).ecc = d.ecc := rfl
@[simp] theorem Dev.count_node (p : Part) (d : Dev) (a n : Nat) : (d.count p a n).node = d.node := rfl
@[simp] theorem Dev.count_raw (p : Part) (d : Dev) (a n : Nat) : (d.count p a n).raw = d.raw := rfl
@[simp] theorem Dev.count_led (p : Part) (d : Dev) (a n : Nat) : (d.count p a n).led = d.led := rfl
@[simp] theorem Dev.count_net (p : Part) (d : Dev) (a n : Nat) : (d.count p a n).net = d.net := rfl
@[simp] theorem Dev.count_records (p : Part) (d : Dev) (a n : Nat) : (d.count p a n).records = d.records := rfl
@[simp] theorem Dev.count_storm (p : Part) (d : Dev) (a n : Nat) : (d.count p a n).storm = d.storm := rfl
@[simp] theorem Dev.count_clkRegs (p : Part) (d : Dev) (a n : Nat) : (d.count p a n).clkRegs = d.clkRegs := rfl
@[simp] theorem Dev.count_off (p : Part) (d : Dev) (a n : Nat) : (d.count p a n).off = d.off := rfl
@[simp] theorem Dev.count_stopStep (p : Part) (d : Dev) (a n : Nat) : (d.count p a n).stopStep = d.stopStep := rfl
@[simp] theorem Dev.count_nv (p : Part) (d : Dev) (a n : Nat) : (d.count p a n).nv = d.nv := rfl
@[simp] theorem Dev.count_banks (p : Part) (d : Dev) (a n : Nat) : (d.count p a n).banks = d.banks := rfl
@[simp] theorem Dev.count_ports (p : Part) (d : Dev) (a n : Nat) : (d.count p a n).ports = d.ports := rfl
@[simp] theorem Dev.modCore_ctl (d : Dev) (c : CoreId) (f : CoreSt → CoreSt) : (d.modCore c f).ctl = d.ctl := rfl
@[simp] theorem Dev.modCore_ecc (d : Dev) (c : CoreId) (f : CoreSt → CoreSt) : (d.modCore c f).ecc = d.ecc := rfl
@[simp] theorem Dev.modCore_node (d : Dev) (c : CoreId) (f : CoreSt → CoreSt) : (d.modCore c f).node = d.node := rfl
@[simp] theorem Dev.modCore_raw (d : Dev) (c : CoreId) (f : CoreSt → CoreSt) : (d.modCore c f).raw = d.raw := rfl
@[simp] theorem Dev.modCore_led (d : Dev) (c : CoreId) (f : CoreSt → CoreSt) : (d.modCore c f).led = d.led := rfl
@[simp] theorem Dev.modCore_net (d : Dev) (c : CoreId) (f : CoreSt → CoreSt) : (d.modCore c f).net = d.net := rfl
@[simp] theorem Dev.modCore_records (d : Dev) (c : CoreId) (f : CoreSt → CoreSt) : (d.modCore c f).records = d.records := rfl
@[simp] theorem Dev.modCore_storm (d : Dev) (c : CoreId) (f : CoreSt → CoreSt) : (d.modCore c f).storm = d.storm := rfl
@[simp] theorem Dev.modCore_clkRegs (d : Dev) (c : CoreId) (f : CoreSt → CoreSt) : (d.modCore c f).clkRegs = d.clkRegs := rfl
@[simp] theorem Dev.modCore_off (d : Dev) (c : CoreId) (f : CoreSt → CoreSt) : (d.modCore c f).off = d.off := rfl
@[simp] theorem Dev.modCore_stopStep (d : Dev) (c : CoreId) (f : CoreSt → CoreSt) : (d.modCore c f).stopStep = d.stopStep := rfl
@[simp] theorem Dev.modCore_nv (d : Dev) (c : CoreId) (f : CoreSt → CoreSt) : (d.modCore c f).nv = d.nv := rfl
@[simp] theorem Dev.modCore_banks (d : Dev) (c : CoreId) (f : CoreSt → CoreSt) : (d.modCore c f).banks = d.banks := rfl
@[simp] theorem Dev.modCore_ports (d : Dev) (c : CoreId) (f : CoreSt → CoreSt) : (d.modCore c f).ports = d.ports := rfl
@[simp] theorem Dev.send_ctl (d : Dev) (m : Msg) : (d.send m).ctl = d.ctl := rfl
@[simp] theorem Dev.send_cores (d : Dev) (m : Msg) : (d.send m).cores = d.cores := rfl
@[simp] theorem Dev.send_ecc (d : Dev) (m : Msg) : (d.send m).ecc = d.ecc := rfl
@[simp] theorem Dev.send_node (d : Dev) (m : Msg) : (d.send m).node = d.node := rfl
@[simp] theorem Dev.send_raw (d : Dev) (m : Msg) : (d.send m).raw = d.raw := rfl
@[simp] theorem Dev.send_led (d : Dev) (m : Msg) : (d.send m).led = d.led := rfl
@[simp] theorem Dev.send_records (d : Dev) (m : Msg) : (d.send m).records = d.records := rfl
@[simp] theorem Dev.send_storm (d : Dev) (m : Msg) : (d.send m).storm = d.storm := rfl
@[simp] theorem Dev.send_clkRegs (d : Dev) (m : Msg) : (d.send m).clkRegs = d.clkRegs := rfl
@[simp] theorem Dev.send_off (d : Dev) (m : Msg) : (d.send m).off = d.off := rfl
@[simp] theorem Dev.send_stopStep (d : Dev) (m : Msg) : (d.send m).stopStep = d.stopStep := rfl
@[simp] theorem Dev.send_nv (d : Dev) (m : Msg) : (d.send m).nv = d.nv := rfl
@[simp] theorem Dev.send_banks (d : Dev) (m : Msg) : (d.send m).banks = d.banks := rfl
@[simp] theorem Dev.send_ports (d : Dev) (m : Msg) : (d.send m).ports = d.ports := rfl
@[simp] theorem Dev.core_put (p : Part) (d : Dev) (a : Nat) (v : W64) (c : CoreId) : (d.put p a v).core c = d.core c := rfl
@[simp] theorem Dev.core_setF (p : Part) (d : Dev) (a lo n v : Nat) (c : CoreId) : (d.setF p a lo n v).core c = d.core c := rfl
@[simp] theorem Dev.core_setB (p : Part) (d : Dev) (a i : Nat) (b : Bool) (c : CoreId) : (d.setB p a i b).core c = d.core c := rfl
@[simp] theorem Dev.core_count (p : Part) (d : Dev) (a n : Nat) (c : CoreId) : (d.count p a n).core c = d.core c := rfl
@[simp] theorem Dev.core_send (d : Dev) (m : Msg) (c : CoreId) : (d.send m).core c = d.core c := rfl
@[simp] theorem Dev.get_modCore (p : Part) (d : Dev) (c : CoreId) (f : CoreSt → CoreSt) (a : Nat) :
    (d.modCore c f).get p a = d.get p a := rfl
@[simp] theorem Dev.get_send (p : Part) (d : Dev) (m : Msg) (a : Nat) : (d.send m).get p a = d.get p a := rfl

/-! ### Register files -/

/-- A scalar register after a write: s0 still reads zero (R54). -/
theorem CoreSt.getS_setS (k : CoreSt) (r q : BitVec 6) (x : W32) :
    (k.setS r x).getS q = if q = 0 then 0 else if q = r then x else k.getS q := by
  unfold CoreSt.getS CoreSt.setS
  by_cases hq : q = 0
  · rw [if_pos hq, if_pos hq]
  · rw [if_neg hq, if_neg hq]
    by_cases hr : r = 0
    · have : q ≠ r := fun e => hq (e.trans hr)
      rw [if_pos hr, if_neg this, if_neg hq]
    · rw [if_neg hr]
      by_cases h : q = r
      · rw [if_pos h, h]; exact smGet_set_same 0 k.s _ x
      · rw [if_neg h, if_neg hq]
        exact smGet_set_ne 0 0 k.s x fun e => h (BitVec.eq_of_toNat_eq e)
@[simp] theorem CoreSt.getS_zero (k : CoreSt) : k.getS 0 = 0 := rfl
@[simp] theorem CoreSt.take_step (k : CoreSt) : k.take.step = false := rfl
@[simp] theorem CoreSt.take_s (k : CoreSt) : k.take.s = k.s := rfl
@[simp] theorem CoreSt.take_pc (k : CoreSt) : k.take.pc = k.pc := rfl
@[simp] theorem CoreSt.take_st (k : CoreSt) : k.take.st = k.st := rfl
@[simp] theorem CoreSt.getS_take (k : CoreSt) (r : BitVec 6) : k.take.getS r = k.getS r := rfl

end Sys2Proof.Machine
end

