-- ==== Sys2Proof/Laws/Core.lean ====
section
/-! SUPPORT. What issuing and retiring an instruction does, said once. -/

namespace Sys2Proof.Machine

theorem ready_take {p : Part} {d : Dev} {c : CoreId} {ss : List (BitVec 6)} {vs : List (BitVec 5)}
    (_h : ready p d c ss vs = true) : (d.modCore c CoreSt.take).core c = (d.core c).take := by simp
/-- An instruction that may issue runs on the core with its STEP taken. -/
theorem issue_ready {c : CoreId} {ss : List (BitVec 6)} {vs : List (BitVec 5)} {s : State}
    (h : ready s.part s.dev c ss vs = true) (f : Part → List Host.Cell → Dev → Dev) :
    issue c ss vs s f = .next (State.mk s.part s.mem (f s.part s.mem (s.dev.modCore c CoreSt.take)) s.pending) := by
  simp [issue, State.upd, h]
theorem issueW_ready {c : CoreId} {ss : List (BitVec 6)} {vs : List (BitVec 5)} {s : State}
    (h : ready s.part s.dev c ss vs = true) (f : Part → List Host.Cell → Dev → Dev × Wr) :
    issueW c ss vs s f = .next (State.mk s.part (applyWr s.mem (f s.part s.mem (s.dev.modCore c CoreSt.take)).2)
      (f s.part s.mem (s.dev.modCore c CoreSt.take)).1 s.pending) := by
  simp [issueW, State.updW, h]
/-- Retirement of an instruction that has changed its core's own state by `g`. -/
theorem retiresTo_of (s : State) (c : CoreId) (g : CoreSt → CoreSt) (pc : BitVec 22) (k : CoreSt)
    (hk : { g (s.k c).take with pc := pc } = { k with pc := pc, step := false }) :
    RetiresTo s (State.mk s.part s.mem (((s.dev.modCore c CoreSt.take).modCore c g).retireTo s.part c pc) s.pending) c pc
      k := by
  refine ⟨?_, ?_, ⟨fun e he => ?_, fun a ha => ?_, rfl⟩, ⟨rfl, rfl⟩, fun a => rfl⟩
  · simp only [State.k, Dev.retireTo, Dev.core_count, Dev.core_modCore_same] at *
    rw [← hk]
  · simp [State.reg, Dev.retireTo]
  · simp [State.k, Dev.retireTo, Dev.core_modCore_ne _ _ he]
  · simp only [List.mem_singleton] at ha
    simp [State.reg, Dev.retireTo, Dev.get_count_ne _ _ _ ha]
/-- Retirement of an instruction that changes nothing of its core but the program counter. -/
theorem retiresTo_plain (s : State) (c : CoreId) (pc : BitVec 22) :
    RetiresTo s (State.mk s.part s.mem ((s.dev.modCore c CoreSt.take).retireTo s.part c pc) s.pending) c pc (s.k c) := by
  refine ⟨?_, ?_, ⟨fun e he => ?_, fun a ha => ?_, rfl⟩, ⟨rfl, rfl⟩, fun a => rfl⟩
  · simp only [State.k, Dev.retireTo, Dev.core_count, Dev.core_modCore_same]
    rfl
  · simp [State.reg, Dev.retireTo]
  · simp [State.k, Dev.retireTo, Dev.core_modCore_ne _ _ he]
  · simp only [List.mem_singleton] at ha
    simp [State.reg, Dev.retireTo, Dev.get_count_ne _ _ _ ha]

theorem CoreSt.setS_take (k : CoreSt) (r : BitVec 6) (x : W32) : k.take.setS r x = (k.setS r x).take := by
  unfold CoreSt.setS
  split <;> rfl
theorem CoreSt.setS_pc (k : CoreSt) (r : BitVec 6) (x : W32) : (k.setS r x).pc = k.pc := by
  unfold CoreSt.setS
  split <;> rfl
/-- Retirement with a scalar result. -/
theorem retiresS_to (s : State) (c : CoreId) (rd : BitVec 6) (x : W32) (pc : BitVec 22) :
    RetiresTo s (State.mk s.part s.mem (((s.dev.modCore c CoreSt.take).modCore c fun k => k.setS rd x).retireTo s.part c pc)
      s.pending) c pc ((s.k c).setS rd x) :=
  retiresTo_of s c _ pc _ (by simp only [CoreSt.setS_take]; rfl)
theorem retiresS (s : State) (c : CoreId) (rd : BitVec 6) (x : W32) :
    Retires s (State.mk s.part s.mem ((s.dev.modCore c CoreSt.take).retireS s.part c rd x) s.pending) c
      ((s.k c).setS rd x) := by
  have h := retiresS_to s c rd x ((s.k c).pc + 4)
  unfold Dev.retireS Dev.retire
  rw [Dev.core_modCore_same, CoreSt.setS_pc, Dev.core_modCore_same]
  exact h
theorem retires_plain (s : State) (c : CoreId) :
    Retires s (State.mk s.part s.mem ((s.dev.modCore c CoreSt.take).retire s.part c) s.pending) c (s.k c) := by
  have h := retiresTo_plain s c ((s.k c).pc + 4)
  unfold Dev.retire
  rw [Dev.core_modCore_same]
  exact h

end Sys2Proof.Machine
end

