-- ==== Sys2Proof/Laws/Exec.lean ====
section
/-! SUPPORT. Which meaning each command has: one equation per constructor, so that no proof unfolds exec. -/

namespace Sys2Proof.Machine

theorem exec_add (s : State) (c : CoreId) (rd rs1 rs2 : BitVec 6) : exec (.add c rd rs1 rs2) s = execAdd c rd rs1 rs2 s := rfl
theorem exec_sub (s : State) (c : CoreId) (rd rs1 rs2 : BitVec 6) : exec (.sub c rd rs1 rs2) s = execSub c rd rs1 rs2 s := rfl
theorem exec_and (s : State) (c : CoreId) (rd rs1 rs2 : BitVec 6) : exec (.and c rd rs1 rs2) s = execAnd c rd rs1 rs2 s := rfl
theorem exec_or (s : State) (c : CoreId) (rd rs1 rs2 : BitVec 6) : exec (.or c rd rs1 rs2) s = execOr c rd rs1 rs2 s := rfl
theorem exec_xor (s : State) (c : CoreId) (rd rs1 rs2 : BitVec 6) : exec (.xor c rd rs1 rs2) s = execXor c rd rs1 rs2 s := rfl
theorem exec_sll (s : State) (c : CoreId) (rd rs1 rs2 : BitVec 6) : exec (.sll c rd rs1 rs2) s = execSll c rd rs1 rs2 s := rfl
theorem exec_srl (s : State) (c : CoreId) (rd rs1 rs2 : BitVec 6) : exec (.srl c rd rs1 rs2) s = execSrl c rd rs1 rs2 s := rfl
theorem exec_sra (s : State) (c : CoreId) (rd rs1 rs2 : BitVec 6) : exec (.sra c rd rs1 rs2) s = execSra c rd rs1 rs2 s := rfl
theorem exec_slt (s : State) (c : CoreId) (rd rs1 rs2 : BitVec 6) : exec (.slt c rd rs1 rs2) s = execSlt c rd rs1 rs2 s := rfl
theorem exec_sltu (s : State) (c : CoreId) (rd rs1 rs2 : BitVec 6) : exec (.sltu c rd rs1 rs2) s = execSltu c rd rs1 rs2 s := rfl
theorem exec_mul (s : State) (c : CoreId) (rd rs1 rs2 : BitVec 6) : exec (.mul c rd rs1 rs2) s = execMul c rd rs1 rs2 s := rfl
theorem exec_mulh (s : State) (c : CoreId) (rd rs1 rs2 : BitVec 6) : exec (.mulh c rd rs1 rs2) s = execMulh c rd rs1 rs2 s := rfl
theorem exec_mulhu (s : State) (c : CoreId) (rd rs1 rs2 : BitVec 6) : exec (.mulhu c rd rs1 rs2) s = execMulhu c rd rs1 rs2 s := rfl
theorem exec_min (s : State) (c : CoreId) (rd rs1 rs2 : BitVec 6) : exec (.min c rd rs1 rs2) s = execMin c rd rs1 rs2 s := rfl
theorem exec_max (s : State) (c : CoreId) (rd rs1 rs2 : BitVec 6) : exec (.max c rd rs1 rs2) s = execMax c rd rs1 rs2 s := rfl
theorem exec_minu (s : State) (c : CoreId) (rd rs1 rs2 : BitVec 6) : exec (.minu c rd rs1 rs2) s = execMinu c rd rs1 rs2 s := rfl
theorem exec_maxu (s : State) (c : CoreId) (rd rs1 rs2 : BitVec 6) : exec (.maxu c rd rs1 rs2) s = execMaxu c rd rs1 rs2 s := rfl
theorem exec_clz (s : State) (c : CoreId) (rd rs1 : BitVec 6) : exec (.clz c rd rs1) s = execClz c rd rs1 s := rfl
theorem exec_popc (s : State) (c : CoreId) (rd rs1 : BitVec 6) : exec (.popc c rd rs1) s = execPopc c rd rs1 s := rfl
theorem exec_addi (s : State) (c : CoreId) (rd rs1 : BitVec 6) (imm : BitVec 12) : exec (.addi c rd rs1 imm) s = execAddi c rd rs1 imm s := rfl
theorem exec_andi (s : State) (c : CoreId) (rd rs1 : BitVec 6) (imm : BitVec 12) : exec (.andi c rd rs1 imm) s = execAndi c rd rs1 imm s := rfl
theorem exec_ori (s : State) (c : CoreId) (rd rs1 : BitVec 6) (imm : BitVec 12) : exec (.ori c rd rs1 imm) s = execOri c rd rs1 imm s := rfl
theorem exec_xori (s : State) (c : CoreId) (rd rs1 : BitVec 6) (imm : BitVec 12) : exec (.xori c rd rs1 imm) s = execXori c rd rs1 imm s := rfl
theorem exec_slli (s : State) (c : CoreId) (rd rs1 : BitVec 6) (sh : BitVec 5) : exec (.slli c rd rs1 sh) s = execSlli c rd rs1 sh s := rfl
theorem exec_srli (s : State) (c : CoreId) (rd rs1 : BitVec 6) (sh : BitVec 5) : exec (.srli c rd rs1 sh) s = execSrli c rd rs1 sh s := rfl
theorem exec_srai (s : State) (c : CoreId) (rd rs1 : BitVec 6) (sh : BitVec 5) : exec (.srai c rd rs1 sh) s = execSrai c rd rs1 sh s := rfl
theorem exec_slti (s : State) (c : CoreId) (rd rs1 : BitVec 6) (imm : BitVec 12) : exec (.slti c rd rs1 imm) s = execSlti c rd rs1 imm s := rfl
theorem exec_sltiu (s : State) (c : CoreId) (rd rs1 : BitVec 6) (imm : BitVec 12) : exec (.sltiu c rd rs1 imm) s = execSltiu c rd rs1 imm s := rfl
theorem exec_lui (s : State) (c : CoreId) (rd : BitVec 6) (imm : BitVec 22) : exec (.lui c rd imm) s = execLui c rd imm s := rfl
theorem exec_beq (s : State) (c : CoreId) (rs1 rs2 : BitVec 6) (off : BitVec 12) : exec (.beq c rs1 rs2 off) s = execBeq c rs1 rs2 off s := rfl
theorem exec_bne (s : State) (c : CoreId) (rs1 rs2 : BitVec 6) (off : BitVec 12) : exec (.bne c rs1 rs2 off) s = execBne c rs1 rs2 off s := rfl
theorem exec_blt (s : State) (c : CoreId) (rs1 rs2 : BitVec 6) (off : BitVec 12) : exec (.blt c rs1 rs2 off) s = execBlt c rs1 rs2 off s := rfl
theorem exec_bge (s : State) (c : CoreId) (rs1 rs2 : BitVec 6) (off : BitVec 12) : exec (.bge c rs1 rs2 off) s = execBge c rs1 rs2 off s := rfl
theorem exec_bltu (s : State) (c : CoreId) (rs1 rs2 : BitVec 6) (off : BitVec 12) : exec (.bltu c rs1 rs2 off) s = execBltu c rs1 rs2 off s := rfl
theorem exec_bgeu (s : State) (c : CoreId) (rs1 rs2 : BitVec 6) (off : BitVec 12) : exec (.bgeu c rs1 rs2 off) s = execBgeu c rs1 rs2 off s := rfl
theorem exec_jal (s : State) (c : CoreId) (rd : BitVec 6) (imm : BitVec 20) : exec (.jal c rd imm) s = execJal c rd imm s := rfl
theorem exec_jalr (s : State) (c : CoreId) (rd rs : BitVec 6) (imm : BitVec 14) : exec (.jalr c rd rs imm) s = execJalr c rd rs imm s := rfl
theorem exec_lb (s : State) (c : CoreId) (rd rs1 : BitVec 6) (imm : BitVec 12) : exec (.lb c rd rs1 imm) s = execLb c rd rs1 imm s := rfl
theorem exec_lbu (s : State) (c : CoreId) (rd rs1 : BitVec 6) (imm : BitVec 12) : exec (.lbu c rd rs1 imm) s = execLbu c rd rs1 imm s := rfl
theorem exec_lh (s : State) (c : CoreId) (rd rs1 : BitVec 6) (imm : BitVec 12) : exec (.lh c rd rs1 imm) s = execLh c rd rs1 imm s := rfl
theorem exec_lhu (s : State) (c : CoreId) (rd rs1 : BitVec 6) (imm : BitVec 12) : exec (.lhu c rd rs1 imm) s = execLhu c rd rs1 imm s := rfl
theorem exec_lw (s : State) (c : CoreId) (rd rs1 : BitVec 6) (imm : BitVec 12) : exec (.lw c rd rs1 imm) s = execLw c rd rs1 imm s := rfl
theorem exec_sb (s : State) (c : CoreId) (rd rs1 : BitVec 6) (imm : BitVec 12) : exec (.sb c rd rs1 imm) s = execSb c rd rs1 imm s := rfl
theorem exec_sh (s : State) (c : CoreId) (rd rs1 : BitVec 6) (imm : BitVec 12) : exec (.sh c rd rs1 imm) s = execSh c rd rs1 imm s := rfl
theorem exec_sw (s : State) (c : CoreId) (rd rs1 : BitVec 6) (imm : BitVec 12) : exec (.sw c rd rs1 imm) s = execSw c rd rs1 imm s := rfl
theorem exec_vld (s : State) (c : CoreId) (v : BitVec 5) (r : BitVec 6) (imm : BitVec 13) : exec (.vld c v r imm) s = execVld c v r imm s := rfl
theorem exec_vst (s : State) (c : CoreId) (v : BitVec 5) (r : BitVec 6) (imm : BitVec 13) : exec (.vst c v r imm) s = execVst c v r imm s := rfl
theorem exec_vldb (s : State) (c : CoreId) (v : BitVec 5) (r : BitVec 6) (imm : BitVec 13) : exec (.vldb c v r imm) s = execVldb c v r imm s := rfl
theorem exec_vmvs (s : State) (c : CoreId) (v : BitVec 5) (r : BitVec 6) (lane : BitVec 6) : exec (.vmvs c v r lane) s = execVmvs c v r lane s := rfl
theorem exec_vmvv (s : State) (c : CoreId) (v : BitVec 5) (r : BitVec 6) (lane : BitVec 6) : exec (.vmvv c v r lane) s = execVmvv c v r lane s := rfl
theorem exec_vbcast (s : State) (c : CoreId) (v : BitVec 5) (r : BitVec 6) : exec (.vbcast c v r) s = execVbcast c v r s := rfl
theorem exec_vfma (s : State) (c : CoreId) (ty : FMode) (vd vs1 vs2 vs3 : BitVec 5) : exec (.vfma c ty vd vs1 vs2 vs3) s = execVfma c ty vd vs1 vs2 vs3 s := rfl
theorem exec_vfms (s : State) (c : CoreId) (ty : FMode) (vd vs1 vs2 vs3 : BitVec 5) : exec (.vfms c ty vd vs1 vs2 vs3) s = execVfms c ty vd vs1 vs2 vs3 s := rfl
theorem exec_vfnma (s : State) (c : CoreId) (ty : FMode) (vd vs1 vs2 vs3 : BitVec 5) : exec (.vfnma c ty vd vs1 vs2 vs3) s = execVfnma c ty vd vs1 vs2 vs3 s := rfl
theorem exec_vadd (s : State) (c : CoreId) (ty : VMode) (vd vs1 vs2 : BitVec 5) : exec (.vadd c ty vd vs1 vs2) s = execVadd c ty vd vs1 vs2 s := rfl
theorem exec_vsub (s : State) (c : CoreId) (ty : VMode) (vd vs1 vs2 : BitVec 5) : exec (.vsub c ty vd vs1 vs2) s = execVsub c ty vd vs1 vs2 s := rfl
theorem exec_vmul (s : State) (c : CoreId) (ty : VMode) (vd vs1 vs2 : BitVec 5) : exec (.vmul c ty vd vs1 vs2) s = execVmul c ty vd vs1 vs2 s := rfl
theorem exec_vmin (s : State) (c : CoreId) (ty : VMode) (vd vs1 vs2 : BitVec 5) : exec (.vmin c ty vd vs1 vs2) s = execVmin c ty vd vs1 vs2 s := rfl
theorem exec_vmax (s : State) (c : CoreId) (ty : VMode) (vd vs1 vs2 : BitVec 5) : exec (.vmax c ty vd vs1 vs2) s = execVmax c ty vd vs1 vs2 s := rfl
theorem exec_vceq (s : State) (c : CoreId) (ty : VMode) (vd vs1 vs2 : BitVec 5) : exec (.vceq c ty vd vs1 vs2) s = execVceq c ty vd vs1 vs2 s := rfl
theorem exec_vclt (s : State) (c : CoreId) (ty : VMode) (vd vs1 vs2 : BitVec 5) : exec (.vclt c ty vd vs1 vs2) s = execVclt c ty vd vs1 vs2 s := rfl
theorem exec_vcle (s : State) (c : CoreId) (ty : VMode) (vd vs1 vs2 : BitVec 5) : exec (.vcle c ty vd vs1 vs2) s = execVcle c ty vd vs1 vs2 s := rfl
theorem exec_vsel (s : State) (c : CoreId) (ty : VMode) (vd vs1 vs2 vs3 : BitVec 5) : exec (.vsel c ty vd vs1 vs2 vs3) s = execVsel c ty vd vs1 vs2 vs3 s := rfl
theorem exec_vabs (s : State) (c : CoreId) (ty : VMode) (vd vs1 : BitVec 5) : exec (.vabs c ty vd vs1) s = execVabs c ty vd vs1 s := rfl
theorem exec_vneg (s : State) (c : CoreId) (ty : VMode) (vd vs1 : BitVec 5) : exec (.vneg c ty vd vs1) s = execVneg c ty vd vs1 s := rfl
theorem exec_vexp (s : State) (c : CoreId) (vd vs1 : BitVec 5) : exec (.vexp c vd vs1) s = execVexp c vd vs1 s := rfl
theorem exec_vrcp (s : State) (c : CoreId) (vd vs1 : BitVec 5) : exec (.vrcp c vd vs1) s = execVrcp c vd vs1 s := rfl
theorem exec_vrsqrt (s : State) (c : CoreId) (vd vs1 : BitVec 5) : exec (.vrsqrt c vd vs1) s = execVrsqrt c vd vs1 s := rfl
theorem exec_vtanh (s : State) (c : CoreId) (vd vs1 : BitVec 5) : exec (.vtanh c vd vs1) s = execVtanh c vd vs1 s := rfl
theorem exec_vrsum (s : State) (c : CoreId) (vd vs1 : BitVec 5) : exec (.vrsum c vd vs1) s = execVrsum c vd vs1 s := rfl
theorem exec_vrmax (s : State) (c : CoreId) (vd vs1 : BitVec 5) : exec (.vrmax c vd vs1) s = execVrmax c vd vs1 s := rfl
theorem exec_vrmin (s : State) (c : CoreId) (vd vs1 : BitVec 5) : exec (.vrmin c vd vs1) s = execVrmin c vd vs1 s := rfl
theorem exec_vperm (s : State) (c : CoreId) (vd vs1 vs2 : BitVec 5) : exec (.vperm c vd vs1 vs2) s = execVperm c vd vs1 vs2 s := rfl
theorem exec_vperm2 (s : State) (c : CoreId) (vd vs1 vs2 aux : BitVec 5) : exec (.vperm2 c vd vs1 vs2 aux) s = execVperm2 c vd vs1 vs2 aux s := rfl
theorem exec_vsort (s : State) (c : CoreId) (vd vs1 : BitVec 5) (intKeys descending : Bool) : exec (.vsort c vd vs1 intKeys descending) s = execVsort c vd vs1 intKeys descending s := rfl
theorem exec_vcvtt (s : State) (c : CoreId) (vd vs1 : BitVec 5) (fmt : BitVec 4) (rm : Rm) (ovc : Ovc) : exec (.vcvtt c vd vs1 fmt rm ovc) s = execVcvtt c vd vs1 fmt rm ovc s := rfl
theorem exec_vcvtf (s : State) (c : CoreId) (vd vs1 vs2 : BitVec 5) (fmt : BitVec 4) : exec (.vcvtf c vd vs1 vs2 fmt) s = execVcvtf c vd vs1 vs2 fmt s := rfl
theorem exec_vcvti (s : State) (c : CoreId) (vd vs1 : BitVec 5) (rm : Rm) : exec (.vcvti c vd vs1 rm) s = execVcvti c vd vs1 rm s := rfl
theorem exec_vcvtif (s : State) (c : CoreId) (vd vs1 : BitVec 5) (rm : Rm) : exec (.vcvtif c vd vs1 rm) s = execVcvtif c vd vs1 rm s := rfl
theorem exec_vand (s : State) (c : CoreId) (vd vs1 vs2 : BitVec 5) : exec (.vand c vd vs1 vs2) s = execVand c vd vs1 vs2 s := rfl
theorem exec_vor (s : State) (c : CoreId) (vd vs1 vs2 : BitVec 5) : exec (.vor c vd vs1 vs2) s = execVor c vd vs1 vs2 s := rfl
theorem exec_vxor (s : State) (c : CoreId) (vd vs1 vs2 : BitVec 5) : exec (.vxor c vd vs1 vs2) s = execVxor c vd vs1 vs2 s := rfl
theorem exec_vnot (s : State) (c : CoreId) (vd vs1 : BitVec 5) : exec (.vnot c vd vs1) s = execVnot c vd vs1 s := rfl
theorem exec_vshl (s : State) (c : CoreId) (vd vs1 vs2 : BitVec 5) : exec (.vshl c vd vs1 vs2) s = execVshl c vd vs1 vs2 s := rfl
theorem exec_vshr (s : State) (c : CoreId) (vd vs1 vs2 : BitVec 5) : exec (.vshr c vd vs1 vs2) s = execVshr c vd vs1 vs2 s := rfl
theorem exec_vsra (s : State) (c : CoreId) (vd vs1 vs2 : BitVec 5) : exec (.vsra c vd vs1 vs2) s = execVsra c vd vs1 vs2 s := rfl
theorem exec_viota (s : State) (c : CoreId) (vd : BitVec 5) : exec (.viota c vd) s = execViota c vd s := rfl
theorem exec_vmov (s : State) (c : CoreId) (vd vs1 : BitVec 5) : exec (.vmov c vd vs1) s = execVmov c vd vs1 s := rfl
theorem exec_mxLdw (s : State) (c : CoreId) (tb : BitVec 3) : exec (.mxLdw c tb) s = execMxLdw c tb s := rfl
theorem exec_mxMul (s : State) (c : CoreId) (ta : BitVec 3) (arow : BitVec 9) (swap acc : Bool) : exec (.mxMul c ta arow swap acc) s = execMxMul c ta arow swap acc s := rfl
theorem exec_mxOmul (s : State) (c : CoreId) (ta tb : BitVec 3) (arow : BitVec 9) (acc : Bool) : exec (.mxOmul c ta tb arow acc) s = execMxOmul c ta tb arow acc s := rfl
theorem exec_mxSt (s : State) (c : CoreId) (ta : BitVec 3) (arow : BitVec 9) (rm : Rm) (ovc : Ovc) : exec (.mxSt c ta arow rm ovc) s = execMxSt c ta arow rm ovc s := rfl
theorem exec_mxRdv (s : State) (c : CoreId) (v : BitVec 5) (arow : BitVec 9) : exec (.mxRdv c v arow) s = execMxRdv c v arow s := rfl
theorem exec_mxWrv (s : State) (c : CoreId) (v : BitVec 5) (arow : BitVec 9) : exec (.mxWrv c v arow) s = execMxWrv c v arow s := rfl
theorem exec_tdSetlo (s : State) (c : CoreId) (th : BitVec 3) (sa sb : BitVec 6) : exec (.tdSetlo c th sa sb) s = execTdSetlo c th sa sb s := rfl
theorem exec_tdSethi (s : State) (c : CoreId) (th : BitVec 3) (sa sb : BitVec 6) : exec (.tdSethi c th sa sb) s = execTdSethi c th sa sb s := rfl
theorem exec_tdBase (s : State) (c : CoreId) (th : BitVec 3) (sa : BitVec 6) : exec (.tdBase c th sa) s = execTdBase c th sa s := rfl
theorem exec_tdSbase (s : State) (c : CoreId) (th : BitVec 3) (sa : BitVec 6) : exec (.tdSbase c th sa) s = execTdSbase c th sa s := rfl
theorem exec_tdBadd (s : State) (c : CoreId) (th : BitVec 3) (sa sb : BitVec 6) : exec (.tdBadd c th sa sb) s = execTdBadd c th sa sb s := rfl
theorem exec_lobRdv (s : State) (c : CoreId) (l : BitVec 3) (r : BitVec 6) (upper : Bool) : exec (.lobRdv c l r upper) s = execLobRdv c l r upper s := rfl
theorem exec_lobRdp (s : State) (c : CoreId) (l : BitVec 3) (sa : BitVec 6) : exec (.lobRdp c l sa) s = execLobRdp c l sa s := rfl
theorem exec_lobHdr (s : State) (c : CoreId) (l : BitVec 3) (r : BitVec 6) (word : BitVec 2) : exec (.lobHdr c l r word) s = execLobHdr c l r word s := rfl
theorem exec_lobWait (s : State) (c : CoreId) (l : BitVec 3) (whole : Bool) : exec (.lobWait c l whole) s = execLobWait c l whole s := rfl
theorem exec_lobDrop (s : State) (c : CoreId) (l : BitVec 3) : exec (.lobDrop c l) s = execLobDrop c l s := rfl
theorem exec_lobStat (s : State) (c : CoreId) (l : BitVec 3) (r : BitVec 6) : exec (.lobStat c l r) s = execLobStat c l r s := rfl
theorem exec_prtDb (s : State) (c : CoreId) (q : BitVec 4) (ra : BitVec 6) : exec (.prtDb c q ra) s = execPrtDb c q ra s := rfl
theorem exec_prtDbi (s : State) (c : CoreId) (q : BitVec 4) (imm : BitVec 8) : exec (.prtDbi c q imm) s = execPrtDbi c q imm s := rfl
theorem exec_prtHead (s : State) (c : CoreId) (q : BitVec 4) (rd : BitVec 6) : exec (.prtHead c q rd) s = execPrtHead c q rd s := rfl
theorem exec_prtWait (s : State) (c : CoreId) (q : BitVec 4) : exec (.prtWait c q) s = execPrtWait c q s := rfl
theorem exec_prtAtom (s : State) (c : CoreId) (ra : BitVec 6) (op : BitVec 4) : exec (.prtAtom c ra op) s = execPrtAtom c ra op s := rfl
theorem exec_prtAwait (s : State) (c : CoreId) : exec (.prtAwait c) s = execPrtAwait c s := rfl
theorem exec_fence (s : State) (c : CoreId) (mask : BitVec 5) : exec (.fence c mask) s = execFence c mask s := rfl
theorem exec_lwait (s : State) (c : CoreId) (ra : BitVec 6) : exec (.lwait c ra) s = execLwait c ra s := rfl
theorem exec_lrd (s : State) (c : CoreId) (ra : BitVec 6) : exec (.lrd c ra) s = execLrd c ra s := rfl
theorem exec_waitx (s : State) (c : CoreId) (ra rb : BitVec 6) (lobby : BitVec 3) (all : Bool) : exec (.waitx c ra rb lobby all) s = execWaitx c ra rb lobby all s := rfl
theorem exec_bar (s : State) (c : CoreId) (b : BitVec 4) : exec (.bar c b) s = execBar c b s := rfl
theorem exec_nop (s : State) (c : CoreId) : exec (.nop c) s = execNop c s := rfl
theorem exec_halt (s : State) (c : CoreId) : exec (.halt c) s = execHalt c s := rfl
theorem exec_endProgram (s : State) (c : CoreId) : exec (.endProgram c) s = execEndProgram c s := rfl
theorem exec_icinv (s : State) (c : CoreId) : exec (.icinv c) s = execIcinv c s := rfl
theorem exec_seed (s : State) (c : CoreId) (ra : BitVec 6) : exec (.seed c ra) s = execSeed c ra s := rfl
theorem exec_srrd (s : State) (c : CoreId) (ra : BitVec 6) : exec (.srrd c ra) s = execSrrd c ra s := rfl
theorem exec_flgrd (s : State) (c : CoreId) (ra : BitVec 6) (vec clear : Bool) : exec (.flgrd c ra vec clear) s = execFlgrd c ra vec clear s := rfl
theorem exec_cid (s : State) (c : CoreId) (ra : BitVec 6) (sel : BitVec 2) : exec (.cid c ra sel) s = execCid c ra sel s := rfl
theorem exec_waitConditionMet (s : State) (c : CoreId) : exec (.waitConditionMet c) s = execWaitConditionMet c s := rfl
theorem exec_programEndIdle (s : State) (c : CoreId) : exec (.programEndIdle c) s = execProgramEndIdle c s := rfl
theorem exec_coreResetComplete (s : State) (c : CoreId) : exec (.coreResetComplete c) s = execCoreResetComplete c s := rfl
theorem exec_vectorOpComplete (s : State) (c : CoreId) : exec (.vectorOpComplete c) s = execVectorOpComplete c s := rfl
theorem exec_matrixOpStart (s : State) (c : CoreId) (idle : BitVec 32) : exec (.matrixOpStart c idle) s = execMatrixOpStart c idle s := rfl
theorem exec_matrixOpComplete (s : State) (o : StartedOp) : exec (.matrixOpComplete o) s = execMatrixOpComplete o s := rfl
theorem exec_instructionFetch (s : State) (c : CoreId) : exec (.instructionFetch c) s = execInstructionFetch c s := rfl
theorem exec_descriptorStart (s : State) (c : CoreId) (q : BitVec 4) : exec (.descriptorStart c q) s = execDescriptorStart c q s := rfl
theorem exec_porterPacketIssue (s : State) (c : CoreId) (q : BitVec 4) : exec (.porterPacketIssue c q) s = execPorterPacketIssue c q s := rfl
theorem exec_targetAck (s : State) (r : Resp) : exec (.targetAck r) s = execTargetAck r s := rfl
theorem exec_porterWaitReached (s : State) (c : CoreId) (q : BitVec 4) : exec (.porterWaitReached c q) s = execPorterWaitReached c q s := rfl
theorem exec_pushRetry (s : State) (c : CoreId) (q : BitVec 4) : exec (.pushRetry c q) s = execPushRetry c q s := rfl
theorem exec_atomicResult (s : State) (c : CoreId) (tag : BitVec 12) : exec (.atomicResult c tag) s = execAtomicResult c tag s := rfl
theorem exec_coreStart (s : State) (c : CoreId) : exec (.coreStart c) s = execCoreStart c s := rfl
theorem exec_coreHalt (s : State) (c : CoreId) : exec (.coreHalt c) s = execCoreHalt c s := rfl
theorem exec_coreResume (s : State) (c : CoreId) : exec (.coreResume c) s = execCoreResume c s := rfl
theorem exec_coreReset (s : State) (c : CoreId) : exec (.coreReset c) s = execCoreReset c s := rfl
theorem exec_coreStep (s : State) (c : CoreId) : exec (.coreStep c) s = execCoreStep c s := rfl
theorem exec_icInv (s : State) (c : CoreId) : exec (.icInv c) s = execIcInv c s := rfl
theorem exec_qcfgEn (s : State) (c : CoreId) (q : BitVec 4) (en : Bool) : exec (.qcfgEn c q en) s = execQcfgEn c q en s := rfl
theorem exec_qtailWrite (s : State) (c : CoreId) (q : BitVec 4) (tail : BitVec 16) : exec (.qtailWrite c q tail) s = execQtailWrite c q tail s := rfl
theorem exec_registerWrite (s : State) (addr : BitVec 40) (value : W64) (lower upper : Bool) : exec (.registerWrite addr value lower upper) s = execRegisterWrite addr value lower upper s := rfl
theorem exec_read (s : State) (r : Req) : exec (.read r) s = execRead r s := rfl
theorem exec_write (s : State) (r : Req) : exec (.write r) s = execWrite r s := rfl
theorem exec_atomic (s : State) (r : Req) : exec (.atomic r) s = execAtomic r s := rfl
theorem exec_push (s : State) (r : Req) : exec (.push r) s = execPush r s := rfl
theorem exec_cread (s : State) (r : Req) : exec (.cread r) s = execCread r s := rfl
theorem exec_cwrite (s : State) (r : Req) : exec (.cwrite r) s = execCwrite r s := rfl
theorem exec_rdata (s : State) (r : Resp) : exec (.rdata r) s = execRdata r s := rfl
theorem exec_rstat (s : State) (r : Resp) : exec (.rstat r) s = execRstat r s := rfl
theorem exec_lineLands (s : State) (c : CoreId) (l : BitVec 3) (seq : BitVec 16) (line : BitVec 2) : exec (.lineLands c l seq line) s = execLineLands c l seq line s := rfl
theorem exec_lobCfgWrite (s : State) (c : CoreId) (l : BitVec 3) (value : W64) : exec (.lobCfgWrite c l value) s = execLobCfgWrite c l value s := rfl
theorem exec_lobbyDisable (s : State) (c : CoreId) (l : BitVec 3) : exec (.lobbyDisable c l) s = execLobbyDisable c l s := rfl
theorem exec_lobSeqWrite (s : State) (c : CoreId) (l : BitVec 3) (next : BitVec 16) : exec (.lobSeqWrite c l next) s = execLobSeqWrite c l next s := rfl
theorem exec_meshPacket (s : State) (w : BitVec 4) (at' : BitVec 6) (direct : Bool) (flits : BitVec 8) (m : Msg) (err : LinkErr) (seam : SeamUse) : exec (.meshPacket w at' direct flits m err seam) s = execMeshPacket w at' direct flits m err seam s := rfl
theorem exec_combineWindowEnd (s : State) (w bank : BitVec 4) (line : BitVec 18) : exec (.combineWindowEnd w bank line) s = execCombineWindowEnd w bank line s := rfl
theorem exec_combineEn (s : State) (w : BitVec 4) (en : Bool) : exec (.combineEn w en) s = execCombineEn w en s := rfl
theorem exec_controlMessage (s : State) (w : BitVec 4) (at' : BitVec 6) (cls : BitVec 3) (flits : BitVec 4) (move : CtlMove) : exec (.controlMessage w at' cls flits move) s = execControlMessage w at' cls flits move s := rfl
theorem exec_extArrive (s : State) (w b : BitVec 4) (add : BitVec 16) : exec (.extArrive w b add) s = execExtArrive w b add s := rfl
theorem exec_barMaskWrite (s : State) (w b : BitVec 4) (x : BarWrite) : exec (.barMaskWrite w b x) s = execBarMaskWrite w b x s := rfl
theorem exec_fenceReq (s : State) (w : BitVec 4) (core : BitVec 6) (go : Bool) : exec (.fenceReq w core go) s = execFenceReq w core go s := rfl
theorem exec_regionSupplyFault (s : State) (w : BitVec 4) (core : BitVec 6) : exec (.regionSupplyFault w core) s = execRegionSupplyFault w core s := rfl
theorem exec_fenceStart (s : State) (w : BitVec 4) : exec (.fenceStart w) s = execFenceStart w s := rfl
theorem exec_fenceComplete (s : State) (w : BitVec 4) : exec (.fenceComplete w) s = execFenceComplete w s := rfl
theorem exec_feedLine (s : State) (src : Src) (b : BitVec 5) (ch : BitVec 3) (offset : BitVec 16) (data : List Byte) : exec (.feedLine src b ch offset data) s = execFeedLine src b ch offset data s := rfl
theorem exec_bankVector (s : State) (b : BitVec 5) (ch : BitVec 3) : exec (.bankVector b ch) s = execBankVector b ch s := rfl
theorem exec_outputTileSend (s : State) (b : BitVec 5) (ch : BitVec 3) : exec (.outputTileSend b ch) s = execOutputTileSend b ch s := rfl
theorem exec_bankTileRetry (s : State) (b : BitVec 5) (ch : BitVec 3) : exec (.bankTileRetry b ch) s = execBankTileRetry b ch s := rfl
theorem exec_flush (s : State) (b : BitVec 5) (ch : BitVec 3) : exec (.flush b ch) s = execFlush b ch s := rfl
theorem exec_chEn (s : State) (b : BitVec 5) (ch : BitVec 3) (en : Bool) : exec (.chEn b ch en) s = execChEn b ch en s := rfl
theorem exec_pwbLoad (s : State) (b : BitVec 5) : exec (.pwbLoad b) s = execPwbLoad b s := rfl
theorem exec_loadStart (s : State) (b : BitVec 5) : exec (.loadStart b) s = execLoadStart b s := rfl
theorem exec_loadComplete (s : State) (b : BitVec 5) (verified : Bool) : exec (.loadComplete b verified) s = execLoadComplete b verified s := rfl
theorem exec_pwbCal (s : State) (b : BitVec 5) : exec (.pwbCal b) s = execPwbCal b s := rfl
theorem exec_calStart (s : State) (b : BitVec 5) : exec (.calStart b) s = execCalStart b s := rfl
theorem exec_calComplete (s : State) (b : BitVec 5) (trims : List (BitVec 13 × W64)) : exec (.calComplete b trims) s = execCalComplete b trims s := rfl
theorem exec_autoCal (s : State) (b : BitVec 5) : exec (.autoCal b) s = execAutoCal b s := rfl
theorem exec_probeWindow (s : State) (b : BitVec 5) (st : ProbeStats) : exec (.probeWindow b st) s = execProbeWindow b st s := rfl
theorem exec_ringDisturbance (s : State) (r : Ring) : exec (.ringDisturbance r) s = execRingDisturbance r s := rfl
theorem exec_identityCheck (s : State) (r : Ring) (found : RingId) : exec (.identityCheck r found) s = execIdentityCheck r found s := rfl
theorem exec_sweepEnd (s : State) (r : Ring) (found : Option (Fin 3)) : exec (.sweepEnd r found) s = execSweepEnd r found s := rfl
theorem exec_ringVerify (s : State) (r : Ring) (ok : Bool) : exec (.ringVerify r ok) s = execRingVerify r ok s := rfl
theorem exec_stallClear (s : State) (b : BitVec 5) : exec (.stallClear b) s = execStallClear b s := rfl
theorem exec_lanternInputLost (s : State) (b : BitVec 5) : exec (.lanternInputLost b) s = execLanternInputLost b s := rfl
theorem exec_pmonAlarm (s : State) (b : BitVec 5) (stage : Fin 5) (total : BitVec 16) (lines : List (BitVec 16)) (minLine : BitVec 6) : exec (.pmonAlarm b stage total lines minLine) s = execPmonAlarm b stage total lines minLine s := rfl
theorem exec_pwbReset (s : State) (b : BitVec 5) : exec (.pwbReset b) s = execPwbReset b s := rfl
theorem exec_parkComplete (s : State) (b : BitVec 5) : exec (.parkComplete b) s = execParkComplete b s := rfl
theorem exec_bankUnpark (s : State) (b : BitVec 5) : exec (.bankUnpark b) s = execBankUnpark b s := rfl
theorem exec_trimWrite (s : State) (addr : BitVec 40) (value : W64) : exec (.trimWrite addr value) s = execTrimWrite addr value s := rfl
theorem exec_trimSlewStep (s : State) (addr : BitVec 40) : exec (.trimSlewStep addr) s = execTrimSlewStep addr s := rfl
theorem exec_slot (s : State) : exec (.slot) s = execSlot s := rfl
theorem exec_latticePacket (s : State) (plane : Bool) (p : LatPkt) (got : List Byte) : exec (.latticePacket plane p got) s = execLatticePacket plane p got s := rfl
theorem exec_latticeRetransmit (s : State) (src dst : Fin 25) (nak : Bool) : exec (.latticeRetransmit src dst nak) s = execLatticeRetransmit src dst nak s := rfl
theorem exec_planeUnhealthy (s : State) (e : Fin 25) (plane : Bool) (cause : BitVec 4) : exec (.planeUnhealthy e plane cause) s = execPlaneUnhealthy e plane cause s := rfl
theorem exec_planeHealthy (s : State) (e : Fin 25) (plane : Bool) : exec (.planeHealthy e plane) s = execPlaneHealthy e plane s := rfl
theorem exec_switchOver (s : State) (e : Fin 25) (gap : BitVec 5) : exec (.switchOver e gap) s = execSwitchOver e gap s := rfl
theorem exec_switchNotice (s : State) (at' e : Fin 25) (plane : Bool) (fallback : Bool) (strobes : Strobes) : exec (.switchNotice at' e plane fallback strobes) s = execSwitchNotice at' e plane fallback strobes s := rfl
theorem exec_latticeProbe (s : State) (src dst : Fin 25) (ok : Bool) : exec (.latticeProbe src dst ok) s = execLatticeProbe src dst ok s := rfl
theorem exec_fallBack (s : State) (e : Fin 25) : exec (.fallBack e) s = execFallBack e s := rfl
theorem exec_latForce (s : State) (e : Fin 25) (plane : Bool) : exec (.latForce e plane) s = execLatForce e plane s := rfl
theorem exec_latReturn (s : State) (e : Fin 25) : exec (.latReturn e) s = execLatReturn e s := rfl
theorem exec_latResume (s : State) (e : Fin 25) : exec (.latResume e) s = execLatResume e s := rfl
theorem exec_frame (s : State) (site : BitVec 5) (ch0 ch1 ch2 : BitVec 128) (m : Msg) : exec (.frame site ch0 ch1 ch2 m) s = execFrame site ch0 ch1 ch2 m s := rfl
theorem exec_flitRetry (s : State) (site : BitVec 5) (lane : LaneId) : exec (.flitRetry site lane) s = execFlitRetry site lane s := rfl
theorem exec_laneFail (s : State) (site : BitVec 5) (g : BitVec 10) (goodLanes : LanesLeft) : exec (.laneFail site g goodLanes) s = execLaneFail site g goodLanes s := rfl
theorem exec_memoryAccess (s : State) (ch : ChanId) (seen : MemEvent) : exec (.memoryAccess ch seen) s = execMemoryAccess ch seen s := rfl
theorem exec_refresh (s : State) (ch : ChanId) (sub : BitVec 2) (bank : BitVec 4) : exec (.refresh ch sub bank) s = execRefresh ch sub bank s := rfl
theorem exec_retrain (s : State) (ch : ChanId) : exec (.retrain ch) s = execRetrain ch s := rfl
theorem exec_retrainComplete (s : State) (ch : ChanId) (ok : Bool) : exec (.retrainComplete ch ok) s = execRetrainComplete ch ok s := rfl
theorem exec_patrolScrubRead (s : State) (read : ScrubRead) : exec (.patrolScrubRead read) s = execPatrolScrubRead read s := rfl
theorem exec_memInit (s : State) (l : BitVec 2) : exec (.memInit l) s = execMemInit l s := rfl
theorem exec_initComplete (s : State) (l : BitVec 2) : exec (.initComplete l) s = execInitComplete l s := rfl
theorem exec_memOpen (s : State) (l : BitVec 2) (open' : Bool) : exec (.memOpen l open') s = execMemOpen l open' s := rfl
theorem exec_mapWrite (s : State) (l : BitVec 2) (value : W64) : exec (.mapWrite l value) s = execMapWrite l value s := rfl
theorem exec_timingWrite (s : State) (ch : ChanId) (value : W64) : exec (.timingWrite ch value) s = execTimingWrite ch value s := rfl
theorem exec_recValidWrite (s : State) (l : BitVec 2) (r : BitVec 6) (valid : Bool) : exec (.recValidWrite l r valid) s = execRecValidWrite l r valid s := rfl
theorem exec_linkBlock (s : State) (f : BitVec 6) (b : LinkBlock) : exec (.linkBlock f b) s = execLinkBlock f b s := rfl
theorem exec_fabricPacket (s : State) (f : BitVec 6) (p : FabPkt) (got : List Byte) : exec (.fabricPacket f p got) s = execFabricPacket f p got s := rfl
theorem exec_train (s : State) (f : BitVec 6) (block : List Byte) : exec (.train f block) s = execTrain f block s := rfl
theorem exec_ident (s : State) (f : BitVec 6) (block : List Byte) : exec (.ident f block) s = execIdent f block s := rfl
theorem exec_identAck (s : State) (f : BitVec 6) (block : List Byte) : exec (.identAck f block) s = execIdentAck f block s := rfl
theorem exec_leave (s : State) (f : BitVec 6) (block : List Byte) : exec (.leave f block) s = execLeave f block s := rfl
theorem exec_abort (s : State) (f : BitVec 6) (block : List Byte) : exec (.abort f block) s = execAbort f block s := rfl
theorem exec_portRetransmit (s : State) (f : BitVec 6) (nak : Bool) : exec (.portRetransmit f nak) s = execPortRetransmit f nak s := rfl
theorem exec_ackDeadline (s : State) (f : BitVec 6) : exec (.ackDeadline f) s = execAckDeadline f s := rfl
theorem exec_blockLoss (s : State) (f : BitVec 6) : exec (.blockLoss f) s = execBlockLoss f s := rfl
theorem exec_laneNotGood (s : State) (f : BitVec 6) (seen : LaneSeen) : exec (.laneNotGood f seen) s = execLaneNotGood f seen s := rfl
theorem exec_portRingsTrack (s : State) (f : BitVec 6) (rxq : BitVec 2) : exec (.portRingsTrack f rxq) s = execPortRingsTrack f rxq s := rfl
theorem exec_codewordLock (s : State) (f : BitVec 6) (locked : BitVec 16) (deskewed : Bool) : exec (.codewordLock f locked deskewed) s = execCodewordLock f locked deskewed s := rfl
theorem exec_portStateTimeout (s : State) (f : BitVec 6) : exec (.portStateTimeout f) s = execPortStateTimeout f s := rfl
theorem exec_identAckTimeout (s : State) (f : BitVec 6) : exec (.identAckTimeout f) s = execIdentAckTimeout f s := rfl
theorem exec_identRefresh (s : State) (f : BitVec 6) : exec (.identRefresh f) s = execIdentRefresh f s := rfl
theorem exec_portDisable (s : State) (f : BitVec 6) (disable light : Bool) : exec (.portDisable f disable light) s = execPortDisable f disable light s := rfl
theorem exec_portRetrain (s : State) (f : BitVec 6) : exec (.portRetrain f) s = execPortRetrain f s := rfl
theorem exec_routeCardInstall (s : State) (card : CardBytes) : exec (.routeCardInstall card) s = execRouteCardInstall card s := rfl
theorem exec_lanternInserted (s : State) (g : BitVec 4) : exec (.lanternInserted g) s = execLanternInserted g s := rfl
theorem exec_lanternRemoved (s : State) (g : BitVec 4) : exec (.lanternRemoved g) s = execLanternRemoved g s := rfl
theorem exec_lanternPoll (s : State) (g : BitVec 4) (avg min : BitVec 16) (minLine : BitVec 6) (temp : BitVec 16) (alarm : Bool) : exec (.lanternPoll g avg min minLine temp alarm) s = execLanternPoll g avg min minLine temp alarm s := rfl
theorem exec_identityRead (s : State) (g : BitVec 4) (ok : Bool) : exec (.identityRead g ok) s = execIdentityRead g ok s := rfl
theorem exec_lanternWarmCheck (s : State) (g : BitVec 4) (ok : Bool) : exec (.lanternWarmCheck g ok) s = execLanternWarmCheck g ok s := rfl
theorem exec_ltnEn (s : State) (g : BitVec 4) (en : Bool) : exec (.ltnEn g en) s = execLtnEn g en s := rfl
theorem exec_routePacket (s : State) (f : BitVec 6) (p : FabPkt) : exec (.routePacket f p) s = execRoutePacket f p s := rfl
theorem exec_fabricInject (s : State) (e : Fin 25) (dnode : BitVec 16) (body : Body) : exec (.fabricInject e dnode body) s = execFabricInject e dnode body s := rfl
theorem exec_transitLaunch (s : State) (f : BitVec 6) : exec (.transitLaunch f) s = execTransitLaunch f s := rfl
theorem exec_e2eack (s : State) (p : FabPkt) : exec (.e2eack p) s = execE2eack p s := rfl
theorem exec_e2eRetransmit (s : State) (node : BitVec 16) (eseq : BitVec 32) : exec (.e2eRetransmit node eseq) s = execE2eRetransmit node eseq s := rfl
theorem exec_e2eGiveUp (s : State) (node : BitVec 16) (eseq : BitVec 32) : exec (.e2eGiveUp node eseq) s = execE2eGiveUp node eseq s := rfl
theorem exec_holdExpiry (s : State) (snode : BitVec 16) (chan : BitVec 8) (ord : Bool) : exec (.holdExpiry snode chan ord) s = execHoldExpiry snode chan ord s := rfl
theorem exec_contextRelease (s : State) (tx : Bool) (node : BitVec 16) (chan : BitVec 8) (ord : Bool) : exec (.contextRelease tx node chan ord) s = execContextRelease tx node chan ord s := rfl
theorem exec_drain (s : State) : exec (.drain) s = execDrain s := rfl
theorem exec_rtResume (s : State) : exec (.rtResume) s = execRtResume s := rfl
theorem exec_drainComplete (s : State) : exec (.drainComplete) s = execDrainComplete s := rfl
theorem exec_drainFail (s : State) : exec (.drainFail) s = execDrainFail s := rfl
theorem exec_routingTableWrite (s : State) (addr : BitVec 40) (value : W64) : exec (.routingTableWrite addr value) s = execRoutingTableWrite addr value s := rfl
theorem exec_atomicRetry (s : State) (c : CoreId) (aseq : BitVec 16) : exec (.atomicRetry c aseq) s = execAtomicRetry c aseq s := rfl
theorem exec_storeEntryRelease (s : State) (die : BitVec 5) (src : Src) (aseq : BitVec 16) : exec (.storeEntryRelease die src aseq) s = execStoreEntryRelease die src aseq s := rfl
theorem exec_handoffWrite (s : State) (l : BitVec 2) (src : Src) (value : W64) : exec (.handoffWrite l src value) s = execHandoffWrite l src value s := rfl
theorem exec_handoffComplete (s : State) : exec (.handoffComplete) s = execHandoffComplete s := rfl
theorem exec_ptyStart (s : State) (e : BitVec 4) : exec (.ptyStart e) s = execPtyStart e s := rfl
theorem exec_ptyAbort (s : State) (e : BitVec 4) : exec (.ptyAbort e) s = execPtyAbort e s := rfl
theorem exec_ptyFree (s : State) (e : BitVec 4) : exec (.ptyFree e) s = execPtyFree e s := rfl
theorem exec_teardownComplete (s : State) (e : BitVec 4) : exec (.teardownComplete e) s = execTeardownComplete e s := rfl
theorem exec_anchorProbe (s : State) (e : BitVec 4) : exec (.anchorProbe e) s = execAnchorProbe e s := rfl
theorem exec_anchorProbeAnswer (s : State) (e : BitVec 4) (status : BitVec 7) (value : W64) : exec (.anchorProbeAnswer e status value) s = execAnchorProbeAnswer e status value s := rfl
theorem exec_anchorLost (s : State) (e : BitVec 4) : exec (.anchorLost e) s = execAnchorLost e s := rfl
theorem exec_ethernetFrame (s : State) (h : EthHead) : exec (.ethernetFrame h) s = execEthernetFrame h s := rfl
theorem exec_pfcFrame (s : State) (pri : BitVec 8) (quanta : List (BitVec 16)) : exec (.pfcFrame pri quanta) s = execPfcFrame pri quanta s := rfl
theorem exec_arpRequest (s : State) (h : EthHead) : exec (.arpRequest h) s = execArpRequest h s := rfl
theorem exec_neighbourSolicitation (s : State) (h : EthHead) : exec (.neighbourSolicitation h) s = execNeighbourSolicitation h s := rfl
theorem exec_icmpEcho (s : State) (h : EthHead) (payload : List Byte) : exec (.icmpEcho h payload) s = execIcmpEcho h payload s := rfl
theorem exec_commandPacket (s : State) (h : EthHead) (bytes : List Byte) : exec (.commandPacket h bytes) s = execCommandPacket h bytes s := rfl
theorem exec_hostNop (s : State) : exec (.hostNop) s = execHostNop s := rfl
theorem exec_sessionOpen (s : State) : exec (.sessionOpen) s = execSessionOpen s := rfl
theorem exec_sessionClose (s : State) : exec (.sessionClose) s = execSessionClose s := rfl
theorem exec_sessionList (s : State) : exec (.sessionList) s = execSessionList s := rfl
theorem exec_deviceInfo (s : State) : exec (.deviceInfo) s = execDeviceInfo s := rfl
theorem exec_eventPoll (s : State) : exec (.eventPoll) s = execEventPoll s := rfl
theorem exec_regRead (s : State) (remote : List RemoteAns) : exec (.regRead remote) s = execRegRead remote s := rfl
theorem exec_regWrite (s : State) (remote : List RemoteAns) : exec (.regWrite remote) s = execRegWrite remote s := rfl
theorem exec_coreCtrl (s : State) : exec (.coreCtrl) s = execCoreCtrl s := rfl
theorem exec_partyStart (s : State) : exec (.partyStart) s = execPartyStart s := rfl
theorem exec_partyAbort (s : State) : exec (.partyAbort) s = execPartyAbort s := rfl
theorem exec_partyFree (s : State) : exec (.partyFree) s = execPartyFree s := rfl
theorem exec_handoff (s : State) : exec (.handoff) s = execHandoff s := rfl
theorem exec_qpCreate (s : State) : exec (.qpCreate) s = execQpCreate s := rfl
theorem exec_qpDestroy (s : State) : exec (.qpDestroy) s = execQpDestroy s := rfl
theorem exec_mrRegister (s : State) : exec (.mrRegister) s = execMrRegister s := rfl
theorem exec_mrDeregister (s : State) : exec (.mrDeregister) s = execMrDeregister s := rfl
theorem exec_freqSet (s : State) : exec (.freqSet) s = execFreqSet s := rfl
theorem exec_calBank (s : State) : exec (.calBank) s = execCalBank s := rfl
theorem exec_calPackage (s : State) : exec (.calPackage) s = execCalPackage s := rfl
theorem exec_hostReset (s : State) : exec (.hostReset) s = execHostReset s := rfl
theorem exec_stop (s : State) : exec (.stop) s = execStop s := rfl
theorem exec_deferredDone (s : State) (session : BitVec 5) (slot : BitVec 6) : exec (.deferredDone session slot) s = execDeferredDone session slot s := rfl
theorem exec_sessionTimeout (s : State) (session : BitVec 5) : exec (.sessionTimeout session) s = execSessionTimeout session s := rfl
theorem exec_rdmaWrite (s : State) (qp : BitVec 6) (from' : EthHead) (psn : BitVec 24) (pos : RdmaPos) (va : W64) (rkey len : W32) (data : List Byte) (icrcOk : Bool) : exec (.rdmaWrite qp from' psn pos va rkey len data icrcOk) s = execRdmaWrite qp from' psn pos va rkey len data icrcOk s := rfl
theorem exec_rdmaRead (s : State) (qp : BitVec 6) (from' : EthHead) (psn : BitVec 24) (va : W64) (rkey len : W32) (icrcOk : Bool) : exec (.rdmaRead qp from' psn va rkey len icrcOk) s = execRdmaRead qp from' psn va rkey len icrcOk s := rfl
theorem exec_gdoorRing (s : State) (src : Src) (g : BitVec 1) : exec (.gdoorRing src g) s = execGdoorRing src g s := rfl
theorem exec_econsWrite (s : State) (session : BitVec 5) (value : W64) : exec (.econsWrite session value) s = execEconsWrite session value s := rfl
theorem exec_ethRetrain (s : State) : exec (.ethRetrain) s = execEthRetrain s := rfl
theorem exec_ethLinkDown (s : State) : exec (.ethLinkDown) s = execEthLinkDown s := rfl
theorem exec_referenceLost (s : State) : exec (.referenceLost) s = execReferenceLost s := rfl
theorem exec_referenceRestored (s : State) : exec (.referenceRestored) s = execReferenceRestored s := rfl
theorem exec_rootPllUnlock (s : State) : exec (.rootPllUnlock) s = execRootPllUnlock s := rfl
theorem exec_clockRatioError (s : State) (clock : BitVec 4) : exec (.clockRatioError clock) s = execClockRatioError clock s := rfl
theorem exec_disciplineWindow (s : State) (w : BitVec 4) (q : BitVec 2) (undrooped produced : BitVec 11) : exec (.disciplineWindow w q undrooped produced) s = execDisciplineWindow w q undrooped produced s := rfl
theorem exec_supplyDroop (s : State) (w : BitVec 4) (q : BitVec 2) (stretch : BitVec 8) : exec (.supplyDroop w q stretch) s = execSupplyDroop w q stretch s := rfl
theorem exec_supplyBelowLimit (s : State) (w : BitVec 4) (q : BitVec 2) : exec (.supplyBelowLimit w q) s = execSupplyBelowLimit w q s := rfl
theorem exec_supplyAboveLimit (s : State) (w : BitVec 4) (q : BitVec 2) : exec (.supplyAboveLimit w q) s = execSupplyAboveLimit w q s := rfl
theorem exec_holdTimeout (s : State) (w : BitVec 4) (q : BitVec 2) : exec (.holdTimeout w q) s = execHoldTimeout w q s := rfl
theorem exec_freqGo (s : State) (opp : BitVec 2) : exec (.freqGo opp) s = execFreqGo opp s := rfl
theorem exec_departure (s : State) : exec (.departure) s = execDeparture s := rfl
theorem exec_clockMonitorWindow (s : State) (w : BitVec 4) (q : BitVec 2) (jitter dutyMin dutyMax : BitVec 8) : exec (.clockMonitorWindow w q jitter dutyMin dutyMax) s = execClockMonitorWindow w q jitter dutyMin dutyMax s := rfl
theorem exec_ledgerTick (s : State) : exec (.ledgerTick) s = execLedgerTick s := rfl
theorem exec_ledgerSync (s : State) : exec (.ledgerSync) s = execLedgerSync s := rfl
theorem exec_snoopSync (s : State) (c : CoreId) (count : W64) : exec (.snoopSync c count) s = execSnoopSync c count s := rfl
theorem exec_lsyncEdge (s : State) : exec (.lsyncEdge) s = execLsyncEdge s := rfl
theorem exec_ledAdj (s : State) (value : W32) : exec (.ledAdj value) s = execLedAdj value s := rfl
theorem exec_powerOn (s : State) : exec (.powerOn) s = execPowerOn s := rfl
theorem exec_rstN (s : State) (low : Bool) (longPulse : Bool) : exec (.rstN low longPulse) s = execRstN low longPulse s := rfl
theorem exec_wrstN (s : State) (low : Bool) (longPulse : Bool) : exec (.wrstN low longPulse) s = execWrstN low longPulse s := rfl
theorem exec_warmReset (s : State) (cause : BitVec 4) : exec (.warmReset cause) s = execWarmReset cause s := rfl
theorem exec_bootStep (s : State) (x : BootIn) : exec (.bootStep x) s = execBootStep x s := rfl
theorem exec_sensorSample (s : State) (site : BitVec 5) (n : BitVec 6) (reading : Option (BitVec 16)) : exec (.sensorSample site n reading) s = execSensorSample site n reading s := rfl
theorem exec_sensorSelfTest (s : State) (site : BitVec 5) (n : BitVec 6) (ok : Bool) : exec (.sensorSelfTest site n ok) s = execSensorSelfTest site n ok s := rfl
theorem exec_restStepDown (s : State) (w : BitVec 4) : exec (.restStepDown w) s = execRestStepDown w s := rfl
theorem exec_rateHoldEnd (s : State) (w : BitVec 4) : exec (.rateHoldEnd w) s = execRateHoldEnd w s := rfl
theorem exec_powerAverage (s : State) (w : BitVec 4) (siteMw packageMw : W32) (other : Option (Consumer × W32)) : exec (.powerAverage w siteMw packageMw other) s = execPowerAverage w siteMw packageMw other s := rfl
theorem exec_orderlyStop (s : State) (cause : BitVec 3) : exec (.orderlyStop cause) s = execOrderlyStop cause s := rfl
theorem exec_orderlyStepLimit (s : State) : exec (.orderlyStepLimit) s = execOrderlyStepLimit s := rfl
theorem exec_hardTrip (s : State) : exec (.hardTrip) s = execHardTrip s := rfl
theorem exec_calDefaults (s : State) (site : BitVec 5) : exec (.calDefaults site) s = execCalDefaults site s := rfl
theorem exec_pkgGo (s : State) : exec (.pkgGo) s = execPkgGo s := rfl
theorem exec_pkgRecalPhase (s : State) (ok : W64) : exec (.pkgRecalPhase ok) s = execPkgRecalPhase ok s := rfl
theorem exec_faultRecordArrival (s : State) : exec (.faultRecordArrival) s = execFaultRecordArrival s := rfl
theorem exec_faultPolicy (s : State) (seq : BitVec 16) : exec (.faultPolicy seq) s = execFaultPolicy seq s := rfl
theorem exec_fltAck (s : State) (seq : BitVec 16) (upto : Bool) : exec (.fltAck seq upto) s = execFltAck seq upto s := rfl
theorem exec_aliveToggle (s : State) : exec (.aliveToggle) s = execAliveToggle s := rfl
theorem exec_heartbeatMissing (s : State) (group : BitVec 3) : exec (.heartbeatMissing group) s = execHeartbeatMissing group s := rfl
theorem exec_injGo (s : State) (site : BitVec 5) (value : W64) : exec (.injGo site value) s = execInjGo site value s := rfl
theorem exec_intake (s : State) (src : Src) (w0 w1 w2 w3 w4 w5 : W64) : exec (.intake src w0 w1 w2 w3 w4 w5) s = execIntake src w0 w1 w2 w3 w4 w5 s := rfl
theorem exec_berthPowerOver (s : State) (g : BitVec 1) (mw : W32) : exec (.berthPowerOver g mw) s = execBerthPowerOver g mw s := rfl
theorem exec_berthSupplyCut (s : State) (g : BitVec 1) (mw : W32) : exec (.berthSupplyCut g mw) s = execBerthSupplyCut g mw s := rfl
theorem exec_entdaa (s : State) (addr : BitVec 7) : exec (.entdaa addr) s = execEntdaa addr s := rfl
theorem exec_setEndpointId (s : State) (eid : BitVec 8) : exec (.setEndpointId eid) s = execSetEndpointId eid s := rfl
theorem exec_getEndpointId (s : State) (from' : BitVec 8) : exec (.getEndpointId from') s = execGetEndpointId from' s := rfl
theorem exec_getMctpVersionSupport (s : State) (from' : BitVec 8) : exec (.getMctpVersionSupport from') s = execGetMctpVersionSupport from' s := rfl
theorem exec_getMessageTypeSupport (s : State) (from' : BitVec 8) : exec (.getMessageTypeSupport from') s = execGetMessageTypeSupport from' s := rfl
theorem exec_getVendorDefinedMessageSupport (s : State) (from' : BitVec 8) : exec (.getVendorDefinedMessageSupport from') s = execGetVendorDefinedMessageSupport from' s := rfl
theorem exec_imgBegin (s : State) (eid tag : BitVec 8) (header : List Byte) : exec (.imgBegin eid tag header) s = execImgBegin eid tag header s := rfl
theorem exec_imgData (s : State) (eid tag : BitVec 8) (offset : W32) (data : List Byte) : exec (.imgData eid tag offset data) s = execImgData eid tag offset data s := rfl
theorem exec_imgEnd (s : State) (eid tag : BitVec 8) : exec (.imgEnd eid tag) s = execImgEnd eid tag s := rfl
theorem exec_imgAbort (s : State) (eid tag : BitVec 8) : exec (.imgAbort eid tag) s = execImgAbort eid tag s := rfl
theorem exec_commit (s : State) (eid tag : BitVec 8) (reset : Bool) : exec (.commit eid tag reset) s = execCommit eid tag reset s := rfl
theorem exec_fwStatus (s : State) (eid tag : BitVec 8) : exec (.fwStatus eid tag) s = execFwStatus eid tag s := rfl
theorem exec_svcRegRead (s : State) (eid tag : BitVec 8) (addrs : List (BitVec 40)) : exec (.svcRegRead eid tag addrs) s = execSvcRegRead eid tag addrs s := rfl
theorem exec_svcRegWrite (s : State) (eid tag : BitVec 8) (writes : List (BitVec 40 × W64)) : exec (.svcRegWrite eid tag writes) s = execSvcRegWrite eid tag writes s := rfl
theorem exec_transferTimeout (s : State) : exec (.transferTimeout) s = execTransferTimeout s := rfl
theorem exec_confirm (s : State) (fromFirmware : Bool) : exec (.confirm fromFirmware) s = execConfirm fromFirmware s := rfl
theorem exec_firmwareWatchdog (s : State) : exec (.firmwareWatchdog) s = execFirmwareWatchdog s := rfl
theorem exec_getVersion (s : State) (eid : BitVec 8) : exec (.getVersion eid) s = execGetVersion eid s := rfl
theorem exec_getCapabilities (s : State) (eid : SpdmFrom) : exec (.getCapabilities eid) s = execGetCapabilities eid s := rfl
theorem exec_negotiateAlgorithms (s : State) (eid : SpdmFrom) (asym hash : W32) : exec (.negotiateAlgorithms eid asym hash) s = execNegotiateAlgorithms eid asym hash s := rfl
theorem exec_getDigests (s : State) (eid : BitVec 8) : exec (.getDigests eid) s = execGetDigests eid s := rfl
theorem exec_getCertificate (s : State) (eid slot : BitVec 8) (offset len : BitVec 16) : exec (.getCertificate eid slot offset len) s = execGetCertificate eid slot offset len s := rfl
theorem exec_challenge (s : State) (eid slot : BitVec 8) (nonce : List Byte) : exec (.challenge eid slot nonce) s = execChallenge eid slot nonce s := rfl
theorem exec_getMeasurements (s : State) (eid index : BitVec 8) (sign : Bool) (nonce : List Byte) : exec (.getMeasurements eid index sign nonce) s = execGetMeasurements eid index sign nonce s := rfl
theorem exec_powerCut (s : State) : exec (.powerCut) s = execPowerCut s := rfl
theorem exec_illegalEncoding (s : State) (c : CoreId) (word : W32) : exec (.illegalEncoding c word) s = execIllegalEncoding c word s := rfl
theorem exec_coldReset (s : State) (cause : BitVec 4) : exec (.coldReset cause) s = execColdReset cause s := rfl
theorem exec_ethLinkUp (s : State) (offer : BitVec 3) (trained : BitVec 8) : exec (.ethLinkUp offer trained) s = execEthLinkUp offer trained s := rfl
theorem exec_heartbeat (s : State) (group : BitVec 3) : exec (.heartbeat group) s = execHeartbeat group s := rfl
theorem exec_vauxApplied (s : State) : exec (.vauxApplied) s = execVauxApplied s := rfl
theorem exec_pauseTimeExpiry (s : State) (pri : BitVec 3) : exec (.pauseTimeExpiry pri) s = execPauseTimeExpiry pri s := rfl

end Sys2Proof.Machine
end

