-- ==== Sys2Proof/Laws/Fields.lean ====
section
/-! SUPPORT. What replacing a field of a register word leaves in each field of it. -/

namespace Sys2Proof.Machine

theorem withBits_toNat (w : W64) (lo n v : Nat) (h : lo + n ≤ 64) :
    (withBits w lo n v).toNat = w.toNat / 2 ^ (lo + n) * 2 ^ (lo + n) + (v % 2 ^ n) * 2 ^ lo + w.toNat % 2 ^ lo := by
  have hw := w.isLt
  have e1 : w.toNat / 2 ^ lo / 2 ^ n = w.toNat / 2 ^ (lo + n) := by rw [Nat.div_div_eq_div_mul, Nat.pow_add]
  have e2 : w.toNat = w.toNat / 2 ^ (lo + n) * 2 ^ (lo + n) + (w.toNat / 2 ^ lo % 2 ^ n) * 2 ^ lo + w.toNat % 2 ^ lo := by
    have a := Nat.div_add_mod w.toNat (2 ^ lo)
    have b := Nat.div_add_mod (w.toNat / 2 ^ lo) (2 ^ n)
    rw [e1] at b
    generalize w.toNat / 2 ^ (lo + n) = q at b ⊢
    generalize w.toNat / 2 ^ lo = x at a b ⊢
    rw [Nat.pow_add]
    generalize x % 2 ^ n = y at b ⊢
    generalize w.toNat % 2 ^ lo = z at a ⊢
    rw [← a, ← b]
    ring
  have hv : v % 2 ^ n < 2 ^ n := Nat.mod_lt _ (Nat.two_pow_pos n)
  have hm : w.toNat % 2 ^ lo < 2 ^ lo := Nat.mod_lt _ (Nat.two_pow_pos lo)
  have hd : w.toNat / 2 ^ (lo + n) < 2 ^ (64 - (lo + n)) := by
    rw [Nat.div_lt_iff_lt_mul (Nat.two_pow_pos _), ← Nat.pow_add]
    have : 64 - (lo + n) + (lo + n) = 64 := by omega
    rw [this]; exact hw
  have hb : w.toNat / 2 ^ (lo + n) * 2 ^ (lo + n) + (v % 2 ^ n) * 2 ^ lo + w.toNat % 2 ^ lo < 2 ^ 64 := by
    have h1 : (w.toNat / 2 ^ (lo + n) + 1) * 2 ^ (lo + n) ≤ 2 ^ 64 := by
      have : 2 ^ (64 - (lo + n)) * 2 ^ (lo + n) = 2 ^ 64 := by rw [← Nat.pow_add]; congr 1; omega
      rw [← this]; exact Nat.mul_le_mul_right _ hd
    have h2 : (v % 2 ^ n + 1) * 2 ^ lo ≤ 2 ^ (lo + n) := by
      rw [Nat.pow_add, Nat.mul_comm (2 ^ lo)]; exact Nat.mul_le_mul_right _ hv
    nlinarith
  have hs : w.toNat - bits w lo n * 2 ^ lo + v % 2 ^ n * 2 ^ lo
      = w.toNat / 2 ^ (lo + n) * 2 ^ (lo + n) + (v % 2 ^ n) * 2 ^ lo + w.toNat % 2 ^ lo := by
    unfold bits; omega
  rw [withBits, BitVec.toNat_ofNat, hs, Nat.mod_eq_of_lt hb]

theorem bits_withBits_same (w : W64) (lo n v : Nat) (h : lo + n ≤ 64) : bits (withBits w lo n v) lo n = v % 2 ^ n := by
  unfold bits
  rw [withBits_toNat w lo n v h]
  have hm : w.toNat % 2 ^ lo < 2 ^ lo := Nat.mod_lt _ (Nat.two_pow_pos lo)
  have e : w.toNat / 2 ^ (lo + n) * 2 ^ (lo + n) + (v % 2 ^ n) * 2 ^ lo + w.toNat % 2 ^ lo
      = w.toNat % 2 ^ lo + 2 ^ lo * (v % 2 ^ n + 2 ^ n * (w.toNat / 2 ^ (lo + n))) := by
    rw [Nat.pow_add]; ring
  rw [e, Nat.add_mul_div_left _ _ (Nat.two_pow_pos lo), Nat.div_eq_of_lt hm, Nat.zero_add, Nat.add_mul_mod_self_left, Nat.mod_mod]

theorem bits_withBits_below (w : W64) {lo n m k : Nat} (v : Nat) (h : lo + n ≤ 64) (hd : m + k ≤ lo) :
    bits (withBits w lo n v) m k = bits w m k := by
  unfold bits
  rw [withBits_toNat w lo n v h]
  have key : ∀ x : Nat, x / 2 ^ m % 2 ^ k = x % 2 ^ (m + k) / 2 ^ m := by
    intro x; rw [Nat.pow_add, Nat.mod_mul_right_div_self]
  rw [key, key w.toNat]
  congr 1
  obtain ⟨r, rfl⟩ := Nat.exists_eq_add_of_le hd
  have e : w.toNat / 2 ^ (m + k + r + n) * 2 ^ (m + k + r + n) + (v % 2 ^ n) * 2 ^ (m + k + r) + w.toNat % 2 ^ (m + k + r)
      = w.toNat % 2 ^ (m + k + r) + 2 ^ (m + k) * (2 ^ r * (v % 2 ^ n + 2 ^ n * (w.toNat / 2 ^ (m + k + r + n)))) := by
    rw [Nat.pow_add _ (m + k + r), Nat.pow_add _ (m + k)]; ring
  rw [e, Nat.add_mul_mod_self_left, Nat.mod_mod_of_dvd _ (Nat.pow_dvd_pow 2 (Nat.le_add_right (m + k) r))]

theorem bits_withBits_above (w : W64) {lo n m k : Nat} (v : Nat) (h : lo + n ≤ 64) (hd : lo + n ≤ m) :
    bits (withBits w lo n v) m k = bits w m k := by
  unfold bits
  rw [withBits_toNat w lo n v h]
  obtain ⟨r, rfl⟩ := Nat.exists_eq_add_of_le hd
  congr 1
  rw [Nat.pow_add 2 (lo + n) r, ← Nat.div_div_eq_div_mul, ← Nat.div_div_eq_div_mul]
  congr 1
  have hv : v % 2 ^ n < 2 ^ n := Nat.mod_lt _ (Nat.two_pow_pos n)
  have hm : w.toNat % 2 ^ lo < 2 ^ lo := Nat.mod_lt _ (Nat.two_pow_pos lo)
  have hlt : (v % 2 ^ n) * 2 ^ lo + w.toNat % 2 ^ lo < 2 ^ (lo + n) := by
    have h2 : (v % 2 ^ n + 1) * 2 ^ lo ≤ 2 ^ (lo + n) := by
      rw [Nat.pow_add, Nat.mul_comm (2 ^ lo)]; exact Nat.mul_le_mul_right _ hv
    nlinarith
  rw [Nat.add_assoc, Nat.add_comm, Nat.mul_comm (w.toNat / _), Nat.add_mul_div_left _ _ (Nat.two_pow_pos _), Nat.div_eq_of_lt hlt, Nat.zero_add]

theorem getLsbD_bits (w : W64) (i : Nat) : w.getLsbD i = decide (bits w i 1 = 1) := by
  unfold bits
  rw [BitVec.getLsbD, Nat.testBit_eq_decide_div_mod_eq, Nat.pow_one]
@[simp] theorem Dev.fld_setF_same (p : Part) (d : Dev) (a lo n v : Nat) (h : lo + n ≤ 64) :
    (d.setF p a lo n v).fld p a lo n = v % 2 ^ n := by
  simp [Dev.fld, bits_withBits_same _ _ _ _ h]
theorem Dev.bit_setB_same (p : Part) (d : Dev) (a : Nat) {i : Nat} (x : Bool) (h : i < 64) :
    (d.setB p a i x).bit p a i = x := by
  have : bits (withBits (d.get p a) i 1 (if x then 1 else 0)) i 1 = (if x then 1 else 0) % 2 ^ 1 :=
    bits_withBits_same _ _ _ _ h
  simp only [Dev.bit, Dev.setB, Dev.get_setF_same, getLsbD_bits, this]
  cases x <;> decide

end Sys2Proof.Machine
end

