-- ==== Sys2Proof/Laws/Faults.lean ====
section
/-! SUPPORT. What raising a fault record and taking an exception do, said once. -/

namespace Sys2Proof.Machine


theorem ctlAddr_inj {a b c a' b' c' : Nat} (hb : b < 2 ^ 15) (hc : c < 2 ^ 20) (hb' : b' < 2 ^ 15) (hc' : c' < 2 ^ 20) :
    ctlAddr a b c = ctlAddr a' b' c' ↔ a = a' ∧ b = b' ∧ c = c' := by
  unfold ctlAddr
  constructor
  · intro h
    omega
  · rintro ⟨rfl, rfl, rfl⟩
    rfl

theorem putWords_get_ne (p : Part) (b : Nat) (ws : List W64) : ∀ (d : Dev) (a : Nat),
    (∀ i, i < ws.length → b ≠ a + 8 * i) → (d.putWords p a ws).get p b = d.get p b := by
  induction ws with
  | nil => intro d a _; rfl
  | cons w ws ih =>
    intro d a h
    simp only [List.length_cons] at h
    unfold Dev.putWords
    rw [ih, Dev.get_put_ne]
    · exact h 0 (by omega)
    · intro i hi
      have := h (i + 1) (by omega)
      omega
theorem putWords_get (p : Part) (ws : List W64) : ∀ (d : Dev) (a i : Nat) (x : W64),
    ws[i]? = some x → (d.putWords p a ws).get p (a + 8 * i) = x := by
  induction ws with
  | nil => intro d a i x h; simp at h
  | cons w ws ih =>
    intro d a i x h
    unfold Dev.putWords
    cases i with
    | zero =>
      simp only [List.getElem?_cons_zero, Option.some.injEq] at h
      rw [putWords_get_ne p _ _ _ _ (by intro i _; omega)]
      simp [h]
    | succ i =>
      have := ih (d.put p a w) (a + 8) i x (by simpa using h)
      rw [← this]; congr 1; omega
@[simp] theorem put_noRegs (p : Part) (d : Dev) (a : Nat) (v : W64) : (d.put p a v).noRegs = d.noRegs := rfl
@[simp] theorem setF_noRegs (p : Part) (d : Dev) (a lo n v : Nat) : (d.setF p a lo n v).noRegs = d.noRegs := rfl
@[simp] theorem count_noRegs (p : Part) (d : Dev) (a n : Nat) : (d.count p a n).noRegs = d.noRegs := rfl
@[simp] theorem putWords_noRegs (p : Part) (ws : List W64) : ∀ (d : Dev) (a : Nat), (d.putWords p a ws).noRegs = d.noRegs := by
  induction ws with
  | nil => intro d a; rfl
  | cons w ws ih => intro d a; unfold Dev.putWords; rw [ih, put_noRegs]
theorem fltR_add (s a b : Nat) : fltR s (a + b) = fltR s a + b := by unfold fltR ctlAddr; omega
theorem fltR_inj {s a b : Nat} : fltR s a = fltR s b ↔ a = b := by unfold fltR ctlAddr; omega
theorem bits_lt (w : W64) (lo n : Nat) : bits w lo n < 2 ^ n := Nat.mod_lt _ (Nat.two_pow_pos n)
theorem fld_lt (p : Part) (d : Dev) (a lo n : Nat) : d.fld p a lo n < 2 ^ n := bits_lt _ _ _


/-- What writing a record to the site log does. -/
theorem logRec_fld (p : Part) (d : Dev) (site : Nat) (f : FaultRec) :
    (d.logRec p site f).fld p (fltR site 0) 0 4 = (d.fld p (fltR site 0) 0 4 + 1) % 16 ∧
    (d.logRec p site f).fld p (fltR site 0) 4 12 = d.fld p (fltR site 0) 4 12 := by
  constructor
  · unfold Dev.logRec
    exact Dev.fld_setF_same _ _ _ _ _ _ (by omega)
  · unfold Dev.logRec Dev.fld
    rw [Dev.get_setF_same, bits_withBits_above _ _ (by omega) (by omega), putWords_get_ne, Dev.get_count_ne]
    · rw [Ne, fltR_inj]; decide
    · intro i _; simp only [fltR, ctlAddr]; omega
theorem logRec_count (p : Part) (d : Dev) (site : Nat) (f : FaultRec) :
    (d.logRec p site f).get p (fltR site 0x40) = countUp (d.get p (fltR site 0x40)) 1 := by
  have hj : d.fld p (fltR site 0) 0 4 < 16 := fld_lt _ _ _ _ _
  unfold Dev.logRec
  rw [Dev.get_setF_ne, putWords_get_ne, Dev.get_count_same]
  · intro i _; simp only [fltR, ctlAddr]; omega
  · rw [Ne, fltR_inj]; decide
theorem logRec_word (p : Part) (d : Dev) (site : Nat) (f : FaultRec) (i : Nat) (x : W64) (h : (recWords f)[i]? = some x) :
    (d.logRec p site f).get p (fltR site (0x100 + 0x30 * d.fld p (fltR site 0) 0 4 + 8 * i)) = x := by
  unfold Dev.logRec
  rw [Dev.get_setF_ne, fltR_add site (0x100 + 0x30 * _) (8 * i), putWords_get p (recWords f) _ _ i x h]
  rw [Ne, fltR_inj]; omega
theorem logRec_ne (p : Part) (d : Dev) (site : Nat) (f : FaultRec) (a : Nat)
    (ha : a ∉ logRegs site (d.fld p (fltR site 0) 0 4)) : (d.logRec p site f).get p a = d.get p a := by
  simp only [logRegs, List.mem_append, List.mem_cons, List.mem_map, List.mem_range, not_or, not_exists, not_and] at ha
  unfold Dev.logRec
  rw [Dev.get_setF_ne _ _ _ _ _ ha.1.2.1, putWords_get_ne, Dev.get_count_ne _ _ _ ha.1.1]
  intro i hi e
  rw [← fltR_add] at e
  exact ha.2 i hi e.symm
theorem logRec_noRegs (p : Part) (d : Dev) (site : Nat) (f : FaultRec) : (d.logRec p site f).noRegs = d.noRegs := by
  unfold Dev.logRec
  rw [setF_noRegs, putWords_noRegs, count_noRegs]
@[simp] theorem modCore_noCores (d : Dev) (c : CoreId) (f : CoreSt → CoreSt) : (d.modCore c f).noCores = d.noCores := rfl
@[simp] theorem sendRec_noRecords (d : Dev) (f : FaultRec) (o : Option CoreId) : (d.sendRec f o).noRecords = d.noRecords := by
  cases o <;> rfl
theorem raiseRec_major (p : Part) (d : Dev) (site : Nat) (f : FaultRec) (o : Option CoreId) (h : 2 ≤ f.cls.toNat) :
    d.raiseRec p site f o = (d.logRec p site f).sendRec f o := by
  unfold Dev.raiseRec
  rw [if_pos h]
@[simp] theorem noRegs_records (d : Dev) : d.noRegs.records = d.records := rfl
@[simp] theorem noRegs_recOut (d : Dev) : d.noRegs.recOut = d.recOut := rfl
@[simp] theorem noRegs_cores (d : Dev) : d.noRegs.cores = d.cores := rfl
theorem sendRec_sent (d : Dev) (f : FaultRec) (o : Option CoreId) :
    ((d.sendRec f o).records, (d.sendRec f o).recOut) = (match o with
      | none => (d.records ++ [f], d.recOut)
      | some c => (d.records, d.recOut ++ [(c, f)])) := by
  cases o <;> rfl
@[simp] theorem sendRec_get (p : Part) (d : Dev) (f : FaultRec) (o : Option CoreId) (a : Nat) :
    (d.sendRec f o).get p a = d.get p a := by
  cases o <;> rfl
@[simp] theorem sendRec_fld (p : Part) (d : Dev) (f : FaultRec) (o : Option CoreId) (a lo n : Nat) :
    (d.sendRec f o).fld p a lo n = d.fld p a lo n := by
  cases o <;> rfl
@[simp] theorem sendRec_core (d : Dev) (f : FaultRec) (o : Option CoreId) (c : CoreId) : (d.sendRec f o).core c = d.core c := by
  cases o <;> rfl
theorem sendRec_rest (d : Dev) (f : FaultRec) (o : Option CoreId) :
    (d.sendRec f o).noRegs.noCores.noRecords = d.noRegs.noCores.noRecords := by
  cases o <;> rfl
theorem logRec_records (p : Part) (d : Dev) (site : Nat) (f : FaultRec) : (d.logRec p site f).records = d.records := by
  rw [← noRegs_records, logRec_noRegs, noRegs_records]
theorem logRec_recOut (p : Part) (d : Dev) (site : Nat) (f : FaultRec) : (d.logRec p site f).recOut = d.recOut := by
  rw [← noRegs_recOut, logRec_noRegs, noRegs_recOut]
theorem logRec_cores (p : Part) (d : Dev) (site : Nat) (f : FaultRec) : (d.logRec p site f).cores = d.cores := by
  rw [← noRegs_cores, logRec_noRegs, noRegs_cores]
theorem logRec_core (p : Part) (d : Dev) (site : Nat) (f : FaultRec) (c : CoreId) : (d.logRec p site f).core c = d.core c := by
  unfold Dev.core
  rw [logRec_cores]
/-- A record of class 2 or above is logged and sent. -/
theorem raiseRec_logged (p : Part) (d : Dev) (site : Nat) (f : FaultRec) (o : Option CoreId) (h : 2 ≤ f.cls.toNat) :
    Logged p d (d.raiseRec p site f o) site f o := by
  rw [raiseRec_major p d site f o h]
  refine ⟨?_, ?_, ?_, ?_, fun i x hx => ?_⟩
  · cases o <;> rw [sendRec_sent, logRec_records, logRec_recOut]
  · rw [sendRec_get, logRec_count]
  · rw [sendRec_fld, (logRec_fld p d site f).1]
  · rw [sendRec_fld, (logRec_fld p d site f).2]
  · rw [sendRec_get]
    exact logRec_word p d site f i x hx
theorem raiseRec_core (p : Part) (d : Dev) (site : Nat) (f : FaultRec) (o : Option CoreId) (h : 2 ≤ f.cls.toNat) (c : CoreId) :
    (d.raiseRec p site f o).core c = d.core c := by
  rw [raiseRec_major p d site f o h, sendRec_core, logRec_core]
theorem raiseRec_rest (p : Part) (d : Dev) (site : Nat) (f : FaultRec) (o : Option CoreId) (h : 2 ≤ f.cls.toNat) :
    (d.raiseRec p site f o).noRegs.noCores.noRecords = d.noRegs.noCores.noRecords := by
  rw [raiseRec_major p d site f o h, sendRec_rest, logRec_noRegs]
theorem raiseRec_get_ne (p : Part) (d : Dev) (site : Nat) (f : FaultRec) (o : Option CoreId) (h : 2 ≤ f.cls.toNat) (a : Nat)
    (ha : a ∉ logRegs site (d.fld p (fltR site 0) 0 4)) : (d.raiseRec p site f o).get p a = d.get p a := by
  rw [raiseRec_major p d site f o h, sendRec_get, logRec_ne p d site f a ha]
/-- A record is logged alike from devices that agree on the site's log. -/
theorem Logged.of_eq {p : Part} {d d' e : Dev} {site : Nat} {f : FaultRec} {o : Option CoreId} (h : Logged p d e site f o)
    (hr : d.records = d'.records) (hr' : d.recOut = d'.recOut) (h0 : d.get p (fltR site 0) = d'.get p (fltR site 0))
    (h1 : d.get p (fltR site 0x40) = d'.get p (fltR site 0x40)) : Logged p d' e site f o := by
  have hf : ∀ lo n, d.fld p (fltR site 0) lo n = d'.fld p (fltR site 0) lo n := fun lo n => congrArg (bits · lo n) h0
  unfold Logged at *
  rw [hr, hr', hf, hf, h1] at h
  exact h

theorem coreR_ne_logRegs (c : CoreId) (off j : Nat) (ho : off < 2 ^ 20) (hj : j < 16) : coreR c off ∉ logRegs c.site.toNat j := by
  have hp := c.p.isLt
  simp only [logRegs, List.mem_append, List.mem_cons, List.mem_map, List.mem_range, List.not_mem_nil, or_false, not_or,
    not_exists, not_and, coreR, fltR]
  refine ⟨⟨?_, ?_⟩, fun i hi => ?_⟩
  · rw [ctlAddr_inj (by omega) ho (by omega) (by omega)]; omega
  · rw [ctlAddr_inj (by omega) ho (by omega) (by omega)]; omega
  · rw [ctlAddr_inj (by omega) (by omega) (by omega) ho]; omega

/-- What taking an exception does (R51). -/
theorem raiseExc_excepts (s : State) (c : CoreId) (cause : Nat) (info : W64) (inj : Bool) :
    Excepts s (State.mk s.part s.mem ((s.dev.modCore c CoreSt.take).raiseExc s.part c cause info inj) s.pending) c cause info inj := by
  obtain ⟨p, m, d, q⟩ := s
  have hp := c.p.isLt
  have hj : d.fld p (fltR c.site.toNat 0) 0 4 < 16 := fld_lt _ _ _ _ _
  have hin : ∀ off, off < 2 ^ 20 → coreR c off ∉ logRegs c.site.toNat (d.fld p (fltR c.site.toNat 0) 0 4) :=
    fun off ho => coreR_ne_logRegs c off _ ho hj
  have hne : ∀ off x, off < 2 ^ 20 → x < 2 ^ 20 → fltR c.site.toNat x ≠ coreR c off := by
    intro off x ho hx
    rw [Ne, fltR, coreR, ctlAddr_inj (by omega) hx (by omega) ho]; omega
  have e18 : coreR c 0x20 ≠ coreR c 0x18 := by
    rw [Ne, coreR, coreR, ctlAddr_inj (by omega) (by omega) (by omega) (by omega)]; omega
  -- the device at the moment the record is raised
  let d1 : Dev := (((d.modCore c CoreSt.take).put p (coreR c 0x18)
    (BitVec.ofNat 64 (cause + 2 ^ 8 + (d.core c).pc.toNat * 2 ^ 32))).put p (coreR c 0x20) info).modCore c fun k =>
      { k with st := .fault, step := false, wait := none, ending := false }
  let f : FaultRec := { ledger := d1.snoop c, source := d1.coreSrc c, cls := BitVec.ofNat 3 3, inj := inj
                        code := BitVec.ofNat 16 0x0101, ctx0 := BitVec.ofNat 64 cause
                        ctx1 := Config.excContext (d.core c).pc info }
  have hd : (d.modCore c CoreSt.take).raiseExc p c cause info inj = d1.raiseRec p c.site.toNat f (some c) := by
    simp only [Dev.raiseExc, Dev.exception, Dev.coreFault, Dev.core_modCore_same, CoreSt.take_pc]
    rfl
  have h2 : 2 ≤ f.cls.toNat := (by decide : 2 ≤ (BitVec.ofNat 3 3).toNat)
  have g0 : ∀ x, x < 2 ^ 20 → d1.get p (fltR c.site.toNat x) = d.get p (fltR c.site.toNat x) := by
    intro x hx
    simp only [d1, Dev.get_modCore]
    rw [Dev.get_put_ne _ _ _ (hne _ _ (by omega) hx), Dev.get_put_ne _ _ _ (hne _ _ (by omega) hx), Dev.get_modCore]
  have gf : d1.fld p (fltR c.site.toNat 0) 0 4 = d.fld p (fltR c.site.toNat 0) 0 4 := by
    unfold Dev.fld; rw [g0 0 (by omega)]
  have hcore : d1.core c = { d.core c with st := .fault, step := false, wait := none, ending := false } := by
    simp only [d1, Dev.core_modCore_same, Dev.core_put]
    rfl
  rw [hd]
  refine ⟨?_, ?_, ?_, ⟨f, ?_, rfl, rfl, rfl, ?_, rfl, ?_⟩, ?_, ?_, ?_, ⟨rfl, rfl⟩, fun _ => rfl⟩
  · show (d1.raiseRec p c.site.toNat f (some c)).core c = _
    rw [raiseRec_core p d1 _ f (some c) h2, hcore]
  · show (d1.raiseRec p c.site.toNat f (some c)).get p (coreR c 0x18) = _
    rw [raiseRec_get_ne p d1 _ f (some c) h2 _ (by rw [gf]; exact hin 0x18 (by omega))]
    simp only [d1, Dev.get_modCore]
    rw [Dev.get_put_ne _ _ _ (Ne.symm e18), Dev.get_put_same]
  · show (d1.raiseRec p c.site.toNat f (some c)).get p (coreR c 0x20) = _
    rw [raiseRec_get_ne p d1 _ f (some c) h2 _ (by rw [gf]; exact hin 0x20 (by omega))]
    simp only [d1, Dev.get_modCore, Dev.get_put_same]
  · rfl
  · show followed d1.now d1.own (d1.core c).snoopOff (d1.core c).snoopHold = d.snoop c
    rw [hcore]; rfl
  · show Logged p d (d1.raiseRec p c.site.toNat f (some c)) c.site.toNat f (some c)
    exact (raiseRec_logged p d1 c.site.toNat f (some c) h2).of_eq rfl rfl (g0 0 (by omega)) (g0 0x40 (by omega))
  · intro e he
    show (d1.raiseRec p c.site.toNat f (some c)).core e = d.core e
    rw [raiseRec_core p d1 _ f (some c) h2]
    simp only [d1]
    rw [Dev.core_modCore_ne _ _ he, Dev.core_put, Dev.core_put, Dev.core_modCore_ne _ _ he]
  · intro a ha
    show (d1.raiseRec p c.site.toNat f (some c)).get p a = d.get p a
    simp only [List.mem_append, List.mem_cons, List.not_mem_nil, or_false, not_or] at ha
    rw [raiseRec_get_ne p d1 _ f (some c) h2 _ (by rw [gf]; exact ha.2)]
    simp only [d1, Dev.get_modCore]
    rw [Dev.get_put_ne _ _ _ ha.1.2, Dev.get_put_ne _ _ _ ha.1.1, Dev.get_modCore]
  · show (d1.raiseRec p c.site.toNat f (some c)).noRegs.noCores.noRecords = d.noRegs.noCores.noRecords
    rw [raiseRec_rest p d1 _ f (some c) h2]
    rfl

end Sys2Proof.Machine
end

