-- ==== Sys2Proof/Laws/Maps.lean ====
section
/-! SUPPORT. Reads after writes of the indexed families of the state, and what such a write leaves alone. -/

namespace Sys2Proof.Machine

theorem smGet_smSet {β : Type} (z : β) (m : SMap β) (a b : Nat) (x : β) [DecidableEq β] :
    smGet z (smSet z m b x) a = if a = b then x else smGet z m a := by
  by_cases h : a = b
  · rw [if_pos h, h]; exact smGet_set_same z m b x
  · rw [if_neg h]; exact smGet_set_ne z z m x h

theorem Dev.port_setPort (d : Dev) (f : Nat) (x : PortSt) (g : Nat) : (d.setPort f x).port g = if g = f then x else d.port g := by
  simp [Dev.port, Dev.setPort, smGet_smSet]
@[simp] theorem Dev.setPort_ctl (d : Dev) (f : Nat) (x : PortSt) : (d.setPort f x).ctl = d.ctl := rfl
@[simp] theorem Dev.setPort_cores (d : Dev) (f : Nat) (x : PortSt) : (d.setPort f x).cores = d.cores := rfl
@[simp] theorem Dev.setPort_net (d : Dev) (f : Nat) (x : PortSt) : (d.setPort f x).net = d.net := rfl
@[simp] theorem Dev.setPort_records (d : Dev) (f : Nat) (x : PortSt) : (d.setPort f x).records = d.records := rfl
@[simp] theorem Dev.setPort_nv (d : Dev) (f : Nat) (x : PortSt) : (d.setPort f x).nv = d.nv := rfl
@[simp] theorem Dev.get_setPort (p : Part) (d : Dev) (f : Nat) (x : PortSt) (r : Nat) : (d.setPort f x).get p r = d.get p r := rfl
@[simp] theorem Dev.core_setPort (d : Dev) (f : Nat) (x : PortSt) (e : CoreId) : (d.setPort f x).core e = d.core e := rfl

theorem Dev.bank_setBank (d : Dev) (b : Nat) (x : BankSt) (e : Nat) : (d.setBank b x).bank e = if e = b then x else d.bank e := by
  simp [Dev.bank, Dev.setBank, smGet_smSet]
@[simp] theorem Dev.setBank_ctl (d : Dev) (b : Nat) (x : BankSt) : (d.setBank b x).ctl = d.ctl := rfl
@[simp] theorem Dev.setBank_cores (d : Dev) (b : Nat) (x : BankSt) : (d.setBank b x).cores = d.cores := rfl
@[simp] theorem Dev.setBank_net (d : Dev) (b : Nat) (x : BankSt) : (d.setBank b x).net = d.net := rfl
@[simp] theorem Dev.setBank_records (d : Dev) (b : Nat) (x : BankSt) : (d.setBank b x).records = d.records := rfl
@[simp] theorem Dev.setBank_nv (d : Dev) (b : Nat) (x : BankSt) : (d.setBank b x).nv = d.nv := rfl
@[simp] theorem Dev.get_setBank (p : Part) (d : Dev) (b : Nat) (x : BankSt) (r : Nat) : (d.setBank b x).get p r = d.get p r := rfl
@[simp] theorem Dev.core_setBank (d : Dev) (b : Nat) (x : BankSt) (e : CoreId) : (d.setBank b x).core e = d.core e := rfl

theorem Dev.chan_setChan (d : Dev) (c : Nat) (x : MemChan) (e : Nat) : (d.setChan c x).chan e = if e = c then x else d.chan e := by
  simp [Dev.chan, Dev.setChan, smGet_smSet]
@[simp] theorem Dev.setChan_ctl (d : Dev) (c : Nat) (x : MemChan) : (d.setChan c x).ctl = d.ctl := rfl
@[simp] theorem Dev.setChan_cores (d : Dev) (c : Nat) (x : MemChan) : (d.setChan c x).cores = d.cores := rfl
@[simp] theorem Dev.setChan_net (d : Dev) (c : Nat) (x : MemChan) : (d.setChan c x).net = d.net := rfl
@[simp] theorem Dev.setChan_records (d : Dev) (c : Nat) (x : MemChan) : (d.setChan c x).records = d.records := rfl
@[simp] theorem Dev.setChan_nv (d : Dev) (c : Nat) (x : MemChan) : (d.setChan c x).nv = d.nv := rfl
@[simp] theorem Dev.get_setChan (p : Part) (d : Dev) (c : Nat) (x : MemChan) (r : Nat) : (d.setChan c x).get p r = d.get p r := rfl
@[simp] theorem Dev.core_setChan (d : Dev) (c : Nat) (x : MemChan) (e : CoreId) : (d.setChan c x).core e = d.core e := rfl

theorem Dev.tx_setTx (d : Dev) (k : Nat) (x : Option TxStream) (j : Nat) : (d.setTx k x).tx j = if j = k then x else d.tx j := by
  simp [Dev.tx, Dev.setTx, smGet_smSet]
@[simp] theorem Dev.setTx_ctl (d : Dev) (k : Nat) (x : Option TxStream) : (d.setTx k x).ctl = d.ctl := rfl
@[simp] theorem Dev.setTx_cores (d : Dev) (k : Nat) (x : Option TxStream) : (d.setTx k x).cores = d.cores := rfl
@[simp] theorem Dev.setTx_net (d : Dev) (k : Nat) (x : Option TxStream) : (d.setTx k x).net = d.net := rfl
@[simp] theorem Dev.setTx_records (d : Dev) (k : Nat) (x : Option TxStream) : (d.setTx k x).records = d.records := rfl
@[simp] theorem Dev.setTx_nv (d : Dev) (k : Nat) (x : Option TxStream) : (d.setTx k x).nv = d.nv := rfl
@[simp] theorem Dev.get_setTx (p : Part) (d : Dev) (k : Nat) (x : Option TxStream) (r : Nat) : (d.setTx k x).get p r = d.get p r := rfl
@[simp] theorem Dev.core_setTx (d : Dev) (k : Nat) (x : Option TxStream) (e : CoreId) : (d.setTx k x).core e = d.core e := rfl

theorem Dev.rx_setRx (d : Dev) (k : Nat) (x : Option RxStream) (j : Nat) : (d.setRx k x).rx j = if j = k then x else d.rx j := by
  simp [Dev.rx, Dev.setRx, smGet_smSet]
@[simp] theorem Dev.setRx_ctl (d : Dev) (k : Nat) (x : Option RxStream) : (d.setRx k x).ctl = d.ctl := rfl
@[simp] theorem Dev.setRx_cores (d : Dev) (k : Nat) (x : Option RxStream) : (d.setRx k x).cores = d.cores := rfl
@[simp] theorem Dev.setRx_net (d : Dev) (k : Nat) (x : Option RxStream) : (d.setRx k x).net = d.net := rfl
@[simp] theorem Dev.setRx_records (d : Dev) (k : Nat) (x : Option RxStream) : (d.setRx k x).records = d.records := rfl
@[simp] theorem Dev.setRx_nv (d : Dev) (k : Nat) (x : Option RxStream) : (d.setRx k x).nv = d.nv := rfl
@[simp] theorem Dev.get_setRx (p : Part) (d : Dev) (k : Nat) (x : Option RxStream) (r : Nat) : (d.setRx k x).get p r = d.get p r := rfl
@[simp] theorem Dev.core_setRx (d : Dev) (k : Nat) (x : Option RxStream) (e : CoreId) : (d.setRx k x).core e = d.core e := rfl

theorem Dev.store_setStore (d : Dev) (n : Nat) (l : List SEntry) (j : Nat) : (d.setStore n l).store j = if j = n then l else d.store j := by
  simp [Dev.store, Dev.setStore, smGet_smSet]
@[simp] theorem Dev.setStore_ctl (d : Dev) (n : Nat) (l : List SEntry) : (d.setStore n l).ctl = d.ctl := rfl
@[simp] theorem Dev.setStore_cores (d : Dev) (n : Nat) (l : List SEntry) : (d.setStore n l).cores = d.cores := rfl
@[simp] theorem Dev.setStore_net (d : Dev) (n : Nat) (l : List SEntry) : (d.setStore n l).net = d.net := rfl
@[simp] theorem Dev.setStore_records (d : Dev) (n : Nat) (l : List SEntry) : (d.setStore n l).records = d.records := rfl
@[simp] theorem Dev.setStore_nv (d : Dev) (n : Nat) (l : List SEntry) : (d.setStore n l).nv = d.nv := rfl
@[simp] theorem Dev.get_setStore (p : Part) (d : Dev) (n : Nat) (l : List SEntry) (r : Nat) : (d.setStore n l).get p r = d.get p r := rfl
@[simp] theorem Dev.core_setStore (d : Dev) (n : Nat) (l : List SEntry) (e : CoreId) : (d.setStore n l).core e = d.core e := rfl

theorem Dev.mark_setMark (d : Dev) (a : Nat) (x : BitVec 3) (b : Nat) : (d.setMark a x).mark b = if b = a then x else d.mark b := by
  simp [Dev.mark, Dev.setMark, smGet_smSet]
@[simp] theorem Dev.setMark_ctl (d : Dev) (a : Nat) (x : BitVec 3) : (d.setMark a x).ctl = d.ctl := rfl
@[simp] theorem Dev.setMark_cores (d : Dev) (a : Nat) (x : BitVec 3) : (d.setMark a x).cores = d.cores := rfl
@[simp] theorem Dev.setMark_net (d : Dev) (a : Nat) (x : BitVec 3) : (d.setMark a x).net = d.net := rfl
@[simp] theorem Dev.setMark_records (d : Dev) (a : Nat) (x : BitVec 3) : (d.setMark a x).records = d.records := rfl
@[simp] theorem Dev.setMark_nv (d : Dev) (a : Nat) (x : BitVec 3) : (d.setMark a x).nv = d.nv := rfl
@[simp] theorem Dev.get_setMark (p : Part) (d : Dev) (a : Nat) (x : BitVec 3) (r : Nat) : (d.setMark a x).get p r = d.get p r := rfl
@[simp] theorem Dev.core_setMark (d : Dev) (a : Nat) (x : BitVec 3) (e : CoreId) : (d.setMark a x).core e = d.core e := rfl

theorem Dev.fenceOf_setFence (d : Dev) (w : Nat) (x : Option Fence) (j : Nat) : (d.setFence w x).fenceOf j = if j = w then x else d.fenceOf j := by
  simp [Dev.fenceOf, Dev.setFence, smGet_smSet]
@[simp] theorem Dev.setFence_ctl (d : Dev) (w : Nat) (x : Option Fence) : (d.setFence w x).ctl = d.ctl := rfl
@[simp] theorem Dev.setFence_cores (d : Dev) (w : Nat) (x : Option Fence) : (d.setFence w x).cores = d.cores := rfl
@[simp] theorem Dev.setFence_net (d : Dev) (w : Nat) (x : Option Fence) : (d.setFence w x).net = d.net := rfl
@[simp] theorem Dev.setFence_records (d : Dev) (w : Nat) (x : Option Fence) : (d.setFence w x).records = d.records := rfl
@[simp] theorem Dev.setFence_nv (d : Dev) (w : Nat) (x : Option Fence) : (d.setFence w x).nv = d.nv := rfl
@[simp] theorem Dev.get_setFence (p : Part) (d : Dev) (w : Nat) (x : Option Fence) (r : Nat) : (d.setFence w x).get p r = d.get p r := rfl
@[simp] theorem Dev.core_setFence (d : Dev) (w : Nat) (x : Option Fence) (e : CoreId) : (d.setFence w x).core e = d.core e := rfl

theorem Dev.fenceWait_setFenceWait (d : Dev) (w : Nat) (l : List (BitVec 6 × BitVec 4)) (j : Nat) : (d.setFenceWait w l).fenceWait j = if j = w then l else d.fenceWait j := by
  simp [Dev.fenceWait, Dev.setFenceWait, smGet_smSet]
@[simp] theorem Dev.setFenceWait_ctl (d : Dev) (w : Nat) (l : List (BitVec 6 × BitVec 4)) : (d.setFenceWait w l).ctl = d.ctl := rfl
@[simp] theorem Dev.setFenceWait_cores (d : Dev) (w : Nat) (l : List (BitVec 6 × BitVec 4)) : (d.setFenceWait w l).cores = d.cores := rfl
@[simp] theorem Dev.setFenceWait_net (d : Dev) (w : Nat) (l : List (BitVec 6 × BitVec 4)) : (d.setFenceWait w l).net = d.net := rfl
@[simp] theorem Dev.setFenceWait_records (d : Dev) (w : Nat) (l : List (BitVec 6 × BitVec 4)) : (d.setFenceWait w l).records = d.records := rfl
@[simp] theorem Dev.setFenceWait_nv (d : Dev) (w : Nat) (l : List (BitVec 6 × BitVec 4)) : (d.setFenceWait w l).nv = d.nv := rfl
@[simp] theorem Dev.get_setFenceWait (p : Part) (d : Dev) (w : Nat) (l : List (BitVec 6 × BitVec 4)) (r : Nat) : (d.setFenceWait w l).get p r = d.get p r := rfl
@[simp] theorem Dev.core_setFenceWait (d : Dev) (w : Nat) (l : List (BitVec 6 × BitVec 4)) (e : CoreId) : (d.setFenceWait w l).core e = d.core e := rfl

theorem Dev.routeMask_setRoutes (d : Dev) (w : Nat) (x : W64) (j : Nat) : (d.setRoutes w x).routeMask j = if j = w then x else d.routeMask j := by
  simp [Dev.routeMask, Dev.setRoutes, smGet_smSet]
@[simp] theorem Dev.setRoutes_ctl (d : Dev) (w : Nat) (x : W64) : (d.setRoutes w x).ctl = d.ctl := rfl
@[simp] theorem Dev.setRoutes_cores (d : Dev) (w : Nat) (x : W64) : (d.setRoutes w x).cores = d.cores := rfl
@[simp] theorem Dev.setRoutes_net (d : Dev) (w : Nat) (x : W64) : (d.setRoutes w x).net = d.net := rfl
@[simp] theorem Dev.setRoutes_records (d : Dev) (w : Nat) (x : W64) : (d.setRoutes w x).records = d.records := rfl
@[simp] theorem Dev.setRoutes_nv (d : Dev) (w : Nat) (x : W64) : (d.setRoutes w x).nv = d.nv := rfl
@[simp] theorem Dev.get_setRoutes (p : Part) (d : Dev) (w : Nat) (x : W64) (r : Nat) : (d.setRoutes w x).get p r = d.get p r := rfl
@[simp] theorem Dev.core_setRoutes (d : Dev) (w : Nat) (x : W64) (e : CoreId) : (d.setRoutes w x).core e = d.core e := rfl

theorem Dev.ring_setRing (d : Dev) (i : Nat) (x : RingSt) (j : Nat) : (d.setRing i x).ring j = if j = i then x else d.ring j := by
  simp [Dev.ring, Dev.setRing, smGet_smSet]
@[simp] theorem Dev.setRing_ctl (d : Dev) (i : Nat) (x : RingSt) : (d.setRing i x).ctl = d.ctl := rfl
@[simp] theorem Dev.setRing_cores (d : Dev) (i : Nat) (x : RingSt) : (d.setRing i x).cores = d.cores := rfl
@[simp] theorem Dev.setRing_net (d : Dev) (i : Nat) (x : RingSt) : (d.setRing i x).net = d.net := rfl
@[simp] theorem Dev.setRing_records (d : Dev) (i : Nat) (x : RingSt) : (d.setRing i x).records = d.records := rfl
@[simp] theorem Dev.setRing_nv (d : Dev) (i : Nat) (x : RingSt) : (d.setRing i x).nv = d.nv := rfl
@[simp] theorem Dev.get_setRing (p : Part) (d : Dev) (i : Nat) (x : RingSt) (r : Nat) : (d.setRing i x).get p r = d.get p r := rfl
@[simp] theorem Dev.core_setRing (d : Dev) (i : Nat) (x : RingSt) (e : CoreId) : (d.setRing i x).core e = d.core e := rfl

theorem Dev.spdmOf_setSpdm (d : Dev) (e : BitVec 8) (x : SpdmSt) (f : BitVec 8) : (d.setSpdm e x).spdmOf f = if f = e then x else d.spdmOf f := by
  simp [Dev.spdmOf, Dev.setSpdm, smGet_smSet, BitVec.toNat_inj]
@[simp] theorem Dev.setSpdm_ctl (d : Dev) (e : BitVec 8) (x : SpdmSt) : (d.setSpdm e x).ctl = d.ctl := rfl
@[simp] theorem Dev.setSpdm_cores (d : Dev) (e : BitVec 8) (x : SpdmSt) : (d.setSpdm e x).cores = d.cores := rfl
@[simp] theorem Dev.setSpdm_net (d : Dev) (e : BitVec 8) (x : SpdmSt) : (d.setSpdm e x).net = d.net := rfl
@[simp] theorem Dev.setSpdm_records (d : Dev) (e : BitVec 8) (x : SpdmSt) : (d.setSpdm e x).records = d.records := rfl
@[simp] theorem Dev.setSpdm_nv (d : Dev) (e : BitVec 8) (x : SpdmSt) : (d.setSpdm e x).nv = d.nv := rfl
@[simp] theorem Dev.get_setSpdm (p : Part) (d : Dev) (e : BitVec 8) (x : SpdmSt) (r : Nat) : (d.setSpdm e x).get p r = d.get p r := rfl
@[simp] theorem Dev.core_setSpdm (d : Dev) (e : BitVec 8) (x : SpdmSt) (c : CoreId) : (d.setSpdm e x).core c = d.core c := rfl

theorem Dev.sens_setSens (d : Dev) (w i : Nat) (x : Sens) (v j : Nat) :
    (d.setSens w i x).sens v j = if 64 * v + j = 64 * w + i then x else d.sens v j := by
  simp [Dev.sens, Dev.setSens, smGet_smSet]
@[simp] theorem Dev.setSens_ctl (d : Dev) (w i : Nat) (x : Sens) : (d.setSens w i x).ctl = d.ctl := rfl
@[simp] theorem Dev.setSens_cores (d : Dev) (w i : Nat) (x : Sens) : (d.setSens w i x).cores = d.cores := rfl
@[simp] theorem Dev.setSens_net (d : Dev) (w i : Nat) (x : Sens) : (d.setSens w i x).net = d.net := rfl
@[simp] theorem Dev.setSens_records (d : Dev) (w i : Nat) (x : Sens) : (d.setSens w i x).records = d.records := rfl
@[simp] theorem Dev.setSens_nv (d : Dev) (w i : Nat) (x : Sens) : (d.setSens w i x).nv = d.nv := rfl
@[simp] theorem Dev.get_setSens (p : Part) (d : Dev) (w i : Nat) (x : Sens) (r : Nat) : (d.setSens w i x).get p r = d.get p r := rfl
@[simp] theorem Dev.core_setSens (d : Dev) (w i : Nat) (x : Sens) (c : CoreId) : (d.setSens w i x).core c = d.core c := rfl

theorem Dev.clkReg_setClkReg (d : Dev) (w q : Nat) (x : ClkReg) (v r : Nat) :
    (d.setClkReg w q x).clkReg v r = if 4 * v + r = 4 * w + q then x else d.clkReg v r := by
  simp [Dev.clkReg, Dev.setClkReg, smGet_smSet]
@[simp] theorem Dev.setClkReg_ctl (d : Dev) (w q : Nat) (x : ClkReg) : (d.setClkReg w q x).ctl = d.ctl := rfl
@[simp] theorem Dev.setClkReg_cores (d : Dev) (w q : Nat) (x : ClkReg) : (d.setClkReg w q x).cores = d.cores := rfl
@[simp] theorem Dev.setClkReg_net (d : Dev) (w q : Nat) (x : ClkReg) : (d.setClkReg w q x).net = d.net := rfl
@[simp] theorem Dev.setClkReg_records (d : Dev) (w q : Nat) (x : ClkReg) : (d.setClkReg w q x).records = d.records := rfl
@[simp] theorem Dev.setClkReg_nv (d : Dev) (w q : Nat) (x : ClkReg) : (d.setClkReg w q x).nv = d.nv := rfl
@[simp] theorem Dev.get_setClkReg (p : Part) (d : Dev) (w q : Nat) (x : ClkReg) (r : Nat) : (d.setClkReg w q x).get p r = d.get p r := rfl
@[simp] theorem Dev.core_setClkReg (d : Dev) (w q : Nat) (x : ClkReg) (c : CoreId) : (d.setClkReg w q x).core c = d.core c := rfl

end Sys2Proof.Machine
end

