-- ==== Sys2Proof/Laws/Wire.lean ====
section
/-! SUPPORT. What the wire formats do: little-endian bytes read back, a run with its CRC passes the check, and a block that
carries a control message is read as that message. -/

namespace Sys2Proof.Machine

@[simp] theorem leBytes_length (n x : Nat) : (leBytes n x).length = n := by
  induction n generalizing x with
  | zero => rfl
  | succ n ih => simp [leBytes, ih]

/-- Little-endian bytes hold the value modulo what they have room for. -/
theorem leNat_leBytes (n x : Nat) : leNat (leBytes n x) = x % 256 ^ n := by
  induction n generalizing x with
  | zero => simp [leBytes, leNat, Nat.mod_one]
  | succ n ih =>
    have h : x % (256 * 256 ^ n) = x % 256 + 256 * (x / 256 % 256 ^ n) := Nat.mod_mul
    rw [leBytes, leNat, ih, BitVec.toNat_ofNat, Nat.pow_succ' (m := 256), h]

@[simp] theorem withCrc_length (bs : List Byte) : (withCrc bs).length = bs.length + 4 := by simp [withCrc]

/-- A run with its CRC after it passes the check. -/
@[simp] theorem crcHolds_withCrc (bs : List Byte) : crcHolds (withCrc bs) = true := by
  have h : (crc32 bs).toNat < 4294967296 := (crc32 bs).isLt
  simpa [crcHolds, withCrc, leNat_leBytes] using h

/-- The message that 636 bytes with their CRC carry. -/
theorem ctrlMsgOf_withCrc (bs : List Byte) (h : bs.length = 636) :
    ctrlMsgOf (withCrc bs) = match (bs.getD 0 0).toNat with
      | 1 => some (.train (half (withCrc bs) 1))
      | 2 => some (.ident (identOf (withCrc bs)))
      | 3 => some (.identAck (identOf (withCrc bs)))
      | 4 => some (.leave (bs.getD 1 0))
      | 5 => some (.abort ((half (withCrc bs) 1).extractLsb' 0 12))
      | _ => none := by
  have g (i : Nat) (hi : i < 636) : (withCrc bs).getD i 0 = bs.getD i 0 := by
    simp [withCrc, List.getD_eq_getElem?_getD, List.getElem?_append_left (by omega : i < bs.length)]
  simp only [ctrlMsgOf, withCrc_length, h, crcHolds_withCrc, g 0 (by omega), g 1 (by omega)]
  rfl

/-- What stands in the first bytes of 636 bytes with their CRC does not depend on the CRC. -/
theorem half_withCrc (bs : List Byte) (i : Nat) (h : i + 2 ≤ bs.length) : half (withCrc bs) i = half bs i := by
  simp only [half, withCrc]
  rw [List.drop_append_of_le_length (by omega), List.take_append_of_le_length (by simp; omega)]

end Sys2Proof.Machine
end

