-- ==== Sys2Proof/WellFormed.lean ====
section
/-! DEFINITION. Which command terms are well formed: those whose operands the manual gives a meaning. exec is total on
the others too: a packet of another kind than its row does nothing. -/

namespace Sys2Proof

/-- Length and units of a READ: 1 to 32 units of 16 bytes (R277, R397). -/
def ReqOp.isRead : ReqOp → Bool
  | .read n => decide (1 ≤ n.toNat) && decide (n.toNat ≤ 32)
  | _ => false
/-- Length of a WRITE: 16 to 512 bytes in units of 16 (R397). -/
def ReqOp.isWrite : ReqOp → Bool
  | .write data => decide (16 ≤ data.length) && decide (data.length ≤ 512) && data.length % 16 == 0
  | _ => false
/-- An ATOMIC with an operation of R410. -/
def ReqOp.isAtomic : ReqOp → Bool
  | .atomic .. => true
  | _ => false
/-- A PUSH packet: a header packet or a second one, with at most four lines of 128 bytes (R165). -/
def ReqOp.isPush : ReqOp → Bool
  | .push _ _ _ lines => decide (lines.length ≤ 4) && lines.all fun l => l.length == 128
  | _ => false
/-- A CREAD. -/
def ReqOp.isCread : ReqOp → Bool
  | .cread => true
  | _ => false
/-- A CWRITE that writes at least one half (R14). -/
def ReqOp.isCwrite : ReqOp → Bool
  | .cwrite _ lower upper => lower || upper
  | _ => false

/-- The check of a command term. The rows not listed have no operand that can be ill formed: their widths are in their
types. -/
def Instr.wf : Instr → Bool
  | .read r => r.op.isRead
  | .write r => r.op.isWrite
  | .atomic r => r.op.isAtomic
  | .push r => r.op.isPush
  | .cread r => r.op.isCread
  | .cwrite r => r.op.isCwrite
  | .rdata r => decide (1 ≤ r.data.length) && decide (r.data.length ≤ 512)
  | .rstat r => r.data.isEmpty
  | .registerWrite _ _ lower upper => lower || upper
  | .feedLine _ _ _ _ data => data.length == 128
  | .routeCardInstall card => card.length == 272
  | .orderlyStop cause => cause != 0
  | .coldReset cause => decide (1 ≤ cause.toNat) && decide (cause.toNat ≤ 4)
  | .warmReset cause => decide (5 ≤ cause.toNat) && decide (cause.toNat ≤ 7)
  | .planeUnhealthy _ _ cause => decide (1 ≤ cause.toNat) && decide (cause.toNat ≤ 7)
  | .bootStep x => decide (x.bins.length ≤ 48)
  | .challenge _ _ nonce => nonce.length == 32
  | _ => true

end Sys2Proof
end

