-- ==== Sys2Proof/Tests/Slice0.lean ====
section
/-! SUPPORT. Tests of one command each on small states, and for every statement with hypotheses a state and operands
that meet them. Expected values come from the manual's tables and examples or from hand calculation. -/

namespace Sys2Proof.Tests
open Sys2Proof.Machine

set_option Elab.async false

/-- The command answers a next state of which the check holds. -/
def gives (i : Instr) (s : State) (p : State → Bool) : Bool :=
  match exec i s with
  | .next t => p t
  | _ => false
/-- Core 0 of site 0. -/
def c0 : CoreId := ⟨0, 0⟩
/-- The reset state with a changed device. -/
def withDev (f : Dev → Dev) : State := { State.reset with dev := f State.reset.dev }
/-- The reset state with core c0 as given. -/
def withCore (k : CoreSt) : State := withDev fun d => d.setCore c0 k
/-- Core c0 in RUN with s1 = 5 and s2 = 2^32 - 3. -/
def running : State := withCore { st := .run, s := [(1, 5), (2, 0xFFFFFFFD)] }
/-- Core c0 has taken an exception of this cause. -/
def excepted (t : State) (cause : Nat) : Bool :=
  (t.k c0).st == .fault && t.dev.recOut.map (fun r => (r.2.code, r.2.ctx0)) == [(0x0101, BitVec.ofNat 64 cause)]

/-! ### Core instructions -/

theorem witness_ScalarArithmetic :
    ready running.part running.dev c0 [3, 1, 2] [] = true ∧ ready running.part running.dev c0 [63, 0] [] = true := by decide +kernel
theorem test_sub_wraps : gives (.sub c0 3 1 2) running (fun t => (t.k c0).getS 3 == 8) = true := by decide +kernel
theorem test_sra_fills : gives (.sra c0 3 2 1) running (fun t => (t.k c0).getS 3 == 0xFFFFFFFF) = true := by decide +kernel
theorem test_slt_signed : gives (.slt c0 3 2 1) running (fun t => (t.k c0).getS 3 == 1) = true := by decide +kernel
theorem test_s0_discards : gives (.add c0 0 1 2) running (fun t => (t.k c0).getS 0 == 0 && (t.k c0).pc == 4) = true := by
  decide +kernel
theorem test_sltiu_extends : gives (.sltiu c0 3 1 0xFFF) running (fun t => (t.k c0).getS 3 == 1) = true := by decide +kernel
theorem test_lui : gives (.lui c0 3 1) running (fun t => (t.k c0).getS 3 == 0x400) = true := by decide +kernel

/-- The same core with s3 = 5, at the last word of its pantry. -/
def branching : State := withCore { st := .run, pc := 0x3FFFFC, s := [(1, 5), (2, 0xFFFFFFFD), (3, 5)] }
theorem witness_BranchesAndJumps : ready branching.part branching.dev c0 [4, 1, 3] [] = true ∧
    (BitVec.ofInt 22 (5 + 3) : BitVec 22).toNat % 4 = 0 ∧ (BitVec.ofInt 22 (5 + 2) : BitVec 22).toNat % 4 ≠ 0 := by decide +kernel
theorem test_beq_wraps : gives (.beq c0 1 3 0xFFF) branching (fun t => (t.k c0).pc == 0x3FFFF8) = true := by decide +kernel
theorem test_blt_not_taken : gives (.blt c0 1 2 4) branching (fun t => (t.k c0).pc == 0) = true := by decide +kernel
theorem test_jal_links : gives (.jal c0 4 3) branching (fun t => (t.k c0).pc == 12 && (t.k c0).getS 4 == 0) = true := by
  decide +kernel
theorem test_jalr_misaligned :
    gives (.jalr c0 4 1 2) branching (fun t => excepted t 3) = true := by decide +kernel

/-- Core c0 with s1 at the last word of the pantry, which holds the bytes 1, 2, 0xFF, 4. -/
def loading : State :=
  { withCore { st := .run, s := [(1, 0x3FFFFC), (2, 0x1234ABCD)] } with mem := (Memory.write [] (pantryAt c0 0x3FFFFC) [1, 2, 0xFF, 4]) }
theorem witness_PantryLoadsAndStores : ready loading.part loading.dev c0 [3, 1] [] = true ∧
    (BitVec.ofInt 32 (0x3FFFFC + (4 : BitVec 12).toInt)).toNat > 0x3FFFFF ∧
    (BitVec.ofInt 32 (0x3FFFFC + (1 : BitVec 12).toInt)).toNat % 2 ≠ 0 ∧
    loading.dev.injBits c0.site.toNat 1 c0.p.toNat = 0 := by decide +kernel
theorem witness_PantryLoadsAndStores_clean : Clean loading c0 0x3FFFFC 4 := fun _ _ _ => rfl
theorem test_lb_signed : gives (.lb c0 3 1 2) loading (fun t => (t.k c0).getS 3 == 0xFFFFFFFF) = true := by decide +kernel
theorem test_lw_little_endian : gives (.lw c0 3 1 0) loading (fun t => (t.k c0).getS 3 == 0x04FF0201) = true := by decide +kernel
theorem test_sh_stores : gives (.sh c0 2 1 2) loading
    (fun t => t.le (pantryAt c0 0x3FFFFC) 4 == 0xABCD0201) = true := by decide +kernel
theorem test_lw_beyond : gives (.lw c0 3 1 4) loading
    (fun t => excepted t 0x02) = true := by
  decide +kernel

/-- A pantry whose word 0 has a double-bit error and whose word 8 a single-bit one. -/
def erroneous : State :=
  withDev fun d => { d.setCore c0 { st := .run } with ecc := [(pantryAt c0 0, 2), (pantryAt c0 8, 1)] }
theorem witness_PantryErrors : ready erroneous.part erroneous.dev c0 [3, 0] [] = true ∧
    (erroneous.dev.mark (pantryAt c0 0)).getLsbD 1 = true ∧ erroneous.dev.mark (pantryAt c0 8) = 1 := by decide +kernel
theorem test_load_double_error : gives (.lw c0 3 0 4) erroneous
    (fun t => excepted t 0x08) = true := by decide +kernel
theorem test_load_single_error : gives (.lw c0 3 0 8) erroneous
    (fun t => (t.k c0).st == .run && t.dev.mark (pantryAt c0 8) == 0) = true := by decide +kernel

/-- Core c0 with s1 = 32, lane 0 of v1 FP32 1.5 and lane 1 the largest subnormal. -/
def vectors : State := withCore { st := .run, s := [(1, 32)], v := [(64, 0x3FC00000), (65, 0x007FFFFF), (66, 0x7FC00001)] }
theorem witness_VectorLoadsAndMoves : ready vectors.part vectors.dev c0 [1] [1] = true ∧ (vectors.k c0).vq.length < 16 ∧
    (BitVec.ofInt 32 (32 + (0x1000 : BitVec 13).toInt * 32)).toNat + 255 > 0x3FFFFF ∧
    (BitVec.ofInt 32 (33 + (0 : BitVec 13).toInt * 32)).toNat % 32 ≠ 0 := by decide +kernel
theorem witness_VectorLoadsAndMoves_clean : Clean vectors c0 32 256 := fun _ _ _ => rfl
theorem test_vld_below_zero : gives (.vld c0 1 1 0x1FFE) vectors
    (fun t => excepted t 0x02) = true := by decide +kernel
theorem test_vst_bytes : gives (.vst c0 1 1 0) vectors
    (fun t => t.le (pantryAt c0 32) 8 == 0x007FFFFF3FC00000) = true := by decide +kernel

/-- A queued operation that writes lane 3 of v0 and raises flag 1. -/
def vectorQueued : State := withCore { st := .run, vq := [{ wr := [(3, 7)], vregs := [0], flags := 2 }] }
theorem witness_VectorCompletion : vectorQueued.dev.edgesHeld c0 = false ∧
    (vectorQueued.k c0).vq = [{ wr := [(3, 7)], vregs := [0], flags := 2 }] ∧ ([(3, (7 : W32))].map Prod.fst).Nodup := by
  decide +kernel
theorem test_vector_completes : gives (.vectorOpComplete c0) vectorQueued
    (fun t => (t.k c0).lane 0 3 == 7 && t.reg (vecR c0 8) == 2 && (t.k c0).vq.isEmpty) = true := by decide +kernel

/-- The lanes that the newest queued vector operation will write. -/
def writes (t : State) : List (Nat × W32) := ((t.k c0).vq.getLast?.map (·.wr)).getD []
theorem witness_VectorFp32 : ready vectors.part vectors.dev c0 [] [4, 1, 2, 3] = true ∧ (vectors.k c0).vq.length < 16 := by
  decide +kernel
theorem test_vmul_fp32 : gives (.vmul c0 .fp32 4 1 1) vectors (fun t => (writes t).take 3 ==
    [(256, 0x40100000), (257, 0), (258, 0x7FC00000)]) = true := by decide +kernel
theorem witness_VectorIntegerAndLogic : ready vectors.part vectors.dev c0 [] [4, 1, 2] = true ∧
    ready vectors.part vectors.dev c0 [] [4, 1, 2, 31] = true := by decide +kernel
theorem test_viota : gives (.viota c0 4) vectors (fun t => (writes t).drop 62 == [(318, 62), (319, 63)]) = true := by
  decide +kernel
theorem witness_VectorPacked : ready vectors.part vectors.dev c0 [] [4, 1, 2, 3] = true ∧ (vectors.k c0).vq.length < 16 := by
  decide +kernel
/-- 1.5 * 1.5 = 2.25, in the upper half of a BF16 pair. -/
theorem test_vmul_bf16 : gives (.vmul c0 (.bf16 .rne .inf) 4 1 1) vectors
    (fun t => (writes t).head? == some (256, 0x40100000)) = true := by decide +kernel
theorem witness_AssistSpecialInputs : ready vectors.part vectors.dev c0 [] [4, 1] = true := by decide +kernel
theorem test_vexp_special : gives (.vexp c0 4 1) vectors
    (fun t => ((writes t).drop 1).take 2 == [(257, 0x3F800000), (258, 0x7FC00000)]) = true := by decide +kernel
theorem witness_VectorReductionsAndSort : ready vectors.part vectors.dev c0 [] [1, 1] = true ∧
    ready vectors.part vectors.dev c0 [] [4, 1] = true := by decide +kernel
theorem test_vrmax_nan : gives (.vrmax c0 4 1) vectors
    (fun t => (writes t).take 2 == [(256, 0x7FC00000), (257, 0)]) = true := by decide +kernel
theorem witness_VectorConversions : ready vectors.part vectors.dev c0 [] [4, 1, 2] = true ∧
    (12 ≤ (15 : BitVec 4).toNat) ∧ ¬((11 : BitVec 4).toNat = 0 ∨ 12 ≤ (11 : BitVec 4).toNat) := by decide +kernel
theorem test_vcvtt_reserved : gives (.vcvtt c0 4 1 12 .rne .inf) vectors
    (fun t => excepted t 0x07) = true := by decide +kernel
theorem test_vcvti : gives (.vcvti c0 4 1 .rne) vectors (fun t => (writes t).head? == some (256, 2)) = true := by decide +kernel

/-- The descriptor of an unscaled tile: format 3 is E4M3, 5 is INT8. -/
def tileAt (base rows cols stride fmt : Nat) : BitVec 128 :=
  BitVec.ofNat 128 (base + (rows - 1) * 2 ^ 22 + (cols - 1) * 2 ^ 31 + stride * 2 ^ 38 + fmt * 2 ^ 54)
/-- Core c0 with tiles in its handles, a weight set with K = 4, and memory holding 1, 2, 3, 4 in the first row. -/
def weights : Tile := ⟨3, 4, 2, (List.range 8).map (fun i => FV.ofInt (Int.ofNat i)), .none, []⟩
def matrices : State :=
  { withCore { st := .run, s := [(1, 33)], wActive := some weights
               t := [(0, tileAt 0 2 4 32 3), (1, tileAt 0 2 65 96 3), (2, tileAt 0 65 4 32 3), (3, tileAt 0 2 4 0 3),
                     (4, tileAt 0 2 4 32 12), (5, tileAt 0 2 4 32 0), (6, tileAt 0x3FFFE0 2 4 32 3), (7, tileAt 0 64 64 64 3)] }
    with mem := Memory.write [] (pantryAt c0 0) [1, 2, 3, 4] }
theorem witness_TileDefine : ready matrices.part matrices.dev c0 [1, 0] [] = true := by decide +kernel
theorem test_td_base_forces_zero : gives (.tdBase c0 0 1) matrices
    (fun t => (t.k c0).getT 0 == tileAt 32 2 4 32 3) = true := by decide +kernel

theorem witness_MatrixIssue : ready matrices.part matrices.dev c0 [] [1] = true ∧ (matrices.k c0).mq.length < 8 ∧
    (matrices.k c0).setsAtIssue.1 = some (3, 4) ∧ pairClass 3 3 = some 8 ∧
    tdCheck ((matrices.k c0).getT 0) .act 8 = none ∧ tdCols ((matrices.k c0).getT 0) = 4 ∧
    tdCheck ((matrices.k c0).getT 7) .weight 8 = none ∧ tdCheck ((matrices.k c0).getT 7) .omul 8 = none ∧
    tdRows ((matrices.k c0).getT 7) = 64 ∧ 448 + tdCols ((matrices.k c0).getT 7) ≤ 512 ∧
    tdCheck ((matrices.k c0).getT 0) .out 0 = none := by decide +kernel
theorem test_mx_mul_captures : gives (.mxMul c0 0 510 false true) matrices
    (fun t => (t.k c0).mq == [⟨.mul (tileAt 0 2 4 32 3) 510 false true 0, 0⟩]) = true := by decide +kernel

theorem witness_MatrixExceptions : ready matrices.part matrices.dev c0 [] [] = true ∧
    tdCols ((matrices.k c0).getT 1) = 65 ∧ tdRows ((matrices.k c0).getT 2) = 65 ∧ tdStride ((matrices.k c0).getT 3) < 4 ∧
    tdFmt ((matrices.k c0).getT 4) = 12 ∧ tdFmt ((matrices.k c0).getT 5) = 0 ∧
    0x3FFFFF < tdBase ((matrices.k c0).getT 6) + 32 + 4 - 1 ∧ 512 < (511 : BitVec 9).toNat + tdRows ((matrices.k c0).getT 0) ∧
    (running.k c0).setsAtIssue.1 = none := by decide +kernel
theorem test_mx_ldw_columns : gives (.mxLdw c0 1) matrices
    (fun t => excepted t 0x04) = true := by decide +kernel
theorem test_mx_st_end : gives (.mxSt c0 6 0 .rne .inf) matrices
    (fun t => excepted t 0x04) = true := by decide +kernel
theorem test_mx_st_rows : gives (.mxSt c0 0 511 .rne .inf) matrices
    (fun t => excepted t 0x06) = true := by decide +kernel

/-- The same core with one matrix operation queued. -/
def matrixQueued (o : MOp) : State := { matrices with dev := matrices.dev.setCore c0 { matrices.k c0 with mq := [⟨o, 8⟩] } }
theorem witness_MatrixStart : (matrixQueued (.ldw (tileAt 0 2 4 32 5))).dev.edgesHeld c0 = false ∧
    (((matrixQueued (.ldw (tileAt 0 2 4 32 5))).k c0).mq = [⟨.ldw (tileAt 0 2 4 32 5), 8⟩]) ∧
    (((matrixQueued (.ldw (tileAt 0 2 4 32 5))).k c0).mrun = []) := by decide +kernel
theorem witness_MatrixStart_clean : CleanTile (matrixQueued (.ldw (tileAt 0 2 4 32 5))) c0 (tileAt 0 2 4 32 5) true :=
  ⟨fun _ _ _ _ _ => rfl, fun _ _ _ => rfl⟩
theorem test_ldw_reads_tile : gives (.matrixOpStart c0 0) (matrixQueued (.ldw (tileAt 0 2 4 32 5)))
    (fun t => (t.k c0).mrun.map (fun r => r.w.map (·.el)) == [some ([1, 2, 3, 4, 0, 0, 0, 0].map FV.ofInt)]) = true := by decide +kernel

/-- The same core with one matrix operation started: a row of 1, 2, 3, 4 times the weight set. -/
def matrixStarted : State := { matrices with dev := matrices.dev.setCore c0 { matrices.k c0 with
  mrun := [⟨.mul (tileAt 0 1 4 32 5) 511 false false 0, 8, some ⟨5, 1, 4, [1, 2, 3, 4].map FV.ofInt, .none, []⟩, some weights⟩] } }
theorem witness_MatrixCompletion : matrixStarted.dev.edgesHeld c0 = false ∧
    (matrixStarted.k c0).mrun.length = 1 ∧ (matrixStarted.k c0).mayEnd 0 (.mul (tileAt 0 1 4 32 5) 511 false false 0) = true ∧ matrixStarted.dev.injBits c0.site.toNat 1 c0.p.toNat = 0 := by decide +kernel
theorem witness_MatrixCompletion_marks : ∀ a, matrixStarted.dev.mark (pantryAt c0 a) = 0 := fun _ => rfl
/-- Column 0 of the weights is 0, 2, 4, 6 and column 1 is 1, 3, 5, 7: the sums 40 and 50. -/
theorem test_mul_row : gives (.matrixOpComplete ⟨c0, 0⟩) matrixStarted
    (fun t => (t.k c0).accAt 511 0 == 0x42200000 && (t.k c0).accAt 511 1 == 0x42480000) = true := by decide +kernel
/-- A load behind a running MX.MUL completes first, a second MX.MUL does not. -/
def loadBehind : State := { matrixStarted with dev := matrixStarted.dev.modCore c0 fun k =>
  { k with mrun := k.mrun ++ [⟨.ldw (tileAt 0 2 4 32 5), 12, none, some weights⟩] ++ k.mrun } }
theorem test_ldw_ends_first : gives (.matrixOpComplete ⟨c0, 1⟩) loadBehind (fun t => (t.k c0).wShadow == some weights && (t.k c0).mrun.length == 2) = true ∧
    gives (.matrixOpComplete ⟨c0, 2⟩) loadBehind (fun t => t == loadBehind) = true := by decide +kernel
theorem witness_IntegerSegmentsExact : ([-128, 127] : List Int).length = ([127, -128] : List Int).length ∧
    (val32 0x4B7FFFFF).eq (FV.ofInt 16777215) = true ∧ (val32 0x80000000).eq (FV.ofInt 0) = true := by decide +kernel

/-! ### Lobbies, waits, system instructions -/

/-- A tile of two lines with SEQ 7 of which line 0, 128 bytes of 9, has landed. -/
def slot7 : LSlot := { seq := 7, hdr := 0x00010007, nl := 1, lines := [(0, List.replicate 128 9)], landed := 1 }
/-- Core c0 in RUN with lobby 0 enabled at SEQ 7 and holding tiles `l`. -/
def lobbies (l : List LSlot) : State :=
  withDev fun d => ((d.setCore c0 { st := .run, lob := [(0, { slots := l, last := [1, 2, 3, 4], held := 0xAB })] }).put
    Part.standard (lobReg c0 0 0) 1).put Part.standard (lobReg c0 0 8) 7
theorem witness_LobbyReads : ready (lobbies [slot7]).part (lobbies [slot7]).dev c0 [0] [BitVec.extractLsb' 0 5 (3 : BitVec 6)] = true ∧
    (lobbies [slot7]).dev.lobEn (lobbies [slot7]).part c0 0 = true ∧
    (lobbies [slot7]).dev.curTile (lobbies [slot7]).part c0 0 = some slot7 ∧
    slot7.landed.getLsbD ((lobbies [slot7]).dev.lobby c0 0).readpos.toNat = true ∧
    (smGet [] slot7.lines 0).length = 128 ∧ (lobbies []).dev.lobEmpty (lobbies []).part c0 0 = true ∧
    (lobbies []).dev.curTile (lobbies []).part c0 0 = none := by decide +kernel
theorem test_lob_rdv : gives (.lobRdv c0 0 3 true) (lobbies [slot7]) (fun t => (t.k c0).lane 3 31 == 0 &&
    (t.k c0).lane 3 32 == 0x09090909 && (t.dev.lobby c0 0).readpos == 1) = true := by decide +kernel
theorem test_lob_underrun : gives (.lobHdr c0 0 5 0) (lobbies []) (fun t => (t.k c0).getS 5 == 0xAB &&
    t.dev.bit t.part (lobR c0 0) 8 && t.reg (lobReg c0 0 0x28) == 1) = true := by decide +kernel
theorem witness_LobbyStatusAndDrop : ready (lobbies [slot7]).part (lobbies [slot7]).dev c0 [5] [] = true ∧
    (lobbies [slot7]).dev.lobEn (lobbies [slot7]).part c0 0 = true ∧ running.dev.lobEn running.part c0 0 = false ∧
    ((lobbies [slot7]).dev.lobby c0 0).marks.length < 8 := by decide +kernel
/-- EN, one tile, 510 free line buffers, neither EMPTY nor a ready condition (CUT 0). -/
theorem test_lob_stat : gives (.lobStat c0 0 5) (lobbies [slot7])
    (fun t => (t.k c0).getS 5 == 0x01FE0120) = true := by decide +kernel
theorem test_lob_drop_marks : gives (.lobDrop c0 0) (lobbies [slot7]) (fun t => (t.dev.lobby c0 0).marks.map (·.seq) == [7] &&
    t.dev.readSeq t.part c0 0 == 8) = true := by decide +kernel
theorem witness_LobbyConfiguration : (lobbies [slot7]).dev.coreOpen (lobbies [slot7]).part c0 = true ∧
    (lobbies [slot7]).dev.edgesHeld c0 = false ∧ ((lobbies [slot7]).dev.lobby c0 0).slot 7 = some slot7 ∧
    (slot7.lines.any fun y => y.1 == (0 : BitVec 2).toNat) = true ∧ slot7.landed.getLsbD 0 = true ∧
    { slot7 with landed := 0 }.landed.getLsbD 0 = false ∧ (8 : BitVec 16) ≠ (lobbies []).dev.readSeq (lobbies []).part c0 0 ∧
    bits (9 : W64) 1 3 ≤ 4 := by decide +kernel
theorem test_line_lands : gives (.lineLands c0 0 7 0) (lobbies [{ slot7 with landed := 0 }])
    (fun t => ((t.dev.lobby c0 0).slot 7).map (·.landed) == some 1) = true := by decide +kernel
theorem test_lob_seq_enabled : gives (.lobSeqWrite c0 0 8) (lobbies []) (fun t => t.dev.readSeq t.part c0 0 == 7) = true := by
  decide +kernel

theorem witness_Waits : ready (lobbies [slot7]).part (lobbies [slot7]).dev c0 [2, 3, 4] [] = true ∧
    (lobbies [slot7]).dev.stopStep = 0 ∧ (2 : BitVec 6).toNat % 2 = 0 ∧ (2 : BitVec 6).toNat ≠ 62 := by decide +kernel
/-- A core that waits for a ledger count that has been reached. -/
def waiting : State := withCore { st := .wait, wait := some (.waitx 0 4 0 false), pc := 8 }
theorem witness_Waits_met : waiting.dev.edgesHeld c0 = false ∧ (waiting.k c0).st = .wait ∧
    (waiting.k c0).wait = some (.waitx 0 4 0 false) ∧ (waiting.k c0).step = false ∧
    waiting.dev.waitMet waiting.part c0 (.waitx 0 4 0 false) = true := by decide +kernel
theorem test_waitx_word : gives (.waitConditionMet c0) waiting
    (fun t => (t.k c0).getS 4 == 2 && (t.k c0).st == .run && (t.k c0).pc == 12) = true := by decide +kernel
theorem test_lob_wait_waits : gives (.lobWait c0 0 false) (lobbies [slot7])
    (fun t => (t.k c0).wait == some (.lobWait 0 false) && (t.k c0).pc == 0) = true := by decide +kernel
theorem witness_SystemInstructions : ready running.part running.dev c0 [2, 3] [] = true ∧ (running.k c0).vq = [] ∧
    (running.k c0).mq = [] ∧ (vectorQueued.k c0).vq ≠ [] ∧ (running.k c0).st = .run ∧
    ready running.part running.dev c0 [62, 63] [] = true ∧ illegalWord 0xF0000000 = true ∧ illegalWord 0x10000013 = true := by
  decide +kernel
theorem test_seed_zero : gives (.seed c0 4) running (fun t => t.reg (coreR c0 0x38) == 1) = true := by decide +kernel
theorem test_pair_62 : gives (.srrd c0 62) running (fun t => excepted t 0x0A) = true := by decide +kernel
theorem test_end_pending : gives (.endProgram c0) { vectorQueued with pending := [.nop c0] }
    (fun t => (t.k c0).ending && (t.k c0).st == .run && t.pending == [.nop c0]) = true := by decide +kernel

theorem witness_CoreControl : running.dev.coreOpen running.part c0 = true ∧ running.dev.stopStep = 0 ∧
    (running.k c0).heldReset = false := by decide +kernel
theorem test_core_reset : gives (.coreReset c0) running (fun t => (t.k c0).st == .reset && (t.k c0).getS 1 == 0) = true := by
  decide +kernel
theorem test_start_only_idle : gives (.coreStart c0) running (fun t => t.dev == running.dev) = true := by decide +kernel
/-- Core c0 at address 4 of a pantry that holds END's word there, with the instruction cache on. -/
def fetching : State :=
  { withDev (fun d => (d.setCore c0 { st := .run, pc := 4 }).put Part.standard (coreR c0 0x48) 1) with
    mem := Memory.write [] (pantryAt c0 4) [0x78, 0x56, 0x34, 0x12] }
theorem witness_InstructionFetch : fetching.part.has c0 = true ∧ (fetching.k c0).canIssue = true ∧
    fetching.dev.edgesHeld c0 = false ∧ (fetching.k c0).pc.toNat % 4 = 0 ∧ fetching.dev.bit fetching.part (coreR c0 0x48) 0 = true ∧
    smGet none (fetching.k c0).ic 0 = none ∧ running.dev.bit running.part (coreR c0 0x48) 0 = true := by decide +kernel
theorem witness_InstructionFetch_clean : Clean fetching c0 0 128 := fun _ _ _ => rfl
/-- The word at address 0 holds a double-bit error, then a single-bit error, with the cache off. -/
def fetchingBad (m : BitVec 3) : State :=
  withDev fun d => ((d.setCore c0 { st := .run }).put Part.standard (coreR c0 0x48) 0).setMark (pantryAt c0 0) m
theorem witness_InstructionFetch_errors : (fetchingBad 2).part.has c0 = true ∧ ((fetchingBad 2).k c0).canIssue = true ∧
    (fetchingBad 2).dev.edgesHeld c0 = false ∧ ((fetchingBad 2).dev.mark (pantryAt c0 0)).getLsbD 1 = true ∧
    (fetchingBad 2).dev.bit (fetchingBad 2).part (coreR c0 0x48) 0 = false ∧ (fetchingBad 1).dev.mark (pantryAt c0 0) = 1 := by
  decide +kernel
theorem test_fetch_double_error : gives (.instructionFetch c0) (fetchingBad 2) (fun t => excepted t 8) = true := by decide +kernel
theorem test_fetch_fills : gives (.instructionFetch c0) fetching (fun t => (t.k c0).fetched == some (4, 0x12345678) &&
    t.reg (coreR c0 0x118) == 1) = true := by decide +kernel

/-! ### Porter -/

/-- Core c0 with queue 2 enabled, ring of 2^LOG2SIZE descriptors at 0x1000, HEAD 0, TAIL 1, and a descriptor there. -/
def queued (bytes : List Byte) : State :=
  { withDev (fun d => ((d.setCore c0 { st := .run, s := [(1, 1), (2, 0x100)] }).setB Part.standard (prtReg c0 2 0) 0 true).put
      Part.standard (prtReg c0 2 0x10) 1) with mem := Memory.write [] (pantryAt c0 0) bytes }
theorem witness_PorterQueues : ready (queued []).part (queued []).dev c0 [1, 3] [] = true ∧
    (queued []).dev.coreOpen (queued []).part c0 = true ∧ (queued []).dev.qEn (queued []).part c0 2 = true ∧
    (queued []).dev.qEn (queued []).part c0 3 = false ∧ 2 ^ (queued []).dev.qLog2 (queued []).part c0 2 < (0xFFFF : BitVec 16).toNat ∧
    ((queued []).dev.qTail (queued []).part c0 3 - (queued []).dev.qHead (queued []).part c0 3).toNat ≤
      2 ^ (queued []).dev.qLog2 (queued []).part c0 3 ∧ (queued []).dev.descs c0 2 = [] := by decide +kernel
theorem test_tail_too_far : gives (.qtailWrite c0 2 0xFFFF) (queued [])
    (fun t => t.dev.qCause t.part c0 2 == 2 && t.dev.qTail t.part c0 2 == 0xFFFF) = true := by decide +kernel
theorem test_doorbell_disabled : gives (.prtDb c0 3 1) (queued []) (fun t => excepted t 9) = true := by decide +kernel
/-- FILL (2) of 16 bytes of pattern 0x11 at 0x80; WAIT (4); NOP (0); and operation 5, malformed. -/
def fill16 : List Byte := [2, 0, 0x10, 0, 0, 0, 0, 0, 0x11, 0, 0, 0, 0, 0, 0, 0, 0x80, 0, 0, 0, 0, 0x40]
theorem witness_DescriptorStart : (queued fill16).part.has c0 = true ∧ ((queued fill16).k c0).st ≠ .fenced ∧
    (queued fill16).dev.edgesHeld c0 = false ∧ (queued fill16).dev.stopStep ≠ 3 ∧ (withDev fun d => { d with stopStep := 3 }).dev.stopStep = 3 ∧ (queued fill16).dev.qEn (queued fill16).part c0 2 = true ∧
    (queued fill16).dev.qCause (queued fill16).part c0 2 = 0 ∧
    (queued fill16).dev.qHead (queued fill16).part c0 2 ≠ (queued fill16).dev.qTail (queued fill16).part c0 2 ∧
    (queued fill16).dev.descs c0 2 = [] ∧ ((queued fill16).k c0).activeDescs < 8 ∧
    (queued fill16).dev.qDbase (queued fill16).part c0 2 = 0 := by decide +kernel
theorem witness_DescriptorStart_clean : Clean (queued fill16) c0 0 32 := fun _ _ _ => rfl
theorem test_fill_starts : gives (.descriptorStart c0 2) (queued fill16)
    (fun t => (t.dev.descs c0 2).map (fun x => (x.op, x.len, x.malformed)) == [(2, 16, false)]) = true := by decide +kernel
theorem test_malformed_starts : gives (.descriptorStart c0 2) (queued [5])
    (fun t => t.dev.qCause t.part c0 2 == 1 && t.reg (prtR c0 0x20) == 1) = true := by decide +kernel
/-- A WAIT descriptor with CPL and TAG 0x1234 whose count 0 has been reached. -/
def waitDesc : Desc := { idx := 0, w0 := 0x1234000000000024, phase := .waitLedger }
def waitQueued : State := withCore { st := .run, prt := [(2, [waitDesc])] }
theorem witness_DescriptorStart_wait : waitQueued.dev.edgesHeld c0 = false ∧ waitQueued.dev.descs c0 2 = [waitDesc] ∧
    waitDesc.op = 4 ∧ waitDesc.cpl = true ∧ (waitQueued.dev.snoop c0 - waitDesc.w1).toNat < 2 ^ 63 ∧
    waitQueued.dev.injBits c0.site.toNat 1 c0.p.toNat = 0 := by decide +kernel
theorem test_wait_completes : gives (.porterWaitReached c0 2) waitQueued
    (fun t => t.le (pantryAt c0 0) 8 == 0x1001234) = true := by decide +kernel

/-- A FILL of 32 bytes to the core's own pantry at 0x80, and one to the pantry of core 1. -/
def fillDesc (p : Nat) : Desc :=
  { idx := 0, w0 := 0x200002, w1 := 0x8877665544332211, w2 := BitVec.ofNat 64 (0x400000000080 + 0x1000000 * p) }
def filling (p : Nat) : State := withCore { st := .run, prt := [(2, [fillDesc p])] }
/-- A PUSH of one tile of one line from 0 to lobby 0 of core 1, and one whose tile 0 was refused. -/
def pushDesc (retry : List PRetry) (tiles : Nat) : Desc :=
  { idx := 0, w0 := 0x10000000003, w1 := 0x400000000000, w2 := 0x400001400000, tiles := tiles, retry := retry }
def pushing (retry : List PRetry) (tiles : Nat) : State := withCore { st := .run, prt := [(2, [pushDesc retry tiles])] }
theorem witness_PorterPackets :
    (filling 0).dev.served (filling 0).part (filling 0).mem c0 = some 2 ∧
    (filling 0).dev.worker (filling 0).part (filling 0).mem c0 2 = some (fillDesc 0) ∧ (fillDesc 0).op = 2 ∧ (fillDesc 0).total = 32 ∧
    (filling 0).dev.ownPantry (filling 0).part c0 ((fillDesc 0).dstAt 0) = some 0x80 ∧
    (filling 1).dev.ownPantry (filling 1).part c0 ((fillDesc 1).dstAt 0) = none ∧
    (pushing [] 0).dev.served (pushing [] 0).part (pushing [] 0).mem c0 = some 2 ∧
    (pushing [] 0).dev.worker (pushing [] 0).part (pushing [] 0).mem c0 2 = some (pushDesc [] 0) ∧
    (pushing [] 0).dev.ownPantry (pushing [] 0).part c0 ((pushDesc [] 0).srcAt 0) = some 0 ∧ (pushDesc [] 0).lineN = 1 ∧
    (pushing [⟨0, 0, 1, 2, false⟩] 1).dev.offDie (pushing [⟨0, 0, 1, 2, false⟩] 1).part c0 (pushDesc [] 1).w2 = false := by
  decide +kernel
/-- The clause for the own pantry needs a chunk that is not the last. -/
def bigFill : Desc := { fillDesc 0 with w0 := 0x4000002 }
def fillingBig : State := withCore { st := .run, prt := [(2, [bigFill])] }
theorem witness_PorterPackets_chunk : bigFill.chunk (fillingBig.dev.srcOwn fillingBig.part c0 bigFill 0) 0 = 384 ∧
    bigFill.total = 1024 ∧ fillingBig.dev.served fillingBig.part fillingBig.mem c0 = some 2 ∧
    fillingBig.dev.worker fillingBig.part fillingBig.mem c0 2 = some bigFill := by decide +kernel
theorem test_fill_pantry : gives (.porterPacketIssue c0 2) (filling 0)
    (fun t => t.le (pantryAt c0 0x98) 8 == 0x8877665544332211) = true := by decide +kernel
theorem test_push_sends : gives (.porterPacketIssue c0 2) (pushing [] 0)
    (fun t => (t.k c0).prtTag == 1 && t.dev.net.length == 1) = true := by decide +kernel
theorem test_push_retry : gives (.pushRetry c0 2) (pushing [⟨0, 0, 1, 2, false⟩] 1)
    (fun t => t.dev.net.length == 1 && (t.dev.descs c0 2).map (fun x => x.retry.map (·.tries)) == [[2]]) = true := by decide +kernel

/-- The block at 0x100 asks for a fetch-and-add of 1 at the pantry of core 1. -/
def atomic : State := { queued [] with mem := Memory.write [] (pantryAt c0 0x100) ([0, 0, 0, 1, 0, 0x40, 0, 0, 1] ++ List.replicate 48 0 ++ [1]) }
theorem witness_PorterAtomics : ready atomic.part atomic.dev c0 [2] [] = true ∧ ((atomic.k c0).getS 2).toNat = 0x100 ∧
    (atomic.k c0).atoms = [] ∧ atomic.dev.injBits c0.site.toNat 1 c0.p.toNat = 0 ∧
    (BitVec.ofNat 64 (atomic.le (pantryAt c0 0x100) 8)).toNat % 8 = 0 ∧ ((atomic.k c0).getS 1).toNat % 64 ≠ 0 := by decide +kernel
theorem witness_PorterAtomics_clean : Clean atomic c0 0x100 64 := fun _ _ _ => rfl
theorem test_atomic_numbers : gives (.prtAtom c0 2 0) atomic (fun t => (t.k c0).aseq == 1 &&
    (t.k c0).atoms.map (fun x => (x.aseq, x.addr)) == [(0, 0x400001000000)] && t.byte (pantryAt c0 0x139) == 0) = true := by
  decide +kernel
def atom0 : Atom := ⟨0x100, 0, 5, 5, 0x400001000000, 1, 0, 0, 0, [], []⟩
def answer16 : Resp := { dst := atomic.dev.coreSrc c0, tag := 5, status := 0, data := List.replicate 16 7, from' := 0 }
/-- The atomic is outstanding since count 0, the ledger stands at `t`, and its answer has come. -/
def answered (t : W64) (net : List Msg) : State :=
  withDev fun d => { d.setCore c0 { st := .run, atoms := [atom0], snoopOff := t } with net := net }
theorem witness_PorterAtomics_late : ((answered 12000 []).dev.snoop c0 - (atom0.sentT + 12000)).toNat < 2 ^ 63 ∧
    ¬((answered 11999 []).dev.snoop c0 - (atom0.sentT + 12000)).toNat < 2 ^ 63 ∧ (answered 12000 []).dev.edgesHeld c0 = false := by
  decide +kernel
theorem test_atomic_retry : gives (.atomicRetry c0 0) (answered 12000 []) (fun t => (t.k c0).atoms.map (·.attempt) == [1]) = true := by
  decide +kernel
theorem test_atomic_ends : gives (.atomicResult c0 5) (answered 0 [.resp answer16]) (fun t => (t.k c0).atoms.isEmpty &&
    t.byte (pantryAt c0 0x137) == 7 && t.byte (pantryAt c0 0x139) == 1 && t.dev.net.isEmpty) = true := by decide +kernel

/-! ### The device, its counters, barriers, fences, the mesh, requests -/

theorem part_grade_A : ∀ n, n < 16 → Part.standard.minGood ≤ Part.standard.nGood n := by decide +kernel
theorem witness_StepsStaySound : State.reset.sound := ⟨rfl, part_grade_A, by decide +kernel, by decide +kernel⟩
/-- A grade A die with 61 good cores does not meet its grade. -/
theorem test_grade : ¬ ({ Part.standard with good := [(3, 0x1FFFFFFFFFFFFFFF)] } : Part).valid := fun h =>
  absurd (h.1 3 (by decide)) (by decide +kernel)
theorem test_step_takes_front : step { running with pending := [.nop c0, .halt c0] } =
    exec (.nop c0) { running with pending := [.halt c0] } := rfl
theorem test_step_idles : step running = .next running := rfl

/-- Every site of the package is ready. -/
def allReady (d : Dev) : Dev := d.put Part.standard (idR 20 0x108) 0x7FFFFF
/-- Core c0 in RUN in a ready package, and a value in one register. -/
def upWith (a : Nat) (v : W64) : State := withDev fun d => (allReady (d.setCore c0 { st := .run })).put Part.standard a v
theorem witness_CounterLayout : (upWith (mxuR c0 0x100) 9).dev.dead = false ∧
    (upWith (mxuR c0 0x100) 9).dev.refusedAtSender Part.standard (.ctl (mxuR c0 0x100)) = none ∧
    ((upWith (mxuR c0 0x100) 9).k c0).st ≠ .fenced := by decide +kernel
theorem test_counter_holds : countUp 0x0000FFFFFFFFFFFF 1 = 0x8000FFFFFFFFFFFF := by decide +kernel
theorem test_counter_write : gives (.registerWrite (BitVec.ofNat 40 (mxuR c0 0x100)) 5 true false) (upWith (mxuR c0 0x100) 0x8000000000000009)
    (fun t => t.reg (mxuR c0 0x100) == 0x8000000000000000) = true := by decide +kernel

/-- Barrier 3 of site 0 with members 0 and 1 and no external arrivals; `k` for core 1. -/
def barrier (k : CoreSt) (arrived mask : W64) : State :=
  withDev fun d => { ((d.setCore c0 { st := .run }).setCore ⟨0, 1⟩ k).put Part.standard (barReg 0 3 0) mask with
    barIn := smSet 0 [] 3 arrived }
def atBarrier : CoreSt := { st := .wait, wait := some (.bar 3), bars := [(3, some (0, 0))] }
theorem witness_Barriers : ready (barrier {} 0 3).part (barrier {} 0 3).dev c0 [] [] = true ∧
    (barrier {} 0 0).dev.barMask (barrier {} 0 0).part 0 3 = 0 ∧ (barrier {} 0 3).dev.barMask (barrier {} 0 3).part 0 3 = 3 ∧
    smGet none ((barrier {} 0 3).k c0).bars 3 = none ∧ (barrier {} 2 3).dev.barArr 0 3 = 2 ∧
    (barrier {} 2 3).dev.barLost (barrier {} 2 3).part 0 3 = false ∧
    ((barrier atBarrier 2 3).k ⟨0, 1⟩).onBar 3 = true := by decide +kernel
theorem witness_Barriers_none : ∀ e : CoreId, ¬(e.site = 0 ∧ (State.reset.k e).onBar 3 = true) := fun _ h => by
  simp [State.k, State.reset, Dev.core, CoreSt.onBar] at h
theorem witness_Barriers_free : (∀ e : CoreId, (barrier atBarrier 2 3).dev.edgesHeld e = false) ∧
    ((barrier atBarrier 2 3).k ⟨0, 1⟩).waitsBar 3 = true ∧ (barrier {} 3 3).dev.barMask (barrier {} 3 3).part 0 3 &&&
      ~~~((barrier {} 3 3).dev.barArr 0 3) = 0 ∧ (barrier {} 0 3).dev.stopStep = 0 :=
  ⟨fun _ => rfl, by decide +kernel, by decide +kernel, rfl⟩
theorem test_bar_last : gives (.bar c0 3) (barrier atBarrier 2 3) (fun t => (t.k c0).pc == 4 && (t.k ⟨0, 1⟩).st == .run &&
    t.field (barReg 0 3 0x10) 0 32 == 1) = true := by decide +kernel
theorem test_ext_arrive_holds : gives (.extArrive 0 3 0xFFFF) (barrier {} 0 3) (fun t =>
    t.field (barReg 0 3 0x10) 48 16 == 0xFFFF) = true := by decide +kernel
theorem test_mask_write_ignored : gives (.barMaskWrite 0 3 (.mask 7)) (barrier atBarrier 2 3) (fun t =>
    t.reg (barReg 0 3 0) == 3) = true := by decide +kernel

/-- A fence request for core c0 with cause 1, and a fence of c0 in progress. -/
def fenceAsked : State := withDev fun d => (d.setCore c0 { st := .run }).setFenceWait 0 [(0, 1)]
def fenceGoing : State := withDev fun d => (d.setCore c0 { st := .fenced }).setFence 0 (some ⟨[(0, 1, .run)], [3]⟩)
theorem witness_Fences : (running.dev.liveMask running.part 0).getLsbD 0 = true ∧ fenceAsked.dev.fenceOf 0 = none ∧
    fenceAsked.dev.fenceWait 0 = [(0, 1)] ∧ (fenceAsked.dev.liveMask fenceAsked.part 0).getLsbD 0 = true ∧
    fenceGoing.dev.fenceOf 0 = some ⟨[(0, 1, .run)], [3]⟩ ∧
    ((upWith (meshR 0 0x10) 1).dev.liveMask (upWith (meshR 0 0x10) 1).part 0).getLsbD 0 = false := by decide +kernel
/-- The fence covers core 0, whose control router still holds a message. -/
def fenceHolds : State := { fenceGoing with dev := { fenceGoing.dev with ctlHeld := [⟨0, 0, none, none, 3, 1, none⟩] } }
theorem witness_Fences_drain : fenceHolds.dev.undrained 0 = true ∧ fenceGoing.dev.undrained 0 = false := by decide +kernel
theorem test_fence_waits : gives (.fenceComplete 0) fenceHolds (fun t => t == fenceHolds) = true := by decide +kernel
theorem test_fence_starts : gives (.fenceStart 0) fenceAsked (fun t => (t.k c0).st == .fenced && t.reg (meshR 0 0x10) == 1 &&
    t.field (meshR 0 0x20) 0 1 == 1 && t.field (meshR 0 0x20) 16 4 == 1) = true := by decide +kernel
theorem test_fence_ends : gives (.fenceComplete 0) fenceGoing (fun t => t.dev.records.map (fun r => (r.cls, r.code, r.ctx0)) ==
    [(2, 0x0204, 1), (3, 0x0205, 1), (3, 0x0206, 3)]) = true := by decide +kernel

def reqTo (a : W64) (op : ReqOp) : Req := { src := mkSrc 0 1 0, addr := a, tag := 3, op := op }
/-- The package is ready and the message is under way. -/
def sentTo (m : Msg) (k : CoreSt) : State := withDev fun d => { allReady (d.setCore c0 k) with net := [m] }
def respTo : Resp := { dst := mkSrc 0 0 0, tag := 3, status := 0, from' := 1 }
/-- A request of core 0 of die 1 to the pantry of its core 9, at column 1 of row 1; one to the pantry of core 1; an answer
of its own die to core 0. -/
def meshReq : Msg := .req (reqTo 0x400049000000 (.read 8))
def besideReq : Msg := .req (reqTo 0x400041000000 (.read 8))
def meshResp : Resp := { respTo with from' := 0, origin := some (9, false) }
/-- The answer has reached router 0 of die 0; and two answers of router 9, one packet up to router 1. -/
def arriving (k : CoreSt) : State := { sentTo (.resp meshResp) k with dev := { (sentTo (.resp meshResp) k).dev with hops := [(0, .resp meshResp, some 0)] } }
def castResp (p : BitVec 6) : Resp := { meshResp with dst := mkSrc 0 0 p, origin := some (11, false) }
def casting : State := withDev fun d => { allReady d with net := [.resp (castResp 0), .resp (castResp 2)], mcast := [[.resp (castResp 0), .resp (castResp 2)]] }
/-- A control message that waits at router 0 of die 0, whose tables know every router. -/
def ctlHolds (l : List CtlMsg) : State := withDev fun d => { d.setRoutes 0 (-1) with ctlHeld := l }
theorem witness_MeshAndCombining : running.dev.held 1 0 = false ∧ running.dev.injBits 1 3 0 = 0 ∧
    (sentTo meshReq {}).dev.meshReady Part.standard 1 0 false meshReq = true ∧
    (sentTo besideReq {}).dev.meshReady Part.standard 1 0 true besideReq = true ∧
    (sentTo besideReq {}).dev.meshReady Part.standard 1 0 false besideReq = false ∧
    meshReq ∈ (sentTo meshReq {}).dev.net ∧ respCore (sentTo meshReq {}).dev 1 meshReq = none ∧
    (arriving { st := .fenced }).dev.meshReady Part.standard 0 0 false (.resp meshResp) = true ∧
    Msg.resp meshResp ∈ (arriving { st := .fenced }).dev.net ∧ (arriving {}).dev.mcast = [] ∧
    meshResp.dst = (arriving { st := .fenced }).dev.coreSrc ⟨0, 0⟩ := by decide +kernel
theorem witness_MeshAndCombining_multicast : casting.dev.meshReady Part.standard 0 11 false (.resp (castResp 0)) = true ∧
    casting.dev.movesWith Part.standard 0 11 (.resp (castResp 0)) = [.resp (castResp 0), .resp (castResp 2)] := by decide +kernel
theorem test_multicast_one_hop : gives (.meshPacket 0 11 false 5 (.resp (castResp 0)) .none ⟨0, 0⟩) casting
    (fun t => t.reg (meshR 0 0x40) == 5 && t.dev.hops == [(0, .resp (castResp 0), some 10), (0, .resp (castResp 2), some 10)]) = true := by
  decide +kernel
theorem witness_MeshAndCombining_control : flitsOk 3 1 = true ∧ (running.dev.liveMask running.part 0).getLsbD 63 = true ∧
    routeStep 0 ((ctlHolds []).dev.routeMask 0) 0 none = some none ∧
    routeStep 0 (running.dev.routeMask 0) 0 none = none ∧
    (ctlHolds [⟨0, 0, none, none, 3, 1, none⟩]).dev.ctlHeld = [⟨0, 0, none, none, 3, 1, none⟩] ∧
    (ctlHolds [⟨0, 1, none, some 0, 3, 1, none⟩]).dev.ctlHeld = [⟨0, 1, none, some 0, 3, 1, none⟩] := by decide +kernel
/-- Core 0 of die 0 has raised a record that has not entered the control network. -/
def rec0 : FaultRec := { code := 0x0101, cls := 1, source := mkSrc 0 0 0, ledger := 0 }
def raisedAt0 : State := withDev fun d => { d.setRoutes 0 (-1) with recOut := [(c0, rec0)] }
theorem witness_MeshAndCombining_record : flitsOk 2 8 = true ∧
    (raisedAt0.dev.recOut.find? fun y => y.1 == c0) = some (c0, rec0) ∧
    routeStep 0 (raisedAt0.dev.routeMask 0) 0 none = some none ∧ (raisedAt0.dev.liveMask raisedAt0.part 0).getLsbD 0 = true ∧
    (ctlHolds [⟨0, 1, none, some 0, 2, 8, some rec0⟩]).dev.ctlHeld = [⟨0, 1, none, some 0, 2, 8, some rec0⟩] := by decide +kernel
theorem test_record_enters : gives (.controlMessage 0 0 2 8 ⟨none, true⟩) raisedAt0 (fun t => t.dev.recOut == [] &&
    t.dev.ctlHeld == [⟨0, 0, none, none, 2, 8, some rec0⟩]) = true := by decide +kernel
theorem test_record_arrives : gives (.controlMessage 0 0 2 8 ⟨none, false⟩) (ctlHolds [⟨0, 0, none, none, 2, 8, some rec0⟩])
    (fun t => t.dev.records == [rec0] && t.reg (meshR 0 0x58) == 1) = true := by decide +kernel
theorem test_mesh_uncorrectable : gives (.meshPacket 1 0 false 9 meshReq .uncorrectable ⟨0, 0⟩)
    (sentTo meshReq {}) (fun t => t.reg (meshR 1 0x40) == 9 && t.dev.net.length == 1 && !t.dev.net.contains meshReq) = true := by
  decide +kernel
theorem test_mesh_x_first : gives (.meshPacket 1 0 false 9 meshReq .none ⟨0, 0⟩) (sentTo meshReq {})
    (fun t => t.dev.hops == [(1, meshReq, some 1)]) = true := by decide +kernel
theorem test_mesh_fenced : gives (.meshPacket 0 0 false 1 (.resp meshResp) .none ⟨10, 7⟩) (arriving { st := .fenced })
    (fun t => t.dev.net.isEmpty) = true := by decide +kernel
theorem test_edge_entry : edgeEntry 27 = 24 ∧ edgeEntry 36 = 60 ∧ bankRouter 5 = 27 := by decide +kernel
theorem test_control_priority : gives (.controlMessage 0 0 3 1 ⟨none, false⟩) (ctlHolds [⟨0, 0, none, none, 3, 1, none⟩, ⟨0, 0, none, none, 1, 2, none⟩])
    (fun t => t.reg (meshR 0 0x58) == 0 && t.dev.ctlHeld.length == 2) = true := by decide +kernel

/-- A request at the pantry of core c0, at the commons of site 0, and at lobby 0 of c0. -/
def pantryReq (op : ReqOp) : Req := reqTo 0x4000003FFFF0 op
def commonsReq (op : ReqOp) : Req := reqTo 0x600000000000 op
def lobbyReq (op : ReqOp) : Req := reqTo 0x400000400000 op
/-- A tile of SEQ 7 with one line. -/
def hdr7 : BitVec 128 := 7
/-- Lobby 0 of c0 enabled at SEQ 7 for the producer `src`, holding tiles `l`. -/
def lobbyFor (m : Msg) (l : List LSlot) : State :=
  withDev fun d => { ((allReady (d.setCore c0 { st := .run, lob := [(0, { slots := l })] })).put Part.standard (lobReg c0 0 0)
    (BitVec.ofNat 64 (1 + (mkSrc 0 1 0).toNat * 2 ^ 10))).put Part.standard (lobReg c0 0 8) 7 with net := [m] }
theorem witness_Requests : (sentTo (.req (pantryReq (.read 1))) {}).dev.dead = false ∧
    gaNode (pantryReq (.read 1)).addr = (sentTo (.req (pantryReq (.read 1))) {}).dev.node ∧
    (allReady State.reset.dev).place Part.standard (gaLocal (pantryReq (.read 1)).addr) = .pantry c0 0x3FFFF0 ∧
    (allReady State.reset.dev).place Part.standard (gaLocal (commonsReq (.read 1)).addr) = .commons 0 0 ∧
    (allReady State.reset.dev).place Part.standard (gaLocal (lobbyReq (.read 1)).addr) = .lobby c0 0 0 ∧
    (allReady State.reset.dev).refusedAtSender Part.standard (.pantry c0 0x3FFFF0) = none ∧
    (allReady State.reset.dev).refusedAtSender Part.standard (.commons 0 0) = none ∧
    (allReady State.reset.dev).refusedAtSender Part.standard (.lobby c0 0 0) = none ∧
    (allReady State.reset.dev).coreRefused Part.standard c0 = none ∧ (State.reset.k c0).st ≠ .fenced ∧
    (allReady State.reset.dev).tornDown Part.standard c0 = false ∧ shapeOk 0x3FFFF0 16 = true ∧ shapeOk 0x3FFFF0 32 = false ∧
    (allReady State.reset.dev).combines Part.standard 0 (mkSrc 0 1 0) 128 = false ∧
    (allReady State.reset.dev).combines Part.standard 0 (mkSrc 0 0 0) 128 = true := by decide +kernel
def expecting (k : CoreSt) : State := sentTo (.resp respTo) k
/-- The clock edges of the region of core 0 of die 0 are withheld. -/
def edgesOut (s : State) : State := { s with dev := { s.dev with clkRegs := [(0, { below := true })] } }
theorem witness_Requests_held : (edgesOut (sentTo (.req (pantryReq (.read 1))) {})).dev.targetHeld (pantryReq (.read 1)) (.pantry c0 0x3FFFF0) = true ∧
    (edgesOut (sentTo (.req (pantryReq (.read 1))) {})).dev.refusedAtSender Part.standard (.pantry c0 0x3FFFF0) = none ∧
    (sentTo (.req (pantryReq (.read 1))) {}).dev.targetHeld (pantryReq (.read 1)) (.pantry c0 0x3FFFF0) = false ∧
    (allReady State.reset.dev).targetHeld (commonsReq (.read 1)) (.commons 0 0) = false ∧
    (allReady State.reset.dev).targetHeld (lobbyReq (.read 1)) (.lobby c0 0 0) = false := by decide +kernel
/-- A request that stands at a router of the mesh, and a later one of its stream behind it. -/
def onItsWay : State := { sentTo (.req (pantryReq (.read 1))) {} with dev :=
  { (sentTo (.req (pantryReq (.read 1))) {}).dev with hops := [(0, .req (pantryReq (.read 1)), some 3)] } }
theorem witness_Requests_waits : onItsWay.dev.onMesh (.req (pantryReq (.read 1))) = true ∧
    (sentTo (.req (pantryReq (.read 1))) {}).dev.onMesh (.req (pantryReq (.read 1))) = false ∧
    (sentTo (.req (pantryReq (.read 1))) {}).dev.behind Part.standard (pantryReq (.read 1)) = false ∧
    (sentTo (.req (commonsReq (.read 1))) {}).dev.portWaits Part.standard (commonsReq (.read 1)) (.commons 0 0) = false := by
  decide +kernel
theorem test_request_on_mesh_waits : gives (.read (pantryReq (.read 1))) onItsWay (fun t => t == onItsWay) = true := by decide +kernel
theorem test_held_core_waits : gives (.rdata respTo) (edgesOut (expecting {})) (fun t => t.dev.net == [.resp respTo]) = true := by
  decide +kernel
theorem witness_Requests_push : (lobbyFor (.req (lobbyReq (.push 7 0 (some hdr7) [[]]))) []).dev.lobEn Part.standard c0 0 = true ∧
    (mkSrc 0 1 0).toNat = (lobbyFor (.req (lobbyReq (.push 7 0 (some hdr7) [[]]))) []).field (lobReg c0 0 0) 10 27 ∧
    hdrSeq hdr7 = 7 ∧ hdr7.extractLsb' 20 4 = 0 ∧ (hdrNl hdr7).toNat + 1 = 1 := by decide +kernel
theorem test_read_last_bytes : gives (.read (pantryReq (.read 1)))
    { sentTo (.req (pantryReq (.read 1))) {} with mem := Memory.write [] (pantryAt c0 0x3FFFFF) [0xAA] }
    (fun t => t.dev.net == [.resp { dst := mkSrc 0 1 0, tag := 3, status := 0, data := List.replicate 15 0 ++ [0xAA], from' := 0, origin := some (0, true) }]) = true := by
  decide +kernel
theorem test_write_commons : gives (.write (commonsReq (.write (List.replicate 16 5)))) (sentTo (.req (commonsReq (.write (List.replicate 16 5)))) {})
    (fun t => t.byte (cmnAt 0 15) == 5 && t.byte (cmnAt 0 16) == 0 && t.reg (cmnR 0 0x108) == 1) = true := by decide +kernel
/-- Signed minimum (2) of 3 and 2^64 - 1. -/
theorem test_atomic_min : gives (.atomic (commonsReq (.atomic 2 0xFFFFFFFFFFFFFFFF 0 0 9)))
    { sentTo (.req (commonsReq (.atomic 2 0xFFFFFFFFFFFFFFFF 0 0 9))) {} with mem := Memory.write [] (cmnAt 0 0) [3] }
    (fun t => t.le (cmnAt 0 0) 8 == 0xFFFFFFFFFFFFFFFF && (t.dev.store 0).map (·.aseq) == [9]) = true := by decide +kernel
theorem test_push_admitted : gives (.push (lobbyReq (.push 7 0 (some hdr7) [List.replicate 128 1])))
    (lobbyFor (.req (lobbyReq (.push 7 0 (some hdr7) [List.replicate 128 1]))) [])
    (fun t => (t.dev.lobby c0 0).slots.map (·.seq) == [7]) = true := by decide +kernel

/-- A CREAD and a CWRITE of SRLFSR of core c0, and a CREAD of an offset of block CORE where no register stands. -/
def regReq (a : Nat) (op : ReqOp) : Req := reqTo (BitVec.ofNat 64 (0x7F0000000000 + a)) op
theorem witness_RegisterAccesses : (allReady State.reset.dev).place Part.standard (gaLocal (regReq (coreR c0 0x38) .cread).addr) = .ctl (coreR c0 0x38) ∧
    (allReady State.reset.dev).refusedAtSender Part.standard (.ctl (coreR c0 0x38)) = none ∧
    gaNode (regReq (coreR c0 0x38) .cread).addr = State.reset.dev.node ∧
    regFields Part.standard (coreR c0 0xFF8) = none ∧ (allReady State.reset.dev).fencedReg (coreR c0 0xFF8) false = false := by decide +kernel
/-- Registers of plain blocks, of HANDOFF, and of CONFIRM; a write of ETH_CTRL that leaves a reserved bit set. -/
theorem witness_RegisterAccesses_plain : [mxuR c0 0x100, cmnR 0 0x108, hostR 0x18, portR 3 0x208, memcR 0 0x30, fwR 0x28, coreR c0 0x10].all
      (fun a => (regFields Part.standard a).isSome && ownCtl a && decide (a % 8 = 0) && !State.reset.dev.fencedReg a true &&
        (allReady State.reset.dev).place Part.standard (gaLocal (regReq a .cread).addr) == .ctl a &&
        (allReady State.reset.dev).refusedAtSender Part.standard (.ctl a) == none) = true ∧
    (allReady State.reset.dev).place Part.standard (gaLocal (regReq 0x4 .cread).addr) = .ctl 4 ∧
    State.reset.dev.handoffRefused Part.standard 0 (mkSrc 0 20 1) 0 = none ∧
    State.reset.dev.handoffRefused Part.standard 1 (mkSrc 0 20 1) 0 = some stBadRequest ∧
    srcSite (regReq (fwR 0x28) .cread).src = 1 ∧ CoreState.idle ∈ [CoreState.reset, .idle, .halt] ∧ CoreState.run ∉ [CoreState.reset, .idle, .halt] ∧
    (regFields Part.standard (memcR 0 0x10)).map (fun fs => (writesReserved fs 2 3 true true, writesReserved fs 2 1 true true)) = some (true, false) := by decide +kernel
theorem test_cread_handoff_words : gives (.cwrite (regReq (memcR 1 0x30) (.cwrite 0 true true))) (sentTo (.req (regReq (memcR 1 0x30) (.cwrite 0 true true))) {})
    (fun t => t.dev.net.map (fun m => match m with | .resp r => some r.status | _ => none) == [some stBadRequest]) = true := by decide +kernel
theorem test_cread_fenced_state : gives (.cread (regReq (coreR c0 8) .cread)) (sentTo (.req (regReq (coreR c0 8) .cread)) { st := .fenced })
    (fun t => t.dev.net.map (fun m => match m with | .resp r => r.data.take 2 | _ => []) == [[6, 0]]) = true := by decide +kernel
theorem test_cwrite_zero_seed : gives (.cwrite (regReq (coreR c0 0x38) (.cwrite 0 true true)))
    { upWith (coreR c0 0x38) 5 with dev := { (upWith (coreR c0 0x38) 5).dev with
      net := [.req (regReq (coreR c0 0x38) (.cwrite 0 true true))] } } (fun t => t.reg (coreR c0 0x38) == 1) = true := by decide +kernel

/-- A FILL that waits for the answer of one packet of 32 bytes, and an atomic. -/
def filled : Desc := { fillDesc 1 with phase := .waitAcks, issued := 32, pkts := [⟨3, .wr, 0, 32, 1⟩] }
theorem witness_Responses : (expecting { prt := [(2, [filled])] }).dev.dead = false ∧
    ((expecting { prt := [(2, [filled])] }).k c0).pktOf 3 = some (2, filled, ⟨3, .wr, 0, 32, 1⟩) ∧ filled.op = 2 ∧ filled.cpl = false ∧
    filled.total ≤ filled.issued ∧ respTo.dst = (expecting {}).dev.coreSrc c0 ∧
    (expecting {}).dev.edgesHeld c0 = false ∧ (edgesOut (expecting {})).dev.edgesHeld c0 = true ∧ Msg.resp respTo ∈ (expecting {}).dev.net ∧
    ((expecting { atoms := [{ atom0 with tag := 3 }] }).k c0).pktOf 3 = none ∧ stOk ∉ [stPathError, stBusy] := by decide +kernel
/-- Four attempts: the first ended BUSY; a PATH_ERROR for the second leaves the third and the fourth. -/
def atomTried : Atom := { atom0 with tag := 8, oldTags := [3], attempt := 1, bad := [(0, stBusy)] }
theorem witness_Responses_atom : atomTried.tags = [3, 8] ∧ respTo.tag ∈ ({ atom0 with tag := 3 } : Atom).tags ∧
    { atomTried with bad := atomTried.bad ++ [(atomTried.tags.idxOf 8, stPathError)] }.ended < 4 ∧
    (expecting {}).dev.respWaits respTo = false ∧ (arriving {}).dev.respWaits meshResp = true := by decide +kernel
theorem test_retried_status_kept : gives (.rstat { respTo with tag := 8, status := stPathError })
    (sentTo (.resp { respTo with tag := 8, status := stPathError }) { atoms := [atomTried] })
    (fun t => (t.k c0).atoms.map (·.bad) == [[(0, stBusy), (1, stPathError)]]) = true := by decide +kernel
theorem test_fill_ends : gives (.rstat respTo) (expecting { prt := [(2, [filled])] })
    (fun t => (t.dev.descs c0 2).isEmpty && t.reg (prtR c0 0x18) == 1) = true := by decide +kernel
theorem test_stray_answer : gives (.rdata respTo) (expecting {}) (fun t => t.dev.net.isEmpty) = true := by decide +kernel

/-! ### Photonic banks, rings and trims -/

/-- Bank 0 in state `st` with WVALID, its channel 0 enabled for producer 0 with tiles of `tl` lines, and the given storage. -/
def banked (st : Nat) (k : BankSt) (tl : Nat := 4) : State :=
  withDev fun d => (((d.setBank 0 k).put Part.standard (pwbR 0 8) (BitVec.ofNat 64 (st + 16))).put
    Part.standard (chR 0 0 0) (BitVec.ofNat 64 (1 + 2 * tl))).put Part.standard (chR 0 0 0x18) 0x500000003
/-- Every weight 1, every scale 1.0, and a line of 1s. -/
def ones : BankSt := { q := List.replicate 4096 1, c := List.replicate 64 0x3F800000, ch := [(0, { feed := [List.replicate 128 1] })] }
def aTile : BTile := ⟨[List.replicate 128 7], 2, true, 0⟩
def tiled : BankSt := { ch := [(0, { tiles := [aTile] })] }
theorem witness_BankChannels_feed : srcNode 0 = (banked 3 {}).dev.node ∧ (srcSite 0).toNat = 0 / 2 ∧
    (0 : Src).toNat = (banked 3 {}).field (chR 0 0 0) 10 27 ∧ (banked 3 {}).dev.roleOut 0 3 0 = false ∧
    (banked 3 {}).dev.chRun Part.standard 0 0 = true ∧ (banked 3 {}).dev.bankState Part.standard 0 = 3 ∧
    (banked 3 {}).dev.chRun Part.standard 0 1 = false ∧ (1 : Src).toNat ≠ (banked 3 {}).field (chR 0 0 0) 10 27 := by decide +kernel
theorem witness_BankChannels_vector : (banked 3 ones).dev.bankTurn Part.standard 0 = some 0 ∧
    ((banked 3 ones).dev.bch 0 0).feed = [List.replicate 128 1] ∧ ones.q.length = 4096 ∧
    (banked 3 ones).dev.bit Part.standard (pwbR 0 0x10) 0 = false ∧ ((banked 3 ones).dev.bch 0 0).lines.length < 4 := by decide +kernel
theorem witness_BankChannels_tiles : ((banked 3 tiled).dev.bch 0 0).tiles = [aTile] ∧ ((banked 3 tiled).dev.bch 0 0).retrying = false ∧
    ((banked 3 { ch := [(0, { lines := [[1]] })] }).dev.bch 0 0).lines ≠ [] ∧
    (banked 3 {}).dev.chEn Part.standard 0 1 = false ∧
    ((banked 3 {}).dev.now - 0).toNat < 2 ^ 63 := by decide +kernel
theorem test_feed_waits : gives (.feedLine 0 0 0 0 (List.replicate 128 1)) (banked 3 {})
    (fun t => ((t.dev.bch 0 0).feed.map List.length) == [128]) = true := by decide +kernel
theorem test_tile_leaves : gives (.outputTileSend 0 0) (banked 3 tiled)
    (fun t => t.dev.net.length == 1 && t.field (chR 0 0 0x10) 32 16 == 1 && t.field (chR 0 0 0x18) 0 32 == 8 &&
      (t.dev.bch 0 0).tiles.isEmpty) = true := by decide +kernel
theorem test_flush_last : gives (.flush 0 0) (banked 3 { ch := [(0, { tiles := [aTile], lines := [[1]], tidx := 3 })] })
    (fun t => (t.dev.bch 0 0).tiles == [aTile, ⟨[[1]], 0, true, 3⟩] && (t.dev.bch 0 0).tidx == 0) = true := by decide +kernel

/-- Bank 0 in state `st` with a load or a calibration requested. -/
def requested (st : Nat) (a : Nat) : State := { banked st {} with dev := (banked st {}).dev.put Part.standard a 2 }
def loaded : BankSt := { load := some { got := [(0, List.replicate 4352 1)], ready := true, steps := 64 } }
theorem witness_BankStates : (requested 1 (pwbR 0 0x28)).dev.canLoad Part.standard 0 = true ∧
    (requested 3 (pwbR 0 0x30)).dev.canCal Part.standard 0 = true ∧ (∀ m ∈ bankNeighbours 0, ¬m < 0) ∧
    ((requested 1 (pwbR 0 0x28)).reg (pwbR 0 0x20)).toNat % 128 = 0 ∧ (banked 1 {}).field (pwbR 0 0x28) 0 2 = 0 ∧
    ((banked 2 loaded).dev.bank 0).load.isSome = true ∧ (banked 2 loaded).dev.bankTrack 0 = true ∧
    (banked 5 {}).dev.bankRingFail 0 = false ∧ (banked 3 {}).dev.injBits 31 12 0 = 0 ∧ (1505 : BitVec 16).toInt < 1506 := by
  decide +kernel
theorem witness_BankStates_levels : (List.replicate 64 (0 : BitVec 16))[5]? = some 0 ∧
    (∀ x ∈ List.replicate 64 (0 : BitVec 16), (0 : BitVec 16).toInt ≤ x.toInt) ∧
    smGet [] ((banked 3 { levels := [(0, [0])] }).dev.bank 0).levels 0 ≠ [] :=
  ⟨by decide, fun _ h => by simp [List.eq_of_mem_replicate h], by decide +kernel⟩
theorem witness_BankStates_parking : ((banked 4 { parking := some 0 }).dev.bank 0).parking = some 0 ∧ 19200 ≤ elapsed 19200 0 := by decide +kernel
theorem witness_BankStates_precise : (banked 3 {}).dev.bankPrecise Part.standard 0 = false := by
  decide +kernel
theorem witness_BankStates_probe : ({ banked 3 {} with dev := (banked 3 {}).dev.put Part.standard (pwbR 0 0x10) 0x300 }).field (pwbR 0 0x10) 8 4 ≠ 0 ∧
    240000 ≤ elapsed 240000 0 ∧ ((banked 4 { autoCause := some 0 }).dev.bank 0).autoCause = some 0 := by decide +kernel
theorem witness_BankStates_unpark : ((banked 0 {}).dev.put Part.standard (idR 20 0x100) 15).bootReached Part.standard 7 = true ∧
    (banked 0 {}).dev.heldOut Part.standard 0 = false ∧ ((banked 0 {}).dev.put Part.standard (ltnR (bankLantern 0) 0x408) 3).ltnSt Part.standard (bankLantern 0) = 3 := by decide +kernel
theorem test_load_reads_image : gives (.loadStart 0) (requested 1 (pwbR 0 0x28)) (fun t => t.field (pwbR 0 8) 0 4 == 2 &&
    t.dev.net.length == 34 && t.field (pwbR 0 0x28) 0 2 == 1) = true := by decide +kernel
theorem test_load_completes : gives (.loadComplete 0 true) (banked 2 loaded) (fun t => t.field (pwbR 0 8) 0 5 == 0x13 &&
    t.field (pwbR 0 8) 32 32 == 1 && (t.dev.bank 0).q.length == 4096) = true := by decide +kernel
theorem test_stall_clears : gives (.stallClear 0) (banked 4 {}) (fun t => t.field (pwbR 0 8) 0 4 == 3 &&
    t.field (pwbR 0 8) 32 32 == 1) = true := by decide +kernel

/-- Bank 0 READY with ring 5 in a phase. -/
def ringAt (ph : RingPh) (st : Nat) : State :=
  { banked st {} with dev := ((banked st {}).dev.setRing 5 { ph := ph }).put Part.standard (pwbR 0 0x50) 0x1040 }
/-- Boot has reached step 8. -/
def booted : State := withDev fun d => d.put Part.standard (idR 20 0x100) 15
theorem witness_RingsAndTrims : ((ringAt .track 3).dev.ring (bankRing 0 5)).ph = .track ∧
    ((ringAt .sweep 4).dev.ring (bankRing 0 5)).ph = .sweep ∧ ((ringAt .verify 3).dev.ring (bankRing 0 5)).ph = .verify ∧
    (ringAt .sweep 4).dev.bankState Part.standard 0 ∈ [1, 4] ∧ (ringAt .track 3).dev.bankShown Part.standard 0 ≠ 0 ∧ booted.dev.bootReached booted.part 7 = true ∧
    (booted.dev.ring (ringIx (.port 3 4))).ph = .track ∧ (booted.dev.ring (ringIx (.lattice 2 false 1 9))).ph = .track ∧
    booted.dev.inFallback booted.part 2 = false ∧ booted.dev.bankState booted.part 0 ≠ 5 ∧
    (banked 5 {}).dev.bankState Part.standard 0 = 5 ∧ booted.dev.recal = none ∧ booted.dev.stopStep = 0 ∧
    (∀ f ∈ roundPorts 3, booted.dev.portLit booted.part f = false) := by decide +kernel
theorem witness_RingsAndTrims_defaults : ∀ a, isTrim State.reset.part a = true → ctlSite a = 0 → State.reset.dev.inCal State.reset.part a = false := by
  intro a h h0
  simp [isTrim, h0, isBase] at h
  simp [Dev.inCal, h, State.reset]
theorem test_ring_disturbed : gives (.ringDisturbance (.bank 0 5)) (ringAt .track 3)
    (fun t => (t.dev.ring 5).ph == .verify && t.field (pwbR 0 8) 0 4 == 4 && t.field (pwbR 0 0x50) 0 13 == 0x103F) = true := by
  decide +kernel
theorem test_ring_locks : gives (.sweepEnd (.bank 0 5) (some 0)) (ringAt .sweep 4)
    (fun t => (t.dev.ring 5).ph == .track && t.field (pwbR 0 0x50) 0 13 == 0x1041) = true := by decide +kernel
/-- A trim moves since count 0 and has taken 63 of its steps. -/
def slewing (now : W64) : State := withDev fun d => { d with raw := now, led := [now, now, now], slews := [(0x12345, some ⟨9, 63, 0⟩)] }
theorem witness_RingsAndTrims_slew : smGet none (slewing 19200).dev.slews (0x12345 : BitVec 40).toNat = some ⟨9, 63, 0⟩ ∧
    300 * (63 + 1) ≤ elapsed (slewing 19200).dev.now 0 ∧ elapsed (slewing 19199).dev.now 0 < 300 * (63 + 1) := by decide +kernel
theorem test_slew_ends : gives (.trimSlewStep 0x12345) (slewing 19200) (fun t => t.dev.slews == []) = true := by decide +kernel
theorem test_pkg_go : gives .pkgGo State.reset (fun t => t.dev.recal.map (·.phase) == some 1) = true := by decide +kernel

/-! ### The lattice -/

/-- Boot has finished, both planes of endpoints 0 and 1 are healthy, and a change. -/
def lattice (f : Dev → Dev) : State :=
  withDev fun d => f (((d.put Part.standard (idR 20 0x100) 15).put Part.standard (latR 0 0) 3).put Part.standard (latR 1 0) 3)
def latPkt (l : BitVec 10) : LatPkt := { dst := 0, src := 1, vc := .req, lseq := l, rpl := false, body := .resp 0 { dst := 0, tag := 5, status := 3 } }
/-- A packet of pair 1 to 0 under way. -/
def latSent (l : BitVec 10) : State := lattice fun d => { d with net := [.lattice false (latPkt l)] }
theorem witness_Lattice : (latSent 0).dev.bootReached Part.standard 7 = true ∧
    Msg.lattice false (latPkt 0) ∈ (latSent 0).dev.net ∧ (latSent 0).dev.inFallback Part.standard 0 = false ∧
    (latSent 0).dev.dormant Part.standard 0 = false ∧ Msg.lattice false (latPkt 0) ∉ (latSent 0).dev.corrupt ∧
    (latPkt 0).lseq = (latSent 0).dev.pairExpect Part.standard 0 1 ∧ (latPkt 511).lseq ≠ (latSent 511).dev.pairExpect Part.standard 0 1 ∧
    (latSent 0).dev.planeOk Part.standard 0 true = true ∧ (latSent 0).dev.switching Part.standard 0 = false ∧
    (latSent 0).dev.selectPlane Part.standard 0 1 = some false := by decide +kernel
/-- Endpoint 0 in switch-over, in fall-back, and without a healthy plane. -/
theorem witness_Lattice_states :
    (lattice fun d => d.setB Part.standard (latR 0 0) 4 true).dev.switching Part.standard 0 = true ∧
    (lattice fun d => d.setB Part.standard (latR 0 0) 2 true).dev.inFallback Part.standard 0 = true ∧
    (lattice fun d => d.put Part.standard (latR 0 0) 0).dev.planeOk Part.standard 0 false = false ∧
    (lattice fun d => d.put Part.standard (latR 0 0) 0).dev.planeTracks 0 false = true ∧
    (lattice fun d => d.setF Part.standard (pairR 0 1) 48 1 1).dev.pairPlane Part.standard 0 1 = true ∧
    (lattice id).dev.handoff = none ∧ (lattice id).dev.injBits 31 10 0 = 0 ∧
    ((lattice fun d => { d with slotNext := 1024 }).dev.slotNext = 1024) := by decide +kernel
/-- A lane group in use with role 0, and its third failure. -/
def laned (v : W64) : State := withDev fun d => { d with ctl := [(laneR 0 3, v)] }
theorem witness_Lattice_lane : (laned 0).field (laneR 0 3) 13 2 < 2 ∧
    (laned 0).field (laneR 0 3) 0 3 < 4 ∧
    (laned 0x20000).field (laneR 0 3) 16 2 = 2 := by decide +kernel
/-- Its header by R276: DST 0, SRC 0x1F, TYPE 9, VC REQ, LEN 0, LSEQ l, TAG 5, status 3; and its bytes. -/
theorem test_lattice_header : latHeader 0 (latPkt 2) = 0x1F * 2 ^ 5 + 9 * 2 ^ 16 + 2 * 2 ^ 28 + 5 * 2 ^ 54 + 3 * 2 ^ 66 := by decide +kernel
theorem test_lattice_crc : crc32 [0x31, 0x32, 0x33, 0x34, 0x35, 0x36, 0x37, 0x38, 0x39] = 0xCBF43926 ∧
    latGood 0 (latPkt 0) (latImage 0 (latPkt 0)) = true ∧ latGood 0 (latPkt 0) (latImage 0 (latPkt 1)) = false := by decide +kernel
/-- TYPE 0xA, though its CRC holds, is never sent. -/
theorem test_lattice_type : latGood 0 (latPkt 0) (withCrc [0, 0, 0x0A, 0, 0, 0, 0, 0, 0, 0, 0, 0, 0, 0, 0, 0]) = false := by decide +kernel
/-- A slot word by R274: trunk 1 released, a bid for 3, trunk 2 granted to 4, STOP of RSP, an ACK of sender 1 with LSEQ 5. -/
theorem test_slot_word : slotWord 2 (some 3) [(2, 4)] 2 [(false, 1, 5)] =
    2 + 3 * 2 ^ 16 + 2 ^ 21 + 2 ^ 22 + 2 * 2 ^ 23 + 4 * 2 ^ 27 + 2 ^ 43 + 2 ^ 64 + 2 ^ 66 + 5 * 2 ^ 71 := by decide +kernel
theorem test_lattice_delivers : gives (.latticePacket false (latPkt 0) (latImage 0 (latPkt 0))) (latSent 0) (fun t =>
    t.dev.latAcks == [(0, 1, false, 0)] && t.dev.pairExpect t.part 0 1 == 1) = true := by decide +kernel
/-- A packet 512 behind the last delivered one counts as ahead, so one is lost; the last one has been delivered. -/
theorem test_lattice_out_of_order : gives (.latticePacket false (latPkt 511) (latImage 0 (latPkt 511))) (latSent 511) (fun t =>
    t.dev.latAcks == [(0, 1, true, 0x3FF)]) = true ∧
    gives (.latticePacket false (latPkt 0x3FF) (latImage 0 (latPkt 0x3FF))) (latSent 0x3FF) (fun t =>
      t.dev.latAcks == [(0, 1, false, 0x3FF)]) = true := by
  decide +kernel
/-- The third peer whose packet fails within 1,024 slots loses the plane with code 3 (R285). -/
def failing (peers : List Nat) : State := lattice fun d => { d with slotNext := 9, latFails := peers.map fun x => ⟨8, 0, false, false, x, false⟩ }
theorem test_lattice_fails : gives (.latticePacket false (latPkt 0) []) (failing [2, 3]) (fun t => !t.dev.planeOk t.part 0 false &&
    t.field (latR 0 0) 8 4 == 3) = true ∧
    gives (.latticePacket false (latPkt 0) []) (failing [2, 2]) (fun t => t.dev.planeOk t.part 0 false) = true := by decide +kernel
/-- The example of R270: W3 sends to L2 in slots 3j on trunk 14 and in slots 3j + 2 on trunk 6. -/
theorem test_timetable : assigned 3 14 3 = 18 ∧ assigned 5 6 3 = 18 ∧ (List.range 16).all (fun t => assigned 4 t 3 != 18) = true := by decide
theorem witness_Lattice_probe : (lattice fun d => { d with slotNext := 1, latGrants := [] }).dev.probeOpen Part.standard 0 1 = true := by
  decide +kernel
theorem witness_Lattice_timeout : (lattice fun d => { d with slotNext := 256, latNaks := [(1, 0)], latReplay := [⟨latPkt 0, 0, 0, false⟩] }).dev.latNaks = [(1, 0)] := rfl
theorem witness_Lattice_frame : (lattice fun d => d.setB Part.standard (latR 0 0) 2 true).dev.framed Part.standard 0
    (.req { src := mkSrc 0 20 0, addr := BitVec.ofNat 64 (0x7F0000000000 + idR 0 0), tag := 0, op := .cread }) = true := by decide +kernel
theorem witness_Lattice_trigger : (lattice fun d => { d with rolesOut := [(0, 1, 0)] }).dev.triggered 0 false 7 = true := by decide +kernel
def allLit (d : Dev) : Dev := (List.range 16).foldl (fun d g => d.put Part.standard (ltnR g 0x408) 3) d
theorem witness_Lattice_clear : (lattice allLit).dev.planeLit Part.standard true = true ∧
    (lattice fun d => allLit { d with slotNext := 1024 }).dev.planeClear Part.standard 0 false = true := by decide +kernel
/-- The strobes of a notice, one of which is in error. -/
theorem witness_Lattice_strobes : noticeWord 3 true false ≠ ~~~noticeWord 3 true false := by
  generalize noticeWord 3 true false = w
  revert w
  decide +kernel
/-- Only the errors of the last 1 ms of a lane count (R301). -/
theorem test_lane_errors : gives (.flitRetry 0 ⟨3, 2⟩) (withDev fun d => { d with
      led := [1200000, 1200000, 1200000], flitErrs := [(3 * 128 + 2, [0, 1, 1200000])] })
    (fun t => smGet [] t.dev.flitErrs (3 * 128 + 2) == [1, 1200000, 1200000]) = true := by decide +kernel
/-- Checker 4 of group 3 of site 0 has an injected error left. -/
theorem witness_Lattice_flit : (withDev fun d => d.setInj Part.standard 0 (some ⟨4, 1, 3, 1⟩)).dev.injBits 0 4 3 = 1 ∧
    State.reset.dev.injBits 0 4 3 = 0 := by decide +kernel
/-- An injected error has spoilt the packet's bytes; and a request of core 0 of die 1 to the L dies waits while endpoint 0 falls. -/
def latBad : State := lattice fun d => { d with net := [.lattice false (latPkt 0)], corrupt := [.lattice false (latPkt 0)] }
def farReq : Req := { src := mkSrc 0 20 0, addr := 0x600000000000, tag := 7, op := .read 1 }
theorem witness_Lattice_injected : Msg.lattice false (latPkt 0) ∈ latBad.dev.corrupt ∧ (latPkt 0).dst = 0 := by decide +kernel
theorem test_injected_nak : gives (.latticePacket false (latPkt 0) []) latBad (fun t => t.dev.latAcks == [(0, 1, true, 0x3FF)] &&
    t.dev.latFails == [] && t.dev.latInj == [(0, 1)]) = true := by decide +kernel
/-- Endpoint 0 is ready to fall back, and to have its plane A healthy again; its pair with 1 is on plane B. -/
theorem witness_Lattice_planes :
    (lattice fun d => (allLit { d with slotNext := 1024 }).put Part.standard (latR 0 0) 0).dev.planeLit Part.standard false = true ∧
    (lattice id).dev.accessOut 0 = false ∧ smGet 0 (lattice fun d => { d with slotNext := 1024 }).dev.planeErr 0 + 1024 ≤ 1024 ∧
    (lattice fun d => d.put Part.standard (latR 0 0) 0).dev.dormant Part.standard 0 = false ∧
    (lattice fun d => d.put Part.standard (latR 0 0) 0).dev.planeOk Part.standard 0 true = false ∧
    (lattice fun d => d.setF Part.standard (pairR 0 1) 48 1 1).dev.selectPlane Part.standard 0 1 = some false ∧
    (lattice fun d => { (allReady d) with net := [.req farReq] }).dev.endsTouch Part.standard 0 (.req farReq) = true ∧
    isW (srcSite farReq.src).toNat = false ∧ onWiring farReq = false ∧ reqAttempt farReq = none := by decide +kernel
/-- A berth's module whose upper half has failed twice; and a memory group without spares, of channel 2 of L0. -/
def moduled : State := withDev fun d => { d with ctl := [(laneR 21 3, 1), (roleR 21 1, 0)], halfBad := [(2 * (768 * 21 + 3) + 1, 2)] }
theorem witness_Lattice_modules : isG 21 = true ∧ moduled.field (laneR 21 3) 13 2 = 0 ∧ moduled.field (laneR 21 3) 0 3 < 5 ∧
    smGet 0 moduled.dev.halfBad (2 * (768 * 21 + 3) + 1) + 1 = 3 ∧
    (withDev fun d => { d with ctl := [(laneR 16 3, 0x20204)] }).field (laneR 16 3) 0 3 = 4 ∧
    (withDev fun d => { d with ctl := [(laneR 16 3, 0x20204)] }).field (laneR 16 3) 16 2 = 2 ∧
    (withDev fun d => { d with ctl := [(laneR 16 3, 0x20204)] }).field (laneR 16 3) 8 5 = 2 := by decide +kernel
/-- GROUPS of a W site, an L site and K0 (R299). -/
theorem test_lane_plan : (resetWord Part.standard (roleR 1 0), resetWord Part.standard (roleR 1 1), resetWord Part.standard (roleR 1 2),
    resetWord Part.standard (roleR 1 3)) = (32, 164, 320, 132) ∧ resetWord Part.standard (roleR 16 4) = 96 := by decide +kernel
theorem test_plane_lost : gives (.planeUnhealthy 0 false 2) (lattice id) (fun t => !t.dev.planeOk t.part 0 false &&
    t.dev.switching t.part 0 && t.dev.net.length == 24) = true := by decide +kernel

/-! ### Fabric ports and lanterns -/

/-- Port 5 in state `st` with its storage; its lantern LIT; the ledger and boot as given. -/
def ported (st : Nat) (x : PortSt) (now : W64 := 0) : State :=
  withDev fun d => ((({ d with raw := now, led := [now, now, now] }.setPort 5 x).put Part.standard (portR 5 8) (BitVec.ofNat 64 st)).put
    Part.standard (ltnR 1 0x408) 3).put Part.standard (portR 5 0x10) 0x1020009
def block0 : LinkBlock := { errs := [], ctrl := blockCtrl 1 false false 0 5, data := List.replicate 640 0 }
def fabPkt (l : BitVec 12) : FabPkt :=
  { vc := .req, lseq := l, rpl := false, dnode := 9, snode := 0, iboard := 0, phase := true, rmode := false, alt := 0, ord := false,
    flag := false, erpl := false, hops := 0, chan := 0, eseq := 0, cseq := 0, pred := 0, epoch := 0, body := some .probe }
def inReplay : PortSt := { replay := [{ pkt := fabPkt 0, first := 0, last := 0 }], nakIn := true }
def peer9 (vmin vmax : BitVec 4) (rcid : BitVec 32) : Ident := ⟨9, 2, vmin, vmax, 0, 0xFFFF, rcid⟩
theorem witness_Ports : (ported 6 inReplay).dev.portSt Part.standard 5 = 6 ∧ ((ported 6 inReplay).dev.port 5).nakIn = true ∧
    720 ≤ elapsed (ported 6 inReplay 720).dev.now 0 ∧ 1800 ≤ elapsed (ported 6 inReplay 1800).dev.now 0 ∧
    384 ≤ elapsed (ported 6 {} 384).dev.now ((ported 6 {} 384).dev.port 5).blockT ∧ (ported 6 {}).dev.listed Part.standard 5 = true ∧
    (fabPkt 0).lseq = ((ported 6 {}).dev.port 5).expect ∧ (fabPkt 1).lseq ≠ ((ported 6 {}).dev.port 5).expect ∧
    (ported 3 {}).dev.offTrack (400000 + 32 * 5) (400000 + 32 * 6) = [] ∧ 12000000 ≤ elapsed (ported 4 {} 12000000).dev.now 0 ∧
    (ported 5 {}).field (portR 5 0x10) 0 16 = 9 ∧ (ported 5 {}).field (portR 5 0x10) 16 6 = 2 ∧ 1 ≤ (ported 5 {}).dev.ownVmax Part.standard 5 ∧
    (ported 6 {}).dev.peerNode Part.standard 5 ≠ 9 ∧ laneCount 0xFFFF = 16 ∧ laneCount 0x7F = 7 := by decide +kernel
theorem test_block_stop : gives (.linkBlock 5 block0) (ported 6 {}) (fun t => t.field (portR 5 0x28) 16 4 == 5) = true := by decide +kernel
/-- A READ of 16 bytes from node 0 to node 9, and its bytes. -/
def readPkt (l : BitVec 12) : FabPkt := { fabPkt l with body := some (.req { src := mkSrc 0 0 0, addr := 9 <<< 47, tag := 3, op := .read 1 }) }
/-- Its link fields by R346 and its header by R369: V, REQ, LEN 1, LSEQ 2; DNODE 9, PHASE, TYPE 1, TAG 3. -/
theorem test_fabric_image : (fabImage (readPkt 2)).take 4 = leBytes 4 (1 + 1 * 2 ^ 3 + 2 * 2 ^ 9) ∧
    ((fabImage (readPkt 2)).drop 8).take 9 = [9, 0, 0, 0, 0, 0x20, 0, 0, 1] ∧ ((fabImage (readPkt 2)).drop 34).take 2 = [3, 0] ∧
    (fabImage (readPkt 2)).length = 64 := by decide +kernel
/-- The data bytes of CTRL blocks, but for their CRC: LEAVE with reason 3, an unlisted type, and TRAIN of lanes 0 to 14. -/
def leaveBytes : List Byte := 4 :: 3 :: List.replicate 634 0
def unlistedBytes : List Byte := 9 :: List.replicate 635 0
def trainBytes : List Byte := 1 :: 0xFF :: 0x7F :: List.replicate 633 0
theorem witness_Ports_leave : ctrlMsgOf (withCrc leaveBytes) = some (.leave 3) := by
  rw [ctrlMsgOf_withCrc _ (by simp [-List.reduceReplicate, leaveBytes])]
  rfl
theorem witness_Ports_unlisted : ctrlMsgOf (withCrc unlistedBytes) = none := by
  rw [ctrlMsgOf_withCrc _ (by simp [-List.reduceReplicate, unlistedBytes])]
  rfl
theorem witness_Ports_train : ctrlMsgOf (withCrc trainBytes) = some (.train 0x7FFF) := by
  rw [ctrlMsgOf_withCrc _ (by simp [-List.reduceReplicate, trainBytes]), half_withCrc _ _ (by simp [-List.reduceReplicate, trainBytes])]
  simp [-List.reduceReplicate, trainBytes, half, leNat]
theorem witness_Ports_ident (i : Ident) (h : i = peer9 1 2 7 ∨ i = peer9 1 1 0) :
    ctrlMsgOf (ctrlBytes (.ident i)) = some (.ident i) ∧ ctrlMsgOf (ctrlBytes (.identAck i)) = some (.identAck i) := by
  constructor <;> rw [ctrlBytes, ctrlMsgOf_withCrc _ (by simp [-List.reduceReplicate, ctrlHead, identBytes, le2])] <;>
    obtain rfl | rfl := h <;> simp [-List.reduceReplicate, identOf, half, withCrc, ctrlHead, identBytes, le2, leBytes, leNat, peer9]
theorem witness_Ports_packets : fabGood (readPkt 0) (fabImage (readPkt 0)) = true ∧ fabGood (readPkt 0) (fabImage (readPkt 1)) = false ∧
    fabType (readPkt 0) ≠ 0 := by decide +kernel
/-- Blocks with 16 symbols in error, with one, and with one named twice. -/
theorem witness_Ports_blocks : (symbolErrs { block0 with errs := (List.range 16).map (BitVec.ofNat 10) }).length = 16 ∧
    symbolErrs { block0 with errs := [17, 17] } = [17] ∧ symbolLane false [] 17 = 1 ∧ symbolLane true [1, 3, 5, 7, 9, 11, 13, 15] 17 = 3 ∧
    headLseq (fabImage (readPkt 2)) = some 2 := by decide +kernel
/-- Copies at port 6 and at port 5: a lost packet already passed on from port 5. -/
def passing : State := withDev fun _ => ((ported 6 { cut := some (readPkt 0), leftT := some (0, true) }).dev.setPort 6
  { replay := [{ pkt := { readPkt 4 with alt := 1 }, first := 0, last := 0 }] }).put Part.standard (idR 20 0x100) 15
theorem witness_Ports_cut : (passing.dev.port 5).cut = some (readPkt 0) ∧ (passing.dev.port 6).replay.map (·.pkt) = [{ readPkt 4 with alt := 1 }] ∧
    samePkt { readPkt 4 with alt := 1 } (readPkt 0) = true ∧ (passing.dev.port 5).leftT = some (0, true) ∧
    passing.dev.ports.map (·.1) = [5, 6] := by decide +kernel
/-- Port 5 aligns: its partner's TRAIN has come and named every lane, and each lane reads 0 dBm. -/
def aligning (t : Bool) : State := { ported 4 { trained := t } with dev := (ported 4 { trained := t }).dev.setF Part.standard (portR 5 0x18) 40 16 0xFFFF }
theorem witness_Ports_align : (aligning true).dev.portSt Part.standard 5 = 4 ∧ (aligning true).dev.lockGood Part.standard 5 0xFFFF = 0xFFFF ∧
    (aligning true).dev.lockGood Part.standard 5 0x7F = 0x7F ∧ (aligning true).field (portR 5 0x18) 40 16 = 0xFFFF ∧
    1 ≤ (aligning true).dev.ownVmax Part.standard 5 ∧ block0.data.length = 640 ∧ symbolErrs block0 = [] := by decide +kernel
theorem test_width_lost : gives (.codewordLock 5 0x7F true) (aligning true) (fun t => t.dev.portSt t.part 5 == 11) = true ∧
    gives (.codewordLock 5 0xFFFF true) (aligning false) (fun t => t.dev.portSt t.part 5 == 4) = true := by decide +kernel
theorem test_width_full : gives (.codewordLock 5 0xFFFF true) (aligning true) (fun t => t.dev.portSt t.part 5 == 5) = true := by
  decide +kernel
/-- A packet of 64 bytes waits for a DATA block; a block answers with it at byte 0 and fill after it (R346). -/
theorem test_block_fills : fillBlock 640 [List.replicate 64 1, List.replicate 600 2] =
    (List.replicate 64 1 ++ List.replicate 576 2, [List.replicate 24 2], true) := by decide +kernel
theorem test_abort_follows : gives (.fabricPacket 5 (readPkt 0) []) passing (fun t => Msg.port 6 (.abort 4) ∈ t.dev.net &&
    t.reg (portR 6 0x240) == 1) = true := by decide +kernel
theorem test_packet_delivered : gives (.fabricPacket 5 (readPkt 0) (fabImage (readPkt 0))) (ported 6 {}) (fun t => (t.dev.port 5).rx.length == 1 &&
    (t.dev.port 5).expect == 1) = true := by decide +kernel
/-- After a loss nothing is delivered until a block of KIND 0b10 with the packet of the expected LSEQ at its head (R348). -/
theorem test_resumes : gives (.fabricPacket 5 (readPkt 0) (fabImage (readPkt 0))) (ported 6 { resync := true }) (fun t =>
    (t.dev.port 5).rx.isEmpty && (t.dev.port 5).expect == 0) = true ∧
    gives (.linkBlock 5 { errs := [], ctrl := 2, data := fabImage (readPkt 0) ++ List.replicate 576 0 }) (ported 6 { resync := true }) (fun t => !(t.dev.port 5).resync) = true ∧
    gives (.linkBlock 5 { errs := [], ctrl := 2, data := fabImage (readPkt 1) ++ List.replicate 576 0 }) (ported 6 { resync := true }) (fun t => (t.dev.port 5).resync) = true := by
  decide +kernel
/-- Port 5 with lane 7 good. -/
def laneUp (st : Nat) (x : PortSt) : State := { ported st x with dev := (ported st x).dev.setB Part.standard (portLane 5 7) 40 true }
theorem witness_Ports_lane : (laneUp 6 {}).field (portLane 5 7) 40 1 = 1 ∧ ¬(-900 ≤ (BitVec.ofInt 16 (-901)).toInt) ∧
    -900 ≤ (BitVec.ofInt 16 (-900)).toInt ∧ ((laneUp 6 {}).dev.symRecent 5 7).length < 1024 := by decide +kernel
theorem test_lane_lost : gives (.laneNotGood 5 ⟨7, 0, BitVec.ofInt 16 (-901)⟩) (laneUp 6 inReplay) (fun t => t.dev.portSt t.part 5 == 3 &&
    (t.dev.port 5).replay.isEmpty && t.field (portR 5 8) 4 4 == 4) = true ∧
    gives (.laneNotGood 5 ⟨7, 0, BitVec.ofInt 16 (-900)⟩) (laneUp 6 inReplay) (fun t => t.dev.portSt t.part 5 == 6) = true := by decide +kernel
theorem test_leave_together : gives (.leave 5 (withCrc leaveBytes)) (ported 3 { leftT := some (0, true) } 24)
    (fun t => t.dev.portSt t.part 5 == 11 && t.field (portR 5 8) 4 4 == 3) = true ∧
    gives (.leave 5 (withCrc leaveBytes)) (ported 3 { leftT := some (0, true) } 25)
    (fun t => t.dev.portSt t.part 5 == 3) = true := by
  simp only [gives, exec, execLeave, witness_Ports_leave]
  decide +kernel
theorem test_ident_up : gives (.identAck 5 (ctrlBytes (.identAck (peer9 1 1 0)))) (ported 5 {}) (fun t => t.dev.portSt t.part 5 == 6 &&
    t.field (portR 5 0x18) 0 16 == 9) = true := by
  simp only [gives, exec, execIdentAck, (witness_Ports_ident _ (.inr rfl)).2]
  decide +kernel

/-- Lantern 1 in state `st`. -/
def lantern (st : W64) : State := withDev fun d =>
  { (d.put Part.standard (ltnR 1 0x408) st).put Part.standard (idR 20 0x100) 15 with ltnPres := [(1, true)] }
theorem witness_Lanterns : (lantern 3).dev.ltnSt Part.standard 1 = 3 ∧ (lantern 1).dev.ltnSt Part.standard 1 = 1 ∧
    smGet false (lantern 1).dev.ltnId 1 = false ∧ (599 : BitVec 16).toInt < 600 ∧ (300 : BitVec 16).toInt ≥ 300 := by decide +kernel
/-- Ports 4 and 5 name nodes 1 and 2; then both node 1. -/
def card (n : Byte) : CardBytes := List.replicate 4 7 ++ List.replicate 28 0 ++ [1, 0, 0, 1, n, 0, 0, 1] ++ List.replicate 232 0
theorem witness_RouteCard : (cardEntry (card 2) 4, cardEntry (card 2) 5) = (0x1000001, 0x1000002) ∧ 4 / 4 = 5 / 4 := by decide +kernel
/-- 60,000,000 ticks after it was enabled, and one more. -/
def warming (now : W64) : State := withDev fun d => { d with raw := now, led := [now, now, now] }.put Part.standard (ltnR 1 0x408) 2
theorem witness_Lanterns_late : (60000000 < ((warming 60000001).dev.now.toNat + 2 ^ 32 - (warming 60000001).field (ltnR 1 0x408) 32 32) % 2 ^ 32) ∧
    ¬(60000000 < ((warming 60000000).dev.now.toNat + 2 ^ 32 - (warming 60000000).field (ltnR 1 0x408) 32 32) % 2 ^ 32) ∧
    (warming 0).field (ltnR 1 0x408) 0 3 = 2 := by decide +kernel
/-- Its contact is open when the base, which runs, polls it (R342). -/
def lanternGone : State := { lantern 3 with dev := { (lantern 3).dev with ltnPres := [] } }
theorem witness_Lanterns_poll : (lantern 3).dev.baseUp Part.standard = true ∧ smGet false (lantern 3).dev.ltnPres 1 = true ∧
    smGet false lanternGone.dev.ltnPres 1 = false ∧ State.reset.dev.baseUp State.reset.part = false := by decide +kernel
theorem test_lantern_removed : gives (.lanternPoll 1 700 400 4 25 false) lanternGone (fun t => t.field (ltnR 1 0x408) 0 3 == 0 &&
    t.field (ltnR 1 0x408) 4 4 == 1) = true := by decide +kernel
theorem test_lantern_low : gives (.lanternPoll 1 599 300 4 25 false) (lantern 3) (fun t => t.field (ltnR 1 0x408) 0 3 == 4 &&
    t.field (ltnR 1 0x408) 4 4 == 4) = true := by decide +kernel
theorem test_card_refused : gives (.routeCardInstall (card 2)) State.reset (fun t => t.reg (portR 4 0x10) == 0) = true := by decide +kernel
theorem test_card_taken : gives (.routeCardInstall (card 1)) (lantern 0) (fun t => t.reg (portR 5 0x10) == 0x1000001 &&
    t.dev.ownRcid t.part == 0x07070707) = true := by decide +kernel

/-! ### Routing -/

/-- Node 0, port 5 UP to node 9, which is neighbour 0 and the one route to board 1; `f` changes the rest. -/
def routed (f : Dev → Dev) : State :=
  withDev fun d => f (((((d.put Part.standard (rtR 8) 0).put Part.standard (portR 5 8) 6).put Part.standard (portR 5 0x18) 9).put Part.standard (nbrR 0) 0x1000009).put
    Part.standard (boardR 1) 0x1000000000001)
/-- The packet waits in the receive buffer of port 3. -/
def arrivedPkt (x : FabPkt) : State := routed fun d => d.setPort 3 { rx := [x] }
def forUs (c : BitVec 32) : FabPkt := { fabPkt 0 with dnode := 0, snode := 9, cseq := c }
theorem witness_Routing : (arrivedPkt (fabPkt 0)).dev.pickPort Part.standard (fabPkt 0) = some (0, 5) ∧
    (arrivedPkt (fabPkt 0)).dev.pickPort Part.standard { fabPkt 0 with dnode := 17 } = none ∧
    (arrivedPkt (fabPkt 0)).dev.slotsNeeded Part.standard 5 0 ≤ ((arrivedPkt (fabPkt 0)).dev.port 5).free .req ∧
    (((arrivedPkt (forUs 0)).dev.port 3).rx.filter fun z => z.vc = .req).head? = some (forUs 0) ∧ (forUs 0).dnode = (arrivedPkt (forUs 0)).dev.node ∧
    (smGet {} (arrivedPkt (forUs 0)).dev.rxNodes 9).has 0 = false ∧ (arrivedPkt (forUs 0)).dev.heldCount < 1024 ∧
    (arrivedPkt (forUs 0)).dev.rtState Part.standard = 0 ∧ (arrivedPkt (forUs 0)).dev.e2eBytes ≤ 8388608 := by decide +kernel
/-- The header of a packet has arrived at port 3, and not its tail. -/
def heading : State := routed fun d => d.setPort 3 { head := [(0, fabHeader (fabPkt 0))] }
theorem witness_Routing_head : heading.dev.headCame 3 (fabPkt 0) = true ∧ ((heading.dev.port 3).rx.filter fun z => z.vc = .req) = [] ∧
    heading.dev.pickPort Part.standard { fabPkt 0 with hops := 1 } = some (0, 5) ∧
    heading.dev.slotsNeeded Part.standard 5 0 ≤ (heading.dev.port 5).free .req ∧ (fabPkt 0).dnode ≠ heading.dev.node := by decide +kernel
theorem test_cut_through : gives (.routePacket 3 (fabPkt 0)) heading (fun t => (t.dev.port 5).tq.map (·.hops) == [1] && (t.dev.port 3).cut.isSome) = true := by
  decide +kernel
def queuedAt5 : State := routed fun d => d.setPort 5 { tq := [fabPkt 7] }
theorem witness_Routing_launch : queuedAt5.dev.portUp Part.standard 5 = true ∧ queuedAt5.dev.nextVc Part.standard 5 = some .req ∧
    (((queuedAt5.dev.port 5).tq.find? fun z => z.vc == .req) = some (fabPkt 7)) ∧ ¬1024 ≤ queuedAt5.field (portR 5 0x28) 0 11 := by decide +kernel
theorem test_forwards : gives (.routePacket 3 (fabPkt 0)) (arrivedPkt (fabPkt 0)) (fun t => (t.dev.port 5).tq.map (·.hops) == [1]) = true := by
  decide +kernel
theorem test_hops : gives (.routePacket 3 { fabPkt 0 with hops := 63 }) (arrivedPkt { fabPkt 0 with hops := 63 })
    (fun t => t.reg (rtR 0x418) == 1 && (t.dev.port 5).tq.isEmpty) = true := by decide +kernel
theorem test_holds_out_of_order : gives (.routePacket 3 (forUs 1)) (arrivedPkt (forUs 1)) (fun t => t.dev.heldCount == 1) = true := by decide +kernel
theorem test_launch_numbers : gives (.transitLaunch 5) queuedAt5 (fun t => t.dev.net == [.fabric 5 (fabPkt 0)]) = true := by decide +kernel

/-- A packet not acknowledged since count 0, after `tries`; a held packet; contexts not used since count 0. -/
def unacked (tries : Nat) : State := routed fun d => { d with
  raw := 240000, led := [240000, 240000, 240000], e2e := [⟨fabPkt 0, 0, tries, 0⟩],
  rxStreams := [(streamKey 9 0 false, some { held := [(forUs 1, 0)] }), (streamKey 9 1 false, some {})],
  txStreams := [(streamKey 9 1 false, some { last := 0 })] }
theorem witness_Streams : (unacked 0).dev.e2eFind 9 0 = some ⟨fabPkt 0, 0, 0, 0⟩ ∧ 3600 ≤ elapsed (unacked 0).dev.now 0 ∧
    (unacked 0).dev.pickPort Part.standard { fabPkt 0 with erpl := true } = some (0, 5) ∧
    (unacked 0).dev.rx (streamKey 9 0 false) = some { held := [(forUs 1, 0)] } ∧ 14400 ≤ elapsed (unacked 0).dev.now 0 ∧
    (unacked 0).dev.rx (streamKey 9 1 false) = some {} ∧ 240000 ≤ elapsed (unacked 0).dev.now 0 ∧
    (∀ y ∈ (unacked 0).dev.e2e, ¬(y.pkt.dnode = 9 ∧ y.pkt.chan = 1 ∧ y.pkt.ord = false)) := by decide +kernel
theorem witness_Streams_drain : (routed fun d => d.put Part.standard (rtR 8) 2).dev.rtState Part.standard = 2 ∧
    (routed fun d => d.put Part.standard (rtR 8) 1).dev.rtState Part.standard = 1 ∧ (routed id).dev.e2e = [] ∧ (routed id).dev.heldCount = 0 := by
  decide +kernel
/-- A request acknowledged end to end whose answer has not come for 9 us. -/
def unanswered : State := routed fun d => { d with raw := 10800, led := [10800, 10800, 10800], awaited := [⟨readPkt 0, 0, 0, 0⟩] }
theorem witness_Streams_answer : unanswered.dev.e2eFind 9 0 = none ∧
    (unanswered.dev.awaited.find? fun y => y.pkt.dnode == 9 && y.pkt.eseq == 0) = some ⟨readPkt 0, 0, 0, 0⟩ ∧
    10800 ≤ elapsed unanswered.dev.now 0 := by decide +kernel
theorem test_answer_lost : gives (.e2eGiveUp 9 0) unanswered (fun t => t.dev.awaited.isEmpty &&
    t.dev.net.map (fun m => match m with | .resp r => some r.status | _ => none) == [some stRemoteTimeout]) = true := by decide +kernel
theorem test_gives_up : gives (.e2eGiveUp 9 0) (unacked 2) (fun t => t.dev.e2e.isEmpty && t.reg (rtR 0x428) == 1) = true := by decide +kernel
theorem test_hold_expires : gives (.holdExpiry 9 0 false) (unacked 0) (fun t => (t.dev.rx (streamKey 9 0 false)).map (·.cseq) == some 2) = true := by
  decide +kernel
theorem test_table_drained : gives (.routingTableWrite (BitVec.ofNat 40 (posR 7)) 0xFFFFFFFFFFFFFFFF) (routed fun d => d.put Part.standard (rtR 8) 2)
    (fun t => t.reg (posR 7) == 0x3FFFFFFFFFFFF) = true := by decide +kernel


/-! ### The Larder, ownership and parties -/

/-- Channel 0 of L die 0 in state `st`, its check words sound. -/
def channelled (st : Nat) (f : Dev → Dev) : State :=
  withDev fun d => f ({ d with chkStale := [] }.put Part.standard (chanR 0 0) (BitVec.ofNat 64 st))
def ch0 : ChanId := ⟨0, 0⟩
/-- Request 7 of 16 bytes at address 0 waits in the queue of channel 0. -/
def accessing (op : ReqOp) (f : Dev → Dev := id) (n : Nat := 16) : State := channelled 2 fun d => f { d with
  greqs := [{ id := 7, req := reqTo 0 op, left := 1 }], chans := [(0, { q := [⟨7, 0, n⟩] })] }
def lineIsBad (d : Dev) : Dev := d.setMark 0 2
def unchecked (d : Dev) : Dev := { d with ctl := (memcR 0 8, 0) :: d.ctl }
/-- The example of R313: local address 0x0012_3456_7880 of a 192 GiB part with the check on. -/
theorem test_line_place : State.reset.dev.channelOf Part.standard 0x001234567880 = (1, 12725829) ∧ lineSub 12725829 = 1 ∧ lineCol 12725829 = 1 ∧
    lineRow 12725829 = 12427 ∧ lineBank 12725829 = 2 ∧ checkKey Part.standard 1 12725829 = devKey 1 32132 10 1 708 := by decide +kernel
theorem test_one_bit : gives (.memoryAccess ch0 { flips := [3] }) (accessing (.read 1)) (fun t => t.dev.greqs.isEmpty && t.reg (chanR 0 0x118) == 1 &&
    t.reg (chanR 0 0x120) == 0) = true := by decide +kernel
theorem test_two_bits : gives (.memoryAccess ch0 { flips := [3, 40] }) (accessing (.read 1)) (fun t => t.dev.lineBad Part.standard 0 &&
    t.reg (chanR 0 0x120) == 1) = true := by decide +kernel
theorem witness_Larder_access : chanIx ch0 = 0 ∧ (accessing (.read 1)).dev.chanSt Part.standard 0 = 2 ∧
    ((accessing (.read 1)).dev.chan 0).want = false ∧ ((accessing (.read 1)).dev.chan 0).q = [⟨7, 0, 16⟩] ∧
    (accessing (.read 1)).dev.injBits 16 9 0 = 0 ∧ (accessing (.read 1)).dev.injBits 16 8 0 = 0 ∧
    (accessing (.read 1)).dev.greqs.map (·.id) = [7] ∧ (accessing (.read 1)).dev.gddrKey Part.standard 0 = 0 ∧
    (accessing (.read 1)).dev.lineBad Part.standard 0 = false ∧ ((accessing (.read 1)).dev.mark 0).getLsbD 0 = false ∧
    (accessing (.read 1) lineIsBad).dev.lineBad Part.standard 0 = true := by decide +kernel
theorem test_access_read : gives (.memoryAccess ch0 { crcFails := 2 }) (accessing (.read 1)) (fun t => t.dev.greqs.isEmpty && t.reg (chanR 0 0x110) == 2 &&
    t.dev.net == [.resp { dst := mkSrc 0 1 0, tag := 3, status := 0, data := List.replicate 16 0, from' := 16 }]) = true := by decide +kernel
theorem test_access_write : gives (.memoryAccess ch0 {}) (accessing (.write (List.replicate 16 9)) unchecked) (fun t => t.byte 15 == 9 && t.byte 16 == 0) = true := by
  decide +kernel
theorem test_access_atomic : gives (.memoryAccess ch0 {}) (accessing (.atomic 5 0 7 0 0) unchecked) (fun t => t.le 0 16 == 7) = true := by
  decide +kernel
theorem test_access_bad : gives (.memoryAccess ch0 {}) (accessing (.read 1) lineIsBad) (fun t => t.dev.net ==
    [.resp { dst := mkSrc 0 1 0, tag := 3, status := stDataError, data := [], from' := 16 }]) = true := by decide +kernel
theorem test_five_crc : gives (.memoryAccess ch0 { crcFails := 5 }) (accessing (.read 1)) (fun t => (t.dev.chan 0).want && (t.dev.chan 0).q.length == 1) = true := by
  decide +kernel
/-- Channel 0 in state `st` with the scrub on and a correctable error in line 0. -/
def scrubbed : State := channelled 2 fun d => (d.put Part.standard (memcR 0 0x18) 1).setMark 0 1
theorem witness_Larder_channel : (channelled 2 fun d => { d with chans := [(0, { want := true })] }).dev.chanSt Part.standard 0 = 2 ∧
    ((channelled 2 fun d => { d with chans := [(0, { want := true })] }).dev.chan 0).want = true ∧ (channelled 3 id).dev.chanSt Part.standard 0 = 3 ∧
    (channelled 1 id).dev.chanSt Part.standard 0 = 1 ∧ scrubbed.field (memcR 0 0x18) 0 8 ≠ 0 ∧ scrubbed.dev.chanSt Part.standard 0 = 2 ∧
    (scrubbed.dev.chan 0).q = [] ∧ scrubbed.dev.lineAddr Part.standard 0 0 = 0 ∧ scrubbed.dev.checkOn Part.standard = true ∧
    scrubbed.dev.lineBad Part.standard 0 = false ∧ (scrubbed.dev.mark 0).getLsbD 0 = true ∧
    (channelled 2 fun d => lineIsBad (d.put Part.standard (memcR 0 0x18) 1)).dev.lineBad Part.standard 0 = true := by decide +kernel
theorem test_scrub_corrects : gives (.patrolScrubRead { ch := ch0 }) scrubbed (fun t => t.dev.mark 0 == 0 && (t.dev.chan 0).scrub == 1) = true := by decide +kernel
/-- The scrub stands at the first check row; its first bit is one of the check words of the first line of bank 8. -/
theorem test_scrub_check_row : gives (.patrolScrubRead { ch := ch0, seen := { flips := [0] } })
    (channelled 2 fun d => { d.put Part.standard (memcR 0 0x18) 1 with chans := [(0, { scrub := 31744 * 1024 })] })
    (fun t => t.reg (chanR 0 0x118) == 1 && (t.dev.chan 0).scrub == 31744 * 1024 + 1 && lineAt 0 8 0 0 == 512 &&
      bits (t.reg (recR 0 0 0)) 0 48 == 512 * 48 * 128) = true := by decide +kernel
theorem witness_Larder_row : 31744 * 1024 ≤ ((channelled 2 fun d => { d with chans := [(0, { scrub := 31744 * 1024 })] }).dev.chan 0).scrub ∧
    State.reset.dev.usable Part.standard / 128 = 31744 * 1024 ∧ lineRow (lineAt 0 8 0 0) < State.reset.dev.dataRows Part.standard ∧
    State.reset.dev.chanCut 0 = false ∧ State.reset.dev.bootReached Part.standard 5 = false := by decide +kernel
theorem test_retrain_fails : gives (.retrainComplete ch0 false) (channelled 3 id) (fun t => t.dev.chanSt t.part 0 == 5) = true := by decide +kernel
/-- L die 0 with its OPEN bit and its INIT bit. -/
def larder (op ini : W64) : State := withDev fun d => (d.put Part.standard (memcR 0 0) op).put Part.standard (memcR 0 0x20) ini
theorem witness_Larder_die : isOpen Part.standard (larder 0 0).dev = false ∧ isOpen Part.standard (larder 1 0).dev = true ∧
    (larder 0 0).dev.anyInit Part.standard = false ∧ (larder 0 1).dev.anyInit Part.standard = true ∧ (larder 0 1).field (memcR 0 0x20) 0 1 = 1 ∧
    bits (0x5F00 : W64) 8 8 * 0x2000000 ≤ 4 * 2 ^ 30 / 32 * 32 ∧ 4 * 2 ^ 30 / 32 * 32 < bits (0x8100 : W64) 8 8 * 0x2000000 := by decide +kernel
theorem test_open_waits_for_init : gives (.memOpen 0 true) (larder 0 1) (fun t => !isOpen t.part t.dev) = true := by decide +kernel
theorem test_map_open : gives (.mapWrite 0 1) (larder 1 0) (fun t => t.reg (memcR 0 8) == (larder 1 0).reg (memcR 0 8)) = true := by decide +kernel

/-- The package is ready, the channels are open but for channel 0, in state `st`, and request `op` at address 0 is under way, with the
requests `l` at L0 before it. -/
def arrivingAt (st : W64) (op : ReqOp) (l : List Req) : State :=
  withDev fun d => { ((allReady d).put Part.standard (memcR 0 0) 1).put Part.standard (chanR 0 0) st with
    net := [.req (reqTo 0 op)], arrived := l.map fun r => (16, Vc.req, .req r) }
/-- A request of another core for the same line. -/
def earlier : Req := { reqTo 0 (.read 8) with src := mkSrc 0 2 0 }
theorem witness_Requests_gddr : (arrivingAt 2 (.read 1) []).dev.place Part.standard 0 = .gddr 0 ∧
    (arrivingAt 2 (.read 1) []).dev.refusedAtSender Part.standard (.gddr 0) = none ∧ (arrivingAt 2 (.read 1) []).dev.channelOf Part.standard 0 = (0, 0) ∧
    (arrivingAt 2 (.read 1) []).dev.chanSt Part.standard 0 = 2 ∧ (arrivingAt 5 (.read 1) []).dev.chanSt Part.standard 0 = 5 ∧
    ((arrivingAt 2 (.read 1) []).dev.chan 0).held < 256 ∧ shapeOk 0 16 = true ∧ (arrivingAt 2 (.read 1) []).dev.ownerCheck Part.standard 0 0 = none ∧
    (arrivingAt 2 (.read 1) []).dev.waitsBehind Part.standard 16 (reqTo 0 (.read 1)) (lineParts 0 16) = false ∧
    (arrivingAt 2 (.read 1) [earlier]).dev.behind Part.standard (reqTo 0 (.read 1)) = false ∧
    (arrivingAt 2 (.read 1) [earlier]).dev.waitsBehind Part.standard 16 (reqTo 0 (.read 1)) (lineParts 0 16) = true := by decide +kernel
theorem test_waits_for_line : gives (.read (reqTo 0 (.read 1))) (arrivingAt 2 (.read 1) [earlier])
    (fun t => t.dev.greqs.isEmpty && t.dev.arrived.length == 2) = true := by decide +kernel
theorem test_write_acked_early : gives (.write (reqTo 0 (.write (List.replicate 128 1)))) (arrivingAt 2 (.write (List.replicate 128 1)) [])
    (fun t => t.dev.greqs.map (·.answered) == [true] && t.dev.net.length == 1 && (t.dev.chan 0).q.length == 1) = true := by decide +kernel
/-- A hand-off of regions 3 and 4 to node 5, party 6. -/
def handsOff : HandOff := { first := 3, nm1 := 1, owner := 5, party := 6, answer := none }
def handing : State := withDev fun d => { d with handoff := some handsOff }
theorem witness_Ownership : (0 + 1 ≤ Part.standard.regions ∧ 1 * 0x200000 ≤ 48 * State.reset.dev.usable Part.standard ∧ State.reset.dev.handoff = none ∧
      srcNode (mkSrc 0 20 1) = State.reset.dev.node ∧ (srcSite (mkSrc 0 20 1)).toNat = 20) ∧
    ¬((2 ^ 17 - 1) + 1 ≤ Part.standard.regions) ∧ handing.dev.handoff = some handsOff ∧ handing.dev.runBusy handsOff = false := by decide +kernel
theorem test_handoff_marks : gives (.handoffWrite 0 (mkSrc 0 20 1) 0x0006000500020003) State.reset (fun t => (t.dev.region 4).moving && !(t.dev.region 5).moving &&
    t.reg (memcR 0 0x38) == 0x2000301) = true := by decide +kernel
theorem test_handoff_gives : gives .handoffComplete handing (fun t => t.dev.region 4 == ⟨5, 6, false, false⟩ && t.dev.region 5 == State.reset.dev.region 5) = true := by
  decide +kernel
/-- A write of the run is still to be performed; and a host's command waits for the hand-off. -/
def handingBusy : State := withDev fun d => { d with handoff := some handsOff, greqs := [{ id := 0, left := 1, req := { src := 0, addr := 0x600000, tag := 0, op := .write [] } }] }
def handingHost : State := withDev fun d => { d with handoff := some { handsOff with host := true }, hostQ := [{ from' := .berth 0, bytes := [], begun := true }] }
theorem witness_Ownership_waits : handingBusy.dev.handoff = some handsOff ∧ handingBusy.dev.runBusy handsOff = true ∧
    handingHost.dev.handoff = some { handsOff with host := true } ∧ handingHost.dev.runBusy { handsOff with host := true } = false ∧
    (handingHost.dev.hostQ.head?.map (·.begun)) = some true := by decide +kernel
theorem test_handoff_waits : exec .handoffComplete handingBusy = .next handingBusy := by rfl
theorem test_handoff_tells_host : gives .handoffComplete handingHost (fun t => t.dev.hostQ.map (·.done) == [some stOk]) = true := by decide +kernel
/-- Party entry 2 in state `st`, of party 9 anchored at `node`, with core 0 of site 0 a member. -/
def partied (st : W64) (node : W64) (f : Dev → Dev := id) : State := withDev fun d => f (((d.setCore c0 { st := .run }).put Part.standard (ptyR 2 0) (9 + node * 65536)).put
    Part.standard (ptyR 2 0x10) st |>.put Part.standard (ptyR 2 0x80) 1)
/-- A minute later. -/
def later (d : Dev) : Dev := { d with raw := 120000000, led := [120000000, 120000000, 120000000] }
theorem witness_Parties : ((partied 0 0).dev.ptySt Part.standard 2 = 0 ∧ (partied 0 0).dev.ptyNo Part.standard 2 = 9 ∧
      ∀ f : BitVec 4, f ≠ 2 → (partied 0 0).dev.ptySt Part.standard f.toNat = 0) ∧ (partied 1 7).dev.ptySt Part.standard 2 = 1 ∧
    (partied 2 0).dev.ptySt Part.standard 2 = 2 ∧ (partied 3 0).dev.ptySt Part.standard 2 = 3 ∧
    (partied 1 7 later).dev.ptyAnchor Part.standard 2 ≠ (partied 1 7 later).dev.node ∧ 60000000 ≤ elapsed (partied 1 7 later).dev.now 0 ∧
    60000000 ≤ ((partied 1 7 later).dev.now.toNat % 2 ^ 32 + 2 ^ 32 - (partied 1 7 later).field (ptyR 2 0x10) 32 32) % 2 ^ 32 ∧
    (withDev fun d => { d with probeOut := [2] }).dev.probeOut.contains 2 = true ∧ (bits (0x90001 : W64) 0 2 = 1 ∧ bits (0x90001 : W64) 16 16 = 9) := by
  decide +kernel
/-- Region 4 is cut off by a teardown: its owner may not hand it on, K0 may (R419). -/
def cutRegion : State := withDev fun d => { d with regions := [(4, some ⟨9, 6, false, true⟩)] }
theorem witness_Ownership_cut : (cutRegion.dev.region 4).owner = srcNode (mkSrc 9 0 1) ∧ (cutRegion.dev.region 4).cut = true ∧
    (srcSite (mkSrc 0 20 1)).toNat = 20 ∧ (∀ x < 4, cutRegion.dev.inFallback Part.standard (16 + x) = false) := by decide +kernel
theorem test_cut_region_refused : gives (.handoffWrite 0 (mkSrc 9 0 1) 0x0006000500000004) cutRegion (fun t => t.dev.handoff.isNone) = true ∧
    gives (.handoffWrite 0 (mkSrc 0 20 1) 0x0006000500000004) cutRegion (fun t => t.dev.handoff.isSome) = true := by decide +kernel
theorem test_party_starts : gives (.ptyStart 2) (partied 0 0) (fun t => t.dev.ptySt t.part 2 == 1) = true := by decide +kernel
theorem test_party_torn : gives (.ptyAbort 2) (partied 1 0) (fun t => t.dev.ptySt t.part 2 == 2 && (t.k c0).st == .reset && (t.k c0).heldReset) = true := by
  decide +kernel
theorem test_anchor_lost : gives (.anchorLost 2) (partied 1 7 later) (fun t => t.field (ptyR 2 0x10) 4 4 == 2) = true := by decide +kernel

/-! ### The host port -/

/-- K0 runs, the link is up, and the device's IPv4 address is 10.0.0.1. -/
def hosted (f : Dev → Dev) : State :=
  withDev fun d => f (((d.put Part.standard (idR 20 0x100) 15).put Part.standard (hostR 8) 2).put Part.standard (hostR 0x18) 0x1000A000001)
def far : HostAddr := ⟨1, 0x0A000002, 5000, false⟩
def head (h : EthHead → EthHead := id) : EthHead :=
  h { len := 100, fcsOk := true, vlan := none, from' := far, to' := 0x0A000001, fragmentOrExt := false }
/-- Its datagrams for the command port and for RDMA. -/
def cmdHead : EthHead := head fun h => { h with dstPort := 7960 }
def rdmaHead : EthHead := head fun h => { h with dstPort := 4791 }
theorem witness_HostPort_frame : (hosted id).dev.linkUp Part.standard = true ∧ (hosted id).dev.kRuns Part.standard = true ∧
    (hosted id).dev.ownIp Part.standard false (head id).to' = true ∧ ((hosted id).reg (hostR 0x38)).getLsbD 28 = false ∧
    (hosted id).field (hostR 8) 0 2 = 2 ∧ booted.field (hostR 8) 0 2 ≠ 2 ∧ booted.dev.kRuns Part.standard = true ∧
    booted.dev.ethChoice Part.standard 7 0x3F = some (1, 0x0F) ∧ booted.dev.ethChoice Part.standard 1 0xFC = some (0, 0x0C) ∧
    booted.dev.ethChoice Part.standard 4 0x7F = none := by decide +kernel
theorem test_echo : gives (.icmpEcho (head id) [7]) (hosted id) (fun t => t.dev.net.length == 1) = true := by decide +kernel
theorem test_bad_fcs : gives (.ethernetFrame (head fun h => { h with fcsOk := false })) (hosted id) (fun t => t.reg (hostR 0x248) == 1) = true := by
  decide +kernel
theorem test_paused : gives (.pfcFrame 1 [9]) (hosted id) (fun t => t.dev.paused == 1) = true := by decide +kernel
/-- A command packet of session 1, key 5, with tag 3. -/
def packet (op : Byte) (ps : List Byte) (tag : Byte := 3) : List Byte :=
  [1, op, tag, 0, 0, 0, BitVec.ofNat 8 ps.length, 0, 1, 0, 0, 0, 5, 0, 0, 0] ++ ps
/-- Session 1 is open with key 5. -/
def inSession (f : Dev → Dev) : State := hosted fun d => f (d.put Part.standard (sessR 1) 0x5000A0001)
theorem witness_HostPort_command : (inSession id).dev.hostQ.length < 256 ∧ (packet 0 []).head? = some 1 ∧ 16 + cmdLen (packet 0 []) ≤ (packet 0 []).length ∧
    cmdLen (packet 0 []) % 8 = 0 ∧ (inSession id).dev.sessionOk Part.standard (.eth far) (packet 0 []) = true ∧ cmdOp (packet 0 []) ∈ opcodes ∧
    cmdOp (packet 6 []) ∉ opcodes ∧ (hosted id).dev.sessionOk Part.standard (.eth far) (packet 0 []) = false ∧ cmdSession (packet 0 []) = 1 ∧
    smGet none (inSession id).dev.hostUse (slotKey 1 3) = none ∧ (inSession id).dev.slotFinal Part.standard 1 3 = false := by decide +kernel
/-- The slot of tag 3 holds a finished reply; the slot is in use. -/
def replied : State := inSession fun d => d.put Part.standard (ringR 1 0x300) 0x500030001
def inUse : State := inSession fun d => { d with hostUse := [(67, some (packet 0 []))] }
/-- The doorbell of berth 1. -/
def belled : State := hosted fun d => d.put Part.standard (brtR 1 0) 1
theorem witness_HostPort_slots : smGet none replied.dev.hostUse (slotKey 1 3) = none ∧ replied.dev.slotFinal Part.standard 1 3 = true ∧
    smGet none inUse.dev.hostUse (slotKey 1 3) = some (packet 0 []) ∧ inUse.dev.deferred = [] ∧ packet 5 [] ≠ packet 0 [] := by decide +kernel
theorem witness_HostPort_berth : belled.dev.berthLive Part.standard 1 = true ∧ belled.dev.kRuns Part.standard = true ∧
    srcNode (mkSrc 0 22 0) = belled.dev.node ∧ (srcSite (mkSrc 0 22 0)).toNat = 21 + 1 := by decide +kernel
/-- What the port accepts for the command port; a pause of priority 3 that has run out, and one that has not. -/
def pausing (now : W64) : State := hosted fun d => { d with raw := now, paused := 8, pauseT := [(3, 500)] }
theorem witness_HostPort_accepted : cmdHead.buffered.toNat + cmdHead.len.toNat ≤ 0x400000 ∧ cmdHead.len.toNat ≤ 9216 ∧
    cmdHead.dstPort.toNat = bits ((inSession id).reg (hostR 0x38)) 0 16 ∧ rdmaHead.dstPort.toNat ≠ bits ((inSession id).reg (hostR 0x38)) 0 16 ∧
    (inSession id).dev.ownIp Part.standard far.v6 cmdHead.to' = true ∧ ((head fun h => { h with buffered := 0x400000 }).buffered.toNat + 100 > 0x400000) ∧
    reached (pausing 500).dev.raw (smGet 0 (pausing 500).dev.pauseT 3) = true ∧
    reached (pausing 499).dev.raw (smGet 0 (pausing 499).dev.pauseT 3) = false := by decide +kernel
theorem test_pause_ends : gives (.pauseTimeExpiry 3) (pausing 500) (fun t => t.dev.paused == 0) = true ∧
    gives (.pauseTimeExpiry 3) (pausing 499) (fun t => t.dev.paused == 8) = true := by decide +kernel
theorem test_other_port : gives (.commandPacket rdmaHead (packet 0 [])) (inSession id) (fun t => t.dev.hostQ.isEmpty) = true := by decide +kernel
theorem test_command_held : gives (.commandPacket cmdHead (packet 0 [])) (inSession id) (fun t => t.dev.hostQ.map (·.bytes) == [packet 0 []]) = true := by
  decide +kernel
theorem test_command_key : gives (.commandPacket cmdHead (packet 0 [])) (hosted id) (fun t => t.dev.hostQ.isEmpty && t.reg (hostR 0x218) == 1) = true := by
  decide +kernel
/-- Session 1 has not been heard of since count 0, 100 seconds ago. -/
def silent : State := inSession fun d => { d with raw := 120000000000, led := [120000000000, 120000000000, 120000000000] }
theorem witness_HostPort_session : silent.field (sessR 1) 0 1 = 1 ∧ 1200000000 * silent.field (sessR 1) 16 12 ≤ elapsed silent.dev.now 0 ∧
    (inSession id).dev.sessOpen Part.standard 1 = true ∧ ((0 : W64) - (inSession id).dev.econs Part.standard 1).toNat ≤ 0 := by decide +kernel
theorem test_session_times_out : gives (.sessionTimeout 1) silent (fun t => t.reg (sessR 1) == 0) = true := by decide +kernel

/-- Queue pair 0x104 of the far host, which expects packet 8; region 6 covers the first 4,096 bytes. -/
def far104 : QP := { sess := 1, rqpn := 2, epsn := 8, psn := 0, pmtu := 2, ipv6 := false, gid := far.ip }
def paired (f : Dev → Dev) : State := inSession fun d => f { d with qps := [(4, some far104)], mrs := [⟨6, 1, 0, 4096, true, true, false⟩] }
def waitsParts : RdmaOp := { qp := 4, psn := 7, to' := far, addr := 0, what := .read 16, issued := true, parts := [(0, 0, 16)] }
theorem witness_Rdma : (paired id).dev.linkUp Part.standard = true ∧ smGet none (paired id).dev.qps 4 = some far104 ∧
    (far.v6 = far104.ipv6 ∧ far.ip = far104.gid) ∧ ((9 : BitVec 24) - far104.epsn).toNat < 2 ^ 23 ∧ 2 ^ 23 ≤ ((7 : BitVec 24) - far104.epsn).toNat ∧
    far104.msg = none ∧ 16 ≤ far104.mtu ∧ (paired id).dev.mrOk 6 true 0 16 = true ∧ (paired id).dev.mrOk 6 true 4090 16 = false ∧
    (paired id).dev.rdma = [] ∧ ((paired fun d => { d with rdma := [waitsParts] }).dev.rdma = [waitsParts]) := by decide +kernel
/-- The answer to the one access of the WRITE under way; a message in progress; and a datagram of another source port. -/
def writesLine : RdmaOp := { qp := 4, psn := 7, to' := far, addr := 0, what := .write (List.replicate 16 1) true, issued := true, parts := [(5, 0, 16)] }
def rdmaAnswer (st : BitVec 7) : Resp := { dst := (paired id).dev.hostSrc, tag := 5, status := st, from' := 16 }
def answering (st : BitVec 7) : State := paired fun d => { d with rdma := [writesLine], net := [.resp (rdmaAnswer st)] }
theorem witness_Rdma_answers : (answering stOk).dev.dead = false ∧ (answering stOk).dev.respWaits (rdmaAnswer stOk) = false ∧
    (answering stOk).dev.rdma = [writesLine] ∧ stDataError ≠ stOk ∧ rdmaHead.dstPort = 4791 ∧
    rdmaHead.buffered.toNat + rdmaHead.len.toNat ≤ 0x400000 ∧ (paired id).dev.ownIp Part.standard far.v6 rdmaHead.to' = true ∧
    ¬(({ far104 with udp := some 4999 }).udp = none ∨ ({ far104 with udp := some 4999 }).udp = some far.udp) ∧
    (∀ o ∈ (answering stOk).dev.rdma, o.issued = true ∧ o.parts ≠ []) ∧ writesLine.ends = true := by decide +kernel
theorem test_rdma_acked : gives (.rstat (rdmaAnswer stOk)) (answering stOk) (fun t => t.dev.rdma.isEmpty && t.reg (hostR 0x220) == 1) = true := by
  decide +kernel
theorem test_rdma_failed : gives (.rstat (rdmaAnswer stDataError)) (answering stDataError) (fun t => t.dev.rdma.isEmpty &&
    t.field (hostR 0x1C0) 48 7 == stDataError.toNat) = true := by decide +kernel
theorem test_rdma_write_taken : gives (.rdmaWrite 4 rdmaHead 8 .only 512 6 16 (List.replicate 16 1) true) (paired id) (fun t =>
    (smGet none t.dev.qps 4).map (·.epsn) == some 9 && t.dev.rdma.length == 1) = true := by decide +kernel
theorem test_rdma_gap : gives (.rdmaRead 4 rdmaHead 9 0 6 16 true) (paired id) (fun t => (smGet none t.dev.qps 4).map (fun z => (z.epsn, z.nakSent)) == some (8, true) &&
    t.reg (hostR 0x230) == 1) = true := by decide +kernel


/-! ### Host commands -/

/-- The command at the head of K0's queue. -/
def headed (op : Byte) (ps : List Byte) (f : Dev → Dev := id) (o : Origin := .eth far) : State :=
  inSession fun d => f { d with hostQ := [{ from' := o, bytes := packet op ps }] }
def headOf (op : Byte) (ps : List Byte) : HCmd := { from' := .eth far, bytes := packet op ps }
theorem witness_HostCommands_head : (headed 0 [1, 2, 3, 4, 5, 6, 7, 8]).dev.hostQ = [headOf 0 [1, 2, 3, 4, 5, 6, 7, 8]] ∧
    (headed 0 [1, 2, 3, 4, 5, 6, 7, 8]).dev.kRuns Part.standard = true ∧ cmdSession (packet 0 [1, 2, 3, 4, 5, 6, 7, 8]) = 1 ∧
    cmdOp (packet 0 [1, 2, 3, 4, 5, 6, 7, 8]) = 0 ∧ lengthOk 0 (cmdLen (packet 0 [1, 2, 3, 4, 5, 6, 7, 8])) = true ∧
    (headed 0 []).dev.stopStep = 0 ∧ lengthOk 2 (cmdLen (packet 2 [1, 2, 3, 4, 5, 6, 7, 8])) = false ∧ stopAllows 0 = false ∧
    berthBarred 0x30 = true := by decide +kernel
def eventPoll3 : List Byte := [3, 0, 0, 0, 0, 0, 0, 0]
/-- PARAM of one register address: one register address, of core 0's block at offset 0x38, and a value. -/
def oneReg (v : List Byte) : List Byte := [1, 0, 0, 0, 0, 0, 0, 0] ++ leBytes 7 (0x7F0000000000 + coreR c0 0x38) ++ [0] ++ v
def atNode5 : List Byte := [1, 0, 0, 0, 0, 0, 0, 0] ++ leBytes 6 (0x7F0000000000 + coreR c0 0x38) ++ [5, 0]
theorem witness_HostCommands_params : (1 ≤ par eventPoll3 0 1 ∧ par eventPoll3 0 1 ≤ 3) ∧ par (oneReg []) 0 2 = 1 ∧
    ctlWindow (BitVec.ofNat 64 (par (oneReg []) 8 8)) = true ∧ gaNode (BitVec.ofNat 64 (par (oneReg []) 8 8)) = State.reset.dev.node ∧
    gaNode (BitVec.ofNat 64 (par atNode5 8 8)) ≠ State.reset.dev.node ∧ ctlWindow (BitVec.ofNat 64 (par atNode5 8 8)) = true ∧
    (headed 0x10 (oneReg []) allReady).dev.refusedAtSender Part.standard (.ctl (coreR c0 0x38)) = none ∧
    ((headed 0x11 (oneReg [7, 0, 0, 0, 0, 0, 0, 0]) allReady).dev.ctlWrite Part.standard State.reset.dev.hostSrc none (coreR c0 0x38) 7 true true).2.2 = some stOk := by
  decide +kernel
theorem test_nop : gives .hostNop (headed 0 [1, 2, 3, 4, 5, 6, 7, 8]) (fun t => t.dev.hostQ.isEmpty && t.reg (ringR 1 0x310) == 0x0807060504030201 &&
    t.reg (hostR 0x200) == 1 && t.dev.net.length == 1) = true := by decide +kernel
theorem test_wrong_length : gives .sessionClose (headed 2 [1, 2, 3, 4, 5, 6, 7, 8]) (fun t => t.field (ringR 1 0x308) 16 16 == 3 && t.reg (hostR 0x200) == 0) = true := by
  decide +kernel
theorem test_reg_write : gives (.regWrite []) (headed 0x11 (oneReg [7, 0, 0, 0, 0, 0, 0, 0]) allReady) (fun t => t.reg (coreR c0 0x38) == 7) = true := by decide +kernel
theorem test_reg_read_far : gives (.regRead [⟨0, 9⟩]) (headed 0x10 atNode5) (fun t => t.reg (ringR 1 0x320) == 9) = true := by decide +kernel
/-- CORE_CTRL of core 0 of site 0 with an action and PC 0x40. -/
def ctrl (act : Byte) : List Byte := [0, act, 1, 0, 0, 0, 0, 0, 1, 0, 0, 0, 0, 0, 0, 0, 0x40, 0, 0, 0, 0, 0, 0, 0]
theorem witness_HostCommands_core : par (ctrl 1) 0 1 = 0 ∧ par (ctrl 1) 1 1 = 1 ∧ par (ctrl 1) 8 8 = 2 ^ 0 ∧
    (headed 0x12 (ctrl 1) allReady).dev.heldOut Part.standard 0 = false ∧ (headed 0x12 (ctrl 1) allReady).dev.siteReady Part.standard 0 = true ∧
    (headed 0x12 (ctrl 1)).dev.siteReady Part.standard 0 = false ∧ (headed 0x12 (ctrl 1) fun d => d.put Part.standard (idR 20 0x108) 0x100000000).dev.heldOut Part.standard 0 = true ∧
    ((headed 0x12 (ctrl 1) allReady).k c0).st = .reset ∧ Part.standard.has c0 = true := by decide +kernel
theorem test_core_starts : gives .coreCtrl (headed 0x12 (ctrl 1) fun d => allReady (d.setCore c0 { st := .idle })) (fun t => (t.k c0).st == .run && (t.k c0).pc == 0x40) = true := by decide +kernel
/-- PARTY_START of entry 2 with party 9. -/
def start2 : List Byte := [2, 0, 9, 0, 0, 0, 0, 0] ++ List.replicate 128 1
theorem witness_HostCommands_party : (par start2 0 1 < 16 ∧ par start2 6 1 < 16 ∧ par start2 2 2 ≠ 0) ∧ (headed 0x20 start2).dev.ptySt Part.standard 2 = 0 ∧
    (∀ f < 16, (headed 0x20 start2).dev.ptySt Part.standard f = 0) ∧ (partied 1 0).dev.ptyNo Part.standard 2 = 9 ∧
    (State.reset.dev.refusedAtSender Part.standard (.ctl (memcR 0 0x30)) = none ∨ (allReady State.reset.dev).refusedAtSender Part.standard (.ctl (memcR 0 0x30)) = none) ∧
    (allReady State.reset.dev).handoffRefused Part.standard 0 State.reset.dev.hostSrc 0x0006000500020003 = none ∧
    (allReady State.reset.dev).handoffRefused Part.standard 0 State.reset.dev.hostSrc 0x1FFFF = some stNoTarget := by decide +kernel
theorem test_party_start : gives .partyStart (headed 0x20 start2) (fun t => t.dev.ptySt t.part 2 == 1 && t.reg (ptyR 2 0xF8) == 0x0101010101010101) = true := by
  decide +kernel
/-- SESSION_OPEN with a lease of 20 s, outside any session. -/
def opens : HCmd := { from' := .eth far, bytes := [1, 1, 0, 0, 0, 0, 8, 0, 0, 0, 0, 0, 0, 0, 0, 0, 20, 0, 2, 0, 0, 0, 0, 0] }
def opening : State := inSession fun d => { d with hostQ := [opens] }
theorem witness_HostCommands_open : cmdSession opens.bytes = 0 ∧ cmdOp opens.bytes = 1 ∧ cmdLen opens.bytes = 8 ∧ opening.field (sessR 2) 0 1 = 0 ∧
    opening.field (sessR 1) 0 1 = 1 ∧ par (cmdParams opens.bytes) 0 2 = 20 ∧ par (cmdParams opens.bytes) 2 1 = 2 := by decide +kernel

theorem witness_HostObjects_rdma : par ([2, 0, 0, 0] ++ List.replicate 28 0) 12 1 ≤ 2 ∧ smGet none (headed 0x30 []).dev.qps 0 = none ∧
    smGet none (paired id).dev.qps (0x104 - 0x100) ≠ none ∧ par (leBytes 8 0x1000 ++ leBytes 8 0x2000) 8 8 % 4096 = 0 ∧
    (∃ m ∈ (paired id).dev.mrs, m.rkey = 6 ∧ m.ring = false) ∧ (∀ m ∈ (headed 0x33 []).dev.mrs, ¬(m.rkey = 6 ∧ m.ring = false)) := by decide +kernel
/-- FREQ_SET of point 2 at count 240,000. -/
def toPoint2 : List Byte := [2, 0, 0, 0, 0, 0, 0, 0] ++ leBytes 8 240000
theorem witness_HostObjects_freq : par toPoint2 0 1 < 4 ∧ 120000 ≤ ((BitVec.ofNat 64 (par toPoint2 8 8) : W64) - (headed 0x40 toPoint2).dev.now).toNat ∧
    ((BitVec.ofNat 64 (par toPoint2 8 8) : W64) - (headed 0x40 toPoint2).dev.now).toNat ≤ 2 ^ 63 ∧ (headed 0x40 toPoint2).dev.freqPend = none ∧
    (headed 0x41 []).dev.calRuns = false ∧ (headed 0x42 []).dev.recalBusy = false ∧ (headed 0x41 [] fun d => { d with deferred := [⟨1, 3, 0x41, 3, [], [], []⟩] }).dev.calRuns = true := by
  decide +kernel
theorem test_freq_set : gives .freqSet (headed 0x40 toPoint2) (fun t => t.dev.freqPend == some (2, 240000)) = true := by decide +kernel
theorem test_stop : gives .stop (headed 0x49 []) (fun t => t.dev.resetDue == [{ kind := 3, t := 0 }]) = true := by decide +kernel
/-- The priority of K0's frames is paused: the reply waits, and the time of the stop with it. -/
theorem test_stop_waits : gives .stop (headed 0x49 [] fun d => { d with paused := 0xFF }) (fun t => t.dev.resetDue.map (·.waits.isSome) == [true] &&
    t.dev.txHeld.length == 1) = true := by decide +kernel
/-- CAL_BANK of session 1, whose banks are done. -/
def deferred3 : Deferred := { sess := 1, slot := 3, opcode := 0x41, tag := 3, banks := [], refused := [2] }
def deferring : State := inSession fun d => { d with deferred := [deferred3] }
theorem witness_HostObjects_deferred : (deferring.dev.deferred.find? fun y => y.sess == 1 && y.slot == 3) = some deferred3 ∧
    deferred3.slot = deferred3.tag.toNat % 64 ∧ deferring.dev.deferredOver Part.standard deferred3 = true ∧ deferring.dev.kRuns Part.standard = true ∧
    (deferring.dev.eprod Part.standard 1 - deferring.dev.econs Part.standard 1).toNat < 256 := by decide +kernel
theorem test_deferred_done : gives (.deferredDone 1 3) deferring (fun t => t.reg (ecbR 1 0) == 1 && t.reg (ringR 1 0x310) == 0x400000000) = true := by
  decide +kernel

/-! ### Clocks and the ledger -/

theorem witness_Clocks : State.reset.dev.dead = false ∧ elapsed State.reset.dev.raw (State.reset.dev.clkReg 0 0).winT < 1024 ∧
    1024 ≤ elapsed (withDev later).dev.raw ((withDev later).dev.clkReg 0 0).winT ∧ State.reset.field (clkR 31 0) 2 1 = 0 ∧ State.reset.dev.stopStep = 0 ∧
    ((later State.reset.dev).clkReg 0 0).below = false := by decide +kernel
/-- Clock region 1 of W die 3, held below its limit since count 0. -/
def below (x : ClkReg → ClkReg := id) : State := withDev fun d => later (d.setClkReg 3 1 (x { below := true }))
theorem witness_Clocks_hold : (below.dev.clkReg 3 1).below = true ∧ 1200 < elapsed below.dev.now (below.dev.clkReg 3 1).belowT ∧
    (below.dev.clkReg 3 1).longDone = false ∧ ((below fun x => { x with longDone := true }).dev.clkReg 3 1).longDone = true := by decide +kernel
theorem test_droop : gives (.supplyDroop 3 1 40) State.reset (fun t => (t.dev.clkReg 3 1).stretch == 30) = true := by decide +kernel
theorem test_hold_fences : gives (.holdTimeout 3 1) below (fun t => (t.dev.fenceWait 3).length == 16) = true := by decide +kernel
theorem test_window_duty : gives (.clockMonitorWindow 3 1 20 85 100) State.reset (fun t => t.field (regionR 3 1 0) 33 1 == 1 && (t.dev.fenceWait 3).isEmpty) = true := by
  decide +kernel
/-- A departure count in CLK.FREQ_DEP, and the ledger at 0. -/
def departing (v : W64) (f : Dev → Dev := id) : State := withDev fun d => f (d.put Part.standard (clkR 31 0x18) v)
def pendingAt (v : W64) (d : Dev) : Dev := { d with freqPend := some (1, v) }
theorem witness_Clocks_freq : ((departing 5).reg (clkR 31 0x18) - (departing 5).dev.now).toNat < 120000 ∧
    120000 ≤ ((departing 240000).reg (clkR 31 0x18) - (departing 240000).dev.now).toNat ∧ (departing 240000).dev.freqPend = none ∧
    (departing 240000 (pendingAt 200000)).dev.freqPend = some (1, 200000) ∧ 24000 < ((200000 : W64) - 0).toNat ∧ ((200000 : W64) - 0).toNat < 2 ^ 63 ∧
    ((20000 : W64) - 0).toNat ≤ 24000 ∧ (withDev fun d => later (pendingAt 5 d)).dev.freqPend = some (1, 5) ∧
    reached (withDev later).dev.now 5 = true := by decide +kernel
theorem test_freq_go : gives (.freqGo 1) (departing 240000) (fun t => t.dev.freqPend == some (1, 240000)) = true := by decide +kernel
theorem test_departs : gives .departure (withDev fun d => later (pendingAt 5 d)) (fun t => t.field (regionR 7 2 0) 0 11 == 1280) = true := by decide +kernel
/-- The ledger has started and its copies are as given. -/
def ledger (l : List W64) (f : Dev → Dev := id) : State := withDev fun d => f { d with ledOn := true, led := l }
theorem witness_Ledger : (ledger [4, 4, 4]).dev.ledOn = true ∧ (ledger [4, 4, 4]).dev.injBits 31 11 0 = 0 ∧ (ledger [4, 4, 4]).dev.loadDue = none ∧
    (ledger [4, 4, 5]).dev.led = [4, 4, 5] ∧ (ledger [4, 9, 5]).dev.led = [4, 9, 5] ∧
    (ledger [4, 4, 4] fun d => { d with loadDue := some (3, 1) }).dev.loadDue = some (3, (ledger [4, 4, 4]).dev.raw + 1) ∧
    reached 3 (4 + 1) = false ∧ reached 9 (4 + 1) = true ∧ (ledger [4, 4, 4]).dev.lsyncT = none ∧
    (ledger [4, 4, 4] fun d => { d with lsyncT := some 0 }).dev.lsyncT = some 0 ∧ elapsed (0 : W64) 0 < 12000 ∧ 12000 ≤ elapsed (12000 : W64) 0 ∧
    elapsed (ledger [4, 4, 4]).dev.raw (ledger [4, 4, 4]).dev.syncT < 1024 ∧
    1024 ≤ elapsed (ledger [4, 4, 4] fun d => { d with raw := 1024 }).dev.raw (ledger [4, 4, 4]).dev.syncT := by
  decide +kernel
theorem test_tick : gives .ledgerTick (ledger [4, 4, 4]) (fun t => t.dev.led == [5, 5, 5]) = true := by decide +kernel
theorem test_tick_votes : gives .ledgerTick (ledger [4, 4, 9]) (fun t => t.dev.led == [5, 5, 5] && t.field (ledbR 8) 0 4 == 4) = true := by decide +kernel
theorem test_tick_load : gives .ledgerTick (ledger [4, 4, 4] fun d => { d with loadDue := some (9, 1) }) (fun t => t.dev.led == [9, 9, 9]) = true := by decide +kernel
theorem test_tick_refuses : gives .ledgerTick (ledger [4, 4, 4] fun d => { d with loadDue := some (3, 1) }) (fun t => t.dev.led == [5, 5, 5] &&
    t.field (ledbR 0x28) 17 1 == 1) = true := by decide +kernel
/-- The ledger stands at `v`, and die 0 has received a synchronisation message of count 3. -/
def synced (v : W64) (k : CoreSt := {}) : State := withDev fun d => { d.setCore c0 k with led := [v, v, v], syncGot := [(0, some 3)] }
theorem witness_Snoop : (synced 5).dev.coreOpen Part.standard c0 = true ∧ smGet none (synced 5).dev.syncGot 0 = some 3 ∧
    smGet none State.reset.dev.syncGot 0 ≠ some 3 ∧ ((synced 5).k c0).snoopHold = none ∧ (synced 5).dev.snoop c0 = 0 ∧
    (2 : Int) ≤ ((3 + (synced 5).dev.pathDelay 3 : W64) - 0).toInt ∧ ((3 + (synced 1).dev.pathDelay 3 : W64) - 0).toInt ≤ 1 ∧
    ((3 + (synced (-3)).dev.pathDelay 3 : W64) - 0).toInt ≤ -2 ∧
    ((synced 5 { snoopHold := some 9 }).k c0).snoopHold = some 9 ∧ reached (synced 5 { snoopHold := some 9 }).dev.now 9 = false := by decide +kernel
theorem test_snoop_steps : gives (.snoopSync c0 3) (synced 5) (fun t => t.dev.snoop c0 == 5 && t.field (ledR c0 8) 0 9 == 0x105) = true := by decide +kernel
theorem test_snoop_holds : gives (.snoopSync c0 3) (synced (-3)) (fun t => t.dev.snoop c0 == 0 && t.field (ledR c0 8) 0 9 == 0x1FD) = true := by decide +kernel

/-! ### Power, reset and boot -/

/-- A reset or stop of a kind was asked for at count 0, long ago. -/
def asked (kind : Nat) (w : Option Msg := none) : State := withDev fun d => later { d with resetDue := [{ kind := kind, t := 0, waits := w }] }
theorem witness_Power : State.reset.dev.vaux = true ∧ (withDev fun d => { d with vaux := false }).dev.vaux = false ∧ State.reset.dev.off = false ∧
    (withDev fun d => { d with off := true }).dev.off = true ∧ (withDev fun d => { d with off := true }).dev.pwrOk = State.reset.dev.pwrOk ∧
    (withDev fun d => { d with off := true, pwrOk := false }).dev.pwrOk = false ∧ (withDev fun d => { d with off := true, pwrOk := true }).dev.pwrOk = true ∧
    State.reset.dev.dead = false ∧ State.reset.dev.stopStep = 0 ∧ State.reset.dev.recal = none ∧ State.reset.dev.greqs = [] ∧ State.reset.dev.cutsWrite = false ∧
    (∀ k ∈ [1, 2], ∃ x ∈ (asked k).dev.resetDue, x.kind = k ∧ x.waits = none ∧ 1200000 ≤ elapsed (asked k).dev.now x.t) ∧
    (∀ x ∈ State.reset.dev.resetDue, x.kind ≠ 2) := by
  refine ⟨by decide +kernel, by decide +kernel, by decide +kernel, by decide +kernel, by decide +kernel, by decide +kernel, by decide +kernel,
    by decide +kernel, by decide +kernel, by decide +kernel, by decide +kernel, by decide +kernel, ?_, by decide +kernel⟩
  intro k _
  exact ⟨{ kind := k, t := 0 }, List.mem_singleton.2 rfl, rfl, rfl, by show 1200000 ≤ elapsed (120000000 : W64) 0; decide⟩
theorem test_vaux_lost : gives .powerCut (withDev fun d => { d with off := true, pwrOk := false, tripLatch := true }) (fun t => !t.dev.vaux && !t.dev.tripLatch &&
    t.dev.faultPin.isSome) = true := by decide +kernel
theorem test_cold : gives (.coldReset 1) (withCore { st := .run }) (fun t => (t.k c0).st == .reset && t.dev.rstCause == 1) = true := by decide +kernel
theorem test_warm_keeps : gives (.warmReset 5) { withCore { st := .fenced } with mem := [⟨0, 7⟩] } (fun t => (t.k c0).st == .fenced && t.byte 0 == 7 &&
    t.field (idR 20 0x100) 0 6 == 0x21) = true := by decide +kernel
/-- Boot is at step n. -/
def booting (n : W64) (f : Dev → Dev := id) : State := withDev fun d => f (d.put Part.standard (idR 20 0x100) n)
theorem witness_Boot : (∀ n : Fin 9, (booting (BitVec.ofNat 64 n.val)).dev.bootAt Part.standard = n.val) ∧ State.reset.dev.warmBoot = false ∧
    State.reset.dev.nv.selector = some (SelRec.sealed false false false 0) ∧ (State.reset.dev.nv.bank false).st = 3 ∧
    (withDev fun d => { d with nv := {} }).dev.nv.selector = none ∧ State.reset.dev.wrstLow = false ∧ State.reset.dev.bootStopped = false ∧
    State.reset.dev.checkOn Part.standard = true ∧ State.reset.dev.bankState Part.standard 0 = 0 ∧ (booting 7).dev.heldOut Part.standard 0 = false ∧
    (booting 7).dev.planeTracks 3 false = true ∧ (booting 7).dev.accessOut 3 = false := by
  decide +kernel
/-- A bank on trial, which has been tried or not. -/
def onTrialAs (tried : Bool) : Nv := { bank0 := { st := 2, header := shippedHeader, body := [0] }, slot0 := some (SelRec.sealed false true tried 1) }
def onTrial : Nv := onTrialAs false
theorem witness_Boot_trial : onTrial.selector = some (SelRec.sealed false true false 1) ∧ (onTrial.bank false).st = 2 ∧
    (onTrialAs true).selector = some (SelRec.sealed false true true 1) ∧ ((onTrialAs true).bank true).st ≠ 3 ∧
    ({ Nv.shipped with bank0 := { Nv.shipped.bank0 with body := [1] } } : Nv).bank0.body.length = imgLen shippedHeader := by decide +kernel
/-- A bank passes its boot check where its signature verifies. -/
theorem witness_Boot_passes (h : Config.signatureOk 0 (shippedHeader.take 128) (shippedHeader.drop 128) = true) :
    bankPasses Part.standard Nv.shipped false = true ∧ bankPasses Part.standard (onTrial.writeSelector false true true) false = true := by
  have e1 : headerStatus Part.standard Nv.shipped shippedHeader = 0 := by decide +kernel
  have e2 : headerStatus Part.standard (onTrial.writeSelector false true true) shippedHeader = 0 := by decide +kernel
  have k : imgKey shippedHeader = 0 := by decide +kernel
  have t : imgType shippedHeader = 1 := by decide +kernel
  have n : imgLen shippedHeader = 1 := by decide +kernel
  have z : sha512 [0] = imgHash shippedHeader := by decide +kernel
  have b : (onTrial.writeSelector false true true).bank false = { st := 2, header := shippedHeader, body := [0] } := by decide +kernel
  have b' : Nv.shipped.bank false = { st := 3, header := shippedHeader, body := [0] } := by decide +kernel
  constructor
  · simpa [bankPasses, imgStatus, b', e1, k, t, n, h] using z
  · simpa [bankPasses, imgStatus, b, e2, k, t, n, h] using z
/-- A bank that fails its check, and no other GOOD bank. -/
theorem witness_Boot_fails : bankPasses Part.standard { Nv.shipped with bank0 := { Nv.shipped.bank0 with header := [] } } false = false ∧
    ({ Nv.shipped with bank0 := { Nv.shipped.bank0 with header := [] } } : Nv).bank0.st = 3 ∧
    (Nv.shipped.bank true).st ≠ 3 := by decide +kernel
theorem test_boot_straps : gives (.bootStep { straps := 9 }) State.reset (fun t => t.dev.node == 9 && t.dev.bootAt t.part == 2 && t.dev.ledOn) = true := by
  decide +kernel
theorem test_boot_recovery : gives (.bootStep {}) (booting 2 fun d => { d with nv := {} }) (fun t => t.dev.bootAt t.part == 14 && t.dev.bootStopped) = true := by
  decide +kernel
/-- A tried bank falls back; with no GOOD bank the boot ends in RECOVERY. -/
theorem test_boot_tried : gives (.bootStep {}) (booting 2 fun d => { d with nv := onTrialAs true }) (fun t => t.dev.bootAt t.part == 14 && t.dev.nv.bank0.st == 4) = true := by
  decide +kernel
theorem test_boot_ready : gives (.bootStep {}) (booting 7) (fun t => t.dev.bootAt t.part == 8 && t.field (idR 20 0x108) 0 21 == 0x1FFFFF &&
    t.field (memcR 0 0) 0 1 == 1) = true := by decide +kernel

/-! ### Sensors, rests and the orderly stop -/

theorem witness_Sensors : State.reset.dev.dead = false ∧ (State.reset.dev.sens 0 3).hist.length < 25 ∧
    (let x := (withDev fun d => d.setSens 0 3 { taken := 25, hist := List.replicate 25 (some 5) }).dev.sens 0 3
     25 ≤ x.hist.length ∧ 25 ≤ x.taken ∧ x.hist.getLast? = some (some 5)) ∧ 3 < sensCount 0 ∧ State.reset.dev.sensBroken Part.standard 0 3 = false ∧ (State.reset.dev.sens 0 3).miss = 0 ∧
    ((withDev fun d => d.setSens 0 3 { miss := 2 }).dev.sens 0 3).miss = 2 ∧
    (withDev fun d => d.put Part.standard (sensR 0 3) 0x100000000).dev.sensBroken Part.standard 0 3 = true ∧
    ((-641 : BitVec 16).toInt < -640 ∧ 2400 < (2401 : BitVec 16).toInt) ∧ ((1500 : BitVec 16).toInt ≤ 2400 ∧ (State.reset.dev.sens 0 3).far < 99) := by decide +kernel
theorem test_three_misses : gives (.sensorSample 0 3 none) (withDev fun d => d.setSens 0 3 { miss := 2 }) (fun t => t.field (sensR 0 3) 0 16 == 1712 &&
    t.dev.sensBroken t.part 0 3) = true := by decide +kernel
theorem test_hot_rests : gives (.sensorSample 0 3 (some 1560)) State.reset (fun t => t.field (thmR 0 8) 4 4 == 4 && t.field (thmR 0 8) 0 4 == 0) = true := by
  decide +kernel
/-- GDDR7 channel 0 last read `v`. -/
def gddrAt (v : Nat) : State := withDev fun d => d.put Part.standard (chanR 0 0) (BitVec.ofNat 64 (v * 256 + 2))
theorem witness_Sensors_gddr : int16 ((gddrAt 1600).field (chanR 0 0) 8 16) = 1600 ∧ int16 ((gddrAt 1590).field (chanR 0 0) 8 16) < 1600 ∧
    (gddrAt 1590).dev.stopStep = 0 := by decide +kernel
/-- W site 0 rests at 5 with nothing asking for it, a minute after reset. -/
def resting : State := withDev fun d => later (d.put Part.standard (thmR 0 8) 5)
theorem witness_Rests : 0 < resting.field (thmR 0 8) 0 4 ∧ 120000 ≤ elapsed resting.dev.now (smGet 0 resting.dev.restT 0) ∧
    int16 (resting.field (thmR 0 0) 32 16) < 64 ∧ 1200000 ≤ elapsed resting.dev.now (smGet 0 resting.dev.rate4T 0) ∧
    120000 ≤ elapsed resting.dev.now (smGet 0 resting.dev.powT 0) ∧ elapsed State.reset.dev.now 0 < 120000 := by decide +kernel
theorem test_rest_steps : gives (.restStepDown 0) resting (fun t => t.field (thmR 0 8) 0 4 == 4) = true := by decide +kernel
theorem test_power_limits : gives (.powerAverage 0 4000000000 0 none) resting (fun t => t.field (thmR 0 8) 12 4 == 1) = true := by decide +kernel
theorem test_consumer_within : gives (.powerAverage 0 0 0 (some (.k0Host, 25000))) resting (fun t => t.dev.records.isEmpty) = true ∧
    allocationMw .k0Host < (25001 : W32).toNat := by decide +kernel

/-- The orderly stop is at step n. -/
def stopping (n : Nat) (f : Dev → Dev := id) : State := withDev fun d => f { d with stopStep := n }
def runs0 (d : Dev) : Dev := d.setCore c0 { st := .run }
theorem witness_OrderlyStop : (∀ n : Fin 9, (stopping n.val).dev.stopStep = n.val) ∧ (stopping 4).dev.recal = none ∧ (stopping 6).dev.greqs = [] ∧
    (asked 3).dev.resetDue = [{ kind := 3, t := 0 }] ∧ 1200000 ≤ elapsed (asked 3).dev.now 0 ∧ State.reset.dev.resetDue = [] ∧
    leaves 6 = true ∧ leaves 4 = false ∧ (stopping 2 runs0).dev.stopDone = false ∧ elapsed (stopping 2).dev.now (stopping 2).dev.stopT < 1200000 ∧
    6000000 ≤ elapsed (stopping 2 later).dev.now (stopping 2 later).dev.stopT ∧ (stopping 2).dev.stopDone = true ∧
    (withDev fun d => { d with vaux := false }).dev.vaux = false ∧ (withDev fun d => { d with off := true }).dev.off = true := by decide +kernel
theorem test_stop_halts : gives .orderlyStepLimit (stopping 2 fun d => later (runs0 d)) (fun t => (t.k c0).st == .halt && t.dev.stopStep == 3) = true := by
  decide +kernel
/-- For the cause of 30 K/ms the first limit is 120,000 ticks. -/
theorem test_stop_limit : gives .orderlyStepLimit (stopping 2 fun d => { runs0 d with led := [119999, 119999, 119999] }.setF Part.standard (thmR 31 0x10) 3 3 2) (fun t => t.dev.stopStep == 2) = true ∧
    gives .orderlyStepLimit (stopping 2 fun d => { runs0 d with led := [120000, 120000, 120000] }.setF Part.standard (thmR 31 0x10) 3 3 2) (fun t => t.dev.stopStep == 3) = true := by
  decide +kernel
theorem test_hard_trip : gives .hardTrip (withCore { st := .run }) (fun t => t.dev.off && t.dev.tripLatch && (t.k c0).st == .reset) = true := by decide +kernel

/-! ### Faults and the service port -/

def rec1 : FaultRec := { ledger := 5, source := mkSrc 0 0 0, cls := 1, code := 0x0102 }
/-- A record is on its way; the log's entry 0 holds `e` and `pend` is K0's pending word. -/
def reporting (e pend : W64) (f : FaultRec := rec1) : State :=
  withDev fun d => { (d.put Part.standard (plogR 0 1) e).put Part.standard (fltR 20 0x808) pend |>.put Part.standard (plogR 0 6) (if e = 0 then 0 else 1) with records := [f] }
theorem witness_Faults_arrival : (reporting 0 0).dev.records = [rec1] ∧ rec1.cls.toNat ≤ 4 ∧ (reporting 0 0).dev.plogOpen Part.standard 0 = false ∧
    (reporting 0 0).dev.nextSeq Part.standard = 0 ∧ (reporting 0x10000000 0x400).dev.plogOpen Part.standard 0 = true ∧
    (reporting 0x10000000 0x400).dev.plogClass Part.standard 0 = 2 ∧ 1 ≤ (reporting 0x10000000 0x400).dev.pend Part.standard 1 ∧
    (reporting 0x8000000 0).dev.plogClass Part.standard 0 = 1 ∧ (reporting 0x10000000 0).dev.pend Part.standard 1 = 0 := by decide +kernel
/-- Two records on their way: the one of the earlier count comes first, whatever their order; a site in fall-back sends over the wiring. -/
theorem witness_Faults_order : (reporting 0 0).dev.recWired Part.standard rec1 = false ∧ rec1.ledger.toNat < ({ rec1 with ledger := 9 } : FaultRec).ledger.toNat ∧
    ¬(({ rec1 with ledger := 9 } : FaultRec).ledger.toNat < rec1.ledger.toNat) ∧ (reporting 0 0).dev.injBits 31 10 0 = 0 ∧
    (withDev fun d => d.put Part.standard (latR (endpointOf 0) 0) 4).dev.recWired Part.standard rec1 = true := by decide +kernel
theorem test_record_order : gives .faultRecordArrival (withDev fun d => { d with records := [{ rec1 with ledger := 9 }, rec1] }) (fun t => t.dev.records == [{ rec1 with ledger := 9 }]) = true := by
  decide +kernel
theorem test_record_escalates : gives .faultRecordArrival (reporting 0 0x400) (fun t => t.field (plogR 0 1) 27 4 == 10) = true := by decide +kernel
theorem test_record_dropped : gives .faultRecordArrival (reporting 0x10000000 0) (fun t => t.reg (fltR 20 0x850) == 1 && t.reg (plogR 0 1) == 0x10000000) = true := by
  decide +kernel
theorem witness_Faults_ack : (reporting 0x10000000 0).dev.plogOpen Part.standard 0 = true ∧ (reporting 0x10000000 0).dev.plogSeq Part.standard 0 = 0 ∧
    State.reset.dev.plogOpen Part.standard 0 = false := by decide +kernel
theorem test_ack : gives (.fltAck 0 false) (reporting 0x10000000 0x100000) (fun t => t.field (plogR 0 6) 1 1 == 1 && t.reg (fltR 20 0x808) == 0) = true := by
  decide +kernel
/-- A record before the policy. -/
def policed (f : FaultRec) (pol : W64) : State := withDev fun d => { (d.setCore c0 { st := .run }).put Part.standard (fltR 20 0x820) pol with policyQ := [f] }
def fatal4 : FaultRec := { rec1 with cls := 4, code := 0x0801 }
theorem witness_Faults_policy : ((policed { rec1 with code := 0x0101, ctx0 := 8, cls := 3 } 8).dev.policyQ.find? fun g : FaultRec => g.seq == 0) =
      some { rec1 with code := 0x0101, ctx0 := 8, cls := 3 } ∧
    (policed rec1 8).field (fltR 20 0x820) 3 1 = 1 ∧ rec1.source = State.reset.dev.coreSrc c0 ∧ ((policed rec1 8).dev.liveMask Part.standard 0).getLsbD 0 = true ∧
    (policed fatal4 1).field (fltR 20 0x820) 0 2 = 1 ∧ (policed fatal4 2).field (fltR 20 0x820) 0 2 = 2 ∧ fatal4.code ∉ [0x0101, 0x0102, 0x0802, 0x0904] := by
  decide +kernel
theorem test_policy_fences : gives (.faultPolicy 0) (policed { rec1 with code := 0x0101, ctx0 := 8, cls := 3 } 8) (fun t => t.dev.fenceWait 0 == [(0, 2)]) = true := by
  decide +kernel
theorem witness_Faults_alive : booted.dev.now.toNat % 600000 = 0 ∧ (withDev fun d => { d with led := [1, 1, 1] }).dev.now.toNat % 600000 ≠ 0 ∧
    booted.dev.bootDone Part.standard (groupStep 2) = true ∧ booted.dev.beatLost.getLsbD 2 = false ∧ 2400000 ≤ elapsed (later booted.dev).now 0 ∧
    (∀ i : Fin 512, booted.dev.plogOpen Part.standard i.val = false) := by decide +kernel
theorem witness_Faults_stopped : (withDev fun d => { d with stopStep := 8 }).dev.stopStep = 8 ∧
    (withDev fun d => { d with stopStep := 8 }).dev.now.toNat % 600000 = 0 := by decide +kernel
theorem test_stopped_alive_held : gives .aliveToggle (withDev fun _ => { booted.dev with stopStep := 8 }) (fun t => t.dev.aliveLvl == 0) = true := by
  decide +kernel
theorem test_alive : gives .aliveToggle booted (fun t => t.dev.aliveLvl == 0xFF) = true := by decide +kernel
theorem witness_Faults_inject : smGet none State.reset.dev.inj 31 = none ∧ hasChecker 31 11 = true ∧ bits (0x3001B : W64) 0 4 = 11 ∧ bits (0x3001B : W64) 4 2 = 1 ∧
    bits (0x3001B : W64) 16 8 = 3 ∧ hasChecker 0 9 = false ∧ hasChecker 31 7 = true ∧ hasChecker 0 4 = true ∧
    (withDev fun d => { d with ctl := [(latR (endpointOf 0) 0x1000, 0)] }).field (latR (endpointOf 0) 0x1000) 13 2 ≠ 3 ∧
    (withDev fun d => { d with ctl := [(latR (endpointOf 0) 0x1000, 0x6000)] }).field (latR (endpointOf 0) 0x1000) 13 2 = 3 := by decide +kernel
theorem test_inject : gives (.injGo 31 0x3001B) State.reset (fun t => smGet none t.dev.inj 31 == some ⟨11, 1, 0, 3⟩) = true := by decide +kernel
theorem witness_Faults_guest : isG (srcSite (mkSrc 0 21 0)).toNat = true ∧ (0x540 : W64).extractLsb' 6 5 = srcSite (mkSrc 0 21 0) := by decide +kernel
theorem witness_Faults_supply : (withDev fun d => d.put Part.standard (brtR 1 0) 1).dev.berthLive Part.standard 1 = true ∧
    State.reset.dev.berthLive Part.standard 1 = false := by decide +kernel
theorem test_supply_cut : gives (.berthSupplyCut 1 165001) (withDev fun d => d.put Part.standard (brtR 1 0) 1) (fun t => t.reg (brtR 1 0) == 0x284890100) = true := by
  decide +kernel

/-- K0 is booted and has its dynamic address. -/
def served (f : Dev → Dev := id) : State := withDev fun d => f { d with ctl := [(idR 20 0x100, 15), (fwR 0x48, 9)] }
/-- A card image of 272 bytes from requester 3, of which `n` have come. -/
def cardXfer (n : Nat) : Xfer := { eid := 3, header := shippedHeader.set 6 2 |>.set 32 16 |>.set 33 1, body := List.replicate n 0 }
def transferring (n : Nat) : State := served fun d => { d with xfer := some (cardXfer n) }
theorem witness_Service : (served.dev.off = false ∧ served.dev.vaux = true ∧ served.dev.rstLow = false ∧ 1 ≤ served.dev.bootAt Part.standard) ∧
    served.field (fwR 0x48) 0 7 ≠ 0 ∧ (withDev fun d => { d with ctl := [(fwR 0x48, 0)] }).field (fwR 0x48) 0 7 = 0 ∧ served.dev.xfer = none ∧ (transferring 16).dev.xfer = some (cardXfer 16) ∧
    imgLen (cardXfer 16).header = 272 ∧ imgType (cardXfer 16).header = 2 ∧ imgStatus Part.standard served.dev.nv [] ≠ 0 := by decide +kernel
theorem witness_Service_begin (h : Config.signatureOk 0 (shippedHeader.take 128) (shippedHeader.drop 128) = true) :
    imgStatus Part.standard served.dev.nv shippedHeader = 0 := by
  have e : headerStatus Part.standard served.dev.nv shippedHeader = 0 := by decide +kernel
  have k : imgKey shippedHeader = 0 := by decide +kernel
  simp [imgStatus, e, k, h]
theorem witness_Service_end : 272 ≤ (transferring 272).dev.bootAt Part.standard * 272 ∧ sha512 (cardXfer 272).body ≠ imgHash (cardXfer 272).header ∧
    sha512 [] = imgHash { cardXfer 0 with header := List.replicate 40 0 ++ sha512 [] }.header := by decide +kernel
theorem test_chunk : gives (.imgData 3 1 16 (List.replicate 16 7)) (transferring 16) (fun t => t.dev.xfer.map (·.body.length) == some 32) = true := by decide +kernel
theorem test_chunk_order : gives (.imgData 3 1 0 (List.replicate 16 7)) (transferring 16) (fun t => t.reg (fwR 0x20) == 0xA0000) = true := by decide +kernel
/-- Bank 1 is STAGED beside the GOOD bank 0. -/
def staged : State := served fun d => { d with nv := { Nv.shipped with bank1 := { st := 1, header := shippedHeader, body := [0] } } }
theorem witness_Service_commit : (staged.dev.nv.bank true).st = 1 ∧ staged.dev.nv.bank0.st ≠ 1 ∧ staged.dev.nv.trial = false ∧ onTrial.trial = true ∧
    served.dev.nv.bank0.st ≠ 1 ∧ served.dev.nv.bank1.st ≠ 1 := by decide +kernel
theorem test_commit : gives (.commit 3 1 true) staged (fun t => t.dev.nv.selector == some (SelRec.sealed true true false 1) && t.dev.resetDue == [{ kind := 2, t := 0 }]) = true := by
  decide +kernel
theorem witness_Service_regs : served.dev.bootAt Part.standard ≠ 14 ∧ served.dev.heldOut Part.standard 20 = false ∧ (booting 14).dev.bootAt Part.standard = 14 ∧
    svcOpen (coreR c0 0x38) = false ∧ (allReady served.dev).refusedAtSender Part.standard (.ctl (coreR c0 0x38)) = none := by decide +kernel
/-- The health watchdog was armed at count 0. -/
def watched (f : Dev → Dev := id) : State := served fun d => f { d with wdogT := some 0, nv := onTrial }
theorem witness_Service_watchdog : watched.dev.wdogT = some 0 ∧ elapsed watched.dev.raw 0 < 144000000000 ∧
    144000000000 ≤ elapsed (watched fun d => { d with raw := 144000000000 }).dev.raw 0 ∧ watched.dev.bootReached Part.standard 3 = true ∧
    12000000000 ≤ elapsed (144000000000 : W64) 0 := by decide +kernel
theorem test_confirm : gives (.confirm true) watched (fun t => t.dev.wdogT == none && t.dev.nv.bank0.st == 3) = true := by decide +kernel
theorem test_watchdog : gives .firmwareWatchdog (watched fun d => { d with raw := 144000000000 }) (fun t => t.dev.rstCause == 4) = true := by decide +kernel
/-- The exchange with endpoint 3 has come to `n`. -/
def talking (n : Nat) : State := served fun d => { d with spdm := [(3, { at' := n })] }
theorem witness_Attestation : served.dev.svcHears Part.standard = true ∧ served.dev.kRuns Part.standard = true ∧
    (served fun d => { d with nv := { d.nv with card := some [1] } }).dev.nv.card = some [1] ∧ served.dev.bootReached Part.standard 8 = true ∧
    served.dev.nv.card = none ∧ (∀ n : Fin 4, ((talking n.val).dev.spdmOf 3).at' = n.val) ∧ (List.replicate 32 (1 : Byte)).length = 32 := by decide +kernel
theorem test_challenge_slot : gives (.challenge 3 1 (List.replicate 32 1)) (talking 3) (fun t => t.dev.net == [.service 3 [5, 0x12, 0x7F, 1, 0]]) = true := by decide +kernel
theorem test_challenge_order : gives (.challenge 3 0 (List.replicate 32 1)) (talking 2) (fun t => t.dev.net == [.service 3 [5, 0x12, 0x7F, 4, 0]]) = true := by decide +kernel

/-! ### Well-formedness: for each check a term that it refuses -/

theorem wf_read : (Instr.read (reqTo 0 (.read 0))).wf = false ∧ (Instr.read (reqTo 0 (.read 33))).wf = false ∧ (Instr.read (reqTo 0 .cread)).wf = false ∧
    (Instr.read (reqTo 0 (.read 32))).wf = true := by decide +kernel
theorem wf_write : (Instr.write (reqTo 0 (.write []))).wf = false ∧ (Instr.write (reqTo 0 (.write (List.replicate 17 0)))).wf = false ∧
    (Instr.write (reqTo 0 (.write (List.replicate 528 0)))).wf = false ∧ (Instr.write (reqTo 0 (.read 1))).wf = false := by decide +kernel
theorem wf_atomic : (Instr.atomic (reqTo 0 (.read 1))).wf = false := by decide +kernel
theorem wf_push : (Instr.push (reqTo 0 (.read 1))).wf = false ∧ (Instr.push (lobbyReq (.push 0 0 hdr7 [[0]]))).wf = false ∧
    (Instr.push (lobbyReq (.push 0 0 hdr7 (List.replicate 5 (List.replicate 128 0))))).wf = false := by decide +kernel
theorem wf_control : (Instr.cread (reqTo 0 (.read 1))).wf = false ∧ (Instr.cwrite (reqTo 0 .cread)).wf = false ∧
    (Instr.cwrite (reqTo 0 (.cwrite 0 false false))).wf = false ∧ (Instr.registerWrite 0 0 false false).wf = false := by decide +kernel
theorem wf_response : (Instr.rdata respTo).wf = false ∧ (Instr.rdata { respTo with data := List.replicate 513 0 }).wf = false ∧
    (Instr.rstat { respTo with data := [0] }).wf = false := by decide +kernel
theorem wf_lines : (Instr.feedLine 0 0 0 0 [0]).wf = false ∧ (Instr.routeCardInstall [0]).wf = false := by decide +kernel
theorem wf_causes : (Instr.orderlyStop 0).wf = false ∧ (Instr.coldReset 0).wf = false ∧ (Instr.coldReset 5).wf = false ∧ (Instr.warmReset 4).wf = false ∧
    (Instr.planeUnhealthy 0 false 0).wf = false := by decide +kernel
theorem wf_boot : (Instr.bootStep { bins := List.replicate 49 none }).wf = false ∧ (Instr.challenge 0 0 []).wf = false := by decide +kernel

end Sys2Proof.Tests
end

section

namespace Sys2Proof.Machine

/-! ### What every command keeps -/

/-- The outcome is a next state with the part and the queue as they were, whose memory is in its canonical form if it was. -/
def Sustains (s : State) (o : Out) : Prop :=
  ∃ t, o = .next t ∧ (Memory.wf s.mem = true → Memory.wf t.mem = true) ∧ Fixed s t

/-- The outcome of State.upd. -/
theorem sustains_of_kept {s : State} {o : Out} {d : Dev} (h : o = .next ⟨s.part, s.mem, d, s.pending⟩) : Sustains s o :=
  ⟨_, h, id, rfl, rfl⟩

/-- The outcome of State.updW. -/
theorem sustains_of_written {s : State} {o : Out} {d : Dev} {w : Wr}
    (h : o = .next ⟨s.part, applyWr s.mem w, d, s.pending⟩) : Sustains s o :=
  ⟨_, h, applyWr_wf _ _, rfl, rfl⟩

/-- The outcome of State.updC. -/
theorem sustains_of_cleared {s : State} {o : Out} {d : Dev} {w : Wr} {r : List (Nat × Nat)}
    (h : o = .next ⟨s.part, clearRanges (applyWr s.mem w) r, d, s.pending⟩) : Sustains s o :=
  ⟨_, h, fun hm => clearRanges_wf _ _ (applyWr_wf _ _ hm), rfl, rfl⟩

/-- Every command is an update of the device: eight of them write memory and blank ranges of it, some write memory, and all
the others leave it alone. -/
theorem exec_sustains (i : Instr) (s : State) : Sustains s (exec i s) := by
  cases i with
  | initComplete | powerOn | rstN | bootStep | hardTrip | firmwareWatchdog | powerCut | coldReset =>
    exact sustains_of_cleared rfl
  | sb | sh | sw | vst | lobRdp | prtAtom | matrixOpComplete | descriptorStart | porterPacketIssue | targetAck
  | porterWaitReached | pushRetry | atomicResult | qcfgEn | registerWrite | read | write | atomic | push | cread | cwrite
  | rdata | rstat | memoryAccess | retrainComplete | hostNop | sessionOpen | sessionClose | sessionList | deviceInfo
  | eventPoll | regRead | regWrite | coreCtrl | partyStart | partyAbort | partyFree | handoff | qpCreate | qpDestroy
  | mrRegister | mrDeregister | freqSet | calBank | calPackage | hostReset | stop | wrstN | warmReset | orderlyStepLimit
  | faultPolicy | svcRegWrite => exact sustains_of_written rfl
  | _ => exact sustains_of_kept rfl

/-- A command from a sound state answers a sound state. -/
theorem exec_sound (i : Instr) (s : State) (h : s.sound) : ∃ t, exec i s = .next t ∧ t.sound ∧ Fixed s t := by
  obtain ⟨t, ht, hwf, hpart, hpending⟩ := exec_sustains i s
  exact ⟨t, ht, ⟨hwf h.1, hpart ▸ h.2⟩, hpart, hpending⟩

/-- Settles O31: with an empty queue the state stays; otherwise `exec_sound` speaks of the command at its front. -/
theorem stepsStaySound : Obligations.StepsStaySound := by
  intro s hs
  cases hq : s.pending with
  | nil => exact ⟨s, by simp only [step, hq], hs, rfl, hq⟩
  | cons i rest =>
    obtain ⟨t, ht, hsound, hpart, hpending⟩ := exec_sound i { s with pending := rest } hs
    exact ⟨t, by simpa only [step, hq] using ht, hsound, hpart, hpending⟩

end Sys2Proof.Machine
end

section

namespace Sys2Proof.Machine

/-! ### Control-space addresses (R32) -/

theorem ctlSite_ctlAddr {a b c : Nat} (hb : b < 2 ^ 15) (hc : c < 2 ^ 20) : ctlSite (ctlAddr a b c) = a := by
  unfold ctlSite ctlAddr; omega

theorem ctlBlk_ctlAddr {a b c : Nat} (hb : b < 2 ^ 15) (hc : c < 2 ^ 20) : ctlBlk (ctlAddr a b c) = b := by
  unfold ctlBlk ctlAddr; omega

theorem ctlOff_ctlAddr {a b c : Nat} (hc : c < 2 ^ 20) : ctlOff (ctlAddr a b c) = c := by
  unfold ctlOff ctlAddr; omega

/-- The register at an address is looked up in the table of its block. -/
theorem regFields_eq_findReg {p : Part} {a : Nat} {l : List RegDesc} (h : blockRegs p (ctlSite a) (ctlBlk a) = some l) :
    regFields p a = findReg l (ctlOff a) := by
  simp only [regFields, h]

theorem regFields_eq_some {p : Part} {a : Nat} {fs : List Field} (h : regFields p a = some fs) :
    ∃ l, blockRegs p (ctlSite a) (ctlBlk a) = some l ∧ findReg l (ctlOff a) = some fs := by
  unfold regFields at h
  split at h
  · cases h
  · exact ⟨_, ‹_›, h⟩

/-- What a lookup finds is an entry of the table that the offset names. -/
theorem findReg_eq_some {l : List RegDesc} {off : Nat} {fs : List Field} (h : findReg l off = some fs) :
    ∃ r ∈ l, r.hit off = true ∧ r.fields = fs := by
  induction l with
  | nil => cases h
  | cons r rs ih =>
    unfold findReg at h
    split at h
    · exact ⟨r, List.mem_cons_self, ‹_›, Option.some.inj h⟩
    · obtain ⟨x, hx, hit⟩ := ih h
      exact ⟨x, List.mem_cons_of_mem _ hx, hit⟩

/-- The offsets that a table entry names lie in its array. -/
theorem RegDesc.base_le_of_hit {r : RegDesc} {off : Nat} (h : r.hit off = true) :
    r.base ≤ off ∧ off ≤ r.base + r.stride * r.count := by
  unfold RegDesc.hit at h
  split at h
  · have : off = r.base := by simpa using h
    omega
  · simp only [Bool.and_eq_true, decide_eq_true_eq, beq_iff_eq] at h
    obtain ⟨⟨hbase, hmod⟩, hdiv⟩ := h
    have hsum := Nat.div_add_mod (off - r.base) r.stride
    have hle : r.stride * ((off - r.base) / r.stride) ≤ r.stride * r.count := Nat.mul_le_mul_left _ (Nat.le_of_lt hdiv)
    omega

/-- A site is of one kind (R22). -/
theorem not_others_of_isW {site : Nat} (h : isW site = true) : isL site = false ∧ isK site = false ∧ isG site = false := by
  simp only [isW, isL, isK, isG, decide_eq_true_eq, Bool.and_eq_false_iff, Bool.or_eq_false_iff, decide_eq_false_iff_not,
    beq_eq_false_iff_ne, ne_eq] at *
  omega

theorem not_others_of_isL {site : Nat} (h : isL site = true) : isW site = false ∧ isK site = false ∧ isG site = false := by
  simp only [isW, isL, isK, isG, decide_eq_true_eq, Bool.and_eq_true, Bool.or_eq_false_iff, decide_eq_false_iff_not,
    beq_eq_false_iff_ne, ne_eq] at *
  omega

theorem not_others_of_isK {site : Nat} (h : isK site = true) : isW site = false ∧ isL site = false ∧ isG site = false := by
  obtain rfl : site = 20 := by simpa [isK] using h
  decide

theorem not_others_of_isBase {site : Nat} (h : isBase site = true) :
    isW site = false ∧ isL site = false ∧ isK site = false ∧ isG site = false := by
  obtain rfl : site = 31 := by simpa [isBase] using h
  decide

/-- The site field of a core or of a command names a W die. -/
theorem isW_site (w : BitVec 4) : isW w.toNat = true := by
  simpa [isW] using w.isLt

/-! ### The tables of a W die's blocks -/

/-- The table of a block of a good core. -/
theorem blockRegs_coreBlk {p : Part} {c : CoreId} {blk : Nat} (hc : p.has c = true) (hlo : 0x100 ≤ blk) (hhi : blk < 0x280)
    (hmod : blk % 64 = c.p.toNat) : blockRegs p c.site.toNat blk = some (if blk < 0x140 then regsCORE
      else if blk < 0x180 then regsMXU else if blk < 0x1C0 then regsVEC else if blk < 0x200 then regsLOB
      else if blk < 0x240 then regsPRT else regsLEDC) := by
  have hW := isW_site c.site
  obtain ⟨-, -, hG⟩ := not_others_of_isW hW
  have hgood : p.goodCore c.site.toNat (blk % 64) = true := hmod ▸ hc
  have hne : ∀ n < 0x100, blk ≠ n := by omega
  simp only [blockRegs, hW, hG, hgood, hne, Nat.reduceLT, Bool.false_or, Bool.true_or, Bool.not_true, Bool.false_eq_true,
    if_false, if_true]
  rw [if_neg (by omega)]
  simp only [apply_ite some]

section
variable (p : Part) (w : BitVec 4) (c : CoreId) {off : Nat} (hoff : off < 2 ^ 20)
include hoff

theorem regFields_meshR : regFields p (meshR w.toNat off) = findReg regsMESH off := by
  obtain ⟨-, -, hG⟩ := not_others_of_isW (isW_site w)
  rw [meshR, regFields_eq_findReg (l := regsMESH), ctlOff_ctlAddr hoff]
  rw [ctlSite_ctlAddr (by omega) hoff, ctlBlk_ctlAddr (by omega) hoff]
  simp [blockRegs, isW_site, hG]

theorem regFields_cmnR : regFields p (cmnR w.toNat off) = findReg regsCMN off := by
  obtain ⟨-, -, hG⟩ := not_others_of_isW (isW_site w)
  rw [cmnR, regFields_eq_findReg (l := regsCMN), ctlOff_ctlAddr hoff]
  rw [ctlSite_ctlAddr (by omega) hoff, ctlBlk_ctlAddr (by omega) hoff]
  simp [blockRegs, isW_site, hG]

theorem regFields_coreR (hc : p.has c = true) : regFields p (coreR c off) = findReg regsCORE off := by
  have hp := c.p.isLt
  rw [coreR, regFields_eq_findReg (l := regsCORE), ctlOff_ctlAddr hoff]
  rw [ctlSite_ctlAddr (by omega) hoff, ctlBlk_ctlAddr (by omega) hoff,
    blockRegs_coreBlk hc (by omega) (by omega) (by omega), if_pos (by omega)]

theorem regFields_prtR (hc : p.has c = true) : regFields p (prtR c off) = findReg regsPRT off := by
  have hp := c.p.isLt
  rw [prtR, regFields_eq_findReg (l := regsPRT), ctlOff_ctlAddr hoff]
  rw [ctlSite_ctlAddr (by omega) hoff, ctlBlk_ctlAddr (by omega) hoff,
    blockRegs_coreBlk hc (by omega) (by omega) (by omega), if_neg (by omega), if_neg (by omega), if_neg (by omega),
    if_neg (by omega), if_pos (by omega)]

end

/-! ### Reset words (R15) -/

theorem resetWord_of_table {p : Part} {a : Nat} {fs : List Field} (hf : regFields p a = some fs) (hs : specialReset p a = none) :
    resetWord p a = BitVec.ofNat 64 (fieldsReset fs) := by
  simp only [resetWord, hf, hs]

theorem resetWord_of_special {p : Part} {a : Nat} {fs : List Field} {w : W64} (hf : regFields p a = some fs)
    (hs : specialReset p a = some w) : resetWord p a = BitVec.ofNat 64 (fieldsOf w fs) := by
  simp only [resetWord, hf, hs]

/-- On a W die, past the first two registers of MESH, the tables give every reset word. -/
theorem specialReset_of_isW (p : Part) {a : Nat} (hW : isW (ctlSite a) = true)
    (h : ctlBlk a = 0x10 ∧ 0x10 ≤ ctlOff a ∨ 0x10 < ctlBlk a) : specialReset p a = none := by
  simp only [specialReset, hW, if_true]
  rw [if_neg (by omega), if_neg (by omega), if_neg (by omega), if_neg (by omega), if_neg (by omega)]

/-! ### SAT fields are 0 at reset (R15, R92) -/

/-- Every SAT field of the word is 0. -/
def SatZero (fs : List Field) (w : W64) : Prop := ∀ f ∈ fs, f.acc = .sat → bits w f.lo (f.hi + 1 - f.lo) = 0

/-- Does the register have a SAT field? -/
def RegDesc.counts (r : RegDesc) : Bool := r.fields.any fun f => f.acc == .sat
/-- Every SAT field of the register is 0 in the word its table gives. -/
def RegDesc.startsAtZero (r : RegDesc) : Bool :=
  r.fields.all fun f => f.acc != .sat || bits (BitVec.ofNat 64 (fieldsReset r.fields)) f.lo (f.hi + 1 - f.lo) == 0

theorem satZero_of_startsAtZero {r : RegDesc} (h : r.startsAtZero = true) :
    SatZero r.fields (BitVec.ofNat 64 (fieldsReset r.fields)) := by
  intro f hf hsat
  have := List.all_eq_true.1 h f hf
  simpa [hsat] using this

theorem satZero_of_not_counts {r : RegDesc} (h : r.counts = false) (w : W64) : SatZero r.fields w := by
  intro f hf hsat
  have := List.any_eq_false.1 h f hf
  simp [hsat] at this

/-- A property of every entry of the table, if there is one. -/
abbrev ForTable (P : RegDesc → Bool) (o : Option (List RegDesc)) : Prop := (o.all fun l => l.all P) = true

theorem forTable_ite {P : RegDesc → Bool} {c : Prop} [Decidable c] {x y : Option (List RegDesc)} (hx : ForTable P x)
    (hy : ForTable P y) : ForTable P (if c then x else y) := by
  split
  · exact hx
  · exact hy

/-- Changing how many registers an array has does not change their fields. -/
theorem forTable_map {g : RegDesc → RegDesc} (hg : ∀ r, (g r).fields = r.fields) {l : List RegDesc}
    (h : ForTable RegDesc.startsAtZero (some l)) : ForTable RegDesc.startsAtZero (some (l.map g)) := by
  have : RegDesc.startsAtZero ∘ g = RegDesc.startsAtZero := by
    funext r
    simp only [Function.comp, RegDesc.startsAtZero, hg]
  rw [ForTable, Option.all_some, List.all_map, this]
  exact h

/-- Each table of each block is checked; REGION of MEM, whose size is the part's, is the one that is not closed. -/
theorem blockRegs_startsAtZero (p : Part) (site blk : Nat) : ForTable RegDesc.startsAtZero (blockRegs p site blk) := by
  unfold blockRegs
  simp only [apply_ite some]
  repeat' apply forTable_ite
  on_goal 28 => exact forTable_map (fun r => by split <;> rfl) (by decide +kernel)
  all_goals decide +kernel

/-- The word that the table gives for a register has its SAT fields 0. -/
theorem satZero_fieldsReset {p : Part} {a : Nat} {fs : List Field} (h : regFields p a = some fs) :
    SatZero fs (BitVec.ofNat 64 (fieldsReset fs)) := by
  obtain ⟨l, hl, hfind⟩ := regFields_eq_some h
  obtain ⟨r, hr, -, rfl⟩ := findReg_eq_some hfind
  have hall := blockRegs_startsAtZero p (ctlSite a) (ctlBlk a)
  rw [hl] at hall
  exact satZero_of_startsAtZero (List.all_eq_true.1 hall r hr)

/-- The registers of this entry with SAT fields lie outside the offsets from `lo` to `hi`. -/
def RegDesc.apart (lo hi : Nat) (r : RegDesc) : Bool :=
  !r.counts || decide (hi < r.base) || decide (r.base + r.stride * r.count < lo)

theorem satZero_of_apart {l : List RegDesc} {off lo hi : Nat} {fs : List Field} (hl : l.all (RegDesc.apart lo hi) = true)
    (hf : findReg l off = some fs) (hlo : lo ≤ off) (hhi : off ≤ hi) (w : W64) : SatZero fs w := by
  obtain ⟨r, hr, hit, rfl⟩ := findReg_eq_some hf
  have hbase := RegDesc.base_le_of_hit hit
  have hap := List.all_eq_true.1 hl r hr
  simp only [RegDesc.apart, Bool.or_eq_true, Bool.not_eq_true', decide_eq_true_eq] at hap
  rcases hap with (hcounts | habove) | hbelow
  · exact satZero_of_not_counts hcounts w
  · omega
  · omega

/-- No SAT field stands at the offsets of ID.INFO and ID.CAP. -/
theorem blockRegs_id_apart (p : Part) (site : Nat) : ForTable (RegDesc.apart 0 8) (blockRegs p site 0) := by
  unfold blockRegs
  simp only [apply_ite some, if_true]
  repeat' apply forTable_ite
  all_goals decide +kernel

/-- No SAT field stands at the offset of THM.PLIMIT. -/
theorem blockRegs_thm_apart (p : Part) (site : Nat) : ForTable (RegDesc.apart 0x20 0x20) (blockRegs p site 2) := by
  unfold blockRegs
  simp only [apply_ite some, Nat.reduceEqDiff, if_true, if_false]
  repeat' apply forTable_ite
  all_goals decide +kernel

/-- No SAT field stands among the trims of a CAL block. -/
theorem blockRegs_cal_apart (p : Part) (site : Nat) : ForTable (RegDesc.apart 0x1000 (2 ^ 20)) (blockRegs p site 4) := by
  unfold blockRegs
  simp only [apply_ite some, Nat.reduceEqDiff, if_true, if_false]
  repeat' apply forTable_ite
  all_goals decide +kernel

/-- No SAT field stands at the offset of MEM.STAT. -/
theorem memc_apart (p : Part) : ForTable (RegDesc.apart 0x20 0x20)
    (some (regsMEMC.map fun r => if r.base = 0x40000 then RegDesc.mk r.base r.stride p.regions r.fields else r)) := by
  have hn : p.regions = 98304 ∨ p.regions = 73728 := by
    unfold Part.regions
    split <;> simp
  rcases hn with hn | hn <;> rw [hn] <;> decide +kernel

/-- Every entry of the lane plan names one of the roles of R299, toward a site, a bank or a channel. -/
theorem planDir_lt {p : Part} {site : Nat} {toDie : Bool} {x : Nat × Nat × Nat} (h : x ∈ planDir p site toDie) :
    x.2.1 < 8 ∧ x.2.2 < 32 := by
  have hadj : ∀ e ∈ adjacentSites, ∀ f ∈ e.2, f < 32 := by decide
  simp only [planDir, List.mem_append, List.mem_map] at h
  rcases h with ((h | ⟨f, hf, rfl⟩) | h) | h
  · have : ∀ y ∈ [(16, 0, 0), (82, 1, 0)], y.2.1 < 8 ∧ y.2.2 < 32 := by decide
    exact this x h
  · split at hf
    · rename_i e he
      have hlt := hadj e (List.mem_of_find?_eq_some he) f hf
      split <;> dsimp only <;> omega
    · cases hf
  · split at h
    · simp only [List.map_cons, List.map_nil, List.mem_cons, List.not_mem_nil, or_false] at h
      rcases h with rfl | rfl <;> dsimp only <;> omega
    · cases h
  · split at h
    · obtain ⟨k, hk, rfl⟩ := List.mem_map.1 h
      have := List.mem_range.1 hk
      dsimp only
      omega
    · cases h

theorem planAt_mem {l : List (Bool × Nat × Nat × Nat)} {n : Nat} {x : Bool × Nat × Nat} (h : planAt l n = some x) :
    ∃ y ∈ l, (y.1, y.2.2) = x := by
  induction l generalizing n with
  | nil => cases h
  | cons y ys ih =>
    unfold planAt at h
    split at h
    · exact ⟨y, List.mem_cons_self, Option.some.inj h⟩
    · obtain ⟨z, hz, hx⟩ := ih h
      exact ⟨z, List.mem_cons_of_mem _ hz, hx⟩

theorem planOf_lt {p : Part} {site : Nat} {y : Bool × Nat × Nat × Nat} (h : y ∈ planOf p site) :
    y.2.2.1 < 8 ∧ y.2.2.2 < 32 := by
  simp only [planOf, List.mem_append, List.mem_map] at h
  rcases h with ⟨x, hx, rfl⟩ | ⟨x, hx, rfl⟩
  · exact planDir_lt hx
  · exact planDir_lt hx

/-- The lane plan leaves the bits of LAT.LANE above the group's place clear. -/
theorem planWord_lt (p : Part) (site a : Nat) {off : Nat} (hoff : 0x1000 ≤ off) : (planWord p site off a).toNat < 2 ^ 16 := by
  have hlt : ¬off < 0x1000 := by omega
  simp only [planWord, hlt, if_false]
  split
  · have := Nat.mod_lt (Config.lanePlan a).toNat (show 0 < 32768 by omega)
    simp only [BitVec.toNat_ofNat]
    omega
  · split
    · rename_i x hx
      obtain ⟨y, hy, rfl⟩ := planAt_mem hx
      have := planOf_lt hy
      simp only [BitVec.toNat_ofNat]
      split <;> omega
    · decide

theorem satZero_of_low {fs : List Field} {w : W64} (hsat : ∀ f ∈ fs, f.acc = .sat → 16 ≤ f.lo)
    (hlow : fieldsOf w fs < 2 ^ 16) : SatZero fs (BitVec.ofNat 64 (fieldsOf w fs)) := by
  intro f hf h
  have hpow : 2 ^ 16 ≤ 2 ^ f.lo := Nat.pow_le_pow_right (by omega) (hsat f hf h)
  have hw : (BitVec.ofNat 64 (fieldsOf w fs)).toNat = fieldsOf w fs := by
    rw [BitVec.toNat_ofNat, Nat.mod_eq_of_lt (by omega)]
  rw [bits, hw, Nat.div_eq_of_lt (by omega), Nat.zero_mod]

/-- The fields of BRT.INFO. -/
def brtFields : List Field := [⟨0, 0, .ro, 0, []⟩, ⟨1, 7, .ro, 0, []⟩, ⟨8, 8, .ro, 0, []⟩, ⟨16, 63, .sat, 0, []⟩]

/-- The fields of LAT.LANE. -/
def laneFields : List Field :=
  [⟨0, 2, .ro, 0, []⟩, ⟨3, 3, .ro, 0, []⟩, ⟨8, 12, .ro, 0, []⟩, ⟨13, 14, .ro, 0, []⟩, ⟨16, 17, .ro, 0, []⟩, ⟨48, 63, .sat, 0, []⟩]

theorem satZero_brt {w : W64} (h : w.toNat < 2 ^ 16) : SatZero brtFields (BitVec.ofNat 64 (fieldsOf w brtFields)) := by
  refine satZero_of_low (by decide) ?_
  simp only [brtFields, fieldsOf]
  omega

theorem satZero_lane {w : W64} (h : w.toNat < 2 ^ 16) : SatZero laneFields (BitVec.ofNat 64 (fieldsOf w laneFields)) := by
  refine satZero_of_low (by decide) ?_
  simp only [laneFields, fieldsOf]
  omega

/-- The table of a LAT block. -/
def latTable : List RegDesc := regsLAT ++ regsLATC
  ++ (regsLATS.map fun r => RegDesc.mk (r.base + 0x81000) r.stride r.count r.fields)
  ++ (regsLATS.map fun r => RegDesc.mk (r.base + 0x82000) r.stride r.count r.fields)

theorem blockRegs_lat {p : Part} {site blk : Nat} (hB : isBase site = true) (hlo : 0x20 ≤ blk) (hhi : blk ≤ 0x36) :
    blockRegs p site blk = some latTable := by
  obtain ⟨hW, hL, hK, hG⟩ := not_others_of_isBase hB
  have hne : ∀ n < 0x20, blk ≠ n := by omega
  simp [blockRegs, hW, hL, hK, hG, hB, hne, hlo, hhi, latTable]

/-- In the part of a LAT block that the lane plan fills, LAT.LANE is the one register with a SAT field. -/
theorem satZero_plan {p : Part} {e off a : Nat} {fs : List Field} (hf : findReg latTable off = some fs) (hlo : 0x300 ≤ off)
    (hhi : off < 0x3000) : SatZero fs (BitVec.ofNat 64 (fieldsOf (planWord p e off a) fs)) := by
  obtain ⟨r, hr, hit, rfl⟩ := findReg_eq_some hf
  have hbase := RegDesc.base_le_of_hit hit
  have htable : ∀ r ∈ latTable, r.counts = false ∨ 0x3000 ≤ r.base ∨ r.base + r.stride * r.count < 0x300 ∨
      (0x1000 ≤ r.base ∧ r.fields = laneFields) := by decide +kernel
  rcases htable r hr with hcounts | habove | hbelow | ⟨hlane, hfields⟩
  · exact satZero_of_not_counts hcounts _
  · omega
  · omega
  · rw [hfields]
    exact satZero_lane (planWord_lt p e a (by omega))

theorem satZero_of_block {p : Part} {a lo hi : Nat} {fs : List Field} (hf : regFields p a = some fs)
    (h : ForTable (RegDesc.apart lo hi) (blockRegs p (ctlSite a) (ctlBlk a))) (hlo : lo ≤ ctlOff a) (hhi : ctlOff a ≤ hi)
    (w : W64) : SatZero fs w := by
  obtain ⟨l, hl, hfind⟩ := regFields_eq_some hf
  rw [hl] at h
  exact satZero_of_apart h hfind hlo hhi w

section
variable {p : Part} {a : Nat} {fs : List Field} {w : W64} (hf : regFields p a = some fs)
  (hs : specialReset p a = some w) (hid : ¬(ctlBlk a = 0 ∧ (ctlOff a = 0 ∨ ctlOff a = 8)))
include hf hs hid

theorem satZero_special_of_isW (hW : isW (ctlSite a) = true) : SatZero fs (BitVec.ofNat 64 (fieldsOf w fs)) := by
  simp only [specialReset, hW, if_true] at hs
  rw [if_neg (by omega), if_neg (by omega)] at hs
  obtain ⟨-, -, hG⟩ := not_others_of_isW hW
  have hmesh : ForTable (RegDesc.apart 0 8) (blockRegs p (ctlSite a) 0x10) := by
    rw [show blockRegs p (ctlSite a) 0x10 = some regsMESH by simp [blockRegs, hW, hG]]
    decide +kernel
  split at hs
  · rename_i h
    exact satZero_of_block hf (h.1 ▸ hmesh) (by omega) (by omega) _
  split at hs
  · rename_i h
    exact satZero_of_block hf (h.1 ▸ hmesh) (by omega) (by omega) _
  split at hs
  · rename_i h
    exact satZero_of_block hf (h.1 ▸ blockRegs_cal_apart p _) h.2 (Nat.le_of_lt (Nat.mod_lt _ (by omega))) _
  · cases hs

theorem satZero_special_of_isL (hL : isL (ctlSite a) = true) : SatZero fs (BitVec.ofNat 64 (fieldsOf w fs)) := by
  obtain ⟨hW, -, hG⟩ := not_others_of_isL hL
  simp only [specialReset, hW, hL, Bool.false_eq_true, if_false, if_true] at hs
  rw [if_neg (by omega), if_neg (by omega)] at hs
  split at hs
  · rename_i h
    refine satZero_of_block hf (lo := 0x20) (hi := 0x20) ?_ (by omega) (by omega) _
    rw [h.1]
    simpa [blockRegs, hW, hL, hG] using memc_apart p
  split at hs
  · rename_i h
    refine satZero_of_block hf (lo := 8) (hi := 8) ?_ (by omega) (by omega) _
    have hne : ∀ n < 0x30, ctlBlk a ≠ n := by omega
    rw [show blockRegs p (ctlSite a) (ctlBlk a) = some regsMEM by simp [blockRegs, hW, hL, hG, hne, h]]
    decide +kernel
  split at hs
  · rename_i h
    exact satZero_of_block hf (h.1 ▸ blockRegs_cal_apart p _) h.2 (Nat.le_of_lt (Nat.mod_lt _ (by omega))) _
  · cases hs

theorem satZero_special_of_isK (hK : isK (ctlSite a) = true) : SatZero fs (BitVec.ofNat 64 (fieldsOf w fs)) := by
  obtain ⟨hW, hL, hG⟩ := not_others_of_isK hK
  simp only [specialReset, hW, hL, hK, Bool.false_eq_true, if_false, if_true] at hs
  rw [if_neg (by omega), if_neg (by omega)] at hs
  split at hs
  · rename_i h
    refine satZero_of_block hf (lo := 0x10) (hi := 0x10) ?_ (by omega) (by omega) _
    rw [h.1, show blockRegs p (ctlSite a) 0x50 = some regsHOST by simp [blockRegs, hW, hL, hK, hG]]
    decide +kernel
  split at hs
  · rename_i h
    refine satZero_of_block hf (lo := 0x48) (hi := 0x48) ?_ (by omega) (by omega) _
    rw [h.1, show blockRegs p (ctlSite a) 0x51 = some regsFW by simp [blockRegs, hW, hL, hK, hG]]
    decide +kernel
  · cases hs

theorem satZero_special_of_isBase (hB : isBase (ctlSite a) = true) : SatZero fs (BitVec.ofNat 64 (fieldsOf w fs)) := by
  obtain ⟨hW, hL, hK, hG⟩ := not_others_of_isBase hB
  simp only [specialReset, hW, hL, hK, hB, Bool.false_eq_true, if_false, if_true] at hs
  rw [if_neg (by omega), if_neg (by omega)] at hs
  split at hs
  · rename_i h
    obtain rfl := Option.some.inj hs
    have hl : blockRegs p (ctlSite a) (ctlBlk a) = some regsBRT := by
      rcases h with h | h <;> rw [h] <;> simp [blockRegs, hW, hL, hK, hG, hB]
    rw [regFields_eq_findReg hl] at hf
    obtain ⟨r, hr, -, rfl⟩ := findReg_eq_some hf
    obtain rfl := List.mem_singleton.1 hr
    have hberth := p.berth.isLt
    refine satZero_brt ?_
    rw [BitVec.toNat_ofNat]
    split <;> omega
  split at hs
  · rename_i h
    exact satZero_of_block hf (h.1 ▸ blockRegs_thm_apart p _) (by omega) (by omega) _
  split at hs
  · rename_i h
    exact satZero_of_block hf (h.1 ▸ blockRegs_cal_apart p _) h.2 (Nat.le_of_lt (Nat.mod_lt _ (by omega))) _
  split at hs
  · rename_i h
    refine satZero_of_block hf (lo := 0x40000) (hi := 2 ^ 20) ?_ (by omega) (Nat.le_of_lt (Nat.mod_lt _ (by omega))) _
    have hne : ∀ n < 0x40, ctlBlk a ≠ n := by omega
    have hnot : ¬(0x20 ≤ ctlBlk a ∧ ctlBlk a ≤ 0x36) := by omega
    rw [show blockRegs p (ctlSite a) (ctlBlk a) = some regsPWB by simp [blockRegs, hW, hL, hK, hG, hB, hne, hnot, h]]
    decide +kernel
  split at hs
  · rename_i h
    refine satZero_of_block hf (lo := 0) (hi := 0) ?_ (by omega) (by omega) _
    rw [blockRegs_lat hB h.1 h.2.1]
    decide +kernel
  split at hs
  · rename_i h
    obtain rfl := Option.some.inj hs
    rw [regFields_eq_findReg (blockRegs_lat hB h.1 h.2.1)] at hf
    exact satZero_plan hf h.2.2.1 h.2.2.2
  · cases hs

end

theorem satZero_special {p : Part} {a : Nat} {fs : List Field} {w : W64} (hf : regFields p a = some fs)
    (hs : specialReset p a = some w) : SatZero fs (BitVec.ofNat 64 (fieldsOf w fs)) := by
  by_cases hid : ctlBlk a = 0 ∧ (ctlOff a = 0 ∨ ctlOff a = 8)
  · exact satZero_of_block hf (hid.1 ▸ blockRegs_id_apart p _) (by omega) (by omega) _
  by_cases hW : isW (ctlSite a) = true
  · exact satZero_special_of_isW hf hs hid hW
  by_cases hL : isL (ctlSite a) = true
  · exact satZero_special_of_isL hf hs hid hL
  by_cases hK : isK (ctlSite a) = true
  · exact satZero_special_of_isK hf hs hid hK
  by_cases hB : isBase (ctlSite a) = true
  · exact satZero_special_of_isBase hf hs hid hB
  · simp only [specialReset, hW, hL, hK, hB, Bool.false_eq_true, if_false] at hs
    rw [if_neg (by omega), if_neg (by omega)] at hs
    cases hs

/-- Every SAT field of every register is 0 at reset. -/
theorem satZero_resetWord {p : Part} {a : Nat} {fs : List Field} (hf : regFields p a = some fs) :
    SatZero fs (resetWord p a) := by
  cases hs : specialReset p a with
  | none =>
    rw [resetWord_of_table hf hs]
    exact satZero_fieldsReset hf
  | some w =>
    rw [resetWord_of_special hf hs]
    exact satZero_special hf hs

/-! ### The state after cold reset -/

/-- No register is listed at reset: each holds its reset word. -/
theorem reset_reg (a : Nat) : State.reset.reg a = resetWord Part.standard a := rfl

theorem standard_has (c : CoreId) : Part.standard.has c = true := by
  show (-1 : W64).getLsbD c.p.toNat = true
  have h : (-1 : W64) = BitVec.allOnes 64 := by decide
  rw [h, BitVec.getLsbD_allOnes]
  exact decide_eq_true c.p.isLt

theorem standard_valid : Part.standard.valid := by
  have hgood (n : Nat) : Part.standard.nGood n = 64 := by
    show popCount (-1 : W64) = 64
    decide +kernel
  have hrev (s : Nat) : Part.standard.revOf s = 0x10 := by
    unfold Part.revOf
    split <;> rfl
  refine ⟨fun n _ => ?_, ?_, fun s _ => ?_⟩
  · rw [hgood]
    decide
  · rw [show Part.standard.nGood = fun _ => 64 from funext hgood]
    decide
  · rw [hrev]
    decide

/-- A register of a W die past the first two of MESH holds at reset what its table gives. -/
theorem resetWord_of_isW {p : Part} {a v : Nat} {l : List RegDesc} (hf : regFields p a = findReg l (ctlOff a))
    (hW : isW (ctlSite a) = true) (h : ctlBlk a = 0x10 ∧ 0x10 ≤ ctlOff a ∨ 0x10 < ctlBlk a)
    (hv : (findReg l (ctlOff a)).map fieldsReset = some v) : resetWord p a = BitVec.ofNat 64 v := by
  obtain ⟨fs, hfs, rfl⟩ := Option.map_eq_some_iff.1 hv
  exact resetWord_of_table (hf.trans hfs) (specialReset_of_isW p hW h)

section
variable (p : Part) (w : BitVec 4) (c : CoreId) {off v : Nat} (hoff : off < 2 ^ 20)
include hoff

theorem resetWord_meshR (hlo : 0x10 ≤ off) (hv : (findReg regsMESH off).map fieldsReset = some v) :
    resetWord p (meshR w.toNat off) = BitVec.ofNat 64 v := by
  have hf := regFields_meshR p w hoff
  unfold meshR at *
  have ho := ctlOff_ctlAddr (a := w.toNat) (b := 0x10) hoff
  have hb := ctlBlk_ctlAddr (a := w.toNat) (b := 0x10) (by omega) hoff
  refine resetWord_of_isW (l := regsMESH) (by rw [ho, hf]) ?_ (.inl ⟨hb, by omega⟩) (by rw [ho, hv])
  rw [ctlSite_ctlAddr (by omega) hoff, isW_site]

theorem resetWord_cmnR (hv : (findReg regsCMN off).map fieldsReset = some v) :
    resetWord p (cmnR w.toNat off) = BitVec.ofNat 64 v := by
  have hf := regFields_cmnR p w hoff
  unfold cmnR at *
  have ho := ctlOff_ctlAddr (a := w.toNat) (b := 0x11) hoff
  have hb := ctlBlk_ctlAddr (a := w.toNat) (b := 0x11) (by omega) hoff
  refine resetWord_of_isW (l := regsCMN) (by rw [ho, hf]) ?_ (.inr (by omega)) (by rw [ho, hv])
  rw [ctlSite_ctlAddr (by omega) hoff, isW_site]

theorem resetWord_coreR (hc : p.has c = true) (hv : (findReg regsCORE off).map fieldsReset = some v) :
    resetWord p (coreR c off) = BitVec.ofNat 64 v := by
  have hf := regFields_coreR p c hoff hc
  have hp := c.p.isLt
  unfold coreR at *
  have ho := ctlOff_ctlAddr (a := c.site.toNat) (b := 0x100 + c.p.toNat) hoff
  have hb := ctlBlk_ctlAddr (a := c.site.toNat) (b := 0x100 + c.p.toNat) (by omega) hoff
  refine resetWord_of_isW (l := regsCORE) (by rw [ho, hf]) ?_ (.inr (by omega)) (by rw [ho, hv])
  rw [ctlSite_ctlAddr (by omega) hoff, isW_site]

theorem resetWord_prtR (hc : p.has c = true) (hv : (findReg regsPRT off).map fieldsReset = some v) :
    resetWord p (prtR c off) = BitVec.ofNat 64 v := by
  have hf := regFields_prtR p c hoff hc
  have hp := c.p.isLt
  unfold prtR at *
  have ho := ctlOff_ctlAddr (a := c.site.toNat) (b := 0x200 + c.p.toNat) hoff
  have hb := ctlBlk_ctlAddr (a := c.site.toNat) (b := 0x200 + c.p.toNat) (by omega) hoff
  refine resetWord_of_isW (l := regsPRT) (by rw [ho, hf]) ?_ (.inr (by omega)) (by rw [ho, hv])
  rw [ctlSite_ctlAddr (by omega) hoff, isW_site]

end

/-- MESH.GOOD of the standard part: all ones (log entry 3). -/
theorem resetWord_good (w : BitVec 4) : resetWord Part.standard (meshR w.toNat 8) = 0xFFFFFFFFFFFFFFFF := by
  have hs : specialReset Part.standard (meshR w.toNat 8) = some (-1) := by
    have hsite : ctlSite (meshR w.toNat 8) = w.toNat := ctlSite_ctlAddr (by decide) (by decide)
    have hblk : ctlBlk (meshR w.toNat 8) = 0x10 := ctlBlk_ctlAddr (by decide) (by decide)
    have hoff : ctlOff (meshR w.toNat 8) = 8 := ctlOff_ctlAddr (by decide)
    simp [specialReset, hsite, hblk, hoff, isW_site, Part.mask, Part.standard]
  rw [resetWord_of_special (regFields_meshR _ w (by decide)) hs]
  decide

/-- The three registers of a barrier are 0 at reset. -/
theorem resetWord_barReg (p : Part) (w b : BitVec 4) {off : Nat} (h : off ∈ [0, 8, 0x10]) :
    resetWord p (barReg w.toNat b.toNat off) = 0 := by
  have hz : ∀ n < 16, ∀ o ∈ [0, 8, 0x10], (findReg regsMESH (0x100 + 0x20 * n + o)).map fieldsReset = some 0 := by decide +kernel
  have hb := b.isLt
  have hoff : off ≤ 0x10 := by revert h; simp; omega
  exact resetWord_meshR p w (by omega) (by omega) (hz b.toNat hb off h)

/-- EN of QCFG is 0 at reset. -/
theorem resetWord_qcfg_en (p : Part) {c : CoreId} (hc : p.has c = true) (q : BitVec 4) :
    (resetWord p (prtReg c q.toNat 0)).getLsbD 0 = false := by
  have hz : ∀ n < 16, (findReg regsPRT (0x100 + 0x20 * n + 0)).map fieldsReset = some 64 := by decide +kernel
  have hq := q.isLt
  rw [prtReg, resetWord_prtR p c (by omega) hc (hz q.toNat hq)]
  decide

/-- Settles O32: nothing is listed at reset, so that each register holds its reset word. -/
theorem resetState : Obligations.ResetState := by
  refine ⟨⟨rfl, standard_valid⟩, rfl, fun _ => rfl, by decide, fun c => ⟨rfl, rfl, fun r => ?_, ?_, fun q => ?_⟩, ?_,
    fun w b => ⟨?_, ?_, ?_, ?_, ?_, ?_⟩⟩
  · unfold CoreSt.getS
    split <;> rfl
  · rw [reset_reg, resetWord_coreR _ c (v := 1) (by decide) (standard_has c) (by decide +kernel)]
    rfl
  · rw [Dev.qEn, Dev.bit, ← State.reg, reset_reg, resetWord_qcfg_en _ (standard_has c)]
  · intro a fs hf f hm hsat
    rw [State.field, Dev.fld, ← State.reg, reset_reg]
    exact satZero_resetWord hf f hm hsat
  · rw [reset_reg, resetWord_meshR _ w (v := 0) (by decide) (by decide) (by decide +kernel)]
    rfl
  · rw [reset_reg, resetWord_good]
  · rw [reset_reg, resetWord_cmnR _ w (v := 1) (by decide) (by decide +kernel)]
    rfl
  · rw [reset_reg, resetWord_barReg _ w b (by simp)]
  · rw [reset_reg, resetWord_barReg _ w b (by simp)]
  · rw [reset_reg, resetWord_barReg _ w b (by simp)]

end Sys2Proof.Machine
end

section

namespace Sys2Proof.Machine

/-! ### What a write of a register leaves of the node ID

The response to a CWRITE carries the node ID, so that whatever the write does beside storing must leave it alone (R36: it is
latched at cold reset and at no other time). One lemma for each update of the device that a write can lead to. -/

theorem foldl_node {α : Type} {f : Dev → α → Dev} (h : ∀ d x, (f d x).node = d.node) (l : List α) (d : Dev) :
    (l.foldl f d).node = d.node := by
  induction l generalizing d with
  | nil => rfl
  | cons x l ih => rw [List.foldl_cons, ih, h]

section
variable (p : Part) (d : Dev)

/-! #### Registers, faults, injections -/

/-! The lemmas of the model's file about the smallest updates hold by computation; through a rewrite they are proofs instead,
and the kernel need not compare two large devices again. -/

theorem put_keeps_node (a : Nat) (v : W64) : (d.put p a v).node = d.node := by rw [Dev.put_node]
theorem setF_keeps_node (a lo n v : Nat) : (d.setF p a lo n v).node = d.node := by rw [Dev.setF_node]
theorem setB_keeps_node (a i : Nat) (b : Bool) : (d.setB p a i b).node = d.node := by rw [Dev.setB_node]
theorem count_keeps_node (a n : Nat) : (d.count p a n).node = d.node := by rw [Dev.count_node]
theorem modCore_keeps_node (c : CoreId) (f : CoreSt → CoreSt) : (d.modCore c f).node = d.node := by rw [Dev.modCore_node]
theorem send_keeps_node (m : Msg) : (d.send m).node = d.node := by rw [Dev.send_node]
@[simp] theorem putWords_node (a : Nat) (ws : List W64) : (d.putWords p a ws).node = d.node := by
  induction ws generalizing d a with
  | nil => rfl
  | cons w ws ih => rw [Dev.putWords, ih, Dev.put_node]
@[simp] theorem logRec_node (site : Nat) (f : FaultRec) : (d.logRec p site f).node = d.node := by
  rw [Dev.logRec, Dev.setF_node, putWords_node, Dev.count_node]
@[simp] theorem sendRec_node (f : FaultRec) (o : Option CoreId) : (d.sendRec f o).node = d.node := by
  cases o <;> rfl
@[simp] theorem noteMinor_node (f : FaultRec) : (d.noteMinor f).node = d.node := by
  simp only [Dev.noteMinor]
@[simp] theorem raiseRec_node (site : Nat) (f : FaultRec) (o : Option CoreId) : (d.raiseRec p site f o).node = d.node := by
  unfold Dev.raiseRec
  dsimp only
  split
  · rw [sendRec_node, logRec_node]
  · split
    · rw [Dev.count_node, logRec_node]
    · rw [sendRec_node, noteMinor_node, logRec_node]
@[simp] theorem fault_node (site unit cls code : Nat) (c0 c1 : W64) (inj : Bool) (c2 c3 : W64) :
    (d.fault p site unit cls code c0 c1 inj c2 c3).node = d.node := by rw [Dev.fault, raiseRec_node]
@[simp] theorem coreFault_node (c : CoreId) (cls code : Nat) (c0 c1 : W64) (inj : Bool) :
    (d.coreFault p c cls code c0 c1 inj).node = d.node := by rw [Dev.coreFault, raiseRec_node]
@[simp] theorem noticeIgnored_node (a : Nat) (v : W64) : (d.noticeIgnored p a v).node = d.node := by
  rw [Dev.noticeIgnored, fault_node]
@[simp] theorem noticeReserved_node (a : Nat) (v : W64) : (d.noticeReserved p a v).node = d.node := by
  rw [Dev.noticeReserved, fault_node]
@[simp] theorem regStore_node (a : Nat) (v : W64) (lower upper : Bool) : (d.regStore p a v lower upper).node = d.node := by
  unfold Dev.regStore
  split
  · rfl
  · simp only [apply_ite Dev.node, noticeReserved_node, put_keeps_node, ite_self]
@[simp] theorem setInj_node (site : Nat) (x : Option Inj) : (d.setInj p site x).node = d.node := by
  unfold Dev.setInj
  dsimp only
  rw [Dev.setF_node]
@[simp] theorem injUse_node (site : Nat) : (d.injUse p site).node = d.node := by
  unfold Dev.injUse
  split
  · rw [Dev.count_node, setInj_node]
  · rfl
@[simp] theorem injTake_node (site checker unit : Nat) : (d.injTake p site checker unit).1.node = d.node := by
  simp only [Dev.injTake, apply_ite Prod.fst, apply_ite Dev.node, injUse_node, ite_self]
@[simp] theorem setMark_node (a : Nat) (x : BitVec 3) : (d.setMark a x).node = d.node := rfl
@[simp] theorem produce_node (site checker unit a step n : Nat) : (d.produce p site checker unit a step n).node = d.node := by
  induction n generalizing d a with
  | zero => rfl
  | succ n ih => rw [Dev.produce, ih, setMark_node, injTake_node]
@[simp] theorem sendAll_node (ms : List Msg) : (d.sendAll ms).node = d.node := rfl
@[simp] theorem sendReq_node (r : Req) : (d.sendReq p r).node = d.node := by
  unfold Dev.sendReq
  extract_lets refuse pl
  have hr (st : BitVec 7) : (refuse st).node = d.node := send_keeps_node ..
  clear_value refuse pl
  split
  · split
    · rw [hr]
    · rw [apply_ite Dev.node, hr, Dev.send_node, ite_self]
  · rw [apply_ite Dev.node, hr, Dev.send_node, ite_self]

/-! #### Cores, lobbies, porters -/

@[simp] theorem checkWord_node (c : CoreId) (a : Nat) : (d.checkWord p c a).1.node = d.node := by
  unfold Dev.checkWord
  dsimp only
  split
  · rw [Dev.setB_node, Dev.setF_node]
  · split
    · rw [coreFault_node, Dev.setB_node, Dev.setF_node, Dev.count_node, setMark_node]
    · rfl
@[simp] theorem checkWords_node (c : CoreId) (a n : Nat) : (d.checkWords p c a n).1.node = d.node := by
  induction n generalizing d a with
  | zero => rfl
  | succ n ih =>
    have h := checkWord_node p d c a
    unfold Dev.checkWords
    split <;> rename_i hw <;> rw [hw] at h
    · exact h
    · rw [ih, h]
@[simp] theorem pantryWrite_node (c : CoreId) (a : Nat) (bs : List Byte) : (d.pantryWrite p c a bs).1.node = d.node := by
  have hopt (d : Dev) (b : Prop) [Decidable b] (x : Nat) :
      (if b then d.checkWords p c x 1 else (d, none)).1.node = d.node := by
    split <;> simp
  unfold Dev.pantryWrite
  dsimp only
  split
  · rfl
  · split
    · rename_i h1
      exact (congrArg (·.1.node) h1).symm.trans (hopt ..)
    · rename_i d1 h1
      have e1 : d1.node = d.node := (congrArg (·.1.node) h1).symm.trans (hopt ..)
      split
      · rename_i h2
        exact ((congrArg (·.1.node) h2).symm.trans (hopt ..)).trans e1
      · rename_i d2 h2
        rw [produce_node]
        exact ((congrArg (·.1.node) h2).symm.trans (hopt ..)).trans e1
@[simp] theorem setSr_node (c : CoreId) (x : W64) : (d.setSr p c x).node = d.node := rfl
@[simp] theorem setLobby_node (c : CoreId) (l : BitVec 3) (x : Lobby) : (d.setLobby c l x).node = d.node := by
  rw [Dev.setLobby, Dev.modCore_node]
@[simp] theorem lobClear_node (c : CoreId) (l : BitVec 3) : (d.lobClear c l).node = d.node := by
  rw [Dev.lobClear, setLobby_node]
@[simp] theorem setReadSeq_node (c : CoreId) (l : BitVec 3) (s : BitVec 16) : (d.setReadSeq p c l s).node = d.node := by
  rw [Dev.setReadSeq, Dev.setF_node]
@[simp] theorem writeLobCfg_node (c : CoreId) (l : BitVec 3) (v : W64) (lower upper : Bool) :
    (d.writeLobCfg p c l v lower upper).node = d.node := by
  simp only [Dev.writeLobCfg, apply_ite Dev.node, lobClear_node, noticeIgnored_node, regStore_node, put_keeps_node, ite_self]
@[simp] theorem writeLobSeq_node (c : CoreId) (l : BitVec 3) (s : BitVec 16) : (d.writeLobSeq p c l s).node = d.node := by
  unfold Dev.writeLobSeq
  split_ifs <;> simp only [noticeIgnored_node, setReadSeq_node]
@[simp] theorem setDescs_node (c : CoreId) (q : Nat) (l : List Desc) : (d.setDescs c q l).node = d.node := by
  rw [Dev.setDescs, Dev.modCore_node]
@[simp] theorem modDesc_node (c : CoreId) (q : Nat) (i : BitVec 16) (f : Desc → Desc) :
    (d.modDesc c q i f).node = d.node := by rw [Dev.modDesc, setDescs_node]
@[simp] theorem setHead_node (c : CoreId) (q : Nat) (i : BitVec 16) : (d.setHead p c q i).node = d.node := by
  rw [Dev.setHead, Dev.setF_node]
@[simp] theorem qFail_node (c : CoreId) (q cause : Nat) (i : BitVec 16) : (d.qFail p c q cause i).node = d.node := by
  simp only [Dev.qFail, apply_ite Dev.node, setF_keeps_node, ite_self]
@[simp] theorem qOverflow_node (c : CoreId) (q : Nat) : (d.qOverflow p c q).node = d.node := by
  simp only [Dev.qOverflow, apply_ite Dev.node, qFail_node, ite_self]
@[simp] theorem setTail_node (c : CoreId) (q : Nat) (t : BitVec 16) : (d.setTail p c q t).node = d.node := by
  rw [Dev.setTail, qOverflow_node, Dev.setF_node]
@[simp] theorem writeRecord_node (c : CoreId) (q : Nat) (x : Desc) : (d.writeRecord p c q x).1.node = d.node := by
  unfold Dev.writeRecord
  dsimp only
  split
  · split <;> rename_i h <;> exact (congrArg (·.1.node) h).symm.trans (pantryWrite_node ..)
  · rfl
@[simp] theorem flushRecords_node (c : CoreId) (q : Nat) (l : List Desc) : (flushRecords p c q d l).1.node = d.node := by
  induction l generalizing d with
  | nil => rfl
  | cons x xs ih =>
    unfold flushRecords
    split
    · simp [ih]
    · rfl
@[simp] theorem endDesc_node (c : CoreId) (q : Nat) (x : Desc) : (d.endDesc p c q x).1.node = d.node := by
  simp only [Dev.endDesc, setDescs_node, flushRecords_node, apply_ite Dev.node, qFail_node, count_keeps_node, modDesc_node,
    ite_self]
@[simp] theorem setEn_node (c : CoreId) (q : Nat) (en : Bool) : (d.setEn p c q en).1.node = d.node := by
  unfold Dev.setEn
  dsimp only
  split
  · rw [Dev.setB_node]
  · split
    · simp only [qOverflow_node, setF_keeps_node, setB_keeps_node]
    · split <;> simp only [endDesc_node, modDesc_node, apply_ite Dev.node, setHead_node, setB_keeps_node, ite_self]
@[simp] theorem writeQcfg_node (c : CoreId) (q : Nat) (v : W64) (lower upper : Bool) :
    (d.writeQcfg p c q v lower upper).1.node = d.node := by
  simp only [Dev.writeQcfg, setEn_node, apply_ite Dev.node, noticeIgnored_node, put_keeps_node, regStore_node, ite_self]
@[simp] theorem coreReset_node (c : CoreId) : (d.coreReset p c).node = d.node := by
  rw [Dev.coreReset, Dev.modCore_node, Dev.dropCoreRegs]
@[simp] theorem ctrlWrite_node (c : CoreId) (start halt resume reset step : Bool) :
    (d.ctrlWrite p c start halt resume reset step).node = d.node := by
  simp only [Dev.ctrlWrite, apply_ite Dev.node, coreReset_node, modCore_keeps_node, ite_self]
@[simp] theorem icInvalidate_node (c : CoreId) : (d.icInvalidate c).node = d.node := by
  rw [Dev.icInvalidate, Dev.modCore_node]
@[simp] theorem dbgWrite_node (c : CoreId) (x : W32) : (d.dbgWrite p c x).node = d.node := by
  unfold Dev.dbgWrite
  split
  · rfl
  · split <;> simp only [apply_ite Dev.node, modCore_keeps_node, ite_self]
@[simp] theorem coreWrite_node (a : Nat) (v : W64) (lower upper : Bool) : (d.coreWrite p a v lower upper).1.node = d.node := by
  simp only [Dev.coreWrite, apply_ite Prod.fst, apply_ite Dev.node, ctrlWrite_node, modCore_keeps_node, dbgWrite_node, setSr_node,
    icInvalidate_node, regStore_node, writeLobCfg_node, writeLobSeq_node, writeQcfg_node, setTail_node, ite_self]

end

end Sys2Proof.Machine
end

section

namespace Sys2Proof.Machine

section
variable (p : Part) (d : Dev)

/-! #### Barriers, the commons, the regions of memory -/

@[simp] theorem setArr_node (w b : Nat) (x : W64) : (d.setArr p w b x).node = d.node := by
  rw [Dev.setArr, Dev.setF_node]
@[simp] theorem wake_node (c : CoreId) : (d.wake p c).node = d.node := by
  rw [Dev.wake, Dev.retire, Dev.retireTo, Dev.count_node, Dev.modCore_node, Dev.modCore_node]
@[simp] theorem clearPending_node (c : CoreId) (b : Nat) : (d.clearPending c b).node = d.node := by
  rw [Dev.clearPending, Dev.modCore_node]
@[simp] theorem releaseCore_node (b : Nat) (c : CoreId) : (d.releaseCore p b c).node = d.node := by
  simp only [Dev.releaseCore, apply_ite Dev.node, modCore_keeps_node, wake_node, clearPending_node, ite_self]
@[simp] theorem release_node (b : Nat) (cs : List CoreId) : (d.release p b cs).node = d.node := by
  induction cs generalizing d with
  | nil => rfl
  | cons c cs ih => rw [Dev.release, ih, releaseCore_node]
@[simp] theorem barCheck_node (w b : Nat) : (d.barCheck p w b).node = d.node := by
  simp only [Dev.barCheck, apply_ite Dev.node, release_node, setF_keeps_node, setArr_node, ite_self]
@[simp] theorem extArrive_node (w b add : Nat) : (d.extArrive p w b add).node = d.node := by
  rw [Dev.extArrive, barCheck_node, Dev.setF_node]
@[simp] theorem barWrite_node (w b off : Nat) (v : W64) (lower upper : Bool) :
    (d.barWrite p w b off v lower upper).node = d.node := by
  simp only [Dev.barWrite, apply_ite Dev.node, noticeIgnored_node, setF_keeps_node, setArr_node, setB_keeps_node, regStore_node,
    ite_self]
@[simp] theorem setEntries_node (w bank : Nat) (l : List CEntry) : (d.setEntries w bank l).node = d.node := by
  rw [Dev.setEntries]
@[simp] theorem closeAll_node (w n : Nat) : (d.closeAll w n).node = d.node := by
  induction n generalizing d with
  | zero => rfl
  | succ n ih => rw [Dev.closeAll, ih, setEntries_node]
@[simp] theorem writeCmnCfg_node (w : Nat) (v : W64) (lower upper : Bool) : (d.writeCmnCfg p w v lower upper).node = d.node := by
  simp only [Dev.writeCmnCfg, apply_ite Dev.node, closeAll_node, regStore_node, ite_self]
@[simp] theorem setFenceWait_node (w : Nat) (l : List (BitVec 6 × BitVec 4)) : (d.setFenceWait w l).node = d.node := by
  rw [Dev.setFenceWait]
@[simp] theorem fenceRequest_node (w : Nat) (core : BitVec 6) (cause : Nat) : (d.fenceRequest p w core cause).node = d.node := by
  simp only [Dev.fenceRequest, apply_ite Dev.node, setFenceWait_node, fault_node, ite_self]
@[simp] theorem dieWrite_node (a : Nat) (v : W64) (lower upper : Bool) : (d.dieWrite p a v lower upper).node = d.node := by
  simp only [Dev.dieWrite, apply_ite Dev.node, writeCmnCfg_node, regStore_node, fenceRequest_node, barWrite_node, extArrive_node,
    ite_self]

@[simp] theorem memInit_node (l : Nat) : (d.memInit p l).node = d.node := by
  simp only [Dev.memInit, apply_ite Dev.node, setB_keeps_node, ite_self]
@[simp] theorem writeOpen_node (l : Nat) (b : Bool) : (d.writeOpen p l b).node = d.node := by
  simp only [Dev.writeOpen, apply_ite Dev.node, noticeIgnored_node, setB_keeps_node, ite_self]
@[simp] theorem writeMap_node (l : Nat) (v : W64) (lower upper : Bool) : (d.writeMap p l v lower upper).node = d.node := by
  simp only [Dev.writeMap, apply_ite Dev.node, noticeIgnored_node, noticeReserved_node, setF_keeps_node, regStore_node, ite_self]
@[simp] theorem writeTiming_node (c : Nat) (v : W64) (lower upper : Bool) : (d.writeTiming p c v lower upper).node = d.node := by
  simp only [Dev.writeTiming, apply_ite Dev.node, noticeIgnored_node, put_keeps_node, regStore_node, ite_self]
@[simp] theorem memWrite_node (a : Nat) (v : W64) (lower upper : Bool) : (d.memWrite p a v lower upper).node = d.node := by
  simp only [Dev.memWrite, apply_ite Dev.node, memInit_node, writeOpen_node, writeMap_node, writeTiming_node, setB_keeps_node,
    regStore_node, ite_self]

/-! #### Trims, clocks, power and the injection register -/

@[simp] theorem moveTrim_node (a : Nat) (w : W64) : (d.moveTrim p a w).node = d.node := by
  rw [Dev.moveTrim, Dev.put_node]
@[simp] theorem writeTrim_node (a : Nat) (v : W64) (lower upper : Bool) : (d.writeTrim p a v lower upper).node = d.node := by
  simp only [Dev.writeTrim, apply_ite Dev.node, noticeIgnored_node, moveTrim_node, ite_self]
@[simp] theorem calDefaults_node (site : Nat) : (d.calDefaults p site).node = d.node := by
  rw [Dev.calDefaults]
  refine foldl_node (fun d a => ?_) ..
  simp only [apply_ite Dev.node, noticeIgnored_node, moveTrim_node, ite_self]
@[simp] theorem recalStart_node : (d.recalStart p).node = d.node := by
  simp only [Dev.recalStart, setF_keeps_node, setB_keeps_node, put_keeps_node]
@[simp] theorem pkgGo_node : (d.pkgGo p).node = d.node := by
  simp only [Dev.pkgGo, apply_ite Dev.node, noticeIgnored_node, recalStart_node, ite_self]
@[simp] theorem writePlimit_node (a : Nat) (v : W64) (lower upper : Bool) : (d.writePlimit p a v lower upper).node = d.node := by
  simp only [Dev.writePlimit, setF_keeps_node, regStore_node]
@[simp] theorem writeThmStat_node (a : Nat) (v : W64) (lower upper : Bool) : (d.writeThmStat p a v lower upper).node = d.node := by
  simp only [Dev.writeThmStat, apply_ite Dev.node, setF_keeps_node, regStore_node, ite_self]
@[simp] theorem writeInj_node (site : Nat) (v : W64) (lower upper : Bool) : (d.writeInj p site v lower upper).node = d.node := by
  rw [Dev.writeInj.eq_def]
  dsimp only
  rw [apply_ite Dev.node, apply_ite Dev.node, noticeIgnored_node, setInj_node, regStore_node, ite_self, ite_self]
@[simp] theorem freqRequest_node (opp : BitVec 2) (dep : W64) : (d.freqRequest p opp dep).1.node = d.node := by
  unfold Dev.freqRequest
  extract_lets a ahead d1 accept
  have hacc (r : Nat) : (accept r).node = d.node := by
    have h : d1.node = d.node := sendAll_node ..
    unfold accept
    rw [Dev.put_node, h]
  clear_value accept
  split
  · rw [Dev.setF_node]
  · split
    · exact hacc 0
    · split
      · rw [fault_node, Dev.setF_node]
      · exact hacc 2
@[simp] theorem writeFreqReq_node (v : W64) (lower : Bool) : (d.writeFreqReq p v lower).node = d.node := by
  simp only [Dev.writeFreqReq, apply_ite Dev.node, freqRequest_node, ite_self]

end

end Sys2Proof.Machine
end

section

namespace Sys2Proof.Machine

section
variable (p : Part) (d : Dev)

/-! #### Banks -/

@[simp] theorem setBank_node (b : Nat) (x : BankSt) : (d.setBank b x).node = d.node := by rw [Dev.setBank]
@[simp] theorem modBank_node (b : Nat) (f : BankSt → BankSt) : (d.modBank b f).node = d.node := by
  rw [Dev.modBank, setBank_node]
@[simp] theorem setBch_node (b ch : Nat) (x : BankCh) : (d.setBch b ch x).node = d.node := by rw [Dev.setBch, modBank_node]
@[simp] theorem setBankState_node (b st : Nat) : (d.setBankState p b st).node = d.node := by
  rw [Dev.setBankState, Dev.setF_node]
@[simp] theorem bankPush_node (b ch : Nat) (x : BSent) : (d.bankPush p b ch x).node = d.node := by
  simp only [Dev.bankPush, apply_ite Dev.node, sendReq_node, ite_self]
@[simp] theorem bankSend_node (b ch : Nat) : (d.bankSend p b ch).node = d.node := by
  unfold Dev.bankSend
  dsimp only
  split
  · rfl
  · simp only [bankPush_node, apply_ite Dev.node, setF_keeps_node, modBank_node, setBch_node, ite_self]
@[simp] theorem bankFlush_node (b ch : Nat) : (d.bankFlush p b ch).node = d.node := by
  unfold Dev.bankFlush
  extract_lets x ls d1
  have h : d1.node = d.node := setBch_node ..
  clear_value ls d1
  simp only [apply_ite Dev.node, bankSend_node, h, ite_self]
@[simp] theorem writeChEn_node (b ch : Nat) (en : Bool) : (d.writeChEn p b ch en).node = d.node := by
  unfold Dev.writeChEn
  rw [apply_ite Dev.node, apply_ite Dev.node, setBch_node, setBch_node, Dev.setF_node, Dev.setB_node, Dev.setB_node, ite_self,
    ite_self]
@[simp] theorem writeChCfg_node (b ch : Nat) (v : W64) (lower upper : Bool) : (d.writeChCfg p b ch v lower upper).node = d.node := by
  -- the definition is unfolded behind a variable: compared with its body, it would have the kernel evaluate the register table
  suffices h : ∀ f, f = @Dev.writeChCfg → ∀ x, x = f p d b ch v lower upper → x.node = d.node from h _ rfl _ rfl
  delta Dev.writeChCfg
  intro f hf x hx
  subst hf
  beta_reduce at hx
  extract_lets a old at hx
  clear_value a
  rw [hx]
  split
  · rfl
  · dsimp only
    rw [apply_ite Dev.node, writeChEn_node, ite_self, apply_ite Dev.node, Dev.put_node, apply_ite Dev.node, noticeIgnored_node,
      ite_self, ite_self]
@[simp] theorem writeChIdle_node (b ch a : Nat) (v : W64) (lower upper : Bool) :
    (d.writeChIdle p b ch a v lower upper).node = d.node := by
  simp only [Dev.writeChIdle, apply_ite Dev.node, noticeIgnored_node, regStore_node, ite_self]
@[simp] theorem loadEnd_node (b result : Nat) : (d.loadEnd p b result).node = d.node := by
  simp only [Dev.loadEnd, modBank_node, setF_keeps_node, setB_keeps_node]
@[simp] theorem bankOut_node (b : Nat) : (d.bankOut p b).node = d.node := by
  simp only [Dev.bankOut, setF_keeps_node, apply_ite Dev.node, loadEnd_node, setBankState_node, ite_self]
@[simp] theorem bankDark_node (b : Nat) : (d.bankDark p b).node = d.node := by
  simp only [Dev.bankDark, apply_ite Dev.node, fault_node, bankOut_node, ite_self]
@[simp] theorem loadRequest_node (b : Nat) : (d.loadRequest p b).node = d.node := by
  simp only [Dev.loadRequest, apply_ite Dev.node, noticeIgnored_node, setF_keeps_node, setB_keeps_node, ite_self]
@[simp] theorem calRequest_node (b : Nat) : (d.calRequest p b).node = d.node := by
  simp only [Dev.calRequest, apply_ite Dev.node, noticeIgnored_node, setB_keeps_node, ite_self]
@[simp] theorem bankReset_node (b : Nat) : (d.bankReset p b).node = d.node := by
  simp only [Dev.bankReset, modBank_node, apply_ite Dev.node, setF_keeps_node, ite_self]

/-! #### The lattice -/

@[simp] theorem strobe_node (e : Nat) (plane fallback : Bool) : (d.strobe e plane fallback).node = d.node := by
  rw [Dev.strobe, sendAll_node]
@[simp] theorem planeLost_node (e : Nat) (plane : Bool) (cause : Nat) : (d.planeLost p e plane cause).node = d.node := by
  simp only [Dev.planeLost, apply_ite Dev.node, strobe_node, setF_keeps_node, setB_keeps_node, ite_self]
@[simp] theorem trunksDark_node : (d.trunksDark p).node = d.node := by
  rw [Dev.trunksDark]
  refine foldl_node (fun d e => ?_) ..
  rw [apply_ite Dev.node, planeLost_node, planeLost_node, ite_self]
@[simp] theorem latForce_node (e : Nat) (plane : Bool) : (d.latForce p e plane).node = d.node := by
  rw [Dev.latForce, apply_ite Dev.node, noticeIgnored_node, planeLost_node, ite_self]
@[simp] theorem beginReturn_node (e : Nat) : (d.beginReturn p e).node = d.node := by
  simp only [Dev.beginReturn, apply_ite Dev.node, strobe_node, setB_keeps_node, ite_self]
@[simp] theorem latReturn_node (e : Nat) : (d.latReturn p e).node = d.node := by
  rw [Dev.latReturn, apply_ite Dev.node, noticeIgnored_node, beginReturn_node, ite_self]
@[simp] theorem downPairs_node (e : Nat) (on : Bool) : (d.downPairs p e on).node = d.node := by
  rw [Dev.downPairs]
  refine foldl_node (fun d f => ?_) ..
  simp only [apply_ite Dev.node, setB_keeps_node, ite_self]
@[simp] theorem latResume_node (e : Nat) : (d.latResume p e).node = d.node := by
  unfold Dev.latResume
  split
  · extract_lets a d1 clear d2
    have h1 : d1.node = d.node := by
      unfold d1
      rw [downPairs_node, Dev.setB_node, Dev.setB_node]
    have hc (d : Dev) (x y : Nat) : (clear d x y).node = d.node := put_keeps_node ..
    have h2 : d2.node = d1.node := by
      refine foldl_node (fun d f => ?_) ..
      rw [apply_ite Dev.node, hc, hc, ite_self]
    exact h2.trans h1
  · rfl

/-! #### Ports, their routes, lanterns -/

@[simp] theorem setPort_node (f : Nat) (x : PortSt) : (d.setPort f x).node = d.node := by rw [Dev.setPort]
@[simp] theorem modPort_node (f : Nat) (g : PortSt → PortSt) : (d.modPort f g).node = d.node := by
  rw [Dev.modPort, setPort_node]
@[simp] theorem setRt_node (st : Nat) : (d.setRt p st).node = d.node := by rw [Dev.setRt, Dev.setF_node]
@[simp] theorem tellRequester_node (x : FabPkt) (st : BitVec 7) : (d.tellRequester x st).node = d.node := by
  unfold Dev.tellRequester
  split
  · rw [Dev.send_node]
  · rfl
@[simp] theorem noRoute_node (x : FabPkt) : (d.noRoute p x).node = d.node := by
  rw [Dev.noRoute, tellRequester_node, Dev.count_node]
@[simp] theorem enq_node (f : Nat) (x : FabPkt) : (d.enq f x).node = d.node := by rw [Dev.enq, modPort_node]
theorem routeOut_node {x : FabPkt} {d d1 : Dev} (h : d.routeOut p x = some d1) : d1.node = d.node := by
  unfold Dev.routeOut at h
  split at h
  · cases h
    rw [noRoute_node]
  · split at h
    · cases h
    · cases h
      rw [enq_node, Dev.count_node]
@[simp] theorem reroute_node (xs : List FabPkt) : (d.reroute p xs).node = d.node := by
  induction xs generalizing d with
  | nil => rfl
  | cons x xs ih =>
    rw [Dev.reroute]
    split
    · rename_i h
      rw [ih, routeOut_node p h]
    · rw [ih]
@[simp] theorem sendBlock_node (f : Nat) (msg : Option (List Byte)) : (d.sendBlock p f msg).node = d.node := by
  simp only [Dev.sendBlock, apply_ite Dev.node, count_keeps_node, setPort_node, injTake_node, ite_self]
@[simp] theorem sendPort_node (f : Nat) (m : PortMsg) : (d.sendPort p f m).node = d.node := by
  rw [Dev.sendPort, Dev.send_node, sendBlock_node]
@[simp] theorem sendLeave_node (f : Nat) (reason : BitVec 8) : (d.sendLeave p f reason).node = d.node := by
  rw [Dev.sendLeave]
  exact foldl_node (fun d _ => sendPort_node ..) ..
@[simp] theorem drain_node : (d.drain p).node = d.node := by
  simp only [Dev.drain, apply_ite Dev.node, setRt_node, ite_self]
@[simp] theorem rtResume_node : (d.rtResume p).node = d.node := by
  simp only [Dev.rtResume, apply_ite Dev.node, setRt_node, ite_self]
@[simp] theorem writeRouteTable_node (a : Nat) (v : W64) (lower upper : Bool) :
    (d.writeRouteTable p a v lower upper).node = d.node := by
  simp only [Dev.writeRouteTable, apply_ite Dev.node, regStore_node, noticeIgnored_node, ite_self]
@[simp] theorem setPortSt_node (f st : Nat) : (d.setPortSt p f st).node = d.node := by
  rw [Dev.setPortSt, modPort_node, Dev.setF_node, Dev.setF_node]
@[simp] theorem portFault_node (f cls code v : Nat) : (d.portFault p f cls code v).node = d.node := by
  rw [Dev.portFault, fault_node]
@[simp] theorem leaveFault_node (f cause : Nat) : (d.leaveFault p f cause).node = d.node := by
  simp only [Dev.leaveFault, apply_ite Dev.node, portFault_node, ite_self]
@[simp] theorem endCopy_node (y : FabPkt) (g : Nat) : (d.endCopy p y g).node = d.node := by
  unfold Dev.endCopy
  dsimp only
  split
  · rw [sendPort_node, Dev.count_node, setPort_node]
  · rw [apply_ite Dev.node, setPort_node, ite_self]
@[simp] theorem loseCopy_node (f : Nat) : (d.loseCopy p f).node = d.node := by
  unfold Dev.loseCopy
  dsimp only
  split
  · rfl
  · rw [foldl_node (fun d g => endCopy_node p d _ g), modPort_node]
@[simp] theorem portDrop_node (f st : Nat) : (d.portDrop p f st).node = d.node := by
  simp only [Dev.portDrop, apply_ite Dev.node, reroute_node, modPort_node, setF_keeps_node, count_keeps_node, setPortSt_node,
    loseCopy_node, ite_self]
@[simp] theorem leaveUp_node (f cause st : Nat) : (d.leaveUp p f cause st).node = d.node := by
  rw [Dev.leaveUp, leaveFault_node, portDrop_node, Dev.setF_node]
@[simp] theorem sweepPort_node (f : Nat) : (d.sweepPort f).node = d.node := by rw [Dev.sweepPort]
@[simp] theorem portLock_node (f : Nat) : (d.portLock p f).node = d.node := by
  rw [Dev.portLock, modPort_node, sweepPort_node, setPortSt_node]
@[simp] theorem portRow_node (f cause : Nat) : (d.portRow p f cause).node = d.node := by
  simp only [Dev.portRow, apply_ite Dev.node, modPort_node, sendLeave_node, leaveUp_node, setPortSt_node, portLock_node,
    setB_keeps_node, ite_self]
@[simp] theorem portEval_node (f cause : Nat) : (d.portEval p f cause).node = d.node := by
  rw [Dev.portEval, portRow_node, portRow_node, portRow_node]
@[simp] theorem portsEval_node (fs : List Nat) (cause : Nat) : (d.portsEval p fs cause).node = d.node := by
  rw [Dev.portsEval]
  exact foldl_node (fun d f => portEval_node ..) ..
@[simp] theorem portRetrain_node (f : Nat) : (d.portRetrain p f).node = d.node := by
  simp only [Dev.portRetrain, apply_ite Dev.node, modPort_node, portLock_node, sendLeave_node, leaveUp_node, ite_self]
@[simp] theorem writePortCtrl_node (f : Nat) (v : W64) (lower upper : Bool) : (d.writePortCtrl p f v lower upper).node = d.node := by
  simp only [Dev.writePortCtrl, apply_ite Dev.node, portRetrain_node, portLock_node, portEval_node, regStore_node, ite_self]
@[simp] theorem setLtn_node (g st : Nat) (cause : Option Nat) : (d.setLtn p g st cause).node = d.node := by
  unfold Dev.setLtn
  dsimp only
  cases cause <;> simp only [setF_keeps_node]
@[simp] theorem ltnLost_node (g cause : Nat) (dark : Bool) : (d.ltnLost p g cause dark).node = d.node := by
  simp only [Dev.ltnLost, apply_ite Dev.node, foldl_node (fun d b => bankDark_node p d b), trunksDark_node, portsEval_node,
    fault_node, count_keeps_node, ite_self]
@[simp] theorem ltnWarm_node (g : Nat) : (d.ltnWarm p g).node = d.node := by
  rw [Dev.ltnWarm, apply_ite Dev.node, setLtn_node, ite_self]
@[simp] theorem ltnEnabled_node (g : Nat) (en : Bool) : (d.ltnEnabled p g en).node = d.node := by
  simp only [Dev.ltnEnabled, apply_ite Dev.node, setLtn_node, ltnWarm_node, ltnLost_node, ite_self]
@[simp] theorem writeLtnCtrl_node (g : Nat) (v : W64) (lower upper : Bool) : (d.writeLtnCtrl p g v lower upper).node = d.node := by
  simp only [Dev.writeLtnCtrl, apply_ite Dev.node, ltnEnabled_node, regStore_node, ite_self]

/-! #### Parties -/

@[simp] theorem setPty_node (e st : Nat) : (d.setPty p e st).node = d.node := by rw [Dev.setPty, Dev.setF_node]
@[simp] theorem ptyStart_node (e : Nat) : (d.ptyStart p e).node = d.node := by
  simp only [Dev.ptyStart, apply_ite Dev.node, setF_keeps_node, setPty_node, noticeIgnored_node, ite_self]
@[simp] theorem ptyResetCores_node (e n : Nat) : (d.ptyResetCores p e n).node = d.node := by
  rw [Dev.ptyResetCores]
  refine foldl_node (fun d k => ?_) ..
  simp only [apply_ite Dev.node, modCore_keeps_node, coreReset_node, ite_self]
@[simp] theorem ptyStopChannels_node (e : Nat) : (d.ptyStopChannels p e).node = d.node := by
  rw [Dev.ptyStopChannels]
  refine foldl_node (fun d i => ?_) ..
  rw [apply_ite Dev.node, writeChEn_node, ite_self]
@[simp] theorem ptyAbort_node (e cause : Nat) : (d.ptyAbort p e cause).node = d.node := by
  simp only [Dev.ptyAbort, apply_ite Dev.node, ptyStopChannels_node, foldl_node (fun d n => ptyResetCores_node p d e n),
    setF_keeps_node, setPty_node, ite_self]
@[simp] theorem ptyFree_node (e : Nat) : (d.ptyFree p e).node = d.node := by
  rw [Dev.ptyFree, apply_ite Dev.node, setPty_node, ite_self]
@[simp] theorem writePtyCtrl_node (e : Nat) (v : W64) (lower : Bool) : (d.writePtyCtrl p e v lower).node = d.node := by
  simp only [Dev.writePtyCtrl, apply_ite Dev.node, ptyStart_node, ptyAbort_node, ptyFree_node, ite_self]
@[simp] theorem writePtyCfg_node (e a : Nat) (v : W64) (lower upper : Bool) : (d.writePtyCfg p e a v lower upper).node = d.node := by
  simp only [Dev.writePtyCfg, apply_ite Dev.node, regStore_node, noticeIgnored_node, ite_self]

/-! #### The base -/

@[simp] theorem baseWrite_node (a : Nat) (v : W64) (lower upper : Bool) : (d.baseWrite p a v lower upper).node = d.node := by
  simp only [Dev.baseWrite, apply_ite Dev.node, loadRequest_node, calRequest_node, bankReset_node, writeChCfg_node, writeChIdle_node,
    bankFlush_node, writePortCtrl_node, writeLtnCtrl_node, latForce_node, latReturn_node, latResume_node, drain_node, rtResume_node,
    setF_keeps_node, writeRouteTable_node, writePtyCtrl_node, writePtyCfg_node, writeFreqReq_node, regStore_node, ite_self]

end

end Sys2Proof.Machine
end

section

namespace Sys2Proof.Machine

/-! ### How a write of a register ends -/

/-- The write of a register is answered OK, by the node it was made at. -/
def EndsOk (d : Dev) (z : Dev × Wr × Option (BitVec 7)) : Prop := z.2.2 = some stOk ∧ z.1.node = d.node

theorem EndsOk.of_node {d e : Dev} (w : Wr) (h : e.node = d.node) : EndsOk d (e, w, some stOk) := ⟨rfl, h⟩

/-- HANDOFF and the blocks of K0 apart, the write of a register ends with OK. -/
theorem regWrite_endsOk (p : Part) (d : Dev) (src : Src) (ans : Option Req) {a : Nat} (v : W64) (lower upper : Bool)
    (hK : isK (ctlSite a) = false) (hH : ¬(isL (ctlSite a) = true ∧ ctlBlk a = 0x3F ∧ ctlOff a = 0x30)) :
    EndsOk d (d.regWrite p src ans a v lower upper) := by
  unfold Dev.regWrite
  extract_lets site blk off ok
  have hok {e : Dev} (h : e.node = d.node) : EndsOk d (ok e) := .of_node [] h
  clear_value ok
  split
  · exact hok (writeTrim_node ..)
  split
  · exact hok (writeInj_node ..)
  split
  · exact hok (writeThmStat_node ..)
  split
  · exact hok (writePlimit_node ..)
  split
  · split
    · exact hok rfl
    · refine hok ?_
      rw [apply_ite Dev.node, pkgGo_node, ite_self, apply_ite Dev.node, calDefaults_node, ite_self]
  split
  · split
    · exact .of_node _ (coreWrite_node ..)
    · exact hok (dieWrite_node ..)
  split
  · rename_i hL
    rw [if_neg fun h => hH ⟨hL, h⟩]
    exact hok (memWrite_node ..)
  · rw [if_neg (by simp [site, hK])]
    exact hok (baseWrite_node ..)

end Sys2Proof.Machine
end

section

namespace Sys2Proof.Machine

/-! ### A register access at its site -/

/-- The local addresses of memory lie below those of every other place (R39, R40). -/
theorem usable_le (p : Part) (d : Dev) : 48 * d.usable p ≤ 0x300000000000 := by
  have h : d.dataRows p ≤ 32768 := by
    unfold Dev.dataRows Part.checkedRows Part.rows
    split <;> split <;> omega
  unfold Dev.usable
  omega

theorem place_eq_ctl {p : Part} {d : Dev} {x a : Nat} :
    d.place p x = .ctl a ↔ 0x7F0000000000 ≤ x ∧ x < 0x800000000000 ∧ a = x - 0x7F0000000000 := by
  have hu := usable_le p d
  unfold Dev.place
  dsimp only
  split_ifs <;> simp only [Place.ctl.injEq, false_iff] <;> omega

/-- A register access of this node that its sender does not refuse, among the messages in flight. -/
structure RegAccess (s : State) (r : Req) (a : Nat) : Prop where
  alive : s.dev.dead = false
  here : gaNode r.addr = s.dev.node
  place : s.dev.place s.part (gaLocal r.addr) = .ctl a
  taken : s.dev.refusedAtSender s.part (.ctl a) = none
  inNet : Msg.req r ∈ s.dev.net

/-- Has the access not come to its turn: it is on the mesh, or another goes before it? -/
def Dev.accessWaits (p : Part) (d : Dev) (r : Req) : Bool := d.onMesh (.req r) || d.behind p r

/-- The answer of the site of register address `a`. -/
def Dev.ctlResp (d : Dev) (r : Req) (a : Nat) (st : BitVec 7) (data : List Byte) : Resp :=
  { dst := r.src, tag := r.tag, status := st, data := data, from' := BitVec.ofNat 5 (ctlSite a), node := d.node }

section
variable {s : State} {r : Req} {a : Nat} (h : RegAccess s r a)
include h

theorem RegAccess.atTarget (f : Dev → Place → Dev × Wr) :
    s.dev.atTarget s.part r f = if s.dev.accessWaits s.part r = true then (s.dev, []) else f s.dev (.ctl a) := by
  obtain ⟨hd, hn, hp, ht, -⟩ := h
  have hr : s.dev.refusedReq s.part r (.ctl a) = none := by
    unfold Dev.refusedReq
    rw [ht]
  have hw : (gaNode r.addr ≠ s.dev.node ∨ s.dev.onMesh (.req r) = true ∨ s.dev.behind s.part r = true) ↔
      s.dev.accessWaits s.part r = true := by simp [Dev.accessWaits, hn]
  have hs : s.dev.targetHeld r (.ctl a) = false := rfl
  have hq : s.dev.portWaits s.part r (.ctl a) = false := rfl
  have he : s.dev.portServed r (.ctl a) = s.dev := rfl
  rw [Dev.atTarget, hd, if_neg Bool.false_ne_true, if_congr hw rfl rfl, hp]
  simp only [hr, hs, hq, he, Bool.or_false, Bool.false_eq_true, if_false]

theorem RegAccess.answer {d : Dev} (st : BitVec 7) (data : List Byte) :
    d.answer s.part r st data = d.send (.resp (d.ctlResp r a st data)) := by
  have hp : d.place s.part (gaLocal r.addr) = .ctl a := place_eq_ctl.mpr (place_eq_ctl.mp h.place)
  unfold Dev.answer Dev.respTo
  rw [hp]
  simp only [Dev.placeSite, placeRouter, Dev.ctlResp]

theorem RegAccess.recv : s.dev.recv (.req r) = Dev.offMesh { s.dev with net := s.dev.net.erase (.req r) } (.req r) := by
  unfold Dev.recv
  rw [if_pos]
  simpa using h.inNet

theorem RegAccess.recv_net : (s.dev.recv (.req r)).net = s.dev.net.erase (.req r) := by rw [h.recv, Dev.offMesh]
theorem RegAccess.recv_node : (s.dev.recv (.req r)).node = s.dev.node := by rw [h.recv, Dev.offMesh]
theorem RegAccess.recv_core (c : CoreId) : (s.dev.recv (.req r)).core c = s.dev.core c := by rw [h.recv]; rfl
theorem RegAccess.recv_get (z : Nat) : (s.dev.recv (.req r)).get s.part z = s.dev.get s.part z := by rw [h.recv]; rfl
theorem RegAccess.recv_regView (z : Nat) (fs : List Field) :
    (s.dev.recv (.req r)).regView s.part z fs = s.dev.regView s.part z fs := by rw [h.recv]; rfl
theorem RegAccess.recv_fencedReg (z : Nat) (write : Bool) :
    (s.dev.recv (.req r)).fencedReg z write = s.dev.fencedReg z write := by rw [h.recv]; rfl
theorem RegAccess.recv_handoffRefused (l : Nat) (v : W64) :
    (s.dev.recv (.req r)).handoffRefused s.part l r.src v = s.dev.handoffRefused s.part l r.src v := by rw [h.recv]; rfl

/-- While it waits, the command changes nothing. -/
theorem RegAccess.waiting (hw : s.dev.accessWaits s.part r = true) :
    exec (.cread r) s = .next s ∧ exec (.cwrite r) s = .next s := by
  constructor
  · change execCread r s = _
    unfold execCread
    cases r.op <;> simp only [State.updW, h.atTarget, hw, if_true, applyWr]
  · change execCwrite r s = _
    unfold execCwrite
    cases r.op <;> simp only [State.updW, h.atTarget, hw, if_true, applyWr]

/-- The state after an access that is answered `st` and `data` and changes nothing beside. -/
def Told (s : State) (r : Req) (a : Nat) (st : BitVec 7) (data : List Byte) (t : State) : Prop :=
  t.dev = { s.dev.recv (.req r) with net := s.dev.net.erase (.req r) ++ [.resp (s.dev.ctlResp r a st data)] } ∧ Still s t

theorem RegAccess.told {i : Instr} {st : BitVec 7} {data : List Byte}
    (hx : exec i s = .next ⟨s.part, s.mem, (s.dev.recv (.req r)).answer s.part r st data, s.pending⟩) :
    Answers i s (Told s r a st data) := by
  refine ⟨_, hx, ?_, fun _ => rfl, fun c => ?_, rfl, rfl⟩
  · have hc : (s.dev.recv (.req r)).ctlResp r a st data = s.dev.ctlResp r a st data := by
      rw [Dev.ctlResp, h.recv_node, ← Dev.ctlResp]
    dsimp only
    rw [h.answer, hc, Dev.send, h.recv_net]
  · exact h.recv_core c

end

/-! ### A CREAD at its site (R277) -/

theorem ctlRead_misaligned (p : Part) (d : Dev) {a : Nat} (h8 : a % 8 ≠ 0) : d.ctlRead p a = (stBadRequest, 0) := if_pos h8
theorem ctlRead_fenced (p : Part) {d : Dev} {a : Nat} (h8 : a % 8 = 0) (hf : d.fencedReg a false = true) :
    d.ctlRead p a = (stCoreFenced, 0) := by simp [Dev.ctlRead, h8, hf]
theorem ctlRead_none {p : Part} {d : Dev} {a : Nat} (h8 : a % 8 = 0) (hf : d.fencedReg a false = false) (hr : regFields p a = none) :
    d.ctlRead p a = (stNoTarget, 0) := by simp [Dev.ctlRead, h8, hf, hr]
theorem ctlRead_some {p : Part} {d : Dev} {a : Nat} {fs : List Field} (h8 : a % 8 = 0) (hf : d.fencedReg a false = false)
    (hr : regFields p a = some fs) : d.ctlRead p a = (stOk, d.regView p (canonAddr a) fs) := by simp [Dev.ctlRead, h8, hf, hr]

section
variable {s : State} {r : Req} {a : Nat} (h : RegAccess s r a) (hw : s.dev.accessWaits s.part r = false)
  (hG : isG (ctlSite a) = false)
include h hw hG

theorem RegAccess.exec_cread (hop : r.op = .cread) {st : BitVec 7} {x : W64} (hz : s.dev.ctlRead s.part a = (st, x)) :
    exec (.cread r) s = .next ⟨s.part, s.mem,
      (if st = stOk then (s.dev.recv (.req r)).answer s.part r stOk (leBytes 16 x.toNat)
        else (s.dev.recv (.req r)).answer s.part r st), s.pending⟩ := by
  have hz' : (s.dev.recv (.req r)).ctlRead s.part a = (st, x) := by
    rw [← hz, h.recv]
    rfl
  change execCread r s = _
  unfold execCread
  simp only [State.updW, hop, h.atTarget, hw, Bool.false_eq_true, if_false, Dev.doCread, ownCtl, hG, Bool.not_false, Bool.not_true,
    hz', applyWr]

theorem RegAccess.reads (hop : r.op = .cread) {x : W64} (hz : s.dev.ctlRead s.part a = (stOk, x)) :
    Answers (.cread r) s (Told s r a stOk (leBytes 16 x.toNat)) := h.told (h.exec_cread hw hG hop hz)

theorem RegAccess.refusesRead (hop : r.op = .cread) {st : BitVec 7} {x : W64} (hz : s.dev.ctlRead s.part a = (st, x))
    (hst : st ≠ stOk) : Answers (.cread r) s (Told s r a st []) :=
  h.told (by rw [h.exec_cread hw hG hop hz, if_neg hst])

end

/-! ### A CWRITE at its site (R277) -/

section
variable (p : Part) (d : Dev) (src : Src) (ans : Option Req) {a : Nat} (v : W64) (lower upper : Bool)

theorem ctlWrite_misaligned (h8 : a % 8 ≠ 0) : d.ctlWrite p src ans a v lower upper = (d, [], some stBadRequest) := if_pos h8
theorem ctlWrite_fenced (h8 : a % 8 = 0) (hf : d.fencedReg a true = true) :
    d.ctlWrite p src ans a v lower upper = (d, [], some stCoreFenced) := by simp [Dev.ctlWrite, h8, hf]
theorem ctlWrite_none (h8 : a % 8 = 0) (hf : d.fencedReg a true = false) (hr : regFields p a = none) :
    d.ctlWrite p src ans a v lower upper = (d, [], some stNoTarget) := by simp [Dev.ctlWrite, h8, hf, hr]
theorem ctlWrite_some {fs : List Field} (h8 : a % 8 = 0) (hf : d.fencedReg a true = false) (hr : regFields p a = some fs) :
    d.ctlWrite p src ans a v lower upper = d.regWrite p src ans (canonAddr a) v lower upper := by simp [Dev.ctlWrite, h8, hf, hr]

end

section
variable {s : State} {r : Req} {a : Nat} {v : W64} {lower upper : Bool} (h : RegAccess s r a)
  (hw : s.dev.accessWaits s.part r = false) (hG : isG (ctlSite a) = false) (hop : r.op = .cwrite v lower upper)
include h hw hG hop

theorem RegAccess.exec_cwrite {e : Dev} {w : Wr} {o : Option (BitVec 7)}
    (hz : (s.dev.recv (.req r)).ctlWrite s.part r.src (some r) a v lower upper = (e, w, o)) :
    exec (.cwrite r) s = .next ⟨s.part, applyWr s.mem w, (match o with
      | some st => e.answer s.part r st
      | none => e), s.pending⟩ := by
  change execCwrite r s = _
  unfold execCwrite
  cases o <;> simp only [State.updW, hop, h.atTarget, hw, Bool.false_eq_true, if_false, Dev.doCwrite, ownCtl, hG, Bool.not_false,
    Bool.not_true, hz]

theorem RegAccess.refusesWrite {st : BitVec 7}
    (hz : (s.dev.recv (.req r)).ctlWrite s.part r.src (some r) a v lower upper = (s.dev.recv (.req r), [], some st)) :
    Answers (.cwrite r) s (Told s r a st []) := h.told (h.exec_cwrite hw hG hop hz)

end

end Sys2Proof.Machine
end

section

namespace Sys2Proof.Machine

/-! ### Which register an address names (R32, R33, R304) -/

theorem canonAddr_of_not_base {a : Nat} (h : isBase (ctlSite a) = false) : canonAddr a = a := by
  unfold canonAddr
  rw [if_neg]
  simp [h]

theorem canonAddr_of_blk {a : Nat} (h : 0x36 < ctlBlk a) : canonAddr a = a := by
  unfold canonAddr
  rw [if_neg]
  omega

theorem ctlSite_canonAddr (a : Nat) : ctlSite (canonAddr a) = ctlSite a := by
  unfold canonAddr
  split
  · rename_i h
    obtain ⟨hB, -⟩ := h
    obtain hs : ctlSite a = 31 := by simpa [isBase] using hB
    have hoff : ctlOff a < 2 ^ 20 := Nat.mod_lt _ (by omega)
    rw [ctlSite_ctlAddr (by omega) hoff, hs]
  · rfl

theorem isBase_of_isL {site : Nat} (h : isL site = true) : isBase site = false := by
  cases hB : isBase site with
  | false => rfl
  | true =>
    obtain ⟨-, hL, -⟩ := not_others_of_isBase hB
    rw [hL] at h
    cases h

theorem isBase_of_isW {site : Nat} (h : isW site = true) : isBase site = false := by
  cases hB : isBase site with
  | false => rfl
  | true =>
    obtain ⟨hW, -⟩ := not_others_of_isBase hB
    rw [hW] at h
    cases h

theorem isBase_of_isK {site : Nat} (h : isK site = true) : isBase site = false := by
  obtain rfl : site = 20 := by simpa [isK] using h
  decide

section
variable (c : CoreId) {off : Nat} (hoff : off < 2 ^ 20)
include hoff

theorem ctlSite_coreR : ctlSite (coreR c off) = c.site.toNat := ctlSite_ctlAddr (by have := c.p.isLt; omega) hoff
theorem ctlBlk_coreR : ctlBlk (coreR c off) = 0x100 + c.p.toNat := ctlBlk_ctlAddr (by have := c.p.isLt; omega) hoff
theorem ctlOff_coreR : ctlOff (coreR c off) = off := ctlOff_ctlAddr hoff
theorem ctlBlk_coreR_group : ctlBlk (coreR c off) / 64 * 64 = 0x100 := by
  have := c.p.isLt
  rw [ctlBlk_coreR c hoff]
  omega
theorem regCore_coreR : regCore (coreR c off) = c := by
  have hp := c.p.isLt
  obtain ⟨w, k⟩ := c
  rw [regCore, ctlSite_coreR _ hoff, ctlBlk_coreR _ hoff]
  congr 1
  · simp
  · apply BitVec.eq_of_toNat_eq
    rw [BitVec.toNat_ofNat]
    dsimp only at *
    omega
theorem canonAddr_coreR : canonAddr (coreR c off) = coreR c off :=
  canonAddr_of_not_base (by rw [ctlSite_coreR c hoff, isBase_of_isW (isW_site c.site)])
theorem isW_coreR : isW (ctlSite (coreR c off)) = true := by rw [ctlSite_coreR c hoff, isW_site]
theorem isG_coreR : isG (ctlSite (coreR c off)) = false := (not_others_of_isW (isW_coreR c hoff)).2.2
theorem fencedReg_coreR (d : Dev) (write : Bool) :
    d.fencedReg (coreR c off) write = ((d.core c).st == .fenced && (write || !(off == 8))) := by
  have hp := c.p.isLt
  rw [Dev.fencedReg, isW_coreR c hoff, regCore_coreR c hoff, ctlBlk_coreR c hoff, ctlOff_coreR c hoff]
  have h1 : 0x100 ≤ 0x100 + c.p.toNat := by omega
  have h2 : 0x100 + c.p.toNat < 0x280 := by omega
  have h3 : 0x100 + c.p.toNat < 0x140 := by omega
  simp [h1, h2, h3]
end

theorem RegAccess.block {s : State} {r : Req} {a : Nat} (h : RegAccess s r a) (hG : isG (ctlSite a) = false) :
    blockRegs s.part (ctlSite a) (ctlBlk a) ≠ none := by
  intro hb
  have ht := h.taken
  simp [Dev.refusedAtSender, hG, hb] at ht

/-- An access to a core's registers is of a good core: any other is refused at its sender. -/
theorem RegAccess.has {s : State} {r : Req} {c : CoreId} {off : Nat} (hoff : off < 2 ^ 20) (h : RegAccess s r (coreR c off)) :
    s.part.has c = true := by
  have hp := c.p.isLt
  have hb := h.block (isG_coreR c hoff)
  rw [ctlSite_coreR c hoff, ctlBlk_coreR c hoff] at hb
  cases hc : s.part.has c with
  | true => rfl
  | false =>
    refine absurd ?_ hb
    have hW := isW_site c.site
    obtain ⟨-, -, hG⟩ := not_others_of_isW hW
    have hgood : s.part.goodCore c.site.toNat ((0x100 + c.p.toNat) % 64) = false := by
      rw [show (0x100 + c.p.toNat) % 64 = c.p.toNat by omega]
      exact hc
    have hne : ∀ n < 0x100, 0x100 + c.p.toNat ≠ n := by omega
    simp [blockRegs, hW, hG, hgood, hne]

end Sys2Proof.Machine
end

section

namespace Sys2Proof.Machine

/-! ### What a read shows (R14, R15) -/

/-- The registers that show what they hold. -/
def ShowsHeld (a : Nat) : Prop :=
  (isW (ctlSite a) = true ∧ (ctlBlk a = 0x10 ∨ ctlBlk a = 0x11)) ∨ (isK (ctlSite a) = true ∧ ctlBlk a = 0x50 ∧ ctlOff a < 0x100) ∨
    (isBase (ctlSite a) = true ∧ 0x80 ≤ ctlBlk a ∧ ctlBlk a < 0xC0)

theorem ShowsHeld.canonAddr {a : Nat} (h : ShowsHeld a) : canonAddr a = a := by
  obtain ⟨hW, -⟩ | ⟨hK, -⟩ | ⟨-, hlo, -⟩ := h
  · exact canonAddr_of_not_base (isBase_of_isW hW)
  · exact canonAddr_of_not_base (isBase_of_isK hK)
  · exact canonAddr_of_blk (by omega)

section
variable (p : Part) (d : Dev)

/-- Beyond the blocks 0 to 4 a W die's registers show what its own table gives. -/
theorem regView_of_isW {a : Nat} (fs : List Field) (hW : isW (ctlSite a) = true) (hb : 4 < ctlBlk a) :
    d.regView p a fs = if 0x100 ≤ ctlBlk a then d.coreView p a (maskWo fs (d.get p a)) else maskWo fs (d.get p a) := by
  unfold Dev.regView
  dsimp only
  rw [if_neg (by omega), if_neg (by omega), if_neg (by omega), if_pos hW]

theorem regView_of_isK {a : Nat} (fs : List Field) (hK : isK (ctlSite a) = true) (hb : 4 < ctlBlk a) :
    d.regView p a fs = d.kView p a (maskWo fs (d.get p a)) := by
  obtain ⟨hW, hL, -⟩ := not_others_of_isK hK
  unfold Dev.regView
  dsimp only
  rw [if_neg (by omega), if_neg (by omega), if_neg (by omega), if_neg (by simp [hW]), if_neg (by simp [hL]), if_pos hK]

theorem regView_of_isBase {a : Nat} (fs : List Field) (hB : isBase (ctlSite a) = true) (hb : 4 < ctlBlk a) :
    d.regView p a fs = d.baseView p a (maskWo fs (d.get p a)) := by
  obtain ⟨hW, hL, hK, -⟩ := not_others_of_isBase hB
  unfold Dev.regView
  dsimp only
  rw [if_neg (by omega), if_neg (by omega), if_neg (by omega), if_neg (by simp [hW]), if_neg (by simp [hL]), if_neg (by simp [hK])]

theorem ShowsHeld.regView {a : Nat} (h : ShowsHeld a) (fs : List Field) : d.regView p a fs = maskWo fs (d.get p a) := by
  obtain ⟨hW, hb⟩ | ⟨hK, hb, ho⟩ | ⟨hB, hlo, hhi⟩ := h
  · rw [regView_of_isW p d fs hW (by omega), if_neg (by omega)]
  · rw [regView_of_isK p d fs hK (by omega), Dev.kView, if_pos hb, if_neg (by omega)]
  · rw [regView_of_isBase p d fs hB (by omega), Dev.baseView, if_neg (by omega), if_neg (by omega), if_neg (by omega), if_neg (by omega)]

theorem regView_coreR (c : CoreId) {off : Nat} (hoff : off < 2 ^ 20) (fs : List Field) :
    d.regView p (coreR c off) fs = if off = 8 then d.coreStateWord p c else if off = 0x10 then (d.core c).pc.zeroExtend 64
      else if off = 0x30 then (d.dbgRead p c).zeroExtend 64 else maskWo fs (d.get p (coreR c off)) := by
  have hb := ctlBlk_coreR c hoff
  rw [regView_of_isW p d fs (isW_coreR c hoff) (by omega), if_pos (by omega), Dev.coreView, regCore_coreR c hoff, ctlOff_coreR c hoff,
    ctlBlk_coreR_group c hoff]
  dsimp only
  rw [if_pos rfl]

theorem coreStateWord_fenced {c : CoreId} (h : (d.core c).st = .fenced) : d.coreStateWord p c = 6 := if_pos h

end

theorem maskWo_word (w : W64) (reset : Nat) : maskWo [⟨0, 63, .rw, reset, []⟩] w = w := rfl

end Sys2Proof.Machine
end

section

namespace Sys2Proof.Machine

/-! ### What raising any fault leaves alone -/

section
variable (p : Part) (d : Dev)

theorem noRegs_net : d.noRegs.net = d.net := rfl
theorem logRec_net (site : Nat) (f : FaultRec) : (d.logRec p site f).net = d.net := by
  rw [← noRegs_net, logRec_noRegs, noRegs_net]

/-- No register of the FLT block below the log's end. -/
def AwayFromLog (site z : Nat) : Prop := ∀ off < 0x800, z ≠ fltR site off

theorem awayFromLog_of_blk {site z : Nat} (h : ctlBlk z ≠ 1) : AwayFromLog site z := by
  rintro off ho rfl
  exact h (ctlBlk_ctlAddr (by omega) (by omega))

theorem awayFromLog_of_off {site z : Nat} (h : 0x800 ≤ ctlOff z) : AwayFromLog site z := by
  rintro off ho rfl
  rw [fltR, ctlOff_ctlAddr (by omega)] at h
  omega

theorem AwayFromLog.not_mem {site z j : Nat} (h : AwayFromLog site z) (hj : j < 16) : z ∉ logRegs site j := by
  simp only [logRegs, List.mem_append, List.mem_cons, List.mem_map, List.mem_range, List.not_mem_nil, or_false, not_or]
  refine ⟨⟨h _ (by omega), h _ (by omega)⟩, ?_⟩
  rintro ⟨i, hi, rfl⟩
  exact h _ (by omega) rfl

/-- Raising a fault of any class: its site counts it, no register but those of the FLT block changes, and no core and no
message in flight. -/
structure RaisedAt (p : Part) (site : Nat) (d e : Dev) : Prop where
  count : e.get p (fltR site 0x40) = countUp (d.get p (fltR site 0x40)) 1
  away : ∀ z, AwayFromLog site z → e.get p z = d.get p z
  core : ∀ c, e.core c = d.core c
  net : e.net = d.net
  node : e.node = d.node

theorem logRec_raisedAt (site : Nat) (f : FaultRec) : RaisedAt p site d (d.logRec p site f) where
  count := logRec_count p d site f
  away z hz := logRec_ne p d site f z (hz.not_mem (fld_lt ..))
  core := logRec_core p d site f
  net := logRec_net p d site f
  node := logRec_node p d site f

variable {p d} {site : Nat} {e : Dev}

theorem RaisedAt.sendRec (h : RaisedAt p site d e) (f : FaultRec) (o : Option CoreId) : RaisedAt p site d (e.sendRec f o) := by
  obtain ⟨h1, h2, h3, h4, h5⟩ := h
  cases o <;> exact ⟨h1, h2, h3, h4, h5⟩

theorem RaisedAt.noteMinor (h : RaisedAt p site d e) (f : FaultRec) : RaisedAt p site d (e.noteMinor f) :=
  ⟨h.count, h.away, h.core, h.net, h.node⟩

theorem RaisedAt.storm (h : RaisedAt p site d e) : RaisedAt p site d (e.count p (fltR site 0x48) 1) where
  count := by rw [Dev.get_count_ne _ _ _ (by rw [Ne, fltR_inj]; decide), h.count]
  away z hz := by rw [Dev.get_count_ne _ _ _ (hz _ (by omega)), h.away z hz]
  core := h.core
  net := h.net
  node := by rw [Dev.count_node, h.node]

theorem raiseRec_raisedAt (f : FaultRec) (o : Option CoreId) : RaisedAt p site d (d.raiseRec p site f o) := by
  have h := logRec_raisedAt p d site f
  unfold Dev.raiseRec
  extract_lets e
  split
  · exact h.sendRec f o
  · split
    · exact h.storm
    · exact (h.noteMinor f).sendRec f o

theorem noticeReserved_raisedAt (a : Nat) (v : W64) : RaisedAt p (ctlSite a) d (d.noticeReserved p a v) := by
  rw [Dev.noticeReserved, Dev.fault]
  exact raiseRec_raisedAt ..

end

/-! ### Registers without behaviour of their own -/

/-- The registers that take what is written by their fields' accesses alone. -/
def TakesWritten (a : Nat) : Prop :=
  (isW (ctlSite a) = true ∧ ((ctlBlk a = 0x11 ∧ ctlOff a ≠ 0) ∨ (0x140 ≤ ctlBlk a ∧ ctlBlk a < 0x1C0))) ∨
    (isK (ctlSite a) = true ∧ ctlBlk a = 0x50 ∧ 8 ≤ ctlOff a ∧ ctlOff a < 0x100) ∨
    (isBase (ctlSite a) = true ∧ 0x80 ≤ ctlBlk a ∧ ctlBlk a < 0xC0 ∧ ctlOff a ≠ 0 ∧ ctlOff a ≠ 0x400) ∨
    (isL (ctlSite a) = true ∧ ctlBlk a = 0x3F ∧ (ctlOff a = 0x10 ∨ ctlOff a = 0x18)) ∨
    (isK (ctlSite a) = true ∧ ctlBlk a = 1 ∧ (ctlOff a = 0x818 ∨ ctlOff a = 0x820))

theorem TakesWritten.canonAddr {a : Nat} (h : TakesWritten a) : canonAddr a = a := by
  obtain ⟨hW, -⟩ | ⟨hK, -⟩ | ⟨-, hlo, -⟩ | ⟨hL, -⟩ | ⟨hK, -⟩ := h
  · exact canonAddr_of_not_base (isBase_of_isW hW)
  · exact canonAddr_of_not_base (isBase_of_isK hK)
  · exact canonAddr_of_blk (by omega)
  · exact canonAddr_of_not_base (isBase_of_isL hL)
  · exact canonAddr_of_not_base (isBase_of_isK hK)

theorem TakesWritten.awayFromLog {a : Nat} (h : TakesWritten a) (site : Nat) : AwayFromLog site a := by
  obtain ⟨-, h⟩ | ⟨-, h, -⟩ | ⟨-, h, -⟩ | ⟨-, h, -⟩ | ⟨-, -, h⟩ := h
  · exact awayFromLog_of_blk (by omega)
  · exact awayFromLog_of_blk (by omega)
  · exact awayFromLog_of_blk (by omega)
  · exact awayFromLog_of_blk (by omega)
  · exact awayFromLog_of_off (by omega)

section
variable (p : Part) (d : Dev) (src : Src) (ans : Option Req) {a : Nat} (v : W64) (lower upper : Bool)

theorem isTrim_eq_false (h4 : ctlBlk a ≠ 4) (hB : isBase (ctlSite a) = true → 0x60 ≤ ctlBlk a) : isTrim p a = false := by
  unfold isTrim
  cases h : isBase (ctlSite a) with
  | false => simp [h4]
  | true =>
    have := hB h
    have h6 : ¬ctlBlk a < 0x60 := by omega
    simp [h4, h6]

/-- A register that is no trim and stands in no block of the site's own health and clocks is written as its site's kind
says, HANDOFF apart. -/
theorem regWrite_of_site (ht : isTrim p a = false) (hb : 4 < ctlBlk a ∨ (ctlBlk a = 1 ∧ ctlOff a ≠ 8))
    (hH : ¬(isL (ctlSite a) = true ∧ ctlBlk a = 0x3F ∧ ctlOff a = 0x30)) : d.regWrite p src ans a v lower upper =
      if isW (ctlSite a) = true then
        if 0x100 ≤ ctlBlk a ∧ ctlBlk a < 0x240 then
          ((d.coreWrite p a v lower upper).1, (d.coreWrite p a v lower upper).2, some stOk)
        else (d.dieWrite p a v lower upper, [], some stOk)
      else if isL (ctlSite a) = true then (d.memWrite p a v lower upper, [], some stOk)
      else if isK (ctlSite a) = true then
        ((d.kWrite p src a v lower upper).1, [], some (d.kWrite p src a v lower upper).2)
      else (d.baseWrite p a v lower upper, [], some stOk) := by
  unfold Dev.regWrite
  dsimp only
  rw [ht, if_neg Bool.false_ne_true, if_neg (by omega), if_neg (by omega), if_neg (by omega), if_neg (by omega)]
  cases hL : isL (ctlSite a) with
  | false => rfl
  | true => rw [if_neg fun h => hH ⟨hL, h⟩]

theorem TakesWritten.regWrite (h : TakesWritten a) :
    d.regWrite p src ans a v lower upper = (d.regStore p a v lower upper, [], some stOk) := by
  obtain ⟨hW, h⟩ | ⟨hK, hb, hlo, hhi⟩ | ⟨hB, hlo, hhi, h0, h4⟩ | ⟨hL, hb, ho⟩ | ⟨hK, hb, ho⟩ := h
  · rw [regWrite_of_site p d src ans v lower upper (isTrim_eq_false p (by omega) (by simp [isBase_of_isW hW])) (by omega)
      (by simp [not_others_of_isW hW]), if_pos hW]
    obtain ⟨hb, ho⟩ | ⟨hlo, hhi⟩ := h
    · rw [if_neg (by omega), Dev.dieWrite, if_neg (by omega), if_pos (by omega)]
    · rw [if_pos (by omega), Dev.coreWrite]
      dsimp only
      rw [if_neg (by omega), if_neg (by omega), if_neg (by omega)]
  · obtain ⟨hW, hL, -⟩ := not_others_of_isK hK
    rw [regWrite_of_site p d src ans v lower upper (isTrim_eq_false p (by omega) (by simp [isBase_of_isK hK])) (by omega)
      (by simp [hL]), hW, hL,
      if_neg Bool.false_ne_true, if_neg Bool.false_ne_true, if_pos hK, Dev.kWrite]
    dsimp only
    rw [if_pos hb, if_neg (by omega), if_neg (by omega), if_neg (by omega), if_neg (by omega)]
  · obtain ⟨hW, hL, hK, -⟩ := not_others_of_isBase hB
    rw [regWrite_of_site p d src ans v lower upper (isTrim_eq_false p (by omega) (by omega)) (by omega)
      (by simp [hL]), hW, hL, hK,
      if_neg Bool.false_ne_true, if_neg Bool.false_ne_true, if_neg Bool.false_ne_true, Dev.baseWrite, if_neg (by omega),
      if_pos (by omega), if_neg (by omega), if_neg (by omega)]
  · obtain ⟨hW, -⟩ := not_others_of_isL hL
    rw [regWrite_of_site p d src ans v lower upper (isTrim_eq_false p (by omega) (by simp [isBase_of_isL hL])) (by omega) (by omega),
      hW, if_neg Bool.false_ne_true, if_pos hL, Dev.memWrite, if_pos hb, if_neg (by omega), if_neg (by omega),
      if_neg (by omega)]
  · obtain ⟨hW, hL, -⟩ := not_others_of_isK hK
    rw [regWrite_of_site p d src ans v lower upper (isTrim_eq_false p (by omega) (by simp [isBase_of_isK hK])) (by omega)
      (by simp [hL]), hW, hL,
      if_neg Bool.false_ne_true, if_neg Bool.false_ne_true, if_pos hK, Dev.kWrite]
    dsimp only
    rw [if_neg (by omega), if_neg (by omega), if_neg (by omega), if_neg (by omega)]

theorem regStore_clean {fs : List Field} (hf : regFields p a = some fs) (hr : writesReserved fs (d.get p a) v lower upper = false) :
    d.regStore p a v lower upper = d.put p a (fieldsWritten fs (d.get p a) v lower upper) := by
  simp [Dev.regStore, hf, hr]

theorem regStore_reserved {fs : List Field} (hf : regFields p a = some fs)
    (hr : writesReserved fs (d.get p a) v lower upper = true) : d.regStore p a v lower upper =
      (d.put p a (fieldsWritten fs (d.get p a) v lower upper)).noticeReserved p a v := by
  simp [Dev.regStore, hf, hr]

/-! ### Registers of a core (R93, R98) -/

theorem regWrite_coreR (c : CoreId) {off : Nat} (hoff : off < 2 ^ 20) :
    d.regWrite p src ans (coreR c off) v lower upper =
      ((d.coreWrite p (coreR c off) v lower upper).1, (d.coreWrite p (coreR c off) v lower upper).2, some stOk) := by
  have hp := c.p.isLt
  have hb := ctlBlk_coreR c hoff
  have hW := isW_coreR c hoff
  rw [regWrite_of_site p d src ans v lower upper (isTrim_eq_false p (by omega) (by simp [isBase_of_isW hW])) (by omega)
    (by simp [not_others_of_isW hW]), if_pos hW, if_pos (by omega)]

theorem coreWrite_pc (c : CoreId) : d.coreWrite p (coreR c 0x10) v lower upper =
    if lower = true ∧ (d.core c).st ∈ [.reset, .idle, .halt] then
      (d.modCore c fun k => { k with pc := BitVec.ofNat 22 (v.toNat / 4 * 4) }, [])
    else (d, []) := by
  rw [Dev.coreWrite, ctlBlk_coreR_group c (by decide), ctlOff_coreR c (by decide), regCore_coreR c (by decide)]
  simp

theorem coreWrite_srlfsr (c : CoreId) : d.coreWrite p (coreR c 0x38) v lower upper =
    (d.setSr p c (mergeHalves (d.get p (coreR c 0x38)) v lower upper), []) := by
  rw [Dev.coreWrite, ctlBlk_coreR_group c (by decide), ctlOff_coreR c (by decide), regCore_coreR c (by decide)]
  simp

end

/-! ### HANDOFF (R408, R409) and CONFIRM (R546) -/

theorem halvesOf_eq (v : W64) (lower upper : Bool) : halvesOf v lower upper =
    (if upper then v.extractLsb' 32 32 else 0) ++ (if lower then v.extractLsb' 0 32 else (0 : W32)) := by
  cases upper <;> cases lower <;> rfl

section
variable {p : Part} {l : Nat} (hl : l < 4)
include hl

theorem isL_memcR : isL (ctlSite (memcR l 0x30)) = true := by
  rw [memcR, ctlSite_ctlAddr (by decide) (by decide)]
  simp [isL]
  omega

theorem regFields_memcR : ∃ fs, regFields p (memcR l 0x30) = some fs := by
  have hL := isL_memcR hl
  obtain ⟨hW, -, hG⟩ := not_others_of_isL hL
  have hb : ctlBlk (memcR l 0x30) = 0x3F := ctlBlk_ctlAddr (by decide) (by decide)
  have hr : blockRegs p (ctlSite (memcR l 0x30)) (ctlBlk (memcR l 0x30)) = some (regsMEMC.map fun r =>
      if r.base = 0x40000 then RegDesc.mk r.base r.stride p.regions r.fields else r) := by
    rw [hb]
    simp [blockRegs, hL, hW, hG]
  rw [regFields_eq_findReg hr, memcR, ctlOff_ctlAddr (by decide)]
  exact ⟨_, rfl⟩

theorem regWrite_handoff (d : Dev) (src : Src) (ans : Option Req) (v : W64) (lower upper : Bool) :
    (∀ st, d.handoffRefused p l src (halvesOf v lower upper) = some st →
      d.regWrite p src ans (memcR l 0x30) v lower upper = (d, [], some st)) ∧
    (d.handoffRefused p l src (halvesOf v lower upper) = none →
      d.regWrite p src ans (memcR l 0x30) v lower upper = (d.handoffStart p (halvesOf v lower upper) ans, [], none)) := by
  have hL := isL_memcR hl
  obtain ⟨hW, -⟩ := not_others_of_isL hL
  have hb : ctlBlk (memcR l 0x30) = 0x3F := ctlBlk_ctlAddr (by decide) (by decide)
  have ho : ctlOff (memcR l 0x30) = 0x30 := ctlOff_ctlAddr (by decide)
  have hs : ctlSite (memcR l 0x30) - 16 = l := by
    rw [memcR, ctlSite_ctlAddr (by decide) (by decide)]
    omega
  unfold Dev.regWrite
  dsimp only
  rw [isTrim_eq_false p (by omega) (by simp [isBase_of_isL hL]), if_neg Bool.false_ne_true, if_neg (by omega), if_neg (by omega),
    if_neg (by omega), if_neg (by omega), hW, if_neg Bool.false_ne_true, if_pos hL, if_pos ⟨hb, ho⟩, hs]
  constructor
  · intro st h
    rw [h]
  · intro h
    rw [h]

end

theorem setRun_eq (d : Dev) (f : Region → Region) (first n : Nat) : ∃ rs, d.setRun f first n = { d with regions := rs } := by
  induction n generalizing d first with
  | zero => exact ⟨d.regions, rfl⟩
  | succ n ih =>
    obtain ⟨rs, h⟩ := ih (d.setRegion first (f (d.region first))) (first + 1)
    exact ⟨rs, by rw [Dev.setRun, h, Dev.setRegion]⟩

/-- An accepted hand-off is recorded with its request, marks regions, and shows in HOSTAT. -/
theorem handoffStart_eq (p : Part) (d : Dev) (v : W64) (ans : Option Req) : ∃ rs x, d.handoffStart p v ans =
    { d with regions := rs, handoff := some ⟨bits v 0 17, bits v 17 10, v.extractLsb' 32 16, v.extractLsb' 48 16, ans, false⟩ }.put p
      (memcR 0 0x38) x := by
  unfold Dev.handoffStart
  extract_lets first nm1 h d1
  obtain ⟨rs, hrs⟩ := setRun_eq { d with handoff := some h } (fun r => { r with moving := true }) first (nm1 + 1)
  exact ⟨rs, _, by rw [show d1 = _ from hrs]⟩

theorem isK_fwR : isK (ctlSite (fwR 0x28)) = true := by decide

theorem regFields_fwR (p : Part) : ∃ fs, regFields p (fwR 0x28) = some fs := ⟨_, rfl⟩

theorem regWrite_confirm (p : Part) (d : Dev) {src : Src} (ans : Option Req) (v : W64) (lower upper : Bool)
    (hs : ¬(srcNode src = d.node ∧ (srcSite src).toNat = 20 ∧ (srcUnit src).toNat = 0)) :
    d.regWrite p src ans (fwR 0x28) v lower upper = (d, [], some stBadRequest) := by
  have hb : ctlBlk (fwR 0x28) = 0x51 := by decide
  have ho : ctlOff (fwR 0x28) = 0x28 := by decide
  obtain ⟨hW, hL, -⟩ := not_others_of_isK isK_fwR
  rw [regWrite_of_site p d src ans v lower upper (isTrim_eq_false p (by omega) (by simp [isBase_of_isK isK_fwR])) (by omega)
    (by simp [hL]), hW, hL,
    if_neg Bool.false_ne_true, if_neg Bool.false_ne_true, if_pos isK_fwR, Dev.kWrite]
  dsimp only
  rw [if_neg (by omega), if_pos hb, if_pos ho, if_neg hs]

end Sys2Proof.Machine
end

section

namespace Sys2Proof.Machine

theorem send_get (p : Part) (d : Dev) (m : Msg) (z : Nat) : (d.send m).get p z = d.get p z := rfl
theorem send_core (d : Dev) (m : Msg) (c : CoreId) : (d.send m).core c = d.core c := rfl

/-! ### Reads -/

section
variable {s : State} {r : Req} {a : Nat} (h : RegAccess s r a) (hw : s.dev.accessWaits s.part r = false) (hop : r.op = .cread)
include h hw hop

theorem RegAccess.read_own {fs : List Field} (hr : regFields s.part a = some fs) (hG : isG (ctlSite a) = false) (h8 : a % 8 = 0)
    (hf : s.dev.fencedReg a false = false) :
    Answers (.cread r) s (Told s r a stOk (leBytes 16 (s.dev.regView s.part (canonAddr a) fs).toNat)) :=
  h.reads hw hG hop (ctlRead_some h8 hf hr)

theorem RegAccess.read_shows {fs : List Field} (hr : regFields s.part a = some fs) (hG : isG (ctlSite a) = false) (h8 : a % 8 = 0)
    (hf : s.dev.fencedReg a false = false) (hs : ShowsHeld a) :
    Answers (.cread r) s (Told s r a stOk (leBytes 16 (maskWo fs (s.reg a)).toNat)) := by
  rw [← hs.regView s.part s.dev fs]
  simpa only [hs.canonAddr] using h.read_own hw hop hr hG h8 hf

theorem RegAccess.read_misaligned (hG : isG (ctlSite a) = false) (h8 : a % 8 ≠ 0) :
    Answers (.cread r) s (Told s r a stBadRequest []) :=
  h.refusesRead hw hG hop (ctlRead_misaligned s.part s.dev h8) (by decide)

theorem RegAccess.read_absent (hr : regFields s.part a = none) (hG : isG (ctlSite a) = false) (h8 : a % 8 = 0)
    (hf : s.dev.fencedReg a false = false) : Answers (.cread r) s (Told s r a stNoTarget []) :=
  h.refusesRead hw hG hop (ctlRead_none h8 hf hr) (by decide)

end

theorem findReg_barMask : ∀ b : BitVec 4, findReg regsMESH (0x100 + 0x20 * b.toNat + 0) = some [⟨0, 63, .rw, 0, []⟩] := by decide

theorem coreR_mod (c : CoreId) {off : Nat} (h8 : off % 8 = 0) : coreR c off % 8 = 0 := by
  simp only [coreR, ctlAddr]
  omega

section
variable {s : State} {r : Req}

theorem RegAccess.read_barMask {w b : BitVec 4} (h : RegAccess s r (barReg w.toNat b.toNat 0))
    (hw : s.dev.accessWaits s.part r = false) (hop : r.op = .cread) :
    Answers (.cread r) s (Told s r (barReg w.toNat b.toNat 0) stOk (leBytes 16 (s.reg (barReg w.toNat b.toNat 0)).toNat)) := by
  have hb := b.isLt
  have hoff : 0x100 + 0x20 * b.toNat + 0 < 2 ^ 20 := by omega
  have hW : isW (ctlSite (barReg w.toNat b.toNat 0)) = true := by
    rw [barReg, meshR, ctlSite_ctlAddr (by decide) hoff, isW_site]
  have hblk : ctlBlk (barReg w.toNat b.toNat 0) = 0x10 := ctlBlk_ctlAddr (by decide) hoff
  have hr : regFields s.part (barReg w.toNat b.toNat 0) = some [⟨0, 63, .rw, 0, []⟩] := by
    rw [barReg, regFields_meshR _ _ hoff, findReg_barMask]
  have h8 : barReg w.toNat b.toNat 0 % 8 = 0 := by
    simp only [barReg, meshR, ctlAddr]
    omega
  have hf : s.dev.fencedReg (barReg w.toNat b.toNat 0) false = false := by
    simp [Dev.fencedReg, hblk]
  exact h.read_shows hw hop hr (not_others_of_isW hW).2.2 h8 hf (.inl ⟨hW, .inl hblk⟩)

variable {c : CoreId} {off : Nat} (hoff : off < 2 ^ 20) (h : RegAccess s r (coreR c off))
  (hw : s.dev.accessWaits s.part r = false) (hop : r.op = .cread)
include h hw hop hoff

theorem RegAccess.read_core {fs : List Field} (hr : findReg regsCORE off = some fs) (h8 : off % 8 = 0)
    (hf : (s.k c).st ≠ .fenced ∨ off = 8) :
    Answers (.cread r) s (Told s r (coreR c off) stOk (leBytes 16 (s.dev.regView s.part (coreR c off) fs).toNat)) := by
  have hr' : regFields s.part (coreR c off) = some fs := by rw [regFields_coreR s.part c hoff (h.has hoff), hr]
  have hf' : s.dev.fencedReg (coreR c off) false = false := by
    rw [fencedReg_coreR c hoff]
    rcases hf with hf | rfl
    · rw [beq_false_of_ne hf, Bool.false_and]
    · simp
  simpa only [canonAddr_coreR c hoff] using h.read_own hw hop hr' (isG_coreR c hoff) (coreR_mod c h8) hf'

theorem RegAccess.read_fenced (h8 : off % 8 = 0) (hst : (s.k c).st = .fenced) (ho : off ≠ 8) :
    Answers (.cread r) s (Told s r (coreR c off) stCoreFenced []) := by
  refine h.refusesRead hw (isG_coreR c hoff) hop (ctlRead_fenced s.part (coreR_mod c h8) ?_) (by decide)
  rw [fencedReg_coreR c hoff, hst]
  simp [ho]

end

/-! ### Writes -/

theorem RegAccess.ctlWrite_own {s : State} {r : Req} {a : Nat} (h : RegAccess s r a) {fs : List Field}
    (hr : regFields s.part a = some fs) (h8 : a % 8 = 0) (hf : s.dev.fencedReg a true = false) (v : W64) (lower upper : Bool) :
    (s.dev.recv (.req r)).ctlWrite s.part r.src (some r) a v lower upper =
      (s.dev.recv (.req r)).regWrite s.part r.src (some r) (canonAddr a) v lower upper :=
  ctlWrite_some _ _ _ _ v lower upper h8 (by rw [h.recv_fencedReg, hf]) hr

section
variable {s : State} {r : Req} {a : Nat} {v : W64} {lower upper : Bool} (h : RegAccess s r a)
  (hw : s.dev.accessWaits s.part r = false) (hG : isG (ctlSite a) = false) (hop : r.op = .cwrite v lower upper)
include h hw hG hop

/-- A write that is answered: the answer is sent after all that the write does. -/
theorem RegAccess.writes {e : Dev} {w : Wr} {st : BitVec 7}
    (hz : (s.dev.recv (.req r)).ctlWrite s.part r.src (some r) a v lower upper = (e, w, some st)) (hn : e.node = s.dev.node)
    {P : State → Prop} (hP : P ⟨s.part, applyWr s.mem w, e.send (.resp (s.dev.ctlResp r a st [])), s.pending⟩) :
    Answers (.cwrite r) s P := by
  have hc : e.ctlResp r a st [] = s.dev.ctlResp r a st [] := by rw [Dev.ctlResp, hn, ← Dev.ctlResp]
  refine ⟨_, h.exec_cwrite hw hG hop hz, ?_⟩
  dsimp only
  rw [h.answer, hc]
  exact hP

theorem RegAccess.write_misaligned (h8 : a % 8 ≠ 0) : Answers (.cwrite r) s (Told s r a stBadRequest []) :=
  h.refusesWrite hw hG hop (ctlWrite_misaligned _ _ _ _ v lower upper h8)

theorem RegAccess.write_absent (hr : regFields s.part a = none) (h8 : a % 8 = 0) (hf : s.dev.fencedReg a true = false) :
    Answers (.cwrite r) s (Told s r a stNoTarget []) :=
  h.refusesWrite hw hG hop (ctlWrite_none _ _ _ _ v lower upper h8 (by rw [h.recv_fencedReg, hf]) hr)

variable {fs : List Field} (hr : regFields s.part a = some fs) (h8 : a % 8 = 0) (hf : s.dev.fencedReg a true = false)
include hr h8 hf

theorem RegAccess.write_answered (hK : isK (ctlSite a) = false)
    (hH : ¬(isL (ctlSite a) = true ∧ ctlBlk a = 0x3F ∧ ctlOff a = 0x30)) :
    Answers (.cwrite r) s fun t => .resp (s.dev.ctlResp r a stOk []) ∈ t.dev.net := by
  have hH' : ¬(isL (ctlSite (canonAddr a)) = true ∧ ctlBlk (canonAddr a) = 0x3F ∧ ctlOff (canonAddr a) = 0x30) := by
    rintro ⟨hL, hb, ho⟩
    rw [ctlSite_canonAddr] at hL
    rw [canonAddr_of_not_base (isBase_of_isL hL)] at hb ho
    exact hH ⟨hL, hb, ho⟩
  have hend := regWrite_endsOk s.part (s.dev.recv (.req r)) r.src (some r) v lower upper (by rwa [ctlSite_canonAddr]) hH'
  rw [← h.ctlWrite_own hr h8 hf v lower upper] at hend
  rcases hz : (s.dev.recv (.req r)).ctlWrite s.part r.src (some r) a v lower upper with ⟨e, w, o⟩
  rw [hz] at hend
  obtain ⟨ho, hn⟩ := hend
  obtain rfl : o = some stOk := ho
  exact h.writes hw hG hop hz (hn.trans h.recv_node) (List.mem_append_right _ (List.mem_singleton.mpr rfl))

variable (hp : TakesWritten a)
include hp

theorem RegAccess.write_clean (hc : writesReserved fs (s.reg a) v lower upper = false) : Answers (.cwrite r) s fun t =>
    t.dev.net = s.dev.net.erase (.req r) ++ [.resp (s.dev.ctlResp r a stOk [])] ∧
      t.reg a = fieldsWritten fs (s.reg a) v lower upper ∧ (∀ z, z ≠ a → t.reg z = s.reg z) ∧ Still s t := by
  have hz := h.ctlWrite_own hr h8 hf v lower upper
  rw [hp.canonAddr, hp.regWrite, regStore_clean _ _ v lower upper hr (by rwa [h.recv_get]), h.recv_get] at hz
  refine h.writes hw hG hop hz (by rw [Dev.put_node, h.recv_node]) ⟨?_, ?_, fun z hne => ?_, fun _ => rfl, fun c => ?_, rfl, rfl⟩
  · rw [Dev.send, Dev.put_net, h.recv_net]
  · dsimp only [State.reg]
    rw [send_get, Dev.get_put_same]
  · dsimp only [State.reg]
    rw [send_get, Dev.get_put_ne _ _ _ hne, h.recv_get]
  · exact h.recv_core c

theorem RegAccess.write_reserved (hc : writesReserved fs (s.reg a) v lower upper = true) : Answers (.cwrite r) s fun t =>
    t.dev.net = s.dev.net.erase (.req r) ++ [.resp (s.dev.ctlResp r a stOk [])] ∧
      t.reg a = fieldsWritten fs (s.reg a) v lower upper ∧
      t.reg (fltR (ctlSite a) 0x40) = countUp (s.reg (fltR (ctlSite a) 0x40)) 1 ∧ RegsKept s t [a] ∧ Still s t := by
  have hz := h.ctlWrite_own hr h8 hf v lower upper
  rw [hp.canonAddr, hp.regWrite, regStore_reserved _ _ v lower upper hr (by rwa [h.recv_get]), h.recv_get] at hz
  have ha := hp.awayFromLog (ctlSite a)
  have hn := noticeReserved_raisedAt (p := s.part)
    (d := (s.dev.recv (.req r)).put s.part a (fieldsWritten fs (s.reg a) v lower upper)) a v
  refine h.writes hw hG hop hz (by rw [hn.node, Dev.put_node, h.recv_node])
    ⟨?_, ?_, ?_, fun z hne hb => ?_, fun _ => rfl, fun c => ?_, rfl, rfl⟩
  · rw [Dev.send, hn.net, Dev.put_net, h.recv_net]
  · dsimp only [State.reg]
    rw [send_get, hn.away a ha, Dev.get_put_same]
  · dsimp only [State.reg]
    rw [send_get, hn.count, Dev.get_put_ne _ _ _ (ha _ (by omega)).symm, h.recv_get]
  · dsimp only [State.reg]
    rw [send_get, hn.away z (awayFromLog_of_blk hb), Dev.get_put_ne _ _ _ (by simpa using hne), h.recv_get]
  · dsimp only [State.k]
    rw [send_core, hn.core]
    exact h.recv_core c

end

/-! ### Writes of a core's registers -/

section
variable {s : State} {r : Req} {c : CoreId} {off : Nat} {v : W64} {lower upper : Bool} (hoff : off < 2 ^ 20)
  (h : RegAccess s r (coreR c off))
include hoff h

theorem RegAccess.ctlWrite_core {fs : List Field} (hr : findReg regsCORE off = some fs) (h8 : off % 8 = 0)
    (hst : (s.k c).st ≠ .fenced) (v : W64) (lower upper : Bool) :
    (s.dev.recv (.req r)).ctlWrite s.part r.src (some r) (coreR c off) v lower upper =
      (((s.dev.recv (.req r)).coreWrite s.part (coreR c off) v lower upper).1,
        ((s.dev.recv (.req r)).coreWrite s.part (coreR c off) v lower upper).2, some stOk) := by
  have hr' : regFields s.part (coreR c off) = some fs := by rw [regFields_coreR s.part c hoff (h.has hoff), hr]
  have hf : s.dev.fencedReg (coreR c off) true = false := by
    rw [fencedReg_coreR c hoff, beq_false_of_ne hst, Bool.false_and]
  rw [h.ctlWrite_own hr' (coreR_mod c h8) hf, canonAddr_coreR c hoff, regWrite_coreR _ _ _ _ _ _ _ c hoff]

theorem RegAccess.write_fenced (hw : s.dev.accessWaits s.part r = false) (hop : r.op = .cwrite v lower upper) (h8 : off % 8 = 0)
    (hst : (s.k c).st = .fenced) : Answers (.cwrite r) s (Told s r (coreR c off) stCoreFenced []) := by
  refine h.refusesWrite hw (isG_coreR c hoff) hop (ctlWrite_fenced _ _ _ _ v lower upper (coreR_mod c h8) ?_)
  rw [h.recv_fencedReg, fencedReg_coreR c hoff, hst]
  rfl

end

section
variable {s : State} {r : Req} {c : CoreId} {v : W64} {lower upper : Bool} (hw : s.dev.accessWaits s.part r = false)
  (hop : r.op = .cwrite v lower upper) (hst : (s.k c).st ≠ .fenced)
include hw hop hst

theorem RegAccess.write_pc (h : RegAccess s r (coreR c 0x10)) (hl : lower = true) (hin : (s.k c).st ∈ [.reset, .idle, .halt]) :
    Answers (.cwrite r) s fun t =>
      t.dev.net = s.dev.net.erase (.req r) ++ [.resp (s.dev.ctlResp r (coreR c 0x10) stOk [])] ∧
        t.k c = { s.k c with pc := BitVec.ofNat 22 (v.toNat / 4 * 4) } ∧ (∀ z, t.reg z = s.reg z) ∧ StillBut s t c := by
  have hz := h.ctlWrite_core (by decide) rfl rfl hst v lower upper
  rw [coreWrite_pc, if_pos ⟨hl, by rwa [h.recv_core]⟩] at hz
  refine h.writes hw (isG_coreR c (by decide)) hop hz (by rw [Dev.modCore_node, h.recv_node])
    ⟨?_, ?_, fun z => ?_, fun _ => rfl, fun e he => ?_, rfl, rfl⟩
  · rw [Dev.send, Dev.modCore_net, h.recv_net]
  · dsimp only [State.k]
    rw [send_core, Dev.core_modCore_same, h.recv_core]
  · dsimp only [State.reg]
    rw [send_get, Dev.get_modCore, h.recv_get]
  · dsimp only [State.k]
    rw [send_core, Dev.core_modCore_ne _ _ he, h.recv_core]

theorem RegAccess.write_pc_ignored (h : RegAccess s r (coreR c 0x10))
    (hno : lower = false ∨ (s.k c).st ∉ [.reset, .idle, .halt]) : Answers (.cwrite r) s (Told s r (coreR c 0x10) stOk []) := by
  have hz := h.ctlWrite_core (by decide) rfl rfl hst v lower upper
  have hno' : ¬(lower = true ∧ ((s.dev.recv (.req r)).core c).st ∈ [.reset, .idle, .halt]) := by
    rw [h.recv_core]
    rintro ⟨rfl, hin⟩
    exact hno.elim (fun hl => Bool.noConfusion hl) (fun hn => hn hin)
  rw [coreWrite_pc, if_neg hno'] at hz
  exact h.refusesWrite hw (isG_coreR c (by decide)) hop hz

theorem RegAccess.write_srlfsr (h : RegAccess s r (coreR c 0x38)) : Answers (.cwrite r) s fun t =>
    t.dev.net = s.dev.net.erase (.req r) ++ [.resp (s.dev.ctlResp r (coreR c 0x38) stOk [])] ∧
      t.reg (coreR c 0x38) = (let x := mergeHalves (s.reg (coreR c 0x38)) v lower upper
        if x = 0 then 1 else x) ∧
      (∀ z, z ≠ coreR c 0x38 → t.reg z = s.reg z) ∧ Still s t := by
  have hz := h.ctlWrite_core (by decide) rfl rfl hst v lower upper
  rw [coreWrite_srlfsr, h.recv_get] at hz
  refine h.writes hw (isG_coreR c (by decide)) hop hz (by rw [setSr_node, h.recv_node])
    ⟨?_, ?_, fun z hne => ?_, fun _ => rfl, fun e => ?_, rfl, rfl⟩
  · rw [Dev.send, Dev.setSr, Dev.put_net, h.recv_net]
  · dsimp only [State.reg]
    rw [send_get, Dev.setSr, Dev.get_put_same]
  · dsimp only [State.reg]
    rw [send_get, Dev.setSr, Dev.get_put_ne _ _ _ hne, h.recv_get]
  · exact h.recv_core e

end

/-! ### HANDOFF and CONFIRM -/

theorem RegAccess.ctlWrite_handoff {s : State} {r : Req} {l : Nat} (hl : l < 4) (h : RegAccess s r (memcR l 0x30)) (v : W64)
    (lower upper : Bool) : (s.dev.recv (.req r)).ctlWrite s.part r.src (some r) (memcR l 0x30) v lower upper =
    (s.dev.recv (.req r)).regWrite s.part r.src (some r) (memcR l 0x30) v lower upper := by
  have hL := isL_memcR hl
  obtain ⟨fs, hr⟩ := regFields_memcR (p := s.part) hl
  have hf : s.dev.fencedReg (memcR l 0x30) true = false := by simp [Dev.fencedReg, not_others_of_isL hL]
  have h8 : memcR l 0x30 % 8 = 0 := by
    simp only [memcR, ctlAddr]
    omega
  rw [h.ctlWrite_own hr h8 hf, canonAddr_of_not_base (isBase_of_isL hL)]

section
variable {s : State} {r : Req} {v : W64} {lower upper : Bool} (hw : s.dev.accessWaits s.part r = false)
  (hop : r.op = .cwrite v lower upper)
include hw hop

section
variable {l : Nat} (hl : l < 4) (h : RegAccess s r (memcR l 0x30))
include hl h

theorem RegAccess.write_handoff_refused {st : BitVec 7}
    (hr : s.dev.handoffRefused s.part l r.src (halvesOf v lower upper) = some st) :
    Answers (.cwrite r) s (Told s r (memcR l 0x30) st []) := by
  refine h.refusesWrite hw (not_others_of_isL (isL_memcR hl)).2.2 hop ?_
  rw [h.ctlWrite_handoff hl]
  exact (regWrite_handoff hl _ _ _ v lower upper).1 st (by rw [h.recv_handoffRefused, hr])

theorem RegAccess.write_handoff (hr : s.dev.handoffRefused s.part l r.src (halvesOf v lower upper) = none) :
    Answers (.cwrite r) s fun t => t.dev.net = s.dev.net.erase (.req r) ∧
      (∃ h, t.dev.handoff = some h ∧ h.first = bits (halvesOf v lower upper) 0 17 ∧ h.nm1 = bits (halvesOf v lower upper) 17 10 ∧
        h.answer = some r) ∧ (∀ z, z ≠ memcR 0 0x38 → t.reg z = s.reg z) ∧ Still s t := by
  have hz := (regWrite_handoff hl (s.dev.recv (.req r)) r.src (some r) v lower upper).2 (by rw [h.recv_handoffRefused, hr])
  obtain ⟨rs, x, hx⟩ := handoffStart_eq s.part (s.dev.recv (.req r)) (halvesOf v lower upper) (some r)
  rw [← h.ctlWrite_handoff hl, hx] at hz
  refine ⟨_, h.exec_cwrite hw (not_others_of_isL (isL_memcR hl)).2.2 hop hz, ?_, ⟨_, rfl, rfl, rfl, rfl⟩, fun z hne => ?_,
    fun _ => rfl, fun e => ?_, rfl, rfl⟩
  · exact h.recv_net
  · dsimp only [State.reg]
    rw [Dev.get_put_ne _ _ _ hne]
    exact h.recv_get z
  · exact h.recv_core e

end

theorem RegAccess.write_confirm (h : RegAccess s r (fwR 0x28))
    (hs : ¬(srcNode r.src = s.dev.node ∧ (srcSite r.src).toNat = 20 ∧ (srcUnit r.src).toNat = 0)) :
    Answers (.cwrite r) s (Told s r (fwR 0x28) stBadRequest []) := by
  obtain ⟨fs, hr⟩ := regFields_fwR s.part
  have hf : s.dev.fencedReg (fwR 0x28) true = false := by simp [Dev.fencedReg, not_others_of_isK isK_fwR]
  refine h.refusesWrite hw (not_others_of_isK isK_fwR).2.2 hop ?_
  rw [h.ctlWrite_own hr (by decide) hf, canonAddr_of_not_base (isBase_of_isK isK_fwR)]
  exact regWrite_confirm _ _ _ v lower upper (by rwa [h.recv_node])

end

/-! ### The commands -/

theorem exec_cread_other {s : State} {r : Req} (hop : r.op ≠ .cread) : exec (.cread r) s = .next s := by
  change execCread r s = _
  unfold execCread
  cases hr : r.op with
  | cread => exact absurd hr hop
  | read | write | atomic | push | cwrite => rfl

theorem exec_cwrite_other {s : State} {r : Req} (hop : ∀ v lower upper, r.op ≠ .cwrite v lower upper) :
    exec (.cwrite r) s = .next s := by
  change execCwrite r s = _
  unfold execCwrite
  cases hr : r.op with
  | cwrite v lower upper => exact absurd hr (hop v lower upper)
  | read | write | atomic | push | cread => rfl

/-- Settles O38: an access reaches its site when its turn comes; there the register's block says what a read shows and a write
does, and the answer leaves after it. -/
theorem registerAccesses : Obligations.RegisterAccesses := by
  unfold Obligations.RegisterAccesses
  intro s r a hd hn hp ht hm
  have h : RegAccess s r a := ⟨hd, hn, hp, ht, hm⟩
  refine ⟨h.waiting, fun hw => ⟨fun hop => ⟨?_, ?_, ?_, ?_, ?_, ?_, ?_, ?_⟩, fun v lower upper hop =>
    ⟨?_, ?_, ?_, ?_, ?_, ?_, ?_, ?_⟩, fun hop => ⟨s, exec_cwrite_other hop, rfl⟩, fun hop => ⟨s, exec_cread_other hop, rfl⟩⟩⟩
  · exact fun fs hr ⟨hG, h8⟩ hf => ⟨h.read_own hw hop hr hG h8 hf, h.read_shows hw hop hr hG h8 hf⟩
  · exact fun hG h8 => h.read_misaligned hw hop hG h8
  · rintro w b rfl
    exact h.read_barMask hw hop
  · rintro c hst rfl
    have := h.read_core (by decide) hw hop rfl rfl (.inl hst)
    rwa [regView_coreR _ _ c (by decide), if_neg (by decide), if_neg (by decide), if_neg (by decide), maskWo_word] at this
  · rintro c hst rfl
    have := h.read_core (by decide) hw hop rfl rfl (.inl hst)
    rwa [regView_coreR _ _ c (by decide), if_neg (by decide), if_pos rfl] at this
  · rintro c hst rfl
    have := h.read_core (by decide) hw hop rfl rfl (.inr rfl)
    rwa [regView_coreR _ _ c (by decide), if_pos rfl, coreStateWord_fenced _ _ hst] at this
  · rintro c hst rfl
    exact h.read_fenced (by decide) hw hop rfl hst (by decide)
  · exact fun hr hG h8 hf => h.read_absent hw hop hr hG h8 hf
  · rintro fs hr ⟨hG, h8⟩ hf
    exact ⟨h.write_answered hw hG hop hr h8 hf, h.write_clean hw hG hop hr h8 hf, h.write_reserved hw hG hop hr h8 hf⟩
  · exact fun hG h8 => h.write_misaligned hw hG hop h8
  · rintro c hst rfl
    exact ⟨h.write_pc hw hop hst, h.write_pc_ignored hw hop hst⟩
  · rintro l hl rfl
    dsimp only
    rw [← halvesOf_eq]
    exact ⟨fun st hr => h.write_handoff_refused hw hop hl hr, h.write_handoff hw hop hl⟩
  · rintro rfl hs
    exact h.write_confirm hw hop hs
  · rintro c hst rfl
    have := h.write_srlfsr hw hop hst
    cases lower <;> cases upper <;> exact this
  · rintro c hst rfl
    exact h.write_fenced (by decide) hw hop rfl hst
  · exact fun hr hG h8 hf => h.write_absent hw hG hop hr h8 hf

end Sys2Proof.Machine
end

section

namespace Sys2Proof.Machine

/-! ### Commands that change the device alone -/

/-- The command leaves part, memory and queue as they are, and the device as `e`. -/
def Does (i : Instr) (s : State) (e : Dev) : Prop := exec i s = .next { s with dev := e }

section
variable {i : Instr} {s : State} {e : Dev}

theorem Does.answers {P : State → Prop} (h : Does i s e) (hP : P { s with dev := e }) : Answers i s P := ⟨_, h, hP⟩
theorem Does.same (h : Does i s s.dev) : Answers i s fun t => t = s := ⟨_, h, rfl⟩
theorem does_of_upd {f : Part → List Host.Cell → Dev → Dev} (h : exec i s = s.upd f) (he : f s.part s.mem s.dev = e) : Does i s e := by
  rw [Does, h, State.upd_next, he]
theorem does_of_updW {f : Part → List Host.Cell → Dev → Dev × Wr} (h : exec i s = s.updW f) (he : f s.part s.mem s.dev = (e, [])) :
    Does i s e := by
  rw [Does, h, State.updW_next, he]
  rfl
/-- A command after which every core is what it was leaves memory and cores alone. -/
theorem still_of_cores (h : e.cores = s.dev.cores) : Still s { s with dev := e } :=
  ⟨fun _ => rfl, fun c => by simp only [State.k, Dev.core, h], rfl, rfl⟩

end

/-! ### Changes that registers alone undergo -/

/-- Nothing has changed but registers, and those only where `R` holds of the address. -/
def RegsIn (p : Part) (R : Nat → Prop) (d e : Dev) : Prop := e.noRegs = d.noRegs ∧ ∀ a, ¬R a → e.get p a = d.get p a

section
variable {p : Part} {R S : Nat → Prop} {c d e : Dev}

theorem RegsIn.refl (d : Dev) : RegsIn p R d d := ⟨rfl, fun _ _ => rfl⟩
theorem RegsIn.trans (h : RegsIn p R c d) (h' : RegsIn p R d e) : RegsIn p R c e :=
  ⟨h'.1.trans h.1, fun a ha => (h'.2 a ha).trans (h.2 a ha)⟩
theorem RegsIn.mono (h : RegsIn p R d e) (hRS : ∀ a, R a → S a) : RegsIn p S d e := ⟨h.1, fun a ha => h.2 a fun hr => ha (hRS a hr)⟩
theorem RegsIn.cores (h : RegsIn p R d e) : e.cores = d.cores :=
  (congrArg Dev.cores h.1 :)
theorem RegsIn.records (h : RegsIn p R d e) : e.records = d.records :=
  (congrArg Dev.records h.1 :)
theorem RegsIn.policyQ (h : RegsIn p R d e) : e.policyQ = d.policyQ :=
  (congrArg Dev.policyQ h.1 :)
theorem RegsIn.rstCause (h : RegsIn p R d e) : e.rstCause = d.rstCause :=
  (congrArg Dev.rstCause h.1 :)

theorem put_regsIn {a : Nat} (v : W64) (h : R a) : RegsIn p R d (d.put p a v) :=
  ⟨put_noRegs .., fun _ hb => Dev.get_put_ne _ _ _ fun e => hb (e ▸ h)⟩
theorem setF_regsIn {a : Nat} (lo n v : Nat) (h : R a) : RegsIn p R d (d.setF p a lo n v) := put_regsIn _ h
theorem setB_regsIn {a : Nat} (i : Nat) (b : Bool) (h : R a) : RegsIn p R d (d.setB p a i b) := put_regsIn _ h
theorem count_regsIn {a : Nat} (n : Nat) (h : R a) : RegsIn p R d (d.count p a n) := put_regsIn _ h
theorem putWords_regsIn {a : Nat} {ws : List W64} (h : ∀ i < ws.length, R (a + 8 * i)) : RegsIn p R d (d.putWords p a ws) :=
  ⟨putWords_noRegs .., fun _ hb => putWords_get_ne _ _ _ _ _ fun i hi e => hb (e ▸ h i hi)⟩
theorem foldl_regsIn {α : Type} {f : Dev → α → Dev} {l : List α} (h : ∀ d, ∀ x ∈ l, RegsIn p R d (f d x)) (d : Dev) :
    RegsIn p R d (l.foldl f d) := by
  induction l generalizing d with
  | nil => exact .refl d
  | cons x l ih =>
    exact (h d x List.mem_cons_self).trans (ih (fun d y hy => h d y (List.mem_cons_of_mem _ hy)) _)

end

/-! ### Events of the sessions write the host port's registers alone -/

/-- A register of the host port. -/
def HostReg (a : Nat) : Prop := ctlBlk a = 0x50

theorem hostReg_hostR {off : Nat} (h : off < 2 ^ 20) : HostReg (hostR off) := ctlBlk_ctlAddr (by decide) h

section
variable (p : Part) (d : Dev)

theorem le_of_mem_sessions {s : Nat} (h : s ∈ sessions) : s ≤ 18 := by
  simp only [sessions, List.mem_map, List.mem_range] at h
  omega

theorem postEvent_regsIn {s : Nat} (hs : s ≤ 18) (ty tag status opcode : Nat) (body : List W64) :
    RegsIn p HostReg d (d.postEvent p s ty tag status opcode body) := by
  unfold Dev.postEvent
  extract_lets prod phase
  split
  · exact count_regsIn _ (hostReg_hostR (by omega))
  · refine .trans (putWords_regsIn fun i hi => ?_) (put_regsIn _ (hostReg_hostR (by omega)))
    have hi : i < 8 := by simpa [eventWords] using hi
    have : ringR s (0x4000 + 0x40 * (prod.toNat % 256)) + 8 * i =
        hostR (0x40000 + 0x8000 * (s - 1) + (0x4000 + 0x40 * (prod.toNat % 256)) + 8 * i) := by
      simp only [ringR, hostR, ctlAddr]
      omega
    rw [this]
    exact hostReg_hostR (by omega)

theorem postFault_regsIn (f : FaultRec) : RegsIn p HostReg d (d.postFault p f) := by
  refine foldl_regsIn (fun d s hs => ?_) d
  split
  · exact postEvent_regsIn p d (le_of_mem_sessions hs) ..
  · exact .refl d

theorem postSession_regsIn (session cause : Nat) : RegsIn p HostReg d (d.postSession p session cause) := by
  refine foldl_regsIn (fun d s hs => ?_) d
  split
  · exact postEvent_regsIn p d (le_of_mem_sessions hs) ..
  · exact .refl d

end


/-! ### Reads after writes of registers -/

section
variable (p : Part) (d : Dev) (a b : Nat)

theorem get_put (v : W64) : (d.put p a v).get p b = if b = a then v else d.get p b := by
  split
  · rename_i h; rw [h, Dev.get_put_same]
  · rename_i h; rw [Dev.get_put_ne _ _ _ h]
theorem get_setF (lo n v : Nat) : (d.setF p a lo n v).get p b = if b = a then withBits (d.get p a) lo n v else d.get p b :=
  get_put p d a b _
theorem get_setB (i : Nat) (x : Bool) :
    (d.setB p a i x).get p b = if b = a then withBits (d.get p a) i 1 (if x then 1 else 0) else d.get p b := get_put p d a b _
theorem get_count (n : Nat) : (d.count p a n).get p b = if b = a then countUp (d.get p a) n else d.get p b := get_put p d a b _

end

/-! ### The package log (R520) -/

theorem ctlBlk_fltR {s off : Nat} (h : off < 2 ^ 20) : ctlBlk (fltR s off) = 1 := ctlBlk_ctlAddr (by decide) h

theorem plogR_ne_fltR {i w off : Nat} (h : off < 0x10000) : plogR i w ≠ fltR 20 off := by
  rw [plogR, Ne, fltR_inj]
  omega
theorem fltR_ne_plogR {i w off : Nat} (h : off < 0x10000) : fltR 20 off ≠ plogR i w := (plogR_ne_fltR h).symm
theorem plogR_inj {i j w x : Nat} (hw : w < 8) (hx : x < 8) : plogR i w = plogR j x ↔ i = j ∧ w = x := by
  rw [plogR, plogR, fltR_inj]
  omega
theorem plogR_add (i w : Nat) : plogR i 0 + 8 * w = plogR i w := by
  simp only [plogR, fltR, ctlAddr]
  omega
theorem ctlBlk_plogR {i w : Nat} (hi : i < 512) (hw : w < 8) : ctlBlk (plogR i w) = 1 := ctlBlk_fltR (by omega)

/-- The record is reported: it is in its entry of the package log, counted, and given to the policy; nothing else has changed but
the event rings. -/
structure Reported (p : Part) (d e : Dev) (g : FaultRec) : Prop where
  words : ∀ w x, (recWords g)[w]? = some x → e.get p (plogR (g.seq.toNat % 512) w) = x
  valid : e.get p (plogR (g.seq.toNat % 512) 6) = 1
  pstat : e.get p (fltR 20 0x800) = withBits (d.get p (fltR 20 0x800)) 0 16 (g.seq.toNat + 1)
  pend : e.get p (fltR 20 0x808) =
    withBits (d.get p (fltR 20 0x808)) (10 * recOrig g) 10 (d.fld p (fltR 20 0x808) (10 * recOrig g) 10 + 1)
  counted : e.get p (fltR 20 0x840) = countUp (d.get p (fltR 20 0x840)) 1
  raised : e.get p (fltR 20 0x848) = countUp (d.get p (fltR 20 0x848)) (if g.esc then 1 else 0)
  lost : e.get p (fltR 20 0x850) = d.get p (fltR 20 0x850)
  away : ∀ a, ctlBlk a ≠ 1 → ctlBlk a ≠ 0x50 → e.get p a = d.get p a
  policyQ : e.policyQ = d.policyQ ++ [g]
  records : e.records = d.records
  cores : e.cores = d.cores

theorem recWords_length (f : FaultRec) : (recWords f).length = 6 := rfl

/-- Counting no event leaves every register as it is. -/
theorem get_count_zero (p : Part) (d : Dev) (a b : Nat) : (d.count p a 0).get p b = d.get p b := by
  rw [get_count]
  split
  · rename_i h; rw [h]; rfl
  · rfl

/-- The record waits for the policy. -/
def Dev.queued (d : Dev) (g : FaultRec) : Dev := { d with policyQ := d.policyQ ++ [g] }

section
variable (p : Part) (d : Dev) (g : FaultRec)

theorem queued_get (a : Nat) : (d.queued g).get p a = d.get p a := rfl
theorem queued_policyQ : (d.queued g).policyQ = d.policyQ ++ [g] := rfl
theorem queued_records : (d.queued g).records = d.records := rfl
theorem queued_cores : (d.queued g).cores = d.cores := rfl

end

theorem writePlog_reported (p : Part) (d : Dev) (g : FaultRec) : Reported p d (d.writePlog p g) g := by
  have hp := postFault_regsIn p d g
  have hi : g.seq.toNat % 512 < 512 := Nat.mod_lt _ (by decide)
  unfold Dev.writePlog
  extract_lets i d1 d2 d3
  -- the entry is written, and below it the registers of the log are still what they were
  have entry : ∀ w x, (recWords g)[w]? = some x → d1.get p (plogR i w) = x := fun w x hx => by
    have hw : w < 6 := (List.getElem?_eq_some_iff.1 hx).1
    rw [Dev.get_put_ne _ _ _ (by rw [Ne, plogR_inj (by omega) (by omega)]; omega), ← plogR_add i w, putWords_get _ _ _ _ _ _ hx]
  have out : ∀ a, (∀ w < 7, a ≠ plogR i w) → ¬HostReg a → d1.get p a = d.get p a := fun a ha hh => by
    rw [Dev.get_put_ne _ _ _ (ha 6 (by decide)), putWords_get_ne, hp.2 a hh]
    intro w hw
    rw [recWords_length] at hw
    rw [plogR_add]
    exact ha w (by omega)
  have low : ∀ off < 0x10000, d1.get p (fltR 20 off) = d.get p (fltR 20 off) := fun off ho =>
    out _ (fun w _ => fltR_ne_plogR ho) (by rw [HostReg, ctlBlk_fltR (by omega)]; decide)
  have esc : ∀ b, d3.get p b = (d2.count p (fltR 20 0x848) (if g.esc then 1 else 0)).get p b := fun b => by
    cases hg : g.esc with
    | false => simp [d3, hg, get_count_zero]
    | true => simp [d3, hg]
  have regs : RegsIn p (fun _ => True) d d3 := by
    have h1 : RegsIn p (fun _ => True) d d1 :=
      ((hp.mono fun _ _ => trivial).trans (putWords_regsIn fun _ _ => trivial)).trans (put_regsIn _ trivial)
    have h2 : RegsIn p (fun _ => True) d1 d2 :=
      ((setF_regsIn _ _ _ trivial).trans (setF_regsIn _ _ _ trivial)).trans (count_regsIn _ trivial)
    unfold d3
    split
    · exact (h1.trans h2).trans (count_regsIn _ trivial)
    · exact h1.trans h2
  have high : ∀ w, d3.get p (plogR i w) = d1.get p (plogR i w) := fun w => by
    simp [esc, d2, Dev.setPend, get_count, get_setF, plogR_ne_fltR]
  change Reported p d (d3.queued g) g
  refine ⟨?_, ?_, ?_, ?_, ?_, ?_, ?_, ?_, ?_, ?_, ?_⟩
  · exact fun w x hx => by rw [queued_get, high, entry w x hx]
  · rw [queued_get, high, Dev.get_put_same]
  · simp [queued_get, esc, d2, Dev.setPend, get_count, get_setF, fltR_inj, low]
  · simp [queued_get, esc, d2, Dev.setPend, Dev.pend, Dev.fld, get_count, get_setF, fltR_inj, low]
  · simp [queued_get, esc, d2, Dev.setPend, get_count, get_setF, fltR_inj, low]
  · simp [queued_get, esc, d2, Dev.setPend, get_count, get_setF, fltR_inj, low]
  · simp [queued_get, esc, d2, Dev.setPend, get_count, get_setF, fltR_inj, low]
  · intro a ha hh
    have hf : ∀ off < 0x10000, a ≠ fltR 20 off := fun off ho e => ha (e ▸ ctlBlk_fltR (by omega))
    rw [queued_get, esc]
    simp only [d2, Dev.setPend, get_count, get_setF, hf, Nat.reduceLT, if_false]
    exact out a (fun w hw e => ha (e ▸ ctlBlk_plogR hi (by omega))) hh
  · rw [queued_policyQ, regs.policyQ]
  · rw [queued_records, regs.records]
  · rw [queued_cores, regs.cores]


/-! ### What a record carries when K0 reports it (R520, R522) -/

/-- The record as K0 reports it: escalated where its class is unacknowledged, with the next SEQ. -/
def Dev.stamped (p : Part) (d : Dev) (f : FaultRec) : FaultRec := { d.escalated p f with seq := BitVec.ofNat 16 (d.nextSeq p) }

/-- A record of its class is unacknowledged. -/
@[reducible] def Dev.escalates (p : Part) (d : Dev) (f : FaultRec) : Prop := f.cls.toNat < 4 ∧ 1 ≤ d.pend p f.cls.toNat

section
variable (p : Part) (d : Dev) (f : FaultRec)

theorem stamped_of_escalates (h : d.escalates p f) :
    d.stamped p f = { f with cls := f.cls + 1, esc := true, seq := BitVec.ofNat 16 (d.nextSeq p) } := by
  rw [Dev.stamped, Dev.escalated, if_pos h]
theorem stamped_of_not_escalates (h : ¬d.escalates p f) :
    d.stamped p f = { f with esc := false, seq := BitVec.ofNat 16 (d.nextSeq p) } := by
  rw [Dev.stamped, Dev.escalated, if_neg h]
theorem stamped_seq : (d.stamped p f).seq.toNat = d.nextSeq p := by
  have : d.nextSeq p < 2 ^ 16 := fld_lt ..
  rw [Dev.stamped, BitVec.toNat_ofNat, Nat.mod_eq_of_lt this]
theorem stamped_cls : (d.stamped p f).cls.toNat = f.cls.toNat + (if d.escalates p f then 1 else 0) := by
  by_cases h : d.escalates p f
  · have := h.1
    rw [if_pos h, stamped_of_escalates p d f h, BitVec.toNat_add]
    exact Nat.mod_eq_of_lt (by change _ + 1 < 8; omega)
  · rw [if_neg h, stamped_of_not_escalates p d f h]
    rfl
theorem stamped_esc : (d.stamped p f).esc = true ↔ d.escalates p f := by
  by_cases h : d.escalates p f
  · exact iff_of_true (by rw [stamped_of_escalates p d f h]) h
  · exact iff_of_false (by rw [stamped_of_not_escalates p d f h]; exact Bool.false_ne_true) h
/-- What the record says beside its class and SEQ is as it was raised. -/
theorem stamped_carries : (d.stamped p f).ledger = f.ledger ∧ (d.stamped p f).source = f.source ∧ (d.stamped p f).code = f.code ∧
    (d.stamped p f).inj = f.inj ∧ (d.stamped p f).ctx0 = f.ctx0 ∧ (d.stamped p f).ctx1 = f.ctx1 ∧ (d.stamped p f).ctx2 = f.ctx2 ∧
    (d.stamped p f).ctx3 = f.ctx3 := by
  by_cases h : d.escalates p f
  · rw [stamped_of_escalates p d f h]
    exact ⟨rfl, rfl, rfl, rfl, rfl, rfl, rfl, rfl⟩
  · rw [stamped_of_not_escalates p d f h]
    exact ⟨rfl, rfl, rfl, rfl, rfl, rfl, rfl, rfl⟩
theorem recOrig_stamped : recOrig (d.stamped p f) = f.cls.toNat := by
  unfold recOrig
  rw [stamped_cls]
  by_cases h : d.escalates p f
  · rw [if_pos h, if_pos ((stamped_esc p d f).2 h)]; rfl
  · rw [if_neg h, if_neg fun e => h ((stamped_esc p d f).1 e)]; rfl

/-! ### What becomes of a record that arrives (R520) -/

theorem takeRecord_eq : d.takeRecord p f =
    if d.plogOpen p (d.nextSeq p % 512) = false then d.writePlog p (d.stamped p f)
    else if d.plogClass p (d.nextSeq p % 512) ≤ 1 then
      ((d.count p (fltR 20 0x850) 1).setPend p (d.plogOrig p (d.nextSeq p % 512))
        (d.pend p (d.plogOrig p (d.nextSeq p % 512)) - 1)).writePlog p (d.stamped p f)
    else if (d.stamped p f).cls.toNat ≤ 1 then d.count p (fltR 20 0x850) 1
    else (d.count p (fltR 20 0x850) 1).setB p (fltR 20 0x800) 16 true := by
  have h : BitVec.toNat (BitVec.ofNat 16 (d.nextSeq p)) = d.nextSeq p := stamped_seq p d f
  unfold Dev.takeRecord
  dsimp only
  rw [h]
  cases d.plogOpen p (d.nextSeq p % 512) <;> rfl

end

/-! ### The record reported at K0 -/

/-- The record stands in the package log with the next SEQ, one class higher where a record of its class is unacknowledged; it is
counted, it waits for the policy, and beside the FLT block of K0 no register has changed but those of the event rings. -/
def LoggedAtK0 (s : State) (f : FaultRec) (t : State) : Prop :=
  ∃ g : FaultRec, t.dev.policyQ = s.dev.policyQ ++ [g] ∧
    (∀ w x, (recWords g)[w]? = some x → t.reg (plogR (s.dev.nextSeq s.part % 512) w) = x) ∧
    t.reg (plogR (s.dev.nextSeq s.part % 512) 6) = 1 ∧ g.seq.toNat = s.dev.nextSeq s.part ∧
    g.cls.toNat = f.cls.toNat + (if s.dev.escalates s.part f then 1 else 0) ∧ (g.esc = true ↔ s.dev.escalates s.part f) ∧
    g.ledger = f.ledger ∧ g.source = f.source ∧ g.code = f.code ∧ g.inj = f.inj ∧
    g.ctx0 = f.ctx0 ∧ g.ctx1 = f.ctx1 ∧ g.ctx2 = f.ctx2 ∧ g.ctx3 = f.ctx3 ∧
    t.field (fltR 20 0x800) 0 16 = (s.dev.nextSeq s.part + 1) % 2 ^ 16 ∧ t.field (fltR 20 0x800) 16 1 = s.field (fltR 20 0x800) 16 1 ∧
    t.reg (fltR 20 0x840) = countUp (s.reg (fltR 20 0x840)) 1 ∧
    t.reg (fltR 20 0x848) = countUp (s.reg (fltR 20 0x848)) (if s.dev.escalates s.part f then 1 else 0) ∧
    (∀ a, ctlBlk a ≠ 1 → ctlBlk a ≠ 0x50 → t.reg a = s.reg a)

theorem Reported.loggedAtK0 {s : State} {d e : Dev} {f : FaultRec} (h : Reported s.part d e (s.dev.stamped s.part f))
    (hq : d.policyQ = s.dev.policyQ) (hr : ∀ a, a ∉ [fltR 20 0x808, fltR 20 0x850] → d.get s.part a = s.dev.get s.part a) :
    LoggedAtK0 s f { s with dev := e } := by
  have hw := h.words
  have hv := h.valid
  rw [stamped_seq] at hw hv
  have reg : ∀ off < 2 ^ 20, off ≠ 0x808 → off ≠ 0x850 → d.get s.part (fltR 20 off) = s.dev.get s.part (fltR 20 off) :=
    fun off _ h8 h5 => hr _ (by simp [fltR_inj, h8, h5])
  have esc : (if (s.dev.stamped s.part f).esc = true then 1 else 0) = if s.dev.escalates s.part f then 1 else 0 := by
    simp only [stamped_esc]
  obtain ⟨hl, hs, hc, hi, h0, h1, h2, h3⟩ := stamped_carries s.part s.dev f
  refine ⟨_, by rw [← hq]; exact h.policyQ, hw, hv, stamped_seq .., stamped_cls .., stamped_esc .., hl, hs, hc, hi, h0, h1, h2, h3,
    ?_, ?_, ?_, ?_, fun a ha hh => ?_⟩
  · change bits (e.get _ _) _ _ = _
    rw [h.pstat, bits_withBits_same _ _ _ _ (by decide), stamped_seq]
  · change bits (e.get _ _) _ _ = bits _ _ _
    rw [h.pstat, bits_withBits_above _ _ (by decide) (by decide), reg _ (by decide) (by decide) (by decide)]
  · change e.get _ _ = _
    rw [h.counted, reg _ (by decide) (by decide) (by decide)]
  · change e.get _ _ = _
    rw [h.raised, reg _ (by decide) (by decide) (by decide), esc]
  · change e.get _ _ = _
    have hf : ∀ off < 2 ^ 20, a ≠ fltR 20 off := fun off ho e => ha (e ▸ ctlBlk_fltR ho)
    rw [h.away a ha hh, hr a (by simp [hf])]


/-! ### Which record arrives first (R469, R517) -/

theorem recBefore_iff (f g : FaultRec) : recBefore f g = true ↔
    f.ledger.toNat < g.ledger.toNat ∨ (f.ledger = g.ledger ∧ f.source.toNat < g.source.toNat) := by
  simp [recBefore]

theorem not_recBefore_self (f : FaultRec) : recBefore f f = false := by
  simp [recBefore]

theorem mem_of_firstRec {l : List FaultRec} {f : FaultRec} (h : firstRec l = some f) : f ∈ l := by
  induction l generalizing f with
  | nil => cases h
  | cons x l ih =>
    unfold firstRec at h
    split at h
    · rename_i g hg
      split at h
      · cases h
        exact List.mem_cons_of_mem _ (ih hg)
      · cases h
        exact List.mem_cons_self
    · cases h
      exact List.mem_cons_self

/-- A record that stands before all that were raised before it, and before which none stands of those after it, is the first. -/
theorem firstRec_append {pre post : List FaultRec} {f : FaultRec} (hpre : ∀ g ∈ pre, recBefore f g = true)
    (hpost : ∀ g ∈ post, recBefore g f = false) : firstRec (pre ++ f :: post) = some f := by
  induction pre with
  | nil =>
    rw [List.nil_append, firstRec]
    split
    · rename_i g hg
      rw [hpost g (mem_of_firstRec hg), if_neg Bool.false_ne_true]
    · rfl
  | cons x pre ih =>
    rw [List.cons_append, firstRec, ih fun g hg => hpre g (List.mem_cons_of_mem _ hg)]
    dsimp only
    rw [hpre x List.mem_cons_self, if_pos rfl]

theorem erase_append_cons {pre post : List FaultRec} {f : FaultRec} (h : f ∉ pre) : (pre ++ f :: post).erase f = pre ++ post := by
  rw [List.erase_append_right _ h, List.erase_cons_head]

theorem outvoted_self {n : Nat} (x : BitVec n) : outvoted x x x = none := by
  simp [outvoted, vote3]

/-- FAULT_RECORD_ARRIVAL takes the first of the records that travel over the lattice. -/
theorem does_faultRecordArrival {s : State} {pre post : List FaultRec} {f : FaultRec} (hrec : s.dev.records = pre ++ f :: post)
    (hf : s.dev.recWired s.part f = false) (hpre : ∀ g ∈ pre, s.dev.recWired s.part g = true ∨ recBefore f g = true)
    (hpost : ∀ g ∈ post, s.dev.recWired s.part g = true ∨ recBefore g f = false) :
    Does .faultRecordArrival s (s.dev.recArrives s.part f) := by
  refine does_of_upd (exec_faultRecordArrival s) ?_
  have first : firstRec (s.dev.records.filter fun f => !s.dev.recWired s.part f) = some f := by
    rw [hrec, List.filter_append, List.filter_cons_of_pos (by simp [hf])]
    refine firstRec_append (fun g hg => ?_) fun g hg => ?_
    · obtain ⟨hg, hw⟩ := List.mem_filter.1 hg
      exact (hpre g hg).resolve_left (by simpa using hw)
    · obtain ⟨hg, hw⟩ := List.mem_filter.1 hg
      exact (hpost g hg).resolve_left (by simpa using hw)
  rw [first]

/-- Where every record travels on the voted wiring none arrives over the lattice. -/
theorem does_faultRecordArrival_none {s : State} (h : ∀ f ∈ s.dev.records, s.dev.recWired s.part f = true) :
    Does .faultRecordArrival s s.dev := by
  refine does_of_upd (exec_faultRecordArrival s) ?_
  rw [List.filter_eq_nil_iff.2 fun f hf => by simp [h f hf]]
  rfl

/-- A frame without an injected error brings the record it carries (R295, R517). -/
theorem does_frame_record {s : State} {f : FaultRec} (ch : BitVec 128) (hrec : f ∈ s.dev.records)
    (hw : s.dev.recWired s.part f = true) (hi : s.dev.injBits 31 10 (srcSite f.source).toNat = 0) :
    Does (.frame (srcSite f.source) ch ch ch (.record f)) s (s.dev.recArrives s.part f) := by
  refine does_of_upd (exec_frame s ..) ?_
  have hz : s.dev.injTake s.part 31 10 (srcSite f.source).toNat = (s.dev, 0) := by
    unfold Dev.injTake
    dsimp only
    rw [if_pos hi]
  dsimp only
  rw [hz, if_pos rfl, outvoted_self]
  simp [hrec, hw]

/-! ### The device that a record reaches -/

/-- The device with a record taken off those on their way, and its arrival noted for the policy (R523). -/
def Dev.arriving (d : Dev) (f : FaultRec) : Dev := ({ d with records := d.records.erase f } : Dev).noteCe f

section
variable (p : Part) (d : Dev) (f : FaultRec)

theorem noteCe_eq : ∃ m, d.noteCe f = { d with ceTimes := m } := by
  unfold Dev.noteCe
  dsimp only
  split
  · exact ⟨_, rfl⟩
  · exact ⟨d.ceTimes, rfl⟩
theorem arriving_ctl : (d.arriving f).ctl = d.ctl := by
  obtain ⟨m, h⟩ := noteCe_eq { d with records := d.records.erase f } f
  rw [Dev.arriving, h]
theorem arriving_cores : (d.arriving f).cores = d.cores := by
  obtain ⟨m, h⟩ := noteCe_eq { d with records := d.records.erase f } f
  rw [Dev.arriving, h]
theorem arriving_policyQ : (d.arriving f).policyQ = d.policyQ := by
  obtain ⟨m, h⟩ := noteCe_eq { d with records := d.records.erase f } f
  rw [Dev.arriving, h]
theorem arriving_records : (d.arriving f).records = d.records.erase f := by
  obtain ⟨m, h⟩ := noteCe_eq { d with records := d.records.erase f } f
  rw [Dev.arriving, h]
theorem arriving_get (a : Nat) : (d.arriving f).get p a = d.get p a := by
  rw [Dev.get, arriving_ctl, Dev.get]

theorem recArrives_stopped (h : 7 ≤ d.stopStep) : d.recArrives p f = { d with records := d.records.erase f } := by
  unfold Dev.recArrives
  dsimp only
  rw [if_pos (.inl h)]
theorem recArrives_running (h : d.stopStep < 7) (hoff : d.off = false) : d.recArrives p f = (d.arriving f).takeRecord p f := by
  unfold Dev.recArrives
  dsimp only
  rw [if_neg (by rw [hoff]; simpa using h), Dev.arriving]

/-- What becomes of a record that reaches a K0 at work depends on the registers as they were. -/
theorem recArrives_cases (h : d.stopStep < 7) (hoff : d.off = false) : d.recArrives p f =
    if d.plogOpen p (d.nextSeq p % 512) = false then (d.arriving f).writePlog p (d.stamped p f)
    else if d.plogClass p (d.nextSeq p % 512) ≤ 1 then
      (((d.arriving f).count p (fltR 20 0x850) 1).setPend p (d.plogOrig p (d.nextSeq p % 512))
        (d.pend p (d.plogOrig p (d.nextSeq p % 512)) - 1)).writePlog p (d.stamped p f)
    else if (d.stamped p f).cls.toNat ≤ 1 then (d.arriving f).count p (fltR 20 0x850) 1
    else ((d.arriving f).count p (fltR 20 0x850) 1).setB p (fltR 20 0x800) 16 true := by
  have hn : (d.arriving f).nextSeq p = d.nextSeq p := by simp only [Dev.nextSeq, Dev.fld, arriving_get]
  have hp (c : Nat) : (d.arriving f).pend p c = d.pend p c := by simp only [Dev.pend, Dev.fld, arriving_get]
  have ho (i : Nat) : (d.arriving f).plogOpen p i = d.plogOpen p i := by simp only [Dev.plogOpen, plogValid, Dev.bit, arriving_get]
  have hc (i : Nat) : (d.arriving f).plogClass p i = d.plogClass p i := by simp only [Dev.plogClass, Dev.fld, arriving_get]
  have hx (i : Nat) : (d.arriving f).plogEsc p i = d.plogEsc p i := by simp only [Dev.plogEsc, Dev.bit, arriving_get]
  have he (i : Nat) : (d.arriving f).plogOrig p i = d.plogOrig p i := by simp only [Dev.plogOrig, hx, hc]
  have hs : (d.arriving f).stamped p f = d.stamped p f := by simp only [Dev.stamped, Dev.escalated, hp, hn]
  rw [recArrives_running p d f h hoff, takeRecord_eq, hn, ho, hc, he, hp, hs]

end


/-! ### A record arrives (R520, R522, R530) -/

section
variable {s : State} {come : Instr} {f : FaultRec} {rest : List FaultRec} (hcome : Does come s (s.dev.recArrives s.part f))
  (hrest : s.dev.records.erase f = rest)
include hcome hrest

/-- A record that comes after step 6 of an orderly stop is lost. -/
theorem arrival_stopped (h : 7 ≤ s.dev.stopStep) :
    Answers come s fun t => t.dev = { s.dev with records := rest } ∧ Still s t := by
  rw [recArrives_stopped _ _ _ h, hrest] at hcome
  exact hcome.answers ⟨rfl, still_of_cores rfl⟩

variable (h : s.dev.stopStep < 7) (hoff : s.dev.off = false)
include h hoff

/-- Where the entry of the next SEQ is free the record is reported, and its class counts one more unacknowledged. -/
theorem arrival_reported (hcls : f.cls.toNat ≤ 4) (ho : s.dev.plogOpen s.part (s.dev.nextSeq s.part % 512) = false) :
    Answers come s fun t => LoggedAtK0 s f t ∧ t.dev.records = rest ∧ Still s t ∧
      t.field (fltR 20 0x808) (10 * f.cls.toNat) 10 = (s.dev.pend s.part f.cls.toNat + 1) % 1024 ∧
      (∀ c, c ≤ 4 → c ≠ f.cls.toNat → t.field (fltR 20 0x808) (10 * c) 10 = s.dev.pend s.part c) ∧
      t.reg (fltR 20 0x850) = s.reg (fltR 20 0x850) := by
  rw [recArrives_cases _ _ _ h hoff, if_pos ho] at hcome
  have hr := writePlog_reported s.part (s.dev.arriving f) (s.dev.stamped s.part f)
  have hp := hr.pend
  rw [recOrig_stamped, Dev.fld, arriving_get] at hp
  refine hcome.answers ⟨hr.loggedAtK0 (arriving_policyQ ..) fun a _ => arriving_get .., ?_, still_of_cores ?_, ?_, fun c hc hne => ?_, ?_⟩
  · exact hr.records.trans ((arriving_records ..).trans hrest)
  · exact hr.cores.trans (arriving_cores ..)
  · change bits (Dev.get _ _ _) _ _ = _
    rw [hp, bits_withBits_same _ _ _ _ (by omega)]
    rfl
  · change bits (Dev.get _ _ _) _ _ = _
    rw [hp]
    rcases Nat.lt_or_gt_of_ne hne with hlt | hgt
    · exact bits_withBits_below _ _ (by omega) (by omega)
    · exact bits_withBits_above _ _ (by omega) (by omega)
  · exact hr.lost.trans (arriving_get ..)

section
variable (ho : s.dev.plogOpen s.part (s.dev.nextSeq s.part % 512) = true)
include ho

/-- An unacknowledged record of class 0 or 1 in the entry is given up for the new one. -/
theorem arrival_displaces (hold : s.dev.plogClass s.part (s.dev.nextSeq s.part % 512) ≤ 1) :
    Answers come s fun t => LoggedAtK0 s f t ∧ t.dev.records = rest ∧ Still s t ∧
      t.reg (fltR 20 0x850) = countUp (s.reg (fltR 20 0x850)) 1 := by
  rw [recArrives_cases _ _ _ h hoff, if_neg (by simp [ho]), if_pos hold] at hcome
  generalize hd : Dev.setPend .. = d at hcome
  have hr := writePlog_reported s.part d (s.dev.stamped s.part f)
  have hregs : RegsIn s.part (· ∈ [fltR 20 0x808, fltR 20 0x850]) (s.dev.arriving f) d := by
    subst hd
    exact (count_regsIn _ (by simp)).trans (setF_regsIn _ _ _ (by simp))
  refine hcome.answers ⟨hr.loggedAtK0 ?_ fun a ha => ?_, ?_, still_of_cores ?_, ?_⟩
  · rw [hregs.policyQ, arriving_policyQ]
  · rw [hregs.2 a ha, arriving_get]
  · rw [hr.records, hregs.records, arriving_records, hrest]
  · rw [hr.cores, hregs.cores, arriving_cores]
  · change Dev.get _ _ _ = _
    rw [hr.lost, ← hd, Dev.setPend, get_setF, if_neg (by rw [fltR_inj]; decide), Dev.get_count_same, arriving_get]

/-- A record of class 0 or 1 that finds an unacknowledged one of a higher class is lost. -/
theorem arrival_lost (hold : 2 ≤ s.dev.plogClass s.part (s.dev.nextSeq s.part % 512))
    (hnew : f.cls.toNat + (if s.dev.escalates s.part f then 1 else 0) ≤ 1) :
    Answers come s fun t => t.dev.records = rest ∧ t.dev.policyQ = s.dev.policyQ ∧
      t.reg (fltR 20 0x850) = countUp (s.reg (fltR 20 0x850)) 1 ∧ (∀ a, a ∉ [fltR 20 0x850] → t.reg a = s.reg a) ∧ Still s t := by
  rw [recArrives_cases _ _ _ h hoff, if_neg (by simp [ho]), if_neg (by omega),
    if_pos (by rwa [stamped_cls])] at hcome
  have hregs : RegsIn s.part (· ∈ [fltR 20 0x850]) (s.dev.arriving f) ((s.dev.arriving f).count s.part (fltR 20 0x850) 1) :=
    count_regsIn _ (by simp)
  refine hcome.answers ⟨?_, ?_, ?_, fun a ha => ?_, still_of_cores ?_⟩
  · rw [hregs.records, arriving_records, hrest]
  · rw [hregs.policyQ, arriving_policyQ]
  · change Dev.get _ _ _ = _
    rw [Dev.get_count_same, arriving_get]
  · change Dev.get _ _ _ = _
    rw [hregs.2 a ha, arriving_get]
  · rw [hregs.cores, arriving_cores]

/-- A record of class 2 or above that finds an unacknowledged one of class 2 or above sets OVERFLOW. -/
theorem arrival_overflows (hold : 2 ≤ s.dev.plogClass s.part (s.dev.nextSeq s.part % 512))
    (hnew : 2 ≤ f.cls.toNat + (if s.dev.escalates s.part f then 1 else 0)) :
    Answers come s fun t => t.dev.records = rest ∧ t.dev.policyQ = s.dev.policyQ ∧
      t.reg (fltR 20 0x850) = countUp (s.reg (fltR 20 0x850)) 1 ∧ t.field (fltR 20 0x800) 16 1 = 1 ∧
      t.field (fltR 20 0x800) 0 16 = s.dev.nextSeq s.part ∧
      (∀ a, a ∉ [fltR 20 0x850, fltR 20 0x800] → t.reg a = s.reg a) ∧ Still s t := by
  rw [recArrives_cases _ _ _ h hoff, if_neg (by simp [ho]), if_neg (by omega),
    if_neg (by rw [stamped_cls]; omega)] at hcome
  generalize hd : Dev.setB .. = d at hcome
  have hregs : RegsIn s.part (· ∈ [fltR 20 0x850, fltR 20 0x800]) (s.dev.arriving f) d := by
    subst hd
    exact (count_regsIn _ (by simp)).trans (setB_regsIn _ _ (by simp))
  have hstat : d.get s.part (fltR 20 0x800) = withBits (s.dev.get s.part (fltR 20 0x800)) 16 1 1 := by
    rw [← hd, get_setB, if_pos rfl, get_count, if_neg (by rw [fltR_inj]; decide), arriving_get, if_pos rfl]
  refine hcome.answers ⟨?_, ?_, ?_, ?_, ?_, fun a ha => ?_, still_of_cores ?_⟩
  · rw [hregs.records, arriving_records, hrest]
  · rw [hregs.policyQ, arriving_policyQ]
  · change Dev.get _ _ _ = _
    rw [← hd, get_setB, if_neg (by rw [fltR_inj]; decide), Dev.get_count_same, arriving_get]
  · change bits (Dev.get _ _ _) _ _ = _
    rw [hstat, bits_withBits_same _ _ _ _ (by decide)]
    rfl
  · change bits (Dev.get _ _ _) _ _ = _
    rw [hstat, bits_withBits_below _ _ (by decide) (by decide)]
    rfl
  · change Dev.get _ _ _ = _
    rw [hregs.2 a ha, arriving_get]
  · rw [hregs.cores, arriving_cores]

end
end


/-! ### Raising a fault, and nothing beside it -/

section
variable {p : Part} {R : Nat → Prop} {d e : Dev}

theorem noFaults_of_noRegs (h : e.noRegs = d.noRegs) : e.noFaults = d.noFaults := (congrArg Dev.noFaults h :)
theorem sendRec_noFaults (f : FaultRec) (o : Option CoreId) : (d.sendRec f o).noFaults = d.noFaults := by
  cases o <;> rfl
theorem noteMinor_noFaults (f : FaultRec) : (d.noteMinor f).noFaults = d.noFaults := rfl
theorem raiseRec_noFaults (site : Nat) (f : FaultRec) (o : Option CoreId) : (d.raiseRec p site f o).noFaults = d.noFaults := by
  have hl : (d.logRec p site f).noFaults = d.noFaults := noFaults_of_noRegs (logRec_noRegs ..)
  unfold Dev.raiseRec
  extract_lets e
  split
  · rw [sendRec_noFaults, hl]
  · split
    · rw [noFaults_of_noRegs (count_noRegs ..), hl]
    · rw [sendRec_noFaults, noteMinor_noFaults, hl]

end

section
variable {s : State} {d : Dev} {site : Nat} {regs : List Nat}

theorem raiseRec_cores (p : Part) (d : Dev) (site : Nat) (f : FaultRec) (o : Option CoreId) : (d.raiseRec p site f o).cores = d.cores :=
  (congrArg Dev.cores (raiseRec_noFaults (d := d) (p := p) site f o) :)

/-- A site that writes registers other than the count of its faults, and then raises one. -/
theorem raised_of_raiseRec (h : RegsIn s.part (· ∈ regs) s.dev d) (h0 : fltR site 0x40 ∉ regs) (f : FaultRec) (o : Option CoreId) :
    Raised s { s with dev := d.raiseRec s.part site f o } site regs := by
  have hr := raiseRec_raisedAt (p := s.part) (d := d) (site := site) f o
  refine ⟨hr.count.trans (congrArg (countUp · 1) (h.2 _ h0)), fun a ha hb => ?_, ?_, still_of_cores ?_⟩
  · exact (hr.away a (awayFromLog_of_blk hb)).trans (h.2 a ha)
  · exact (raiseRec_noFaults ..).trans (noFaults_of_noRegs h.1)
  · exact (raiseRec_cores ..).trans h.cores

theorem raised_of_noticeIgnored (h : RegsIn s.part (· ∈ regs) s.dev d) {a : Nat} (h0 : fltR (ctlSite a) 0x40 ∉ regs) (v : W64) :
    Raised s { s with dev := d.noticeIgnored s.part a v } (ctlSite a) regs := raised_of_raiseRec h h0 _ none
theorem raised_of_fault (unit cls code : Nat) (c0 c1 : W64) :
    Raised s { s with dev := s.dev.fault s.part site unit cls code c0 c1 } site [] :=
  raised_of_raiseRec (.refl _) List.not_mem_nil _ none

end

theorem ctlSite_fltR {site off : Nat} (h : off < 2 ^ 20) : ctlSite (fltR site off) = site := ctlSite_ctlAddr (by decide) h

/-! ### Acknowledgement (R521) -/

section
variable (p : Part) (d : Dev) (i j : Nat)

theorem ackEntry_regsIn : RegsIn p (· ∈ [plogR i 6, fltR 20 0x808]) d (d.ackEntry p i) :=
  (setB_regsIn _ _ (by simp)).trans (setF_regsIn _ _ _ (by simp))

theorem ackEntry_get (w : Nat) (hw : w < 8) :
    (d.ackEntry p i).get p (plogR j w) = if j = i ∧ w = 6 then withBits (d.get p (plogR j w)) 1 1 1 else d.get p (plogR j w) := by
  rw [Dev.ackEntry, Dev.setPend, get_setF, if_neg (plogR_ne_fltR (by decide)), get_setB]
  simp only [plogR_inj hw (by decide : 6 < 8)]
  split
  · rename_i h; rw [h.1, h.2]; rfl
  · rfl

theorem ackEntry_pend (h : d.plogOrig p i ≤ 4) :
    (d.ackEntry p i).pend p (d.plogOrig p i) = d.pend p (d.plogOrig p i) - 1 := by
  have hlt : d.pend p (d.plogOrig p i) < 2 ^ 10 := fld_lt ..
  rw [Dev.ackEntry, Dev.pend, Dev.setPend, Dev.fld_setF_same _ _ _ _ _ _ (by omega), Nat.mod_eq_of_lt (by omega)]

theorem plogOpen_iff : d.plogOpen p i = true ↔ bits (d.get p (plogR i 6)) 0 1 = 1 ∧ bits (d.get p (plogR i 6)) 1 1 ≠ 1 := by
  simp only [Dev.plogOpen, plogValid, Dev.bit, getLsbD_bits, Bool.and_eq_true, Bool.not_eq_true', decide_eq_true_eq,
    decide_eq_false_iff_not, ne_eq]

/-- The entry acknowledged is open no more, and every other is what it was. -/
theorem ackEntry_plogOpen : (d.ackEntry p i).plogOpen p j = (d.plogOpen p j && !decide (j = i)) := by
  rw [Bool.eq_iff_iff, plogOpen_iff, Bool.and_eq_true, plogOpen_iff, ackEntry_get p d i j 6 (by decide)]
  by_cases h : j = i
  · rw [if_pos ⟨h, rfl⟩, bits_withBits_same _ _ _ _ (by decide)]
    simp [h]
  · simp [h]

theorem ackAll_plogOpen (l : List Nat) : (l.foldl (fun d j => d.ackEntry p j) d).plogOpen p j = (d.plogOpen p j && !decide (j ∈ l)) := by
  induction l generalizing d with
  | nil => simp
  | cons i l ih =>
    rw [List.foldl_cons, ih, ackEntry_plogOpen]
    by_cases h : j = i <;> simp [h]

theorem ackAll_regsIn (l : List Nat) :
    RegsIn p (fun a => a = fltR 20 0x808 ∨ ∃ j ∈ l, a = plogR j 6) d (l.foldl (fun d j => d.ackEntry p j) d) := by
  refine foldl_regsIn (fun d j hj => (ackEntry_regsIn p d j).mono fun a ha => ?_) d
  rcases List.mem_cons.1 ha with rfl | ha
  · exact .inr ⟨j, hj, rfl⟩
  · exact .inl (List.mem_singleton.1 ha)

end

/-- `seq` names a record that is not acknowledged. -/
@[reducible] def Dev.names (p : Part) (d : Dev) (seq : BitVec 16) : Prop :=
  d.plogOpen p (seq.toNat % 512) = true ∧ d.plogSeq p (seq.toNat % 512) = seq.toNat

/-- How far the record with this SEQ lies behind the latest one. -/
def Dev.age (p : Part) (d : Dev) (x : BitVec 16) : Nat := (BitVec.ofNat 16 (d.nextSeq p) - 1 - x).toNat

/-- The entries that an acknowledgement of `seq` and of every older record reaches. -/
def Dev.upTo (p : Part) (d : Dev) (seq : BitVec 16) : List Nat :=
  (d.plogOpens p).filter fun j => decide (d.age p seq ≤ d.age p (BitVec.ofNat 16 (d.plogSeq p j)))

section
variable {s : State} {seq : BitVec 16}

theorem ack_eq (p : Part) (d : Dev) (upto : Bool) : d.ack p seq upto =
    if d.names p seq then
      if upto = true then (d.upTo p seq).foldl (fun d j => d.ackEntry p j) d else d.ackEntry p (seq.toNat % 512)
    else d.noticeIgnored p (fltR 20 0x810) (BitVec.ofNat 64 (seq.toNat + if upto then 2 ^ 16 else 0)) := by
  have hseq : BitVec.ofNat 16 seq.toNat = seq := by simp
  unfold Dev.ack Dev.upTo Dev.age
  simp only [hseq]
  by_cases h : d.names p seq
  · rw [if_pos h, if_neg (by simp [h.1, h.2])]
  · rw [if_neg h, if_pos (by rw [Bool.not_eq_true', ← Bool.not_eq_true, Bool.and_eq_true, beq_iff_eq]; exact h)]

theorem does_fltAck (upto : Bool) : Does (.fltAck seq upto) s (s.dev.ack s.part seq upto) := does_of_upd (exec_fltAck s ..) rfl

/-- An acknowledgement of one record. -/
theorem fltAck_one (h : s.dev.names s.part seq) : Answers (.fltAck seq false) s fun t =>
    t.field (plogR (seq.toNat % 512) 6) 1 1 = 1 ∧
      s.field (plogR (seq.toNat % 512) 6) 0 1 = t.field (plogR (seq.toNat % 512) 6) 0 1 ∧
      (s.dev.plogOrig s.part (seq.toNat % 512) ≤ 4 → t.field (fltR 20 0x808) (10 * s.dev.plogOrig s.part (seq.toNat % 512)) 10 =
        s.dev.pend s.part (s.dev.plogOrig s.part (seq.toNat % 512)) - 1) ∧
      (∀ a, a ∉ [plogR (seq.toNat % 512) 6, fltR 20 0x808] → t.reg a = s.reg a) ∧ Still s t := by
  have hd := does_fltAck (s := s) (seq := seq) false
  rw [ack_eq, if_pos h, if_neg Bool.false_ne_true] at hd
  have hget := ackEntry_get s.part s.dev (seq.toNat % 512) (seq.toNat % 512) 6 (by decide)
  rw [if_pos ⟨rfl, rfl⟩] at hget
  have hregs := ackEntry_regsIn s.part s.dev (seq.toNat % 512)
  refine hd.answers ⟨?_, ?_, fun ho => ackEntry_pend _ _ _ ho, hregs.2, still_of_cores hregs.cores⟩
  · change bits (Dev.get _ _ _) _ _ = _
    rw [hget, bits_withBits_same _ _ _ _ (by decide)]
    rfl
  · change bits _ _ _ = bits (Dev.get _ _ _) _ _
    rw [hget, bits_withBits_below _ _ (by decide) (by decide)]

/-- An acknowledgement of a record and of every older one. -/
theorem fltAck_upto (h : s.dev.names s.part seq) : Answers (.fltAck seq true) s fun t => Still s t ∧
    (∀ a, a ≠ fltR 20 0x808 → (∀ j, j < 512 → a ≠ plogR j 6) → t.reg a = s.reg a) ∧
    ∀ j, j < 512 → t.dev.plogOpen s.part j = (s.dev.plogOpen s.part j &&
      !decide (s.dev.age s.part seq ≤ s.dev.age s.part (BitVec.ofNat 16 (s.dev.plogSeq s.part j)))) := by
  have hd := does_fltAck (s := s) (seq := seq) true
  rw [ack_eq, if_pos h, if_pos rfl] at hd
  have hregs := ackAll_regsIn s.part s.dev (s.dev.upTo s.part seq)
  have hopen := fun j => ackAll_plogOpen s.part s.dev j (s.dev.upTo s.part seq)
  have mem : ∀ j, j ∈ s.dev.upTo s.part seq ↔ (j < 512 ∧ s.dev.plogOpen s.part j = true) ∧
      s.dev.age s.part seq ≤ s.dev.age s.part (BitVec.ofNat 16 (s.dev.plogSeq s.part j)) := fun j => by
    rw [Dev.upTo, Dev.plogOpens, List.mem_filter, List.mem_filter, List.mem_range, decide_eq_true_eq]
  generalize s.dev.upTo s.part seq = l at *
  generalize List.foldl _ s.dev l = e at *
  refine hd.answers ⟨still_of_cores hregs.cores, fun a h8 hj => hregs.2 a ?_, fun j hj => ?_⟩
  · rintro (rfl | ⟨j, hjl, rfl⟩)
    · exact h8 rfl
    · exact hj j ((mem j).1 hjl).1.1 rfl
  · refine (hopen j).trans ?_
    cases ho : s.dev.plogOpen s.part j with
    | false => rfl
    | true => simp only [mem, hj, ho, true_and]

/-- An acknowledgement that names no open record is ignored with a Notice. -/
theorem fltAck_ignored (upto : Bool) (h : ¬s.dev.names s.part seq) : Answers (.fltAck seq upto) s fun t => Raised s t 20 [] := by
  have hd := does_fltAck (s := s) (seq := seq) upto
  rw [ack_eq, if_neg h] at hd
  have hr := raised_of_noticeIgnored (.refl s.dev) (a := fltR 20 0x810) List.not_mem_nil
    (BitVec.ofNat 64 (seq.toNat + if upto then 2 ^ 16 else 0))
  rw [ctlSite_fltR (by decide)] at hr
  exact hd.answers hr

end


/-- The record that a fault of a site makes (R513 to R515). -/
def Dev.recordOf (d : Dev) (site unit cls code : Nat) (c0 c1 : W64 := 0) : FaultRec :=
  { ledger := d.dieCount site, source := mkSrc d.node (BitVec.ofNat 5 site) (BitVec.ofNat 6 unit)
    cls := BitVec.ofNat 3 cls, code := BitVec.ofNat 16 code, ctx0 := c0, ctx1 := c1 }

theorem fault_eq_raiseRec (p : Part) (d : Dev) (site unit cls code : Nat) (c0 c1 : W64) :
    d.fault p site unit cls code c0 c1 = d.raiseRec p site (d.recordOf site unit cls code c0 c1) := rfl

/-! ### Pins and heartbeats (R524, R525) -/

theorem dead_eq_false {d : Dev} (h : d.dead = false) : d.off = false := (Bool.or_eq_false_iff.1 h).1

theorem getLsbD_ofNat_two_pow {g k : Nat} (hk : k < 8) : (BitVec.ofNat 8 (2 ^ g)).getLsbD k = decide (g = k) := by
  rw [BitVec.getLsbD_ofNat, Nat.testBit_two_pow, decide_eq_true hk, Bool.true_and]

/-- Toggling the bits of a list of places, each once. -/
theorem getLsbD_toggled (c : Nat → Bool) {k : Nat} (hk : k < 8) {l : List Nat} (hl : l.Nodup) (x : BitVec 8) :
    (l.foldl (fun x g => if c g then x ^^^ BitVec.ofNat 8 (2 ^ g) else x) x).getLsbD k =
      if k ∈ l ∧ c k = true then !x.getLsbD k else x.getLsbD k := by
  induction l generalizing x with
  | nil => simp
  | cons g l ih =>
    obtain ⟨hg, hl⟩ := List.nodup_cons.1 hl
    have bit : (if c g then x ^^^ BitVec.ofNat 8 (2 ^ g) else x).getLsbD k =
        if k = g ∧ c k = true then !x.getLsbD k else x.getLsbD k := by
      cases hc : c g with
      | false =>
        rw [if_neg Bool.false_ne_true, if_neg]
        rintro ⟨rfl, h⟩
        exact Bool.false_ne_true (hc.symm.trans h)
      | true =>
        rw [if_pos rfl, BitVec.getLsbD_xor, getLsbD_ofNat_two_pow hk]
        by_cases h : k = g
        · subst h
          simp [hc]
        · simp [h, Ne.symm h]
    rw [List.foldl_cons, ih hl, bit]
    by_cases h : k = g
    · subst h
      simp [hg]
    · simp [h]

/-- No stop condition of R525 holds for a group's pin. -/
def Dev.pinRuns (p : Part) (d : Dev) (g : Nat) : Prop :=
  d.stopStep < 8 ∧ d.bootDone p (groupStep g) = true ∧ d.beatLost.getLsbD g = false ∧
    ∀ i, i < 512 → d.plogOpen p i = true → d.fld p (fltR 20 0x818) 4 3 ≤ d.plogClass p i → d.plogGroup p i ≠ g

theorem aliveRuns_iff (p : Part) {d : Dev} (hoff : d.off = false) (g : Nat) : d.aliveRuns p g = true ↔ d.pinRuns p g := by
  simp only [Dev.aliveRuns, Dev.pinRuns, Dev.plogOpens, hoff, Bool.and_eq_true, Bool.not_eq_true', decide_eq_true_eq, Bool.not_false,
    List.any_eq_false, List.mem_filter, List.mem_range, beq_iff_eq, not_and, and_imp, ne_eq, and_true]
  tauto

theorem raiseRec_beatLost (p : Part) (d : Dev) (site : Nat) (f : FaultRec) (o : Option CoreId) :
    (d.raiseRec p site f o).beatLost = d.beatLost := (congrArg Dev.beatLost (raiseRec_noFaults (d := d) (p := p) site f o) :)

section
variable {s : State} (hd : s.dev.dead = false)

theorem aliveToggle_between (h : s.dev.now.toNat % 600000 ≠ 0) : Answers .aliveToggle s fun t => t = s :=
  (does_of_upd (exec_aliveToggle s) (if_pos h)).same

include hd in
theorem aliveToggle_due (h : s.dev.now.toNat % 600000 = 0) : Answers .aliveToggle s fun t =>
    ((∀ a, a ∉ [] → t.reg a = s.reg a) ∧ Still s t) ∧ ∀ g : BitVec 3,
      (s.dev.pinRuns s.part g.toNat → t.dev.aliveLvl.getLsbD g.toNat = !s.dev.aliveLvl.getLsbD g.toNat) ∧
      (¬s.dev.pinRuns s.part g.toNat → t.dev.aliveLvl.getLsbD g.toNat = s.dev.aliveLvl.getLsbD g.toNat) := by
  refine (does_of_upd (exec_aliveToggle s) (if_neg (not_not.2 h))).answers ⟨⟨fun _ _ => rfl, still_of_cores rfl⟩, fun g => ?_⟩
  dsimp only
  rw [getLsbD_toggled (s.dev.aliveRuns s.part) g.isLt List.nodup_range]
  have runs := aliveRuns_iff s.part (dead_eq_false hd) g.toNat
  exact ⟨fun hr => if_pos ⟨List.mem_range.2 g.isLt, runs.2 hr⟩, fun hr => if_neg fun h => hr (runs.1 h.2)⟩

theorem heartbeat_given (g : BitVec 3) : Answers (.heartbeat g) s fun t =>
    smGet 0 t.dev.beatT g.toNat = s.dev.now ∧ t.dev.beatLost.getLsbD g.toNat = false ∧
      (∀ h, h ≠ g.toNat → t.dev.beatLost.getLsbD h = s.dev.beatLost.getLsbD h) ∧ (∀ a, a ∉ [] → t.reg a = s.reg a) ∧ Still s t := by
  refine (does_of_upd (exec_heartbeat s g) rfl).answers ⟨smGet_set_same .., ?_, fun h hh => ?_, fun _ _ => rfl, still_of_cores rfl⟩
  · dsimp only
    rw [BitVec.getLsbD_and, BitVec.getLsbD_not, getLsbD_ofNat_two_pow g.isLt]
    simp
  · dsimp only
    rw [BitVec.getLsbD_and, BitVec.getLsbD_not]
    by_cases h8 : h < 8
    · rw [getLsbD_ofNat_two_pow h8]
      simp [h8, Ne.symm hh]
    · rw [BitVec.getLsbD_of_ge _ _ (by omega), Bool.false_and]

/-- A group's heartbeat is found missing. -/
@[reducible] def Dev.beatMissing (p : Part) (d : Dev) (n : Nat) : Prop :=
  d.stopStep < 8 ∧ d.bootDone p (groupStep n) = true ∧ d.beatLost.getLsbD n = false ∧ 2400000 ≤ elapsed d.now (smGet 0 d.beatT n)

include hd in
theorem does_heartbeatMissing (g : BitVec 3) : Does (.heartbeatMissing g) s
    (if s.dev.beatMissing s.part g.toNat then
      ({ s.dev with beatLost := s.dev.beatLost ||| BitVec.ofNat 8 (2 ^ g.toNat) } : Dev).fault s.part 31 63 2 0x0003 (BitVec.ofNat 64 g.toNat)
    else s.dev) := by
  refine does_of_upd (exec_heartbeatMissing s g) ?_
  by_cases h : s.dev.beatMissing s.part g.toNat
  · obtain ⟨h1, h2, h3, h4⟩ := id h
    rw [if_pos h, if_neg (by simp only [hd, h2, h3, Bool.false_eq_true, Bool.not_true, false_or, not_or]; omega)]
  · rw [if_neg h, if_pos ?_]
    by_contra hc
    simp only [hd, Bool.false_eq_true, false_or, not_or, not_le, Bool.not_eq_true', Bool.not_eq_false, Bool.not_eq_true, not_lt] at hc
    exact h hc

include hd in
theorem heartbeatMissing_raises (g : BitVec 3) (h : s.dev.beatMissing s.part g.toNat) : Answers (.heartbeatMissing g) s fun t =>
    t.dev.beatLost.getLsbD g.toNat = true ∧
      (∃ f : FaultRec, f.cls = 2 ∧ f.code = 0x0003 ∧ f.ctx0 = BitVec.ofNat 64 g.toNat ∧ Logged s.part s.dev t.dev 31 f) ∧
      RegsKept s t [] ∧ Still s t := by
  have hm := does_heartbeatMissing hd g
  rw [if_pos h, fault_eq_raiseRec] at hm
  generalize hlost : ({ s.dev with beatLost := s.dev.beatLost ||| BitVec.ofNat 8 (2 ^ g.toNat) } : Dev) = d at hm
  have hget : ∀ a, d.get s.part a = s.dev.get s.part a := fun a => by rw [← hlost]; rfl
  have hb : d.beatLost = s.dev.beatLost ||| BitVec.ofNat 8 (2 ^ g.toNat) := by rw [← hlost]
  refine hm.answers ⟨?_, ⟨d.recordOf 31 63 2 3 (BitVec.ofNat 64 g.toNat), rfl, rfl, rfl, ?_⟩, fun a _ ha => ?_, still_of_cores ?_⟩
  · dsimp only
    rw [raiseRec_beatLost, hb, BitVec.getLsbD_or, getLsbD_ofNat_two_pow g.isLt]
    simp
  · exact (raiseRec_logged s.part d 31 _ none (show 2 ≤ BitVec.toNat (2 : BitVec 3) by decide)).of_eq (by rw [← hlost])
      (by rw [← hlost]) (hget _) (hget _)
  · exact (raiseRec_raisedAt (site := 31) _ none).away a (awayFromLog_of_blk ha) |>.trans (hget a)
  · exact (raiseRec_cores ..).trans (by rw [← hlost])

include hd in
theorem heartbeatMissing_idle (g : BitVec 3) (h : ¬s.dev.beatMissing s.part g.toNat) : Answers (.heartbeatMissing g) s fun t => t = s := by
  have hm := does_heartbeatMissing hd g
  rw [if_neg h] at hm
  exact hm.same

end

/-! ### Guest records (R529) -/

theorem srcSite_low (w : W64) : srcSite (w.extractLsb' 0 27) = w.extractLsb' 6 5 := by
  ext i hi
  simp only [srcSite, BitVec.getElem_extractLsb', BitVec.getLsbD_extractLsb']
  simp [show 6 + i < 27 by omega]

section
variable {s : State} (src : Src) (w0 w1 w2 w3 w4 w5 : W64)

theorem intake_taken (hG : isG (srcSite src).toNat = true) (hs : w1.extractLsb' 6 5 = srcSite src) :
    Answers (.intake src w0 w1 w2 w3 w4 w5) s fun t => ((∀ a, a ∉ [] → t.reg a = s.reg a) ∧ Still s t) ∧
      ∃ g : FaultRec, t.dev = { s.dev with records := s.dev.records ++ [g] } ∧ g.ledger = w0 ∧ g.source = w1.extractLsb' 0 27 ∧
        g.code = w1.extractLsb' 32 16 ∧ g.cls = (if 4 ≤ (w1.extractLsb' 27 3).toNat then 3 else w1.extractLsb' 27 3) ∧
        g.ctx0 = w2 ∧ g.ctx1 = w3 ∧ g.ctx2 = w4 ∧ g.ctx3 = w5 := by
  have taken : guestRecord src (recOf w0 w1 w2 w3 w4 w5) = some { recOf w0 w1 w2 w3 w4 w5 with
      cls := if 4 ≤ (w1.extractLsb' 27 3).toNat then 3 else w1.extractLsb' 27 3 } := by
    refine if_pos ?_
    rw [hG, Bool.true_and, beq_iff_eq]
    exact (srcSite_low w1).trans hs
  have hd : Does (.intake src w0 w1 w2 w3 w4 w5) s { s.dev with records := s.dev.records ++ [_] } :=
    does_of_upd (exec_intake s ..) (by rw [taken])
  exact hd.answers ⟨⟨fun _ _ => rfl, still_of_cores rfl⟩, _, rfl, rfl, rfl, rfl, rfl, rfl, rfl, rfl, rfl⟩

theorem intake_refused (h : ¬(isG (srcSite src).toNat = true ∧ w1.extractLsb' 6 5 = srcSite src)) :
    Answers (.intake src w0 w1 w2 w3 w4 w5) s fun t => t = s := by
  have refused : guestRecord src (recOf w0 w1 w2 w3 w4 w5) = none := by
    refine if_neg ?_
    rw [Bool.and_eq_true, beq_iff_eq]
    exact fun hc => h ⟨hc.1, (srcSite_low w1).symm.trans hc.2⟩
  have hd : Does (.intake src w0 w1 w2 w3 w4 w5) s s.dev := does_of_upd (exec_intake s ..) (by rw [refused])
  exact hd.same

end


/-! ### Writes of whole registers -/

theorem bits_succ (w : W64) (lo n : Nat) : bits w lo (n + 1) = bits w lo n + bits w (lo + n) 1 * 2 ^ n := by
  rw [bits, Nat.mod_pow_succ, Nat.div_div_eq_div_mul, ← Nat.pow_add, Nat.mul_comm (2 ^ n)]
  rfl

/-- What a write of both halves puts in a field. -/
theorem written_bits (old v : W64) (lo n : Nat) : (List.range n).foldl (fun acc i =>
    acc + (if halfReaches true true (lo + i) then bits v (lo + i) 1 else bits old (lo + i) 1) * 2 ^ i) 0 = bits v lo n := by
  induction n with
  | zero => simp [bits, Nat.mod_one]
  | succ n ih =>
    rw [List.range_succ, List.foldl_append, ih, List.foldl_cons, List.foldl_nil, bits_succ v lo n, halfReaches, ite_self, if_pos rfl]

theorem writesReserved_eq_false {fs : List Field} (old : W64) {v : W64} (h : ∀ f ∈ fs, f.reserved (bits v f.lo f.width) = false) :
    writesReserved fs old v true true = false := by
  refine List.any_eq_false.2 fun f hf => ?_
  rw [written_bits, h f hf, Bool.and_false]
  exact Bool.false_ne_true

/-! ### What stays within the FLT blocks -/

/-- No register outside the FLT blocks has changed, and beside the registers nothing but the records on their way. -/
def FltOnly (p : Part) (d e : Dev) : Prop := (∀ a, ctlBlk a ≠ 1 → e.get p a = d.get p a) ∧ e.noFaults = d.noFaults

section
variable {p : Part} {R : Nat → Prop} {c d e : Dev}

theorem FltOnly.trans (h : FltOnly p c d) (h' : FltOnly p d e) : FltOnly p c e :=
  ⟨fun a ha => (h'.1 a ha).trans (h.1 a ha), h'.2.trans h.2⟩
theorem FltOnly.cores (h : FltOnly p d e) : e.cores = d.cores := (congrArg Dev.cores h.2 :)
theorem FltOnly.inj (h : FltOnly p d e) : e.inj = d.inj := (congrArg Dev.inj h.2 :)
theorem RegsIn.fltOnly (h : RegsIn p R d e) (hR : ∀ a, R a → ctlBlk a = 1) : FltOnly p d e :=
  ⟨fun a ha => h.2 a fun hr => ha (hR a hr), noFaults_of_noRegs h.1⟩
theorem raiseRec_fltOnly (site : Nat) (f : FaultRec) (o : Option CoreId) : FltOnly p d (d.raiseRec p site f o) :=
  ⟨fun a ha => (raiseRec_raisedAt f o).away a (awayFromLog_of_blk ha), raiseRec_noFaults ..⟩
theorem regStore_fltOnly {a : Nat} (ha : ctlBlk a = 1) (v : W64) (lower upper : Bool) : FltOnly p d (d.regStore p a v lower upper) := by
  have hp (x : W64) : FltOnly p d (d.put p a x) := (put_regsIn (R := (· = a)) x rfl).fltOnly fun _ h => h ▸ ha
  unfold Dev.regStore
  split
  · exact (RegsIn.refl (R := fun _ => False) d).fltOnly fun _ h => h.elim
  · dsimp only
    split
    · exact (hp _).trans (raiseRec_fltOnly ..)
    · exact hp _

end

/-! ### Injection (R527) -/

/-- The fields of FLT.INJ (R531). -/
def injFields : List Field := [⟨0, 3, .wo, 0, [(0, 0), (13, 15)]⟩, ⟨4, 5, .wo, 0, [(0, 0), (3, 3)]⟩, ⟨8, 13, .wo, 0, []⟩,
  ⟨24, 27, .wo, 0, [(12, 15)]⟩, ⟨16, 23, .wo, 0, [(0, 0)]⟩, ⟨31, 31, .wo, 0, []⟩]

theorem regFields_inj (p : Part) {n : Nat} (hn : n < 21 ∨ n = 31) : regFields p (fltR n 8) = some injFields := by
  have hk : (isG n || !(isW n || isL n || isK n || isBase n)) = false := by
    simp [isG, isW, isL, isK, isBase]
    omega
  have hb : blockRegs p (ctlSite (fltR n 8)) (ctlBlk (fltR n 8)) = some (if isK n then regsFLT ++ regsFLTK else regsFLT) := by
    rw [ctlSite_fltR (by decide), ctlBlk_fltR (by decide), blockRegs, hk]
    rfl
  rw [regFields_eq_findReg hb, fltR, ctlOff_ctlAddr (by decide)]
  split <;> rfl

/-- The value as INJ_GO writes it: with GO. -/
def withGo (v : W64) : W64 := v ||| BitVec.ofNat 64 (2 ^ 31)

theorem bits_withGo (v : W64) {lo n : Nat} (h : lo + n ≤ 31) : bits (withGo v) lo n = bits v lo n := by
  refine Nat.eq_of_testBit_eq fun i => ?_
  rw [bits, bits, Nat.testBit_mod_two_pow, Nat.testBit_mod_two_pow, Nat.testBit_div_two_pow, Nat.testBit_div_two_pow, withGo,
    BitVec.toNat_or, Nat.testBit_or, BitVec.toNat_ofNat, Nat.mod_eq_of_lt (by decide), Nat.testBit_two_pow]
  by_cases hi : i < n
  · simp [show 31 ≠ i + lo by omega]
  · simp [hi]
theorem getLsbD_withGo (v : W64) : (withGo v).getLsbD 31 = true := by
  rw [withGo, BitVec.getLsbD_or]
  exact Bool.or_eq_true_iff.2 (.inr (by decide))

/-- A field of INJ, whose reserved values count as 0 (R16). -/
def injField (v : W64) (lo n : Nat) (rsv : List Nat) : Nat := if rsv.contains (bits v lo n) then 0 else bits v lo n
def injChecker (v : W64) : Nat := injField v 0 4 [13, 14, 15]
def injKind (v : W64) : Nat := injField v 4 2 [3]
def injGroup (v : W64) : Nat := bits v 8 6 + 64 * injField v 24 4 [12, 13, 14, 15]
/-- An injection as the fields of INJ ask for it. -/
def injAsked (v : W64) : Inj :=
  { checker := injChecker v, bits := injKind v, unit := if injChecker v = 4 then injGroup v else bits v 8 6, left := bits v 16 8 }
/-- A lane group that the site does not have. -/
def Dev.groupAbsent (p : Part) (d : Dev) (n : Nat) (v : W64) : Bool :=
  injChecker v == 4 && (decide (768 ≤ injGroup v) || d.fld p (latR (endpointOf n) (0x1000 + 8 * injGroup v)) 13 2 == 3)
/-- GO is ignored: an injection runs, or the fields ask for none that the site can make. -/
def Dev.goIgnored (p : Part) (d : Dev) (n : Nat) (v : W64) : Bool :=
  (smGet none d.inj n).isSome || injChecker v == 0 || injKind v == 0 || bits v 16 8 == 0 || (injChecker v == 10 && injKind v == 2)
    || !hasChecker n (injChecker v) || d.groupAbsent p n v

section
variable {s : State} {site : BitVec 5} {v : W64} (hn : site.toNat < 21 ∨ site.toNat = 31)

/-- The device after the fields of INJ have been written with GO. -/
def Dev.injWritten (p : Part) (d : Dev) (n : Nat) (v : W64) : Dev := d.regStore p (fltR n 8) (withGo v) true true

theorem injWritten_fltOnly (p : Part) (d : Dev) (n : Nat) (v : W64) : FltOnly p d (d.injWritten p n v) :=
  regStore_fltOnly (ctlBlk_fltR (by decide)) ..

include hn in
theorem does_injGo : Does (.injGo site v) s
    (if s.dev.goIgnored s.part site.toNat v then (s.dev.injWritten s.part site.toNat v).noticeIgnored s.part (fltR site.toNat 8) (withGo v)
    else (s.dev.injWritten s.part site.toNat v).setInj s.part site.toNat (some (injAsked v))) := by
  refine does_of_upd (exec_injGo s site v) ?_
  rw [regFields_inj s.part hn, if_pos Option.isSome_some]
  change Dev.writeInj s.part s.dev site.toNat (withGo v) true true = _
  have hi : (s.dev.injWritten s.part site.toNat v).inj = s.dev.inj := (injWritten_fltOnly ..).inj
  unfold Dev.writeInj Dev.goIgnored Dev.groupAbsent injAsked injGroup injKind injChecker injField
  dsimp only
  simp only [bits_withGo v (lo := 0) (n := 4) (by decide), bits_withGo v (lo := 4) (n := 2) (by decide),
    bits_withGo v (lo := 16) (n := 8) (by decide), bits_withGo v (lo := 8) (n := 6) (by decide),
    bits_withGo v (lo := 24) (n := 4) (by decide)]
  rw [getLsbD_withGo, if_neg (by decide), ← Dev.injWritten, hi]

theorem hasChecker_range {n c : Nat} (h : hasChecker n c = true) : 1 ≤ c ∧ c ≤ 12 := by
  by_contra hc
  have : c = 0 ∨ ∃ k, c = k + 13 := by
    by_cases h0 : c = 0
    · exact .inl h0
    · exact .inr ⟨c - 13, by omega⟩
  obtain rfl | ⟨k, rfl⟩ := this <;> exact Bool.false_ne_true h

/-- No injection runs at the site, and the fields ask for one that it can make, the lane group apart. -/
@[reducible] def Dev.injSound (d : Dev) (n : Nat) (v : W64) : Prop :=
  smGet none d.inj n = none ∧ hasChecker n (bits v 0 4) = true ∧ (bits v 4 2 = 1 ∨ bits v 4 2 = 2) ∧ 1 ≤ bits v 16 8 ∧
    ¬(bits v 0 4 = 10 ∧ bits v 4 2 = 2) ∧ bits v 24 4 ≤ 11

section
variable {d : Dev} {n : Nat} (h : d.injSound n v)
include h

theorem injChecker_of_sound : injChecker v = bits v 0 4 := by
  have := hasChecker_range h.2.1
  exact if_neg (by simp; omega)
theorem injKind_of_sound : injKind v = bits v 4 2 := by
  have := h.2.2.1
  exact if_neg (by simp; omega)
theorem injGroup_of_sound : injGroup v = bits v 8 6 + 64 * bits v 24 4 := by
  have := h.2.2.2.2.2
  rw [injGroup, injField, if_neg (by simp; omega)]

theorem goIgnored_of_sound (p : Part) : d.goIgnored p n v = d.groupAbsent p n v := by
  obtain ⟨h1, h2, h3, h4, h5, -⟩ := id h
  have := hasChecker_range h2
  rw [Dev.goIgnored, injChecker_of_sound h, injKind_of_sound h, h1, h2]
  have h50 : (bits v 0 4 == 10 && bits v 4 2 == 2) = false := by simpa using h5
  rw [h50, beq_false_of_ne (show bits v 0 4 ≠ 0 by omega), beq_false_of_ne (show bits v 4 2 ≠ 0 by omega),
    beq_false_of_ne (show bits v 16 8 ≠ 0 by omega)]
  rfl

/-- Fields that ask for an injection write no reserved value. -/
theorem injWritten_of_sound (p : Part) (hn : n < 21 ∨ n = 31) : ∃ x, d.injWritten p n v = d.put p (fltR n 8) x := by
  obtain ⟨-, h2, h3, h4, -, h6⟩ := id h
  have := hasChecker_range h2
  refine ⟨_, regStore_clean p d _ true true (regFields_inj p hn) (writesReserved_eq_false _ ?_)⟩
  simp only [injFields, List.forall_mem_cons, Field.width, Field.reserved, List.any_cons, List.any_nil, Bool.or_false,
    Nat.reduceAdd, Nat.reduceSub, bits_withGo v (lo := 0) (n := 4) (by decide), bits_withGo v (lo := 4) (n := 2) (by decide),
    bits_withGo v (lo := 16) (n := 8) (by decide), bits_withGo v (lo := 24) (n := 4) (by decide)]
  simp
  omega

end

/-- Only of the lattice's lanes can the group asked for be one that the site does not have. -/
theorem groupAbsent_of_sound {d : Dev} {n : Nat} (h : d.injSound n v) (p : Part) : d.groupAbsent p n v =
    (bits v 0 4 == 4 && d.fld p (latR (endpointOf n) (0x1000 + 8 * (bits v 8 6 + 64 * bits v 24 4))) 13 2 == 3) := by
  have hu : bits v 8 6 < 2 ^ 6 := bits_lt ..
  have hg := h.2.2.2.2.2
  rw [Dev.groupAbsent, injChecker_of_sound h, injGroup_of_sound h, decide_eq_false (by omega), Bool.false_or]

theorem injAsked_unit {d : Dev} {n : Nat} (h : d.injSound n v) (hc : bits v 0 4 ≠ 4) : (injAsked v).unit = bits v 8 6 :=
  if_neg (by rwa [injChecker_of_sound h])
theorem injAsked_group {d : Dev} {n : Nat} (h : d.injSound n v) (hc : bits v 0 4 = 4) :
    (injAsked v).unit = bits v 8 6 + 64 * bits v 24 4 :=
  (if_pos (by rwa [injChecker_of_sound h])).trans (injGroup_of_sound h)

/-- The injection starts. -/
def InjStarts (s : State) (n : Nat) (v : W64) (unit : Nat) (t : State) : Prop :=
  smGet none t.dev.inj n = some { checker := bits v 0 4, bits := bits v 4 2, unit := unit, left := bits v 16 8 } ∧
    (∀ m, m ≠ n → smGet none t.dev.inj m = smGet none s.dev.inj m) ∧ t.field (fltR n 0) 4 12 = bits v 16 8 * 16 + 1 ∧
    t.field (fltR n 0) 0 4 = s.field (fltR n 0) 0 4 ∧ (∀ a, a ∉ [fltR n 8, fltR n 0] → t.reg a = s.reg a) ∧ Still s t

/-- STAT of an FLT block shows an injection that starts. -/
theorem setInj_get (p : Part) (d : Dev) (n : Nat) (x : Inj) (a : Nat) (h : 1 ≤ x.left) : (d.setInj p n (some x)).get p a =
    if a = fltR n 0 then withBits (d.get p (fltR n 0)) 4 12 (x.left * 16 + 1) else d.get p a := by
  unfold Dev.setInj
  dsimp only
  rw [get_setF, if_neg (by omega : ¬x.left = 0)]
  rfl
theorem setInj_inj (p : Part) (d : Dev) (n : Nat) (x : Option Inj) : (d.setInj p n x).inj = smSet none d.inj n x := rfl

section
variable (h : s.dev.injSound site.toNat v)
include hn h

theorem injGo_starts (unit : Nat) (hu : (injAsked v).unit = unit) (ha : s.dev.groupAbsent s.part site.toNat v = false) :
    Answers (.injGo site v) s (InjStarts s site.toNat v unit) := by
  obtain ⟨x, hx⟩ := injWritten_of_sound h s.part hn
  have hasked : injAsked v = { checker := bits v 0 4, bits := bits v 4 2, unit := unit, left := bits v 16 8 } := by
    rw [← hu]
    simp only [injAsked, injChecker_of_sound h, injKind_of_sound h]
  have hd := does_injGo (s := s) (v := v) hn
  rw [goIgnored_of_sound h, ha, if_neg Bool.false_ne_true, hx, hasked] at hd
  have hget := fun a => setInj_get s.part (s.dev.put s.part (fltR site.toNat 8) x) site.toNat
    { checker := bits v 0 4, bits := bits v 4 2, unit := unit, left := bits v 16 8 } a h.2.2.2.1
  have hstat : (s.dev.put s.part (fltR site.toNat 8) x).get s.part (fltR site.toNat 0) = s.dev.get s.part (fltR site.toNat 0) :=
    Dev.get_put_ne _ _ _ (by rw [Ne, fltR_inj]; decide)
  have hcnt : bits v 16 8 < 2 ^ 8 := bits_lt ..
  refine hd.answers ⟨?_, fun m hm => ?_, ?_, ?_, fun a ha => ?_, still_of_cores rfl⟩
  · rw [setInj_inj, smGet_set_same]
  · rw [setInj_inj, smGet_set_ne _ _ _ _ hm]
    rfl
  · change bits (Dev.get _ _ _) _ _ = _
    rw [hget, if_pos rfl, bits_withBits_same _ _ _ _ (by decide)]
    exact Nat.mod_eq_of_lt (by change bits v 16 8 * 16 + 1 < 2 ^ 12; omega)
  · change bits (Dev.get _ _ _) _ _ = _
    rw [hget, if_pos rfl, bits_withBits_below _ _ (by decide) (by decide), hstat]
    rfl
  · rw [List.mem_cons, List.mem_singleton, not_or] at ha
    change Dev.get _ _ _ = _
    rw [hget, if_neg ha.2, Dev.get_put_ne _ _ _ ha.1]

theorem injGo_group_absent (ha : s.dev.groupAbsent s.part site.toNat v = true) :
    Answers (.injGo site v) s fun t => t.dev.inj = s.dev.inj ∧ Raised s t site.toNat [fltR site.toNat 8] := by
  obtain ⟨x, hx⟩ := injWritten_of_sound h s.part hn
  have hd := does_injGo (s := s) (v := v) hn
  rw [goIgnored_of_sound h, ha, if_pos rfl] at hd
  have hregs : RegsIn s.part (· ∈ [fltR site.toNat 8]) s.dev (s.dev.injWritten s.part site.toNat v) := hx ▸ put_regsIn _ (by simp)
  have hr := raised_of_noticeIgnored hregs (a := fltR site.toNat 8)
    (by rw [ctlSite_fltR (by decide), List.mem_singleton, fltR_inj]; decide) (withGo v)
  rw [ctlSite_fltR (by decide)] at hr
  exact hd.answers ⟨((injWritten_fltOnly ..).trans (raiseRec_fltOnly ..)).inj, hr⟩

end

include hn in
theorem injGo_ignored (h : s.dev.goIgnored s.part site.toNat v = true) : Answers (.injGo site v) s fun t =>
    t.dev.inj = s.dev.inj ∧ RegsKept s t [fltR site.toNat 8] ∧ Still s t := by
  have hd := does_injGo (s := s) (v := v) hn
  rw [h, if_pos rfl] at hd
  have hf : FltOnly s.part s.dev ((s.dev.injWritten s.part site.toNat v).noticeIgnored s.part (fltR site.toNat 8) (withGo v)) :=
    (injWritten_fltOnly ..).trans (raiseRec_fltOnly ..)
  exact hd.answers ⟨hf.inj, fun a _ ha => hf.1 a ha, still_of_cores hf.cores⟩

theorem goIgnored_of_unsound {p : Part} {d : Dev} {n : Nat} (h : (smGet none d.inj n).isSome = true ∨ bits v 0 4 = 0 ∨
    13 ≤ bits v 0 4 ∨ bits v 4 2 = 0 ∨ bits v 4 2 = 3 ∨ bits v 16 8 = 0 ∨ (bits v 0 4 = 10 ∧ bits v 4 2 = 2) ∨
    hasChecker n (bits v 0 4) = false) : d.goIgnored p n v = true := by
  have h4 : bits v 0 4 < 2 ^ 4 := bits_lt ..
  simp only [Dev.goIgnored, Bool.or_eq_true, Bool.and_eq_true, beq_iff_eq, Bool.not_eq_true', injChecker, injKind, injField,
    List.contains_eq_mem, List.mem_cons, List.not_mem_nil, or_false, decide_eq_true_eq]
  rcases h with h | h | h | h | h | h | ⟨h, h'⟩ | h
  · simp [h]
  · simp [h]
  · simp [show bits v 0 4 = 13 ∨ bits v 0 4 = 14 ∨ bits v 0 4 = 15 by omega]
  · simp [h]
  · simp [h]
  · simp [h]
  · simp [h, h']
  · by_cases hr : bits v 0 4 = 13 ∨ bits v 0 4 = 14 ∨ bits v 0 4 = 15
    · simp [hr]
    · simp [hr, h]

end


/-! ### Sessions that close (R434) -/

/-- Entries of other keys that go leave a key's value alone. -/
theorem smGet_filter {α : Type} (z : α) (m : SMap α) {f : Nat × α → Bool} {k : Nat} (h : ∀ x, f (k, x) = true) :
    smGet z (m.filter f) k = smGet z m k := by
  induction m with
  | nil => rfl
  | cons e m ih =>
    obtain ⟨i, x⟩ := e
    by_cases hk : i = k
    · subst hk
      rw [List.filter_cons_of_pos (h x), smGet_cons_same, smGet_cons_same]
    · rw [smGet_cons_ne _ _ _ hk, ← ih]
      cases hf : f (i, x) with
      | true => rw [List.filter_cons_of_pos hf, smGet_cons_ne _ _ _ hk]
      | false => rw [List.filter_cons_of_neg (by rw [hf]; exact Bool.false_ne_true)]

/-- Registers of the host port apart, every register is what it was, and every core and every record on its way. -/
structure HostOnly (p : Part) (d e : Dev) : Prop where
  away : ∀ a, ¬HostReg a → e.get p a = d.get p a
  cores : e.cores = d.cores
  records : e.records = d.records

section
variable {p : Part} {c d e : Dev}

theorem HostOnly.refl (d : Dev) : HostOnly p d d := ⟨fun _ _ => rfl, rfl, rfl⟩
theorem HostOnly.trans (h : HostOnly p c d) (h' : HostOnly p d e) : HostOnly p c e :=
  ⟨fun a ha => (h'.away a ha).trans (h.away a ha), h'.cores.trans h.cores, h'.records.trans h.records⟩
theorem RegsIn.hostOnly (h : RegsIn p HostReg d e) : HostOnly p d e := ⟨h.2, h.cores, h.records⟩

theorem clearRing_get {s : Nat} (hs : s ≤ 18) (lo : Nat) {a : Nat} (ha : ¬HostReg a) : (d.clearRing s lo).get p a = d.get p a := by
  refine smGet_filter _ _ fun x => ?_
  rw [HostReg, ctlBlk] at ha
  rw [Bool.not_eq_true', Bool.and_eq_false_iff, decide_eq_false_iff_not, decide_eq_false_iff_not]
  simp only [ringR, hostR, ctlAddr]
  omega

theorem closeSession_hostOnly {s : Nat} (hs : s ≤ 18) (cause : Nat) : HostOnly p d (d.closeSession p s cause) := by
  unfold Dev.closeSession
  extract_lets kept cleared d1
  have h1 : HostOnly p d d1 := ⟨fun a ha => clearRing_get hs 0x4000 ha, rfl, rfl⟩
  clear_value d1
  have hecb : ∀ off < 0x40, HostReg (ecbR s off) := fun off ho => hostReg_hostR (by omega)
  refine h1.trans (RegsIn.hostOnly (.trans ?_ (postSession_regsIn ..)))
  refine .trans ?_ (put_regsIn _ (hostReg_hostR (by omega)))
  refine .trans ?_ (put_regsIn _ (hecb 0x10 (by decide)))
  refine .trans ?_ (put_regsIn _ (hecb 8 (by decide)))
  exact put_regsIn _ (hecb 0 (by decide))

theorem berthCloses_hostOnly (g : BitVec 1) : HostOnly p d (d.berthCloses p (.berth g)) := by
  unfold Dev.berthCloses
  dsimp only
  split
  · exact closeSession_hostOnly (by omega) 2
  · exact .refl d

end

/-! ### Berth supplies (R45) -/

section
variable {s : State} (hd : s.dev.dead = false) {g : BitVec 1} {mw : W32}

include hd in
theorem berthPowerOver_raises (hl : s.dev.berthLive s.part g.toNat = true) (hmw : 150000 < mw.toNat) :
    Answers (.berthPowerOver g mw) s fun t => Raised s t 31 [] := by
  refine (does_of_upd (exec_berthPowerOver s g mw) (if_neg ?_)).answers (raised_of_fault ..)
  rw [hd, hl]
  simpa using hmw

theorem berthPowerOver_idle (h : s.dev.berthLive s.part g.toNat = false ∨ mw.toNat ≤ 150000) :
    Answers (.berthPowerOver g mw) s fun t => t = s :=
  (does_of_upd (exec_berthPowerOver s g mw) (if_pos (.inr (h.imp_left fun h => by rw [h]; rfl)))).same

theorem berthSupplyCut_empty (h : s.dev.berthLive s.part g.toNat = false) : Answers (.berthSupplyCut g mw) s fun t => t = s :=
  (does_of_upd (exec_berthSupplyCut s g mw) (if_pos (.inr (by rw [h]; rfl)))).same

theorem berthPeak_get (p : Part) (d : Dev) (n mw a : Nat) : (d.berthPeak p n mw).get p a =
    if a = brtR n 0 then withBits (d.get p (brtR n 0)) 16 48 (max mw (d.fld p (brtR n 0) 16 48)) else d.get p a := get_setF ..

theorem bits_peak (p : Part) (d : Dev) (n : Nat) (mw : W32) :
    bits (withBits (d.get p (brtR n 0)) 16 48 (max mw.toNat (d.fld p (brtR n 0) 16 48))) 16 48 =
      max mw.toNat (d.fld p (brtR n 0) 16 48) := by
  have h1 : d.fld p (brtR n 0) 16 48 < 2 ^ 48 := fld_lt ..
  have h2 := mw.isLt
  rw [bits_withBits_same _ _ _ _ (by decide)]
  exact Nat.mod_eq_of_lt (by omega)

section
variable (hl : s.dev.berthLive s.part g.toNat = true)
include hd hl

theorem berthSupplyCut_within (hmw : mw.toNat ≤ 165000) : Answers (.berthSupplyCut g mw) s fun t =>
    t.field (brtR g.toNat 0) 16 48 = max mw.toNat (s.field (brtR g.toNat 0) 16 48) ∧
      t.field (brtR g.toNat 0) 0 16 = s.field (brtR g.toNat 0) 0 16 ∧ (∀ a, a ∉ [brtR g.toNat 0] → t.reg a = s.reg a) ∧ Still s t := by
  have hcut : Does (.berthSupplyCut g mw) s (s.dev.berthPeak s.part g.toNat mw.toNat) := by
    refine does_of_upd (exec_berthSupplyCut s g mw) ?_
    dsimp only
    rw [if_neg (by rw [hd, hl]; simp), if_pos hmw]
  refine hcut.answers ⟨?_, ?_, fun a ha => ?_, still_of_cores rfl⟩
  · change bits (Dev.get _ _ _) _ _ = _
    rw [berthPeak_get, if_pos rfl, bits_peak]
  · change bits (Dev.get _ _ _) _ _ = bits _ _ _
    rw [berthPeak_get, if_pos rfl, bits_withBits_below _ _ (by decide) (by decide)]
  · change Dev.get _ _ _ = _
    rw [berthPeak_get, if_neg fun e => ha (List.mem_singleton.2 e)]

/-- The registers of a berth whose supply is cut: it is empty and marked as cut, and its endpoint is dormant. -/
def Dev.berthCut (p : Part) (d : Dev) (n mw : Nat) : Dev :=
  (((d.berthPeak p n mw).setB p (brtR n 0) 8 true).setB p (brtR n 0) 0 false).setB p (latR (21 + n) 0) 5 true

theorem does_berthSupplyCut (hmw : 165000 < mw.toNat) : ∃ f : FaultRec, f.cls = 2 ∧ f.code = 0x0A02 ∧
    Does (.berthSupplyCut g mw) s
      (((s.dev.berthCut s.part g.toNat mw.toNat).raiseRec s.part 31 f none).berthCloses s.part (.berth g)) := by
  refine ⟨(s.dev.berthCut s.part g.toNat mw.toNat).recordOf 31 63 2 0x0A02 (BitVec.ofNat 64 g.toNat) (mw.zeroExtend 64), rfl, rfl,
    does_of_upd (exec_berthSupplyCut s g mw) ?_⟩
  rw [← fault_eq_raiseRec]
  dsimp only
  rw [if_neg (by rw [hd, hl]; simp), if_neg (by omega)]
  rfl

theorem berthSupplyCut_beyond (hmw : 165000 < mw.toNat) : Answers (.berthSupplyCut g mw) s fun t =>
    t.field (brtR g.toNat 0) 16 48 = max mw.toNat (s.field (brtR g.toNat 0) 16 48) ∧ t.field (brtR g.toNat 0) 0 1 = 0 ∧
      t.field (brtR g.toNat 0) 8 1 = 1 ∧ t.field (latR (21 + g.toNat) 0) 5 1 = 1 ∧ t.dev.berthLive s.part g.toNat = false ∧
      (∃ rs, t.dev.records = s.dev.records ++ rs ∧ ∃ r ∈ rs, r.cls = 2 ∧ r.code = 0x0A02) ∧ Still s t := by
  have hg := g.isLt
  have hlat : latR (21 + g.toNat) 0 ≠ brtR g.toNat 0 := by
    rw [latR, if_pos (by omega), brtR, Ne, ctlAddr_inj (by omega) (by decide) (by omega) (by decide)]
    omega
  obtain ⟨f, hcls, hcode, hcut⟩ := does_berthSupplyCut hd hl hmw
  have hbrt : (s.dev.berthCut s.part g.toNat mw.toNat).get s.part (brtR g.toNat 0) =
      withBits (withBits (withBits (s.dev.get s.part (brtR g.toNat 0)) 16 48
        (max mw.toNat (s.dev.fld s.part (brtR g.toNat 0) 16 48))) 8 1 1) 0 1 0 := by
    rw [Dev.berthCut, get_setB, if_neg hlat.symm, get_setB, if_pos rfl, get_setB, if_pos rfl, berthPeak_get, if_pos rfl]
    rfl
  have hlatr : bits ((s.dev.berthCut s.part g.toNat mw.toNat).get s.part (latR (21 + g.toNat) 0)) 5 1 = 1 := by
    rw [Dev.berthCut, get_setB, if_pos rfl, bits_withBits_same _ _ _ _ (by decide)]
    rfl
  have hregs : RegsIn s.part (fun _ => True) s.dev (s.dev.berthCut s.part g.toNat mw.toNat) :=
    (((setF_regsIn _ _ _ trivial).trans (setB_regsIn _ _ trivial)).trans (setB_regsIn _ _ trivial)).trans (setB_regsIn _ _ trivial)
  generalize s.dev.berthCut s.part g.toNat mw.toNat = d at *
  have hr := raiseRec_fltOnly (p := s.part) (d := d) 31 f none
  have hc := berthCloses_hostOnly (p := s.part) (d := d.raiseRec s.part 31 f none) g
  have hget : ∀ a, ctlBlk a ≠ 1 → ctlBlk a ≠ 0x50 → ((d.raiseRec s.part 31 f none).berthCloses s.part (.berth g)).get s.part a =
      d.get s.part a := fun a h1 h5 => (hc.away a h5).trans (hr.1 a h1)
  have hb : ctlBlk (brtR g.toNat 0) = 0x60 + g.toNat := ctlBlk_ctlAddr (by omega) (by decide)
  have hgetb := hget (brtR g.toNat 0) (by omega) (by omega)
  rw [hbrt] at hgetb
  have hfalse : bits (((d.raiseRec s.part 31 f none).berthCloses s.part (.berth g)).get s.part (brtR g.toNat 0)) 0 1 = 0 := by
    rw [hgetb, bits_withBits_same _ _ _ _ (by decide)]
    rfl
  refine hcut.answers ⟨?_, hfalse, ?_, ?_, ?_, ⟨[f], ?_, f, List.mem_singleton_self f, hcls, hcode⟩, still_of_cores ?_⟩
  · change bits (Dev.get _ _ _) _ _ = _
    rw [hgetb, bits_withBits_above _ _ (by decide) (by decide), bits_withBits_above _ _ (by decide) (by decide), bits_peak]
  · change bits (Dev.get _ _ _) _ _ = _
    rw [hgetb, bits_withBits_above _ _ (by decide) (by decide), bits_withBits_same _ _ _ _ (by decide)]
    rfl
  · have hb : ctlBlk (latR (21 + g.toNat) 0) = 0x20 + (21 + g.toNat) := by
      rw [latR, if_pos (by omega), ctlBlk_ctlAddr (by omega) (by decide)]
    change bits (Dev.get _ _ _) _ _ = _
    rw [hget _ (by omega) (by omega), hlatr]
  · change (Dev.bit _ _ _ _ && _) = false
    rw [Dev.bit, getLsbD_bits, hfalse]
    rfl
  · rw [hc.records, raiseRec_major _ _ _ _ _ (by rw [hcls]; decide)]
    exact congrArg (· ++ [f]) ((logRec_records ..).trans hregs.records)
  · rw [hc.cores, hr.cores, hregs.cores]

end
end


/-! ### An orderly stop and the policy (R500, R523)

What step 1 of an orderly stop does beside setting its cause leaves the cause and the records that wait for the policy alone. -/

/-- The records that wait for the policy, and THM.STAT of the base, are what they were. -/
structure StopKept (p : Part) (d e : Dev) : Prop where
  queue : e.policyQ = d.policyQ
  stat : e.get p (thmR 31 0x10) = d.get p (thmR 31 0x10)

section
variable {p : Part} {c d e : Dev}

theorem StopKept.refl (d : Dev) : StopKept p d d := ⟨rfl, rfl⟩
theorem StopKept.trans (h : StopKept p c d) (h' : StopKept p d e) : StopKept p c e :=
  ⟨h'.queue.trans h.queue, h'.stat.trans h.stat⟩
theorem RegsIn.stopKept {R : Nat → Prop} (h : RegsIn p R d e) (hR : ¬R (thmR 31 0x10)) : StopKept p d e := ⟨h.policyQ, h.2 _ hR⟩
theorem FltOnly.stopKept (h : FltOnly p d e) : StopKept p d e :=
  ⟨(congrArg Dev.policyQ h.2 :), h.1 _ (by decide)⟩
theorem put_stopKept {a : Nat} (v : W64) (h : a ≠ thmR 31 0x10) : StopKept p d (d.put p a v) := ⟨rfl, Dev.get_put_ne _ _ _ h.symm⟩
theorem foldl_stopKept {α : Type} {f : Dev → α → Dev} (h : ∀ d x, StopKept p d (f d x)) (l : List α) (d : Dev) :
    StopKept p d (l.foldl f d) := by
  induction l generalizing d with
  | nil => exact .refl d
  | cons x l ih => exact (h d x).trans (ih _)

theorem portR_ne_stat (f off : Nat) : portR f off ≠ thmR 31 0x10 := by
  simp only [portR, thmR, ctlAddr]
  omega
theorem rtR_ne_stat (off : Nat) : rtR off ≠ thmR 31 0x10 := by
  simp only [rtR, latcR, thmR, ctlAddr]
  omega
theorem fltR_ne_stat {s off : Nat} (h : off < 2 ^ 20) : fltR s off ≠ thmR 31 0x10 := by
  rw [fltR, thmR, Ne, ctlAddr_inj (by decide) h (by decide) (by decide)]
  omega

variable (p d)

theorem setPort_stopKept (f : Nat) (x : PortSt) : StopKept p d (d.setPort f x) := ⟨rfl, rfl⟩
theorem modPort_stopKept (f : Nat) (g : PortSt → PortSt) : StopKept p d (d.modPort f g) := ⟨rfl, rfl⟩
theorem setRerouted_stopKept (l : List FabPkt) : StopKept p d { d with rerouted := l } := ⟨rfl, rfl⟩
theorem send_stopKept (m : Msg) : StopKept p d (d.send m) := ⟨rfl, rfl⟩
theorem tellRequester_stopKept (x : FabPkt) (st : BitVec 7) : StopKept p d (d.tellRequester x st) := by
  unfold Dev.tellRequester
  split
  · exact send_stopKept ..
  · exact .refl d
theorem noRoute_stopKept (x : FabPkt) : StopKept p d (d.noRoute p x) :=
  (put_stopKept _ (rtR_ne_stat _)).trans (tellRequester_stopKept ..)
theorem routeOut_stopKept {x : FabPkt} {e : Dev} (h : d.routeOut p x = some e) : StopKept p d e := by
  unfold Dev.routeOut at h
  split at h
  · cases h
    exact noRoute_stopKept ..
  · split at h
    · cases h
    · cases h
      exact (put_stopKept _ (rtR_ne_stat _)).trans (modPort_stopKept ..)
theorem reroute_stopKept (xs : List FabPkt) : StopKept p d (d.reroute p xs) := by
  induction xs generalizing d with
  | nil => exact .refl d
  | cons x xs ih =>
    rw [Dev.reroute]
    split
    · rename_i h
      exact (routeOut_stopKept p d h).trans (ih _)
    · exact (setRerouted_stopKept ..).trans (ih _)
theorem setInj_stopKept (site : Nat) (x : Option Inj) : StopKept p d (d.setInj p site x) :=
  ⟨rfl, Dev.get_put_ne _ _ _ (fltR_ne_stat (by decide)).symm⟩
theorem injTake_stopKept (site checker unit : Nat) : StopKept p d (d.injTake p site checker unit).1 := by
  unfold Dev.injTake
  dsimp only
  split
  · exact .refl d
  · dsimp only [Dev.injUse]
    split
    · exact (setInj_stopKept ..).trans (put_stopKept _ (fltR_ne_stat (by decide)))
    · exact .refl d
theorem sendBlock_stopKept (f : Nat) (msg : Option (List Byte)) : StopKept p d (d.sendBlock p f msg) := by
  unfold Dev.sendBlock
  extract_lets x stop z kind b data d1
  have h1 : StopKept p d d1 := (injTake_stopKept ..).trans (setPort_stopKept ..)
  split
  · exact h1
  · exact h1.trans (put_stopKept _ (portR_ne_stat _ _))
theorem sendPort_stopKept (f : Nat) (m : PortMsg) : StopKept p d (d.sendPort p f m) :=
  (sendBlock_stopKept ..).trans (send_stopKept ..)
theorem sendLeave_stopKept (f : Nat) (reason : BitVec 8) : StopKept p d (d.sendLeave p f reason) :=
  foldl_stopKept (fun d _ => sendPort_stopKept p d f _) _ d
theorem setPortSt_stopKept (f st : Nat) : StopKept p d (d.setPortSt p f st) :=
  ((put_stopKept _ (portR_ne_stat _ _)).trans (put_stopKept _ (portR_ne_stat _ _))).trans (modPort_stopKept ..)
theorem portFault_stopKept (f cls code v : Nat) : StopKept p d (d.portFault p f cls code v) :=
  (raiseRec_fltOnly (p := p) (d := d) 31 _ none).stopKept
theorem leaveFault_stopKept (f cause : Nat) : StopKept p d (d.leaveFault p f cause) := by
  unfold Dev.leaveFault
  split
  · exact .refl d
  · split <;> exact portFault_stopKept ..
theorem endCopy_stopKept (y : FabPkt) (g : Nat) : StopKept p d (d.endCopy p y g) := by
  unfold Dev.endCopy
  dsimp only
  split
  · exact ((setPort_stopKept ..).trans (put_stopKept _ (portR_ne_stat _ _))).trans (sendPort_stopKept ..)
  · split
    · exact setPort_stopKept ..
    · exact .refl d
theorem loseCopy_stopKept (f : Nat) : StopKept p d (d.loseCopy p f) := by
  unfold Dev.loseCopy
  dsimp only
  split
  · exact .refl d
  · exact ((modPort_stopKept ..).trans (setRerouted_stopKept ..)).trans (foldl_stopKept (fun d g => endCopy_stopKept p d _ g) _ _)
theorem portDrop_stopKept (f st : Nat) : StopKept p d (d.portDrop p f st) := by
  unfold Dev.portDrop
  extract_lets d0 x d1 d2
  have h1 : StopKept p d d1 := ((loseCopy_stopKept ..).trans (setPortSt_stopKept ..)).trans (put_stopKept _ (portR_ne_stat _ _))
  have h2 : StopKept p d1 d2 := (put_stopKept _ (portR_ne_stat _ _)).trans (modPort_stopKept ..)
  split
  · exact h1.trans h2
  · exact (h1.trans h2).trans (reroute_stopKept ..)
theorem leaveUp_stopKept (f cause st : Nat) : StopKept p d (d.leaveUp p f cause st) :=
  ((put_stopKept _ (portR_ne_stat _ _)).trans (portDrop_stopKept ..)).trans (leaveFault_stopKept ..)
theorem leaveAll_stopKept : StopKept p d (d.leaveAll p) := by
  refine foldl_stopKept (fun d f => ?_) _ d
  extract_lets d1
  have h1 : StopKept p d d1 := by
    unfold d1
    split
    · exact sendLeave_stopKept ..
    · exact .refl d
  split
  · exact h1.trans (leaveUp_stopKept ..)
  · split
    · exact h1.trans (setPortSt_stopKept ..)
    · exact h1
theorem haltWaiting_stopKept (cs : List CoreId) : StopKept p d (d.haltWaiting cs) := by
  refine foldl_stopKept (fun d c => ?_) _ d
  split
  · exact ⟨rfl, rfl⟩
  · exact .refl d

end


/-! ### The start of an orderly stop (R500) -/

/-- The base shows the cause of the stop and raises its fault. -/
def Dev.stopShown (p : Part) (d : Dev) (cause : Nat) : Dev :=
  ((d.thmStat p 31 2).setF p (thmR 31 0x10) 3 3 cause).fault p 31 63 4 0x0904 (BitVec.ofNat 64 cause)
/-- Every compute die rests. -/
def Dev.stopRests (p : Part) (d : Dev) : Dev := (List.range 16).foldl (fun d w => d.setF p (thmR w 8) 0 4 15) d
/-- No change of the frequency is pending. -/
def Dev.stopClocks (p : Part) (d : Dev) (cause : Nat) : Dev :=
  { d.setF p (clkR 31 0x20) 0 1 0 with freqPend := none, thermTrip := d.thermTrip || (decide (1 ≤ cause) && decide (cause ≤ 4)) }
/-- The stop has entered its first step. -/
def Dev.stopEntered (d : Dev) (t : W64) : Dev := { d with stopStep := 1, stopT := t }
/-- The stop has reached its second step. -/
def Dev.stopSecond (d : Dev) : Dev := { d with stopStep := 2, xfer := none }

section
variable (p : Part) (d : Dev)

theorem orderlyStop_eq (cause : Nat) (h : d.stopStep = 0) : d.orderlyStop p cause =
    ((((((d.stopShown p cause).stopRests p).stopClocks p cause).stopEntered d.now).leaveAll p).stopSecond).haltWaiting allCores :=
  if_neg (not_not.2 h)

theorem haltWaiting_stopStep (cs : List CoreId) : (d.haltWaiting cs).stopStep = d.stopStep := by
  unfold Dev.haltWaiting
  induction cs generalizing d with
  | nil => rfl
  | cons c cs ih =>
    rw [List.foldl_cons, ih]
    split
    · exact Dev.modCore_stopStep ..
    · rfl

theorem stopShown_shows (cause : Nat) :
    (d.stopShown p cause).policyQ = d.policyQ ∧ (d.stopShown p cause).fld p (thmR 31 0x10) 3 3 = cause % 8 := by
  have hk : StopKept p ((d.thmStat p 31 2).setF p (thmR 31 0x10) 3 3 cause) (d.stopShown p cause) := by
    rw [Dev.stopShown, fault_eq_raiseRec]
    exact (raiseRec_fltOnly ..).stopKept
  refine ⟨hk.queue, ?_⟩
  rw [Dev.fld, hk.stat]
  exact Dev.fld_setF_same _ _ _ _ _ _ (by decide)
theorem stopRests_stopKept : StopKept p d (d.stopRests p) := by
  refine foldl_stopKept (fun d w => put_stopKept _ ?_) _ d
  simp only [thmR, ctlAddr]
  omega
theorem stopClocks_stopKept (cause : Nat) : StopKept p d (d.stopClocks p cause) := ⟨rfl, Dev.get_put_ne _ _ _ (by decide)⟩
theorem stopEntered_stopKept (t : W64) : StopKept p d (d.stopEntered t) := ⟨rfl, rfl⟩
theorem stopSecond_stopKept : StopKept p d d.stopSecond := ⟨rfl, rfl⟩
theorem stopSecond_stopStep : d.stopSecond.stopStep = 2 := rfl

/-- An orderly stop for a cause is in step 2, shows its cause, and leaves the records that wait for the policy alone. -/
theorem orderlyStop_shows (cause : Nat) (h : d.stopStep = 0) : (d.orderlyStop p cause).stopStep = 2 ∧
    (d.orderlyStop p cause).fld p (thmR 31 0x10) 3 3 = cause % 8 ∧ (d.orderlyStop p cause).policyQ = d.policyQ := by
  rw [orderlyStop_eq p d cause h]
  obtain ⟨hq, hf⟩ := stopShown_shows p d cause
  have hk := (((stopRests_stopKept p (d.stopShown p cause)).trans (stopClocks_stopKept p _ cause)).trans
    (stopEntered_stopKept p _ d.now)).trans (leaveAll_stopKept p _)
  have hk := (hk.trans (stopSecond_stopKept p _)).trans (haltWaiting_stopKept p _ allCores)
  exact ⟨(haltWaiting_stopStep ..).trans (stopSecond_stopStep _), by rw [Dev.fld, hk.stat]; exact hf, hk.queue.trans hq⟩

/-! ### The start of a warm reset (R477) -/

/-- What a warm reset leaves: its cause for boot, nothing that waits for the policy, and the boot order at step 1. -/
theorem warmReset_eq (m : List Host.Cell) (cause : Nat) : ∃ (e : Dev) (count : Nat), e.rstCause = cause ∧ e.policyQ = [] ∧
    (d.warmReset p m cause).1 = (sessions.filter fun s => decide (s ≤ 16) && d.sessOpen p s).foldl (fun d s => d.postSession p s 4)
      ((e.setF p (idR 20 0x110) 16 16 count).setF p (idR 20 0x100) 0 7 33) := by
  unfold Dev.warmReset
  exact ⟨_, _, rfl, rfl, rfl⟩

theorem bits_low_of_withBits (w : W64) {k n : Nat} (v : Nat) (hk : k ≤ n) (hn : n ≤ 64) : bits (withBits w 0 n v) 0 k = v % 2 ^ k := by
  have h := bits_withBits_same w 0 n v (by omega)
  rw [bits, Nat.pow_zero, Nat.div_one] at h ⊢
  rw [← Nat.mod_mod_of_dvd _ (Nat.pow_dvd_pow 2 hk), h, Nat.mod_mod_of_dvd _ (Nat.pow_dvd_pow 2 hk)]

theorem warmReset_shows (m : List Host.Cell) (cause : Nat) : (d.warmReset p m cause).1.rstCause = cause ∧
    (d.warmReset p m cause).1.fld p (idR 20 0x100) 0 4 = 1 ∧ (d.warmReset p m cause).1.policyQ = [] := by
  obtain ⟨e, count, hc, hq, he⟩ := warmReset_eq p d m cause
  rw [he]
  have hset : RegsIn p (fun _ => True) e ((e.setF p (idR 20 0x110) 16 16 count).setF p (idR 20 0x100) 0 7 33) :=
    (setF_regsIn _ _ _ trivial).trans (setF_regsIn _ _ _ trivial)
  have hpost := foldl_regsIn (p := p) (R := HostReg) (f := fun d s => d.postSession p s 4)
    (l := sessions.filter fun s => decide (s ≤ 16) && d.sessOpen p s) (fun d s _ => postSession_regsIn p d s 4)
    ((e.setF p (idR 20 0x110) 16 16 count).setF p (idR 20 0x100) 0 7 33)
  have hid : ¬HostReg (idR 20 0x100) := by rw [HostReg, idR, ctlBlk_ctlAddr (by decide) (by decide)]; decide
  refine ⟨(hpost.rstCause.trans hset.rstCause).trans hc, ?_, (hpost.policyQ.trans hset.policyQ).trans hq⟩
  rw [Dev.fld, hpost.2 _ hid, get_setF, if_pos rfl, bits_low_of_withBits _ _ (by decide) (by decide)]
  rfl

/-! ### What the policy makes of a record (R523) -/

/-- The device after the policy has fenced the source of a record, where it does. -/
def Dev.policyFenced (f : FaultRec) : Dev :=
  if d.policyFences p f then
    match d.recCore p f with
    | some c => d.fenceRequest p c.site.toNat c.p 2
    | none => d
  else d

variable {p d} {m : List Host.Cell} {f : FaultRec}

theorem policy_rests (h : (d.policyFenced p f).policyActs p f = false) : d.policy p m f = (d.policyFenced p f, []) := by
  refine if_pos ?_
  rw [Bool.not_eq_true']
  exact h

theorem policyFenced_of_not (h : d.policyFences p f = false) : d.policyFenced p f = d := by
  rw [Dev.policyFenced, h, if_neg Bool.false_ne_true]

section
variable (hf : d.policyFences p f = false)
include hf

theorem policy_idle (ha : d.policyActs p f = false) : d.policy p m f = (d, []) := by
  have h := policyFenced_of_not hf
  rw [policy_rests (by rwa [h]), h]

variable (ha : d.policyActs p f = true)
include ha

/-- Without an act the policy leaves a record that it could act on. -/
theorem policy_none (h : d.fld p (fltR 20 0x820) 0 2 = 0) : d.policy p m f = (d, []) := by
  unfold Dev.policy
  simp only [hf, ha, h, Bool.false_eq_true, Bool.not_true, if_false]
theorem policy_warm (h : d.fld p (fltR 20 0x820) 0 2 = 1) (hw : d.warmAllowed = true) : d.policy p m f = d.warmReset p m 7 := by
  unfold Dev.policy
  simp only [hf, ha, h, hw, Bool.false_eq_true, Bool.not_true, if_false, if_true]
theorem policy_stop (h : d.fld p (fltR 20 0x820) 0 2 = 2) : d.policy p m f = (d.orderlyStop p 7, []) := by
  unfold Dev.policy
  simp only [hf, ha, h, Bool.false_eq_true, Bool.not_true, if_false]

end

theorem policyFences_eq_false (h1 : f.code = 0x0101 → f.ctx0 = 8 → d.fld p (fltR 20 0x820) 3 1 ≠ 1)
    (h2 : f.code = 0x0102 → d.fld p (fltR 20 0x820) 16 8 ≠ 0 →
      ¬d.fld p (fltR 20 0x820) 16 8 ≤ (smGet [] d.ceTimes f.source.toNat).length) : d.policyFences p f = false := by
  rw [Dev.policyFences, Bool.or_eq_false_iff]
  simp only [Bool.and_eq_false_imp, Bool.and_eq_true, beq_iff_eq, bne_iff_ne, decide_eq_false_iff_not, and_imp, Dev.bit, getLsbD_bits]
  exact ⟨h1, h2⟩
theorem policyFences_of_code (h1 : f.code ≠ 0x0101) (h2 : f.code ≠ 0x0102) : d.policyFences p f = false :=
  policyFences_eq_false (absurd · h1) (absurd · h2)
theorem policyFences_eq_true (h : (f.code = 0x0101 ∧ f.ctx0 = 8 ∧ d.fld p (fltR 20 0x820) 3 1 = 1) ∨
    (f.code = 0x0102 ∧ d.fld p (fltR 20 0x820) 16 8 ≠ 0 ∧
      d.fld p (fltR 20 0x820) 16 8 ≤ (smGet [] d.ceTimes f.source.toNat).length)) : d.policyFences p f = true := by
  rw [Dev.policyFences, Bool.or_eq_true]
  simp only [Bool.and_eq_true, beq_iff_eq, bne_iff_ne, decide_eq_true_eq, Dev.bit, getLsbD_bits, and_assoc]
  exact h
theorem policyActs_iff : d.policyActs p f = true ↔
    f.cls = 4 ∧ (f.esc = true → d.fld p (fltR 20 0x820) 2 1 = 1) ∧ f.code ≠ 0x0802 ∧ f.code ≠ 0x0904 := by
  simp only [Dev.policyActs, Bool.and_eq_true, beq_iff_eq, bne_iff_ne, Bool.or_eq_true, Bool.not_eq_true', Dev.bit, getLsbD_bits,
    decide_eq_true_eq, and_assoc, or_iff_not_imp_left, Bool.not_eq_false]
  rfl

theorem policyActs_of_cls (h : f.cls ≠ 4) : d.policyActs p f = false := Bool.eq_false_iff.2 fun ha => h (policyActs_iff.1 ha).1

theorem getLsbD_mkSrc (n : BitVec 16) (x : BitVec 5) (u : BitVec 6) (i : Nat) : (mkSrc n x u).getLsbD i =
    if i < 6 then u.getLsbD i else if i < 11 then x.getLsbD (i - 6) else n.getLsbD (i - 11) := by
  have h : (mkSrc n x u).getLsbD i = if i < 6 then u.getLsbD i else (n ++ x).getLsbD (i - 6) := BitVec.getLsbD_append
  rw [h, BitVec.getLsbD_append]
  split
  · rfl
  · simp only [show i - 6 < 5 ↔ i < 11 by omega, Nat.sub_sub]
theorem srcNode_mkSrc (n : BitVec 16) (x : BitVec 5) (u : BitVec 6) : srcNode (mkSrc n x u) = n := by
  ext i hi
  simp [srcNode, getLsbD_mkSrc, show ¬11 + i < 6 by omega, BitVec.getLsbD_eq_getElem hi]
theorem srcSite_mkSrc (n : BitVec 16) (x : BitVec 5) (u : BitVec 6) : srcSite (mkSrc n x u) = x := by
  ext i hi
  simp [srcSite, getLsbD_mkSrc, show 6 + i < 11 by omega, BitVec.getLsbD_eq_getElem hi]
theorem srcUnit_mkSrc (n : BitVec 16) (x : BitVec 5) (u : BitVec 6) : srcUnit (mkSrc n x u) = u := by
  ext i hi
  simp [srcUnit, getLsbD_mkSrc, hi]

/-- A record of a good core names it. -/
theorem recCore_coreSrc {c : CoreId} (hs : f.source = d.coreSrc c) (hc : p.has c = true) : d.recCore p f = some c := by
  have low : (c.site.zeroExtend 5).extractLsb' 0 4 = c.site := by
    ext i hi
    simp [show i < 5 by omega, BitVec.getLsbD_eq_getElem hi]
  have site : (c.site.zeroExtend 5).toNat < 16 := by
    rw [BitVec.zeroExtend, BitVec.toNat_setWidth_of_le (by decide)]
    exact c.site.isLt
  unfold Dev.recCore
  rw [hs, Dev.coreSrc, srcNode_mkSrc, srcSite_mkSrc, srcUnit_mkSrc, low]
  exact if_pos ⟨rfl, site, hc⟩

end


/-! ### FAULT_POLICY (R523) -/

/-- The device with a record taken off those that wait for the policy. -/
def Dev.polled (d : Dev) (seq : BitVec 16) : Dev := { d with policyQ := d.policyQ.filter fun g : FaultRec => g.seq != seq }

section
variable {s : State} {seq : BitVec 16} {f : FaultRec}

theorem polled_policyFences (p : Part) (d : Dev) : (d.polled seq).policyFences p f = d.policyFences p f := rfl
theorem polled_recCore (p : Part) (d : Dev) : (d.polled seq).recCore p f = d.recCore p f := rfl
theorem polled_liveMask (p : Part) (d : Dev) (w : Nat) : (d.polled seq).liveMask p w = d.liveMask p w := rfl

/-- A request to fence a live core waits its turn (R215). -/
theorem fenceRequest_live {p : Part} {d : Dev} {w cause : Nat} {core : BitVec 6} (h : (d.liveMask p w).getLsbD core.toNat = true) :
    d.fenceRequest p w core cause = d.setFenceWait w (d.fenceWait w ++ [(core, BitVec.ofNat 4 cause)]) := if_pos h

theorem faultPolicy_none (h : s.dev.policyQ.find? (fun g : FaultRec => g.seq == seq) = none) :
    Answers (.faultPolicy seq) s fun t => t = s := by
  have hd : Does (.faultPolicy seq) s s.dev := by
    refine does_of_updW (exec_faultPolicy s seq) ?_
    rw [h]
  exact hd.same

variable (h : s.dev.policyQ.find? (fun g : FaultRec => g.seq == seq) = some f)
include h

theorem does_faultPolicy {e : Dev} (he : (s.dev.polled seq).policy s.part s.mem f = (e, [])) : Does (.faultPolicy seq) s e := by
  refine does_of_updW (exec_faultPolicy s seq) ?_
  rw [h]
  exact he

/-- A record on which the policy takes no measure leaves those that wait for it, and that is all. -/
theorem faultPolicy_quiet (he : (s.dev.polled seq).policy s.part s.mem f = (s.dev.polled seq, [])) :
    Answers (.faultPolicy seq) s fun t =>
      t.dev = { s.dev with policyQ := s.dev.policyQ.filter fun g : FaultRec => g.seq != seq } ∧ Still s t :=
  (does_faultPolicy h he).answers ⟨rfl, still_of_cores rfl⟩

theorem faultPolicy_idle (hf : s.dev.policyFences s.part f = false) (ha : s.dev.policyActs s.part f = false) :
    Answers (.faultPolicy seq) s fun t =>
      t.dev = { s.dev with policyQ := s.dev.policyQ.filter fun g : FaultRec => g.seq != seq } ∧ Still s t :=
  faultPolicy_quiet h (policy_idle hf ha)

/-- The policy fences the live core that a record names. -/
theorem faultPolicy_fences {c : CoreId} (hf : s.dev.policyFences s.part f = true) (ha : f.cls ≠ 4)
    (hc : s.dev.recCore s.part f = some c) (hl : (s.dev.liveMask s.part c.site.toNat).getLsbD c.p.toNat = true) :
    Answers (.faultPolicy seq) s fun t => t.dev.policyQ = (s.dev.policyQ.filter fun g : FaultRec => g.seq != seq) ∧
      t.dev.fenceWait c.site.toNat = s.dev.fenceWait c.site.toNat ++ [(c.p, 2)] ∧ (∀ a, a ∉ [] → t.reg a = s.reg a) ∧ Still s t := by
  have fenced : (s.dev.polled seq).policyFenced s.part f =
      (s.dev.polled seq).setFenceWait c.site.toNat ((s.dev.polled seq).fenceWait c.site.toNat ++ [(c.p, 2)]) := by
    rw [Dev.policyFenced, polled_policyFences, hf, if_pos rfl, polled_recCore, hc]
    dsimp only
    exact fenceRequest_live (by rwa [polled_liveMask])
  have rests : ((s.dev.polled seq).policyFenced s.part f).policyActs s.part f = false := policyActs_of_cls ha
  have hd := does_faultPolicy h (policy_rests rests)
  rw [fenced] at hd
  exact hd.answers ⟨rfl, smGet_set_same .., fun _ _ => rfl, still_of_cores rfl⟩

section
variable (hf : s.dev.policyFences s.part f = false) (ha : s.dev.policyActs s.part f = true)
include hf ha

theorem faultPolicy_none_set (hact : s.field (fltR 20 0x820) 0 2 = 0) : Answers (.faultPolicy seq) s fun t =>
    t.dev = { s.dev with policyQ := s.dev.policyQ.filter fun g : FaultRec => g.seq != seq } ∧ Still s t :=
  faultPolicy_quiet h (policy_none hf ha hact)

theorem faultPolicy_warm (hact : s.field (fltR 20 0x820) 0 2 = 1) (hw : s.dev.warmAllowed = true) :
    Answers (.faultPolicy seq) s fun t => t.dev.rstCause = 7 ∧ t.field (idR 20 0x100) 0 4 = 1 ∧ t.dev.policyQ = [] := by
  have he : (s.dev.polled seq).policy s.part s.mem f = (s.dev.polled seq).warmReset s.part s.mem 7 := policy_warm hf ha hact hw
  have hd := exec_faultPolicy s seq
  rw [execFaultPolicy, State.updW_next, h] at hd
  dsimp only at hd
  rw [← Dev.polled, he] at hd
  exact ⟨_, hd, warmReset_shows s.part (s.dev.polled seq) s.mem 7⟩

theorem faultPolicy_stop (hact : s.field (fltR 20 0x820) 0 2 = 2) (hs : s.dev.stopStep = 0) :
    Answers (.faultPolicy seq) s fun t => t.dev.stopStep = 2 ∧ t.field (thmR 31 0x10) 3 3 = 7 ∧
      t.dev.policyQ = s.dev.policyQ.filter fun g : FaultRec => g.seq != seq :=
  (does_faultPolicy h (policy_stop hf ha hact)).answers (orderlyStop_shows s.part (s.dev.polled seq) 7 hs)

end
end


/-! ### The arrival of a record, either way it comes -/

/-- A record that is on its way comes: over the lattice as the first of those there, or in a frame of the voted wiring. -/
theorem does_comes {s : State} {f : FaultRec} {pre post : List FaultRec} {come : Instr} {ch : BitVec 128}
    (hrec : s.dev.records = pre ++ f :: post)
    (h : (come = .faultRecordArrival ∧ s.dev.recWired s.part f = false ∧
        (∀ g ∈ pre, s.dev.recWired s.part g = true ∨
          (f.ledger.toNat < g.ledger.toNat ∨ (f.ledger = g.ledger ∧ f.source.toNat < g.source.toNat))) ∧
        ∀ g ∈ post, s.dev.recWired s.part g = true ∨
          ¬(g.ledger.toNat < f.ledger.toNat ∨ (g.ledger = f.ledger ∧ g.source.toNat < f.source.toNat))) ∨
      (come = .frame (srcSite f.source) ch ch ch (.record f) ∧ s.dev.recWired s.part f = true ∧ f ∉ pre ∧
        s.dev.injBits 31 10 (srcSite f.source).toNat = 0)) :
    Does come s (s.dev.recArrives s.part f) ∧ s.dev.records.erase f = pre ++ post := by
  rcases h with ⟨rfl, hw, hpre, hpost⟩ | ⟨rfl, hw, hnot, hinj⟩
  · simp only [← recBefore_iff, Bool.not_eq_true] at hpre hpost
    have hnot : f ∉ pre := fun hf => by
      rcases hpre f hf with h | h
      · exact Bool.false_ne_true (hw.symm.trans h)
      · exact Bool.false_ne_true ((not_recBefore_self f).symm.trans h)
    exact ⟨does_faultRecordArrival hrec hw hpre hpost, by rw [hrec, erase_append_cons hnot]⟩
  · exact ⟨does_frame_record ch (by simp [hrec]) hw hinj, by rw [hrec, erase_append_cons hnot]⟩

/-- Settles O58: each command of the fault reporting and of the berth supplies, by the rule of its own above. -/
theorem faultReporting : Obligations.FaultReporting := by
  unfold Obligations.FaultReporting
  intro s hd
  have hoff := dead_eq_false hd
  refine ⟨fun h => (does_faultRecordArrival_none h).same, ?arrival, ?ack, ?policy, aliveToggle_between, aliveToggle_due hd,
    fun g => ⟨heartbeat_given g, heartbeatMissing_raises hd g, heartbeatMissing_idle hd g⟩, ?injection,
    fun src w0 w1 w2 w3 w4 w5 => ⟨fun h => intake_taken _ _ _ _ _ _ _ h.1 h.2, intake_refused _ _ _ _ _ _ _⟩, fun g mw =>
      ⟨berthPowerOver_raises hd, berthPowerOver_idle, fun hl => berthSupplyCut_within hd hl,
        fun hl => berthSupplyCut_beyond hd hl, berthSupplyCut_empty⟩⟩
  case arrival =>
    intro f pre post come ch hrec hcls before hcome
    obtain ⟨hcomes, hrest⟩ := does_comes hrec hcome
    exact ⟨arrival_stopped hcomes hrest, fun h => ⟨arrival_reported hcomes hrest h hoff hcls, arrival_displaces hcomes hrest h hoff,
      arrival_lost hcomes hrest h hoff, arrival_overflows hcomes hrest h hoff⟩⟩
  case ack => exact fun seq => ⟨fltAck_one, fltAck_upto, fltAck_ignored⟩
  case policy =>
    intro seq
    refine ⟨faultPolicy_none, fun f h => ⟨fun hcls h1 h2 => ?_, fun h1 hcls hunc => ?_, fun h2 hcls hmany => ?_,
      fun c hsrc hgood hcls hcause hlive => ?_, fun hcls hesc hcode => ?_, fun hcode => ?_, fun hcls hesc hpol hcode => ?_⟩⟩
    · exact faultPolicy_idle h (policyFences_of_code h1 h2) (policyActs_of_cls hcls)
    · exact faultPolicy_idle h (policyFences_eq_false (fun _ _ h => absurd (hunc.symm.trans h) Nat.zero_ne_one)
        fun h2 => absurd (h1.symm.trans h2) (by decide)) (policyActs_of_cls hcls)
    · exact faultPolicy_idle h (policyFences_eq_false (fun h1 => absurd (h1.symm.trans h2) (by decide)) fun _ h => absurd hmany h)
        (policyActs_of_cls hcls)
    · exact faultPolicy_fences h (policyFences_eq_true hcause) hcls (recCore_coreSrc hsrc hgood) hlive
    · simp only [List.mem_cons, List.not_mem_nil, or_false, not_or] at hcode
      obtain ⟨h1, h2, h8, h9⟩ := hcode
      have hf : s.dev.policyFences s.part f = false := policyFences_of_code h1 h2
      have ha : s.dev.policyActs s.part f = true :=
        policyActs_iff.2 ⟨hcls, fun he => absurd (hesc.symm.trans he) Bool.false_ne_true, h8, h9⟩
      exact ⟨faultPolicy_none_set h hf ha, fun hact _ hstop => faultPolicy_warm h hf ha hact (by simp [Dev.warmAllowed, hd, hstop]),
        faultPolicy_stop h hf ha⟩
    · have hne : f.code ≠ 0x0101 ∧ f.code ≠ 0x0102 := by rcases hcode with h | h <;> rw [h] <;> decide
      refine faultPolicy_idle h (policyFences_of_code hne.1 hne.2) (Bool.eq_false_iff.2 fun ha => ?_)
      obtain ⟨-, -, h8, h9⟩ := policyActs_iff.1 ha
      exact hcode.elim h8 h9
    · simp only [List.mem_cons, List.not_mem_nil, or_false, not_or] at hcode
      exact faultPolicy_idle h (policyFences_of_code hcode.1 hcode.2)
        (Bool.eq_false_iff.2 fun ha => absurd (hpol.symm.trans ((policyActs_iff.1 ha).2.1 hesc)) Nat.zero_ne_one)
  case injection =>
    intro site v hn
    -- a site names a die, or the base
    have hn : site.toNat < 21 ∨ site.toNat = 31 := hn.imp_right fun h => by rw [h]; rfl
    refine ⟨fun h hc => injGo_starts hn h _ (injAsked_unit h hc) ?_, fun h hc hg => injGo_starts hn h _ (injAsked_group h hc) ?_,
      fun h hc hg => injGo_group_absent hn h ?_, fun h => injGo_ignored hn (goIgnored_of_unsound h)⟩
    · rw [groupAbsent_of_sound h, beq_false_of_ne hc, Bool.false_and]
    · rw [groupAbsent_of_sound h, Bool.and_eq_false_iff]
      exact .inr (beq_false_of_ne hg)
    · rw [groupAbsent_of_sound h, Bool.and_eq_true, beq_iff_eq, beq_iff_eq]
      exact ⟨hc, hg⟩

end Sys2Proof.Machine
end

-- Loads and stores of a core's own pantry (R60, R62, R136)
section

namespace Sys2Proof.Machine

/-! ### Reads and writes of a pantry whose words carry no error (R59 to R62) -/

/-- The bytes read from an address upward, as one little-endian value. -/
theorem leNat_read (s : State) (n : Nat) : ∀ a, leNat (Memory.read s.mem a n) = s.le a n := by
  induction n with
  | zero => intro a; rfl
  | succ n ih => intro a; simp only [Memory.read, leNat, State.le, ih, State.byte]

theorem read_length (m : List Host.Cell) (n : Nat) : ∀ a, (Memory.read m a n).length = n := by
  induction n with
  | zero => intro a; rfl
  | succ n ih => intro a; simp [Memory.read, ih]

theorem read_getElem? (m : List Host.Cell) (n : Nat) : ∀ (a i : Nat), i < n →
    (Memory.read m a n)[i]? = some (Memory.get m (a + i)) := by
  induction n with
  | zero => intro a i hi; omega
  | succ n ih =>
    intro a i hi
    cases i with
    | zero => simp [Memory.read]
    | succ i =>
      rw [Memory.read, List.getElem?_cons_succ, ih (a + 1) i (by omega)]
      congr 2; omega

/-- A word without an error passes its check and changes nothing. -/
theorem checkWord_clean {p : Part} {d : Dev} {c : CoreId} {a : Nat} (h : d.mark (pantryAt c a) = 0) :
    d.checkWord p c a = (d, false) := by
  simp [Dev.checkWord, h]

theorem checkWords_clean {p : Part} {d : Dev} {c : CoreId} (n : Nat) : ∀ {a : Nat},
    (∀ i, i < n → d.mark (pantryAt c (a + 8 * i)) = 0) → d.checkWords p c a n = (d, none) := by
  induction n with
  | zero => intro a _; rfl
  | succ n ih =>
    intro a h
    have ha : d.mark (pantryAt c a) = 0 := h 0 (by omega)
    have hr : ∀ i, i < n → d.mark (pantryAt c (a + 8 + 8 * i)) = 0 := fun i hi => by
      have := h (i + 1) (by omega)
      rwa [show a + 8 * (i + 1) = a + 8 + 8 * i by omega] at this
    simp only [Dev.checkWords, checkWord_clean ha, ih hr]

theorem wordsIn_pos {a n : Nat} (h : 0 < n) : wordsIn a n = (a + n - 1) / 8 - a / 8 + 1 := by
  unfold wordsIn
  rw [if_neg (by omega)]

/-- The words that hold the bytes of a range start within it. -/
theorem word_lt_of_lt_wordsIn {a n i : Nat} (h : i < wordsIn a n) : wordOf a + 8 * i < a + n := by
  unfold wordsIn at h
  split at h
  · omega
  · unfold wordOf; omega

theorem pantryRead_clean {p : Part} {m : List Host.Cell} {d : Dev} {c : CoreId} {a n : Nat}
    (h : ∀ b, a / 8 * 8 ≤ b → b < a + n → d.mark (pantryAt c b) = 0) :
    d.pantryRead p m c a n = (d, .ok (Memory.read m (pantryAt c a) n)) := by
  have hw : d.checkWords p c (wordOf a) (wordsIn a n) = (d, none) :=
    checkWords_clean _ fun i hi => h _ (by unfold wordOf; omega) (word_lt_of_lt_wordsIn hi)
  simp only [Dev.pantryRead, hw]

/-- Words produced while no error is injected carry none, and nothing else of the device changes. -/
theorem produce_clean {p : Part} {site checker unit : Nat} (step : Nat) (n : Nat) : ∀ {d : Dev} {a : Nat},
    d.injBits site checker unit = 0 → ∃ m, d.produce p site checker unit a step n = { d with ecc := m } ∧
      ∀ b, smGet 0 m b = if ∃ i, i < n ∧ b = a + step * i then 0 else d.mark b := by
  induction n with
  | zero => intro d a _; exact ⟨d.ecc, rfl, fun b => by simp [Dev.mark]⟩
  | succ n ih =>
    intro d a h
    have ht : d.injTake p site checker unit = (d, 0) := by simp [Dev.injTake, h]
    obtain ⟨m, hm, hk⟩ := ih (d := d.setMark a 0) (a := a + step) h
    refine ⟨m, ?_, fun b => ?_⟩
    · simp only [Dev.produce, ht, injMark, if_true]
      rw [hm]; rfl
    · rw [hk b, Dev.mark_setMark]
      by_cases h1 : ∃ i, i < n ∧ b = a + step + step * i
      · obtain ⟨i, hi, he⟩ := h1
        rw [if_pos ⟨i, hi, he⟩, if_pos ⟨i + 1, by omega, by rw [he, Nat.mul_succ]; omega⟩]
      · rw [if_neg h1]
        by_cases h2 : b = a
        · rw [if_pos h2, if_pos ⟨0, by omega, by omega⟩]
        · rw [if_neg h2, if_neg]
          rintro ⟨i, hi, he⟩
          cases i with
          | zero => exact h2 (by omega)
          | succ i => exact h1 ⟨i, by omega, by rw [he, Nat.mul_succ]; omega⟩

/-- The device after a write of the `n` bytes from offset `a` of the core's pantry, no error having been injected: the words
written carry none, and nothing else has changed. -/
def PantryWritten (c : CoreId) (a n : Nat) (d e : Dev) : Prop :=
  ∃ m, e = { d with ecc := m } ∧
    ∀ b, smGet 0 m b = d.mark b ∨ (pantryAt c a / 8 * 8 ≤ b ∧ b < pantryAt c a + n ∧ smGet 0 m b = 0)

theorem pantryBase_mod (c : CoreId) : pantryBase c % 8 = 0 := by unfold pantryBase; omega

theorem produce_written {p : Part} {d : Dev} {c : CoreId} {a n : Nat} (hi : d.injBits c.site.toNat 1 c.p.toNat = 0) :
    PantryWritten c a n d (d.produce p c.site.toNat 1 c.p.toNat (pantryAt c (wordOf a)) 8 (wordsIn a n)) := by
  obtain ⟨m, hm, hk⟩ := produce_clean (p := p) (a := pantryAt c (wordOf a)) 8 (wordsIn a n) hi
  refine ⟨m, hm, fun b => ?_⟩
  rw [hk b]
  split
  next h =>
    obtain ⟨i, hlt, rfl⟩ := h
    have := word_lt_of_lt_wordsIn hlt
    have := pantryBase_mod c
    refine .inr ⟨?_, ?_, rfl⟩ <;> simp only [pantryAt, wordOf] at * <;> omega
  next => exact .inl rfl

/-- A write whose first and last words are whole, or carry no error. -/
theorem pantryWrite_of_checked {p : Part} {d : Dev} {c : CoreId} {a : Nat} {bs : List Byte} (hn : bs ≠ [])
    (hi : d.injBits c.site.toNat 1 c.p.toNat = 0)
    (hfirst : a % 8 ≠ 0 ∨ (a + bs.length) % 8 ≠ 0 → d.mark (pantryAt c (wordOf a)) = 0)
    (hlast : (a + bs.length) % 8 ≠ 0 → d.mark (pantryAt c (wordOf (a + bs.length - 1))) = 0) :
    ∃ e, d.pantryWrite p c a bs = (e, .ok [(pantryAt c a, bs)]) ∧ PantryWritten c a bs.length d e := by
  have h1 : ∀ (q : Prop) [Decidable q], (q → d.mark (pantryAt c (wordOf a)) = 0) →
      (if q then d.checkWords p c (wordOf a) 1 else (d, none)) = (d, none) := by
    intro q _ hq
    split
    · rename_i h; exact checkWords_clean 1 fun i hlt => by
        obtain rfl : i = 0 := by omega
        exact hq h
    · rfl
  have h2 : ∀ (q : Prop) [Decidable q], (q → d.mark (pantryAt c (wordOf (a + bs.length - 1))) = 0) →
      (if q then d.checkWords p c (wordOf (a + bs.length - 1)) 1 else (d, none)) = (d, none) := by
    intro q _ hq
    split
    · rename_i h; exact checkWords_clean 1 fun i hlt => by
        obtain rfl : i = 0 := by omega
        exact hq h
    · rfl
  have hl : bs.length ≠ 0 := by simpa using hn
  refine ⟨_, ?_, produce_written (p := p) (a := a) (n := bs.length) hi⟩
  simp only [Dev.pantryWrite, hl, if_false]
  rw [h1 _ fun h => hfirst (by rcases h with h | ⟨_, h⟩ <;> tauto)]
  simp only
  rw [h2 _ fun h => hlast h.2]

theorem pantryWrite_clean {p : Part} {d : Dev} {c : CoreId} {a : Nat} {bs : List Byte} (hn : bs ≠ [])
    (hi : d.injBits c.site.toNat 1 c.p.toNat = 0)
    (h : ∀ b, a / 8 * 8 ≤ b → b < a + bs.length → d.mark (pantryAt c b) = 0) :
    ∃ e, d.pantryWrite p c a bs = (e, .ok [(pantryAt c a, bs)]) ∧ PantryWritten c a bs.length d e := by
  have hl : bs.length ≠ 0 := by simpa using hn
  refine pantryWrite_of_checked hn hi (fun _ => h _ ?_ ?_) (fun _ => h _ ?_ ?_) <;> simp only [wordOf] <;> omega

/-! ### Loads and stores (R136) -/

theorem lsAddr_eq (k : CoreSt) (rs1 : BitVec 6) (imm : BitVec 12) :
    lsAddr k rs1 imm = (BitVec.ofInt 32 ((k.getS rs1).toInt + imm.toInt)).toNat := by
  unfold lsAddr BitVec.signExtend
  rw [BitVec.ofInt_add, BitVec.ofInt_toInt]

theorem addrCheck_beyond {a al : Nat} (h : 0x3FFFFF < a) : addrCheck a 1 al = some 0x02 := by
  simp [addrCheck, h]
theorem addrCheck_misaligned {a al : Nat} (h : a ≤ 0x3FFFFF) (hm : a % al ≠ 0) : addrCheck a 1 al = some 0x03 := by
  simp [addrCheck, Nat.not_lt.2 h, hm]
theorem addrCheck_ok {a al : Nat} (h : a ≤ 0x3FFFFF) (hm : a % al = 0) : addrCheck a 1 al = none := by
  simp [addrCheck, Nat.not_lt.2 h, hm]

section
variable {s : State} {c : CoreId} {rd rs1 : BitVec 6} {imm : BitVec 12}

theorem load_answers {i : Instr} {n : Nat} {ext : Nat → W32} (h : ready s.part s.dev c [rd, rs1] [] = true)
    (he : exec i s = load c rd rs1 imm n ext s) :
    let a := (BitVec.ofInt 32 (((s.k c).getS rs1).toInt + imm.toInt)).toNat
    Answers i s fun t => (0x3FFFFF < a → Excepts s t c 0x02 (BitVec.ofNat 64 a)) ∧
      (a ≤ 0x3FFFFF → a % n ≠ 0 → Excepts s t c 0x03 (BitVec.ofNat 64 a)) ∧
      (a ≤ 0x3FFFFF → a % n = 0 → Clean s c a n → Retires s t c ((s.k c).setS rd (ext (s.le (pantryAt c a) n)))) := by
  intro a
  have ha : lsAddr (s.k c).take rs1 imm = a := lsAddr_eq (s.k c) rs1 imm
  refine ⟨_, by rw [he, load, issue_ready h], ?_⟩
  simp only [Dev.core_modCore_same, ha]
  refine ⟨fun hb => ?_, fun hb hm => ?_, fun hb hm hc => ?_⟩
  · rw [addrCheck_beyond hb]; exact raiseExc_excepts s c 0x02 _ _
  · rw [addrCheck_misaligned hb hm]; exact raiseExc_excepts s c 0x03 _ _
  · have hr : (s.dev.modCore c CoreSt.take).pantryRead s.part s.mem c a n =
        (s.dev.modCore c CoreSt.take, .ok (Memory.read s.mem (pantryAt c a) n)) := pantryRead_clean hc
    rw [addrCheck_ok hb hm]
    simp only [hr, leNat_read s]
    exact retiresS s c rd _

/-- Retirement of an instruction that has written its core's own pantry. -/
theorem stores_of_written {a : Nat} {bs : List Byte} {e : Dev} (hw : PantryWritten c a bs.length (s.dev.modCore c CoreSt.take) e) :
    Stores s (State.mk s.part (applyWr s.mem [(pantryAt c a, bs)]) (e.retire s.part c) s.pending) c (s.k c) (pantryAt c a) bs := by
  obtain ⟨m, rfl, hm⟩ := hw
  obtain ⟨hk, hcnt, ⟨hcores, hregs, -⟩, -, -⟩ := retires_plain s c
  refine ⟨hk, hcnt, hcores, fun r hr => hregs r (by simpa using hr), rfl, ⟨rfl, rfl⟩, fun b hb => ?_, fun i x hx => ?_, hm⟩
  · simp only [State.byte, applyWr, Memory.get_write]
    rw [if_neg (by omega)]
  · have hi : i < bs.length := (List.getElem?_eq_some_iff.1 hx).1
    simp only [State.byte, applyWr, Memory.get_write]
    rw [if_pos (by omega), Nat.add_sub_cancel_left, List.getD_eq_getElem?_getD, hx]; rfl

theorem store_answers {i : Instr} {n : Nat} (h : ready s.part s.dev c [rd, rs1] [] = true) (hn : 0 < n)
    (he : exec i s = store c rd rs1 imm n s) :
    let a := (BitVec.ofInt 32 (((s.k c).getS rs1).toInt + imm.toInt)).toNat
    Answers i s fun t => (0x3FFFFF < a → Excepts s t c 0x02 (BitVec.ofNat 64 a)) ∧
      (a ≤ 0x3FFFFF → a % n ≠ 0 → Excepts s t c 0x03 (BitVec.ofNat 64 a)) ∧
      (a ≤ 0x3FFFFF → a % n = 0 → Clean s c a n → s.dev.injBits c.site.toNat 1 c.p.toNat = 0 →
        Stores s t c (s.k c) (pantryAt c a) (leBytes n ((s.k c).getS rd).toNat)) := by
  intro a
  have ha : lsAddr (s.k c).take rs1 imm = a := lsAddr_eq (s.k c) rs1 imm
  refine ⟨_, by rw [he, store, issueW_ready h], ?_⟩
  simp only [Dev.core_modCore_same, ha]
  refine ⟨fun hb => ?_, fun hb hm => ?_, fun hb hm hc hi => ?_⟩
  · rw [addrCheck_beyond hb]; exact raiseExc_excepts s c 0x02 _ _
  · rw [addrCheck_misaligned hb hm]; exact raiseExc_excepts s c 0x03 _ _
  · have hne : leBytes n ((s.k c).take.getS rd).toNat ≠ [] := by
      rw [← List.length_pos_iff_ne_nil, leBytes_length]; exact hn
    obtain ⟨e, hw, hwr⟩ := pantryWrite_clean (p := s.part) (d := s.dev.modCore c CoreSt.take) hne hi
      (by rw [leBytes_length]; exact hc)
    rw [addrCheck_ok hb hm]
    simp only [hw]
    exact stores_of_written hwr

end

theorem le_one (s : State) (a : Nat) : s.le a 1 = (s.byte a).toNat := by simp [State.le]

theorem byte_ofNat_toNat (b : Byte) : BitVec.ofNat 8 b.toNat = b := by simp

/-- Settles O3: each load and store is `load` or `store` at its width. -/
theorem pantryLoadsAndStores : Obligations.PantryLoadsAndStores := by
  refine ⟨fun s c rd rs1 imm h => ⟨?_, ?_, ?_, ?_, ?_⟩, fun s c rd rs1 imm h => ⟨?_, ?_, ?_⟩⟩
  · have hl := load_answers h (exec_lb s c rd rs1 imm)
    simp only [le_one, byte_ofNat_toNat] at hl
    exact hl
  · have hl := load_answers h (exec_lbu s c rd rs1 imm)
    simp only [le_one] at hl
    exact hl
  · exact load_answers h (exec_lh s c rd rs1 imm)
  · exact load_answers h (exec_lhu s c rd rs1 imm)
  · exact load_answers h (exec_lw s c rd rs1 imm)
  · exact store_answers h (by decide) (exec_sb s c rd rs1 imm)
  · exact store_answers h (by decide) (exec_sh s c rd rs1 imm)
  · exact store_answers h (by decide) (exec_sw s c rd rs1 imm)

end Sys2Proof.Machine
end

-- Words of a core's own pantry with ECC errors (R60, R136)
section

namespace Sys2Proof.Machine

/-! ### The check of a word that carries an error (R60) -/

/-- PERR names the word, with the bit of the kind of its error. -/
def Dev.notePerr (p : Part) (d : Dev) (c : CoreId) (a i : Nat) : Dev :=
  (d.setF p (coreR c 0x40) 0 22 a).setB p (coreR c 0x40) i true

section
variable (p : Part) (d : Dev) (c : CoreId)

theorem notePerr_fld {a i : Nat} (ha : a < 2 ^ 22) (hi : 22 ≤ i) (hi' : i < 64) :
    (d.notePerr p c a i).fld p (coreR c 0x40) 0 22 = a := by
  unfold Dev.notePerr Dev.setB Dev.fld
  rw [Dev.get_setF_same, bits_withBits_below _ _ (by omega) (by omega)]
  exact (Dev.fld_setF_same p d _ 0 22 a (by omega)).trans (Nat.mod_eq_of_lt ha)

theorem notePerr_bit {a i : Nat} (hi : i < 64) : (d.notePerr p c a i).bit p (coreR c 0x40) i = true :=
  Dev.bit_setB_same p _ _ true hi

theorem notePerr_get_ne {a i z : Nat} (hz : z ≠ coreR c 0x40) : (d.notePerr p c a i).get p z = d.get p z := by
  unfold Dev.notePerr
  rw [Dev.get_setB_ne p _ _ _ hz, Dev.get_setF_ne p _ _ _ _ hz]

theorem coreR_inj (c : CoreId) {a b : Nat} : coreR c a = coreR c b ↔ a = b := by
  unfold coreR ctlAddr; omega

theorem awayFromLog_coreR (c : CoreId) {off : Nat} (h : off < 2 ^ 20) (site : Nat) : AwayFromLog site (coreR c off) :=
  awayFromLog_of_blk (by rw [ctlBlk_coreR c h]; omega)

end

/-- A change of a core's own state and a write of a register leave each other alone. -/
theorem put_modCore (p : Part) (d : Dev) (c : CoreId) (f : CoreSt → CoreSt) (a : Nat) (v : W64) :
    (d.modCore c f).put p a v = (d.put p a v).modCore c f := rfl
theorem notePerr_modCore (p : Part) (d : Dev) (c : CoreId) (f : CoreSt → CoreSt) (a i : Nat) :
    (d.modCore c f).notePerr p c a i = (d.notePerr p c a i).modCore c f := by
  simp only [Dev.notePerr, Dev.setB, Dev.setF, Dev.get_modCore, put_modCore]

/-- A double-bit error in a word is recorded in PERR and answers the check. -/
theorem checkWord_double {p : Part} {d : Dev} {c : CoreId} {a : Nat} (h : (d.mark (pantryAt c a)).getLsbD 1 = true) :
    d.checkWord p c a = (d.notePerr p c a 33, true) := by
  simp only [Dev.checkWord, h, if_true]
  rfl

/-- A single-bit error in word `a` has been corrected, counted and recorded in PERR: no core has changed. -/
structure Corrected (p : Part) (c : CoreId) (a : Nat) (d e : Dev) : Prop where
  core : ∀ k, e.core k = d.core k
  mark : e.mark (pantryAt c a) = 0
  count : e.get p (coreR c 0x128) = countUp (d.get p (coreR c 0x128)) 1
  word : e.fld p (coreR c 0x40) 0 22 = a
  single : e.bit p (coreR c 0x40) 32 = true

theorem noFaults_mark (d : Dev) (a : Nat) : d.noFaults.mark a = d.mark a := rfl
theorem raiseRec_mark (p : Part) (d : Dev) (site : Nat) (f : FaultRec) (o : Option CoreId) (a : Nat) :
    (d.raiseRec p site f o).mark a = d.mark a := by
  rw [← noFaults_mark, raiseRec_noFaults, noFaults_mark]

theorem checkWord_single {p : Part} {d : Dev} {c : CoreId} {a : Nat} (ha : a < 2 ^ 22) (h : d.mark (pantryAt c a) = 1) :
    ∃ e, d.checkWord p c a = (e, false) ∧ Corrected p c a d e := by
  have h1 : (d.mark (pantryAt c a)).getLsbD 1 = false := by rw [h]; decide
  have h0 : (d.mark (pantryAt c a)).getLsbD 0 = true := by rw [h]; decide
  let d2 := ((d.setMark (pantryAt c a) 0).count p (coreR c 0x128) 1).notePerr p c a 32
  refine ⟨d2.coreFault p c 1 0x0102 (BitVec.ofNat 64 a) 0 ((d.mark (pantryAt c a)).getLsbD 2), ?_, ?_⟩
  · simp only [Dev.checkWord, h1, h0, if_true, Bool.false_eq_true, if_false]
    rfl
  · have hr : ∀ f o, RaisedAt p c.site.toNat d2 (d2.raiseRec p c.site.toNat f o) := fun f o => raiseRec_raisedAt f o
    have hg : ∀ off f o, off < 2 ^ 20 → (d2.raiseRec p c.site.toNat f o).get p (coreR c off) = d2.get p (coreR c off) :=
      fun off f o ho => (hr f o).away _ (awayFromLog_coreR c ho _)
    unfold Dev.coreFault
    refine ⟨fun k => (hr _ _).core k, ?_, ?_, ?_, ?_⟩
    · rw [raiseRec_mark]
      exact (Dev.mark_setMark d _ 0 _).trans (if_pos rfl)
    · rw [hg _ _ _ (by decide), notePerr_get_ne p _ c (by rw [Ne, coreR_inj]; decide), Dev.get_count_same, Dev.get_setMark]
    · unfold Dev.fld
      rw [hg _ _ _ (by decide)]
      exact notePerr_fld p _ c ha (by omega) (by omega)
    · unfold Dev.bit
      rw [hg _ _ _ (by decide)]
      exact notePerr_bit p _ c (by omega)

/-! ### Accesses that touch one word -/

theorem wordsIn_one {a n : Nat} (hn : 0 < n) (h : (a + n - 1) / 8 = a / 8) : wordsIn a n = 1 := by
  rw [wordsIn_pos hn]; omega

theorem pantryRead_double {p : Part} {m : List Host.Cell} {d : Dev} {c : CoreId} {a n : Nat} (hn : 0 < n)
    (hw : (a + n - 1) / 8 = a / 8) (h : (d.mark (pantryAt c (a / 8 * 8))).getLsbD 1 = true) :
    d.pantryRead p m c a n = (d.notePerr p c (a / 8 * 8) 33, .error (a / 8 * 8)) := by
  simp only [Dev.pantryRead, wordsIn_one hn hw, Dev.checkWords, wordOf, checkWord_double h]

theorem pantryRead_single {p : Part} {m : List Host.Cell} {d : Dev} {c : CoreId} {a n : Nat} (hn : 0 < n) (ha : a < 2 ^ 22)
    (hw : (a + n - 1) / 8 = a / 8) (h : d.mark (pantryAt c (a / 8 * 8)) = 1) :
    ∃ e, d.pantryRead p m c a n = (e, .ok (Memory.read m (pantryAt c a) n)) ∧ Corrected p c (a / 8 * 8) d e := by
  obtain ⟨e, he, hc⟩ := checkWord_single (p := p) (by omega) h
  exact ⟨e, by simp only [Dev.pantryRead, wordsIn_one hn hw, Dev.checkWords, wordOf, he], hc⟩

theorem pantryWrite_double {p : Part} {d : Dev} {c : CoreId} {a : Nat} {bs : List Byte} (hn : bs ≠ [])
    (hw : (a + bs.length - 1) / 8 = a / 8) (hlt : bs.length < 8)
    (h : (d.mark (pantryAt c (a / 8 * 8))).getLsbD 1 = true) :
    d.pantryWrite p c a bs = (d.notePerr p c (a / 8 * 8) 33, .error (a / 8 * 8)) := by
  have hl : bs.length ≠ 0 := by simpa using hn
  have hp : a % 8 ≠ 0 ∨ (wordOf a = wordOf (a + bs.length - 1) ∧ (a + bs.length) % 8 ≠ 0) := by unfold wordOf; omega
  simp only [Dev.pantryWrite, hl, if_false, if_pos hp, Dev.checkWords]
  simp only [wordOf, checkWord_double h]

/-- An instruction that meets a double-bit error in word `w` of its core's own pantry takes exception 0x08: PERR records
the word. -/
def MeetsDouble (s t : State) (c : CoreId) (w : Nat) : Prop :=
  (t.k c).st = .fault ∧ (t.k c).pc = (s.k c).pc ∧ (t.k c).s = (s.k c).s ∧ (t.k c).ic = (s.k c).ic ∧
  t.reg (coreR c 0x18) = BitVec.ofNat 64 (0x08 + 2 ^ 8 + (s.k c).pc.toNat * 2 ^ 32) ∧ t.reg (coreR c 0x20) = BitVec.ofNat 64 w ∧
  t.field (coreR c 0x40) 0 22 = w ∧ t.dev.bit t.part (coreR c 0x40) 33 = true ∧ ∀ b, t.byte b = s.byte b

/-- Raising exception 0x08 after the check of a word has recorded it. -/
theorem raiseBad_meetsDouble (s : State) (c : CoreId) {w : Nat} (hw : w < 2 ^ 22) :
    MeetsDouble s (State.mk s.part s.mem (((s.dev.modCore c CoreSt.take).notePerr s.part c w 33).raiseBad s.part c w) s.pending)
      c w := by
  have hfld := notePerr_fld s.part s.dev c (i := 33) hw (by omega) (by omega)
  have hbit := notePerr_bit s.part s.dev c (a := w) (i := 33) (by omega)
  have hcore : (s.dev.notePerr s.part c w 33).core c = s.dev.core c := rfl
  rw [notePerr_modCore, Dev.raiseBad]
  generalize s.dev.notePerr s.part c w 33 = e at hfld hbit hcore ⊢
  obtain ⟨hk, hexc, hinfo, -, -, hregs, -, -, hmem⟩ :=
    raiseExc_excepts { s with dev := e } c 0x08 (BitVec.ofNat 64 w) (((e.modCore c CoreSt.take).mark (pantryAt c w)).getLsbD 2)
  have hperr := hregs (coreR c 0x40) (by
    simp only [List.mem_append, List.mem_cons, List.not_mem_nil, or_false, coreR_inj, not_or]
    exact ⟨⟨by decide, by decide⟩, coreR_ne_logRegs c _ _ (by decide) (fld_lt ..)⟩)
  simp only [State.k, hcore] at hk hexc
  exact ⟨(congrArg CoreSt.st hk :), (congrArg CoreSt.pc hk :), (congrArg CoreSt.s hk :), (congrArg CoreSt.ic hk :), hexc, hinfo,
    (congrArg (bits · 0 22) hperr).trans hfld, (congrArg (BitVec.getLsbD · 33) hperr).trans hbit, hmem⟩

section
variable {s : State} {c : CoreId} {rd rs1 : BitVec 6} {imm : BitVec 12}

theorem load_double {i : Instr} {n a : Nat} {ext : Nat → W32} (h : ready s.part s.dev c [rd, rs1] [] = true)
    (he : exec i s = load c rd rs1 imm n ext s) (ha : lsAddr (s.k c) rs1 imm = a) (hb : a ≤ 0x3FFFFF) (hm : a % n = 0) (hn : 0 < n)
    (hw : (a + n - 1) / 8 = a / 8) (hd : (s.dev.mark (pantryAt c (a / 8 * 8))).getLsbD 1 = true) :
    Answers i s fun t => MeetsDouble s t c (a / 8 * 8) := by
  have ha' : lsAddr (s.k c).take rs1 imm = a := ha
  refine ⟨_, by rw [he, load, issue_ready h], ?_⟩
  have hr : (s.dev.modCore c CoreSt.take).pantryRead s.part s.mem c a n = _ := pantryRead_double hn hw hd
  simp only [Dev.core_modCore_same, ha', addrCheck_ok hb hm, hr]
  exact raiseBad_meetsDouble s c (by omega)

theorem store_double {i : Instr} {n a : Nat} (h : ready s.part s.dev c [rd, rs1] [] = true)
    (he : exec i s = store c rd rs1 imm n s) (ha : lsAddr (s.k c) rs1 imm = a) (hb : a ≤ 0x3FFFFF) (hm : a % n = 0) (hn : 0 < n)
    (hlt : n < 8) (hw : (a + n - 1) / 8 = a / 8) (hd : (s.dev.mark (pantryAt c (a / 8 * 8))).getLsbD 1 = true) :
    Answers i s fun t => MeetsDouble s t c (a / 8 * 8) := by
  have ha' : lsAddr (s.k c).take rs1 imm = a := ha
  refine ⟨_, by rw [he, store, issueW_ready h], ?_⟩
  have hne : leBytes n ((s.k c).take.getS rd).toNat ≠ [] := by
    rw [← List.length_pos_iff_ne_nil, leBytes_length]; exact hn
  have hr : (s.dev.modCore c CoreSt.take).pantryWrite s.part c a (leBytes n ((s.k c).take.getS rd).toNat) = _ :=
    pantryWrite_double hne (by rw [leBytes_length]; exact hw) (by rw [leBytes_length]; exact hlt) hd
  simp only [Dev.core_modCore_same, ha', addrCheck_ok hb hm, hr]
  exact raiseBad_meetsDouble s c (by omega)

/-- A load of a word with a single-bit error retires with the word as memory holds it. -/
theorem load_single {i : Instr} {n a : Nat} {ext : Nat → W32} (h : ready s.part s.dev c [rd, rs1] [] = true)
    (he : exec i s = load c rd rs1 imm n ext s) (ha : lsAddr (s.k c) rs1 imm = a) (hb : a ≤ 0x3FFFFF) (hm : a % n = 0) (hn : 0 < n)
    (hw : (a + n - 1) / 8 = a / 8) (hd : s.dev.mark (pantryAt c (a / 8 * 8)) = 1) :
    Answers i s fun t => ∃ e, Corrected s.part c (a / 8 * 8) (s.dev.modCore c CoreSt.take) e ∧
      t = State.mk s.part s.mem (e.retireS s.part c rd (ext (s.le (pantryAt c a) n))) s.pending := by
  have ha' : lsAddr (s.k c).take rs1 imm = a := ha
  refine ⟨_, by rw [he, load, issue_ready h], ?_⟩
  obtain ⟨e, hr, hc⟩ := pantryRead_single (p := s.part) (m := s.mem) (d := s.dev.modCore c CoreSt.take) (c := c) (a := a) (n := n)
    hn (by omega) hw hd
  refine ⟨e, hc, ?_⟩
  simp only [Dev.core_modCore_same, ha', addrCheck_ok hb hm, hr, leNat_read s]

end

theorem retireS_core (p : Part) (d : Dev) (c : CoreId) (rd : BitVec 6) (x : W32) :
    (d.retireS p c rd x).core c = { (d.core c).setS rd x with pc := (d.core c).pc + 4 } := by
  simp only [Dev.retireS, Dev.retire, Dev.retireTo, Dev.core_count, Dev.core_modCore_same, CoreSt.setS_pc]

theorem retireS_get_ne (p : Part) (d : Dev) (c : CoreId) (rd : BitVec 6) (x : W32) {z : Nat} (hz : z ≠ coreR c 0x108) :
    (d.retireS p c rd x).get p z = d.get p z := by
  simp only [Dev.retireS, Dev.retire, Dev.retireTo, Dev.get_count_ne p _ _ hz, Dev.get_modCore]

/-- Settles O4: an aligned access of at most four bytes touches one word, whose check decides it. -/
theorem pantryErrors : Obligations.PantryErrors := by
  intro s c rd rs1 imm h a w hb h4
  have ha : lsAddr (s.k c) rs1 imm = a := lsAddr_eq (s.k c) rs1 imm
  have one : ∀ n ∈ [1, 2, 4], a % n = 0 ∧ 0 < n ∧ (a + n - 1) / 8 = a / 8 := by
    intro n hn
    simp only [List.mem_cons, List.not_mem_nil, or_false] at hn
    obtain rfl | rfl | rfl := hn <;> omega
  constructor
  · intro hd i hi
    suffices Answers i s fun t => MeetsDouble s t c w by
      obtain ⟨t, ht, hst, hpc, hs, -, hrest⟩ := this
      exact ⟨t, ht, hst, hpc, hs, hrest⟩
    simp only [List.mem_cons, List.not_mem_nil, or_false] at hi
    obtain ⟨m4, p4, w4⟩ := one 4 (by decide)
    obtain ⟨m1, p1, w1⟩ := one 1 (by decide)
    obtain ⟨m2, p2, w2⟩ := one 2 (by decide)
    obtain rfl | rfl | rfl | rfl := hi
    · exact load_double h (exec_lw s c rd rs1 imm) ha hb m4 p4 w4 hd
    · exact store_double h (exec_sw s c rd rs1 imm) ha hb m4 p4 (by decide) w4 hd
    · exact load_double h (exec_lbu s c rd rs1 imm) ha hb m1 p1 w1 hd
    · exact store_double h (exec_sh s c rd rs1 imm) ha hb m2 p2 (by decide) w2 hd
  · intro hd
    obtain ⟨m4, p4, w4⟩ := one 4 (by decide)
    obtain ⟨t, ht, e, hc, rfl⟩ := load_single h (exec_lw s c rd rs1 imm) ha hb m4 p4 w4 hd
    refine ⟨_, ht, ?_, hc.mark, ?_, ?_, ?_, fun _ => rfl⟩
    · simp only [State.k, retireS_core, hc.core, Dev.core_modCore_same, CoreSt.setS_take]
      rfl
    · exact (retireS_get_ne s.part e c rd _ (by rw [Ne, coreR_inj]; decide)).trans hc.count
    · exact (congrArg (bits · 0 22) (retireS_get_ne s.part e c rd _ (by rw [Ne, coreR_inj]; decide))).trans hc.word
    · exact (congrArg (BitVec.getLsbD · 32) (retireS_get_ne s.part e c rd _ (by rw [Ne, coreR_inj]; decide))).trans hc.single

end Sys2Proof.Machine
end

-- Vector instructions: issue, and the lanes of a result (R57, R74, R137 to R141)
section

namespace Sys2Proof.Machine

/-! ### Issue -/

/-- An instruction that needs fewer registers may issue where one that needs more may. -/
theorem ready_mono {p : Part} {d : Dev} {c : CoreId} {ss ss' : List (BitVec 6)} {vs vs' : List (BitVec 5)}
    (h : ready p d c ss vs = true) (hs : ss' ⊆ ss) (hv : vs' ⊆ vs) : ready p d c ss' vs' = true := by
  simp only [ready, Bool.and_eq_true, Bool.not_eq_true', List.any_eq_false] at h ⊢
  obtain ⟨⟨hcore, hS⟩, hV⟩ := h
  exact ⟨⟨hcore, fun x hx => hS x (hs hx)⟩, fun x hx => hV x (hv hx)⟩

theorem Retires.retiresWith {s t : State} {c : CoreId} {k : CoreSt} (regs : List Nat) (h : Retires s t c k) :
    RetiresWith s t c k regs := by
  obtain ⟨hk, hcnt, ⟨hcores, hregs, hrest⟩, hfix, hmem⟩ := h
  exact ⟨hk, hcnt, ⟨hcores, fun a ha => hregs a fun hm => ha (List.mem_cons.2 (.inl (List.mem_singleton.1 hm))), hrest⟩, hfix, hmem⟩

/-- Retirement without draws. -/
theorem Retires.issues {s t : State} {c : CoreId} {k : CoreSt} (h : Retires s t c k) : Issues s t c k 0 := by
  refine ⟨h.retiresWith _, ?_⟩
  obtain ⟨-, -, ⟨-, hregs, -⟩, -, -⟩ := h
  exact hregs _ (by simp only [List.mem_singleton, coreR_inj]; decide)

/-- Retirement of an instruction whose core's own state has become `k` but for program counter and STEP. -/
theorem retires_modCore (s : State) (c : CoreId) (g : CoreSt → CoreSt) (k : CoreSt)
    (hg : ∀ pc, { g (s.k c).take with pc := pc } = { k with pc := pc, step := false }) (hpc : (g (s.k c).take).pc = (s.k c).pc) :
    Retires s (State.mk s.part s.mem (((s.dev.modCore c CoreSt.take).modCore c g).retire s.part c) s.pending) c k := by
  unfold Dev.retire
  rw [Dev.core_modCore_same, Dev.core_modCore_same, show s.dev.core c = s.k c from rfl, hpc]
  exact retiresTo_of s c g _ k (hg _)

theorem pushV_retires (s : State) (c : CoreId) (o : VOp) :
    Retires s (State.mk s.part s.mem ((s.dev.modCore c CoreSt.take).pushV s.part c o) s.pending) c
      { s.k c with vq := (s.k c).vq ++ [o] } :=
  retires_modCore s c _ _ (fun _ => rfl) rfl

theorem issueV_ready {c : CoreId} {ss : List (BitVec 6)} {vs : List (BitVec 5)} {s : State}
    (h : ready s.part s.dev c ss vs = true) (hq : (s.k c).vq.length < 16) (f : Part → List Host.Cell → Dev → Dev) :
    issueV c ss vs s f = .next (State.mk s.part s.mem (f s.part s.mem (s.dev.modCore c CoreSt.take)) s.pending) := by
  have hf : (s.dev.core c).vFull = false := by simpa [CoreSt.vFull] using hq
  simp [issueV, State.upd, h, hf]

/-! ### The lanes of a result -/

theorem foldl_lanes (f : Nat → W32 × Events) (l : List Nat) (a : List W32 × Events) :
    l.foldl (fun acc i => (acc.1 ++ [(f i).1], acc.2.or (f i).2)) a =
      (a.1 ++ l.map fun i => (f i).1, l.foldl (fun e i => e.or (f i).2) a.2) := by
  induction l generalizing a with
  | nil => simp
  | cons x l ih => rw [List.foldl_cons, ih]; simp

theorem mapLanes_eq (g : Nat → List W32 → W32 × Events) (srcs : List (List W32)) :
    mapLanes g srcs = ((List.range 64).map fun i => (g i (srcs.map fun x => x.getD i 0)).1,
      (List.range 64).foldl (fun e i => e.or (g i (srcs.map fun x => x.getD i 0)).2) {}) := by
  unfold mapLanes
  rw [foldl_lanes fun i => g i (srcs.map fun x => x.getD i 0)]
  rfl

theorem lanes_getD (k : CoreSt) (v : BitVec 5) {i : Nat} (h : i < 64) : (k.lanes v).getD i 0 = k.lane v i := by
  simp [CoreSt.lanes, List.getD_eq_getElem?_getD, h]

theorem foldl_or_none (f : Nat → Events) (l : List Nat) (hf : ∀ i, f i = {}) :
    l.foldl (fun e i => e.or (f i)) ({} : Events) = {} := by
  induction l with
  | nil => rfl
  | cons x l ih => rw [List.foldl_cons, hf x]; exact ih

/-- Lanes formed from the lanes of registers, one by one, none of which meets an event. -/
theorem mapLanes_lanes (k : CoreSt) (vs : List (BitVec 5)) (f : Nat → List W32 → W32) (r : Nat → W32)
    (hr : ∀ i, i < 64 → f i (vs.map fun v => k.lane v i) = r i) :
    mapLanes (fun i l => (f i l, {})) (vs.map k.lanes) = ((List.range 64).map r, {}) := by
  rw [mapLanes_eq, foldl_or_none _ _ fun _ => rfl]
  congr 1
  refine List.map_congr_left fun i hi => ?_
  have hi := List.mem_range.1 hi
  rw [← hr i hi, List.map_map]
  exact congrArg (f i) (List.map_congr_left fun v _ => lanes_getD k v hi)

theorem laneWr_range (v : BitVec 5) (r : Nat → W32) (n : Nat) :
    laneWr v ((List.range n).map r) = (List.range n).map fun i => (64 * v.toNat + i, r i) := by
  refine List.ext_getElem (by simp [laneWr]) fun i h1 h2 => ?_
  simp [laneWr]

/-! ### Results in the queue -/

section
variable {s : State} {c : CoreId} {vd : BitVec 5} {vs : List (BitVec 5)} {i : Instr}

theorem full_queues (r : Nat → W32) (ev : Events) : Queues s (State.mk s.part s.mem
    ((s.dev.modCore c CoreSt.take).pushV s.part c (VOp.full vd ((List.range 64).map r) ev)) s.pending) c vd r ev.vec 0 := by
  have h := (pushV_retires s c (VOp.full vd ((List.range 64).map r) ev)).issues
  rw [VOp.full, laneWr_range] at h
  exact h

theorem vm_queues {f : List (List W32) → List W32 × Events} {r : Nat → W32} {ev : Events}
    (h : ready s.part s.dev c [] (vd :: vs) = true) (hq : (s.k c).vq.length < 16) (he : exec i s = vm c vd vs s f)
    (hf : f (vs.map (s.k c).lanes) = ((List.range 64).map r, ev)) : Answers i s fun t => Queues s t c vd r ev.vec 0 := by
  refine ⟨_, by rw [he, vm, issueV_ready h hq], ?_⟩
  have hf' : f (vs.map (s.k c).take.lanes) = ((List.range 64).map r, ev) := hf
  simp only [Dev.core_modCore_same, hf']
  exact full_queues r ev

/-- An instruction of major 0x8 that rounds to nearest even reserves no draw. -/
theorem va_queues {ty : VMode} {f : List (Option (BitVec 16)) → List (List W32) → List W32 × Events} {r : Nat → W32} {ev : Events}
    (hty : modeRm ty = .rne) (h : ready s.part s.dev c [] (vd :: vs) = true) (hq : (s.k c).vq.length < 16)
    (he : exec i s = va c ty vd vs s f) (hf : ∀ ds, f ds (vs.map (s.k c).lanes) = ((List.range 64).map r, ev)) :
    Answers i s fun t => Queues s t c vd r ev.vec 0 := by
  refine ⟨_, by rw [he, va, issueV_ready h hq], ?_⟩
  have hf' : ∀ ds, f ds (vs.map (s.k c).take.lanes) = ((List.range 64).map r, ev) := hf
  simp only [hty, Dev.reserve, Dev.core_modCore_same, hf']
  exact full_queues r ev

theorem vm_lanes {f : List (List W32) → List W32 × Events} {r : Nat → W32} (g : List W32 → W32)
    (h : ready s.part s.dev c [] (vd :: vs) = true) (hq : (s.k c).vq.length < 16) (he : exec i s = vm c vd vs s f)
    (hf : ∀ srcs, f srcs = mapLanes (fun _ l => (g l, {})) srcs)
    (hr : ∀ j, j < 64 → g (vs.map fun v => (s.k c).lane v j) = r j) : Answers i s fun t => Queues s t c vd r 0 0 :=
  vm_queues (ev := {}) h hq he (by rw [hf]; exact mapLanes_lanes _ vs (fun _ => g) r hr)

/-- An INT32 instruction forms its lanes one by one and sets no flag. -/
theorem va_lanes {ty : VMode} {f : List (Option (BitVec 16)) → List (List W32) → List W32 × Events} {r : Nat → W32}
    (g : List W32 → W32) (hty : modeRm ty = .rne) (h : ready s.part s.dev c [] (vd :: vs) = true) (hq : (s.k c).vq.length < 16)
    (he : exec i s = va c ty vd vs s f) (hf : ∀ ds srcs, f ds srcs = mapLanes (fun _ l => (g l, {})) srcs)
    (hr : ∀ j, j < 64 → g (vs.map fun v => (s.k c).lane v j) = r j) : Answers i s fun t => Queues s t c vd r 0 0 :=
  va_queues (ev := {}) hty h hq he fun ds => by rw [hf]; exact mapLanes_lanes _ vs (fun _ => g) r hr

theorem va_int32 {fop : List FV → FV} {iop : List W32 → W32} {r : Nat → W32} (h : ready s.part s.dev c [] (vd :: vs) = true)
    (hq : (s.k c).vq.length < 16) (he : exec i s = va c .int32 vd vs s (vaLanes .int32 fop iop))
    (hr : ∀ j, j < 64 → iop (vs.map fun v => (s.k c).lane v j) = r j) : Answers i s fun t => Queues s t c vd r 0 0 :=
  va_lanes iop rfl h hq he (fun _ _ => rfl) hr

theorem va_bits {g : Nat → List Nat → Nat} {r : Nat → W32} (h : ready s.part s.dev c [] (vd :: vs) = true)
    (hq : (s.k c).vq.length < 16) (he : exec i s = va c .int32 vd vs s (fun _ => bitLanes .int32 g))
    (hr : ∀ j, j < 64 → BitVec.ofNat 32 (g 32 ((vs.map fun v => (s.k c).lane v j).map BitVec.toNat)) = r j) :
    Answers i s fun t => Queues s t c vd r 0 0 :=
  va_lanes (fun l => BitVec.ofNat 32 (g 32 (l.map BitVec.toNat))) rfl h hq he (fun _ _ => rfl) hr

end

/-! ### INT32 words (R138, R139) -/

theorem ofInt_toInt_min (x y : W32) : (if x.slt y then x else y) = BitVec.ofInt 32 (min x.toInt y.toInt) := by
  rw [BitVec.slt_eq_decide, Int.min_def]
  by_cases h : x.toInt < y.toInt
  · simp [h, Int.le_of_lt h]
  · obtain h' | h' := Int.le_iff_lt_or_eq.1 (Int.not_lt.1 h)
    · simp [h, Int.not_le.2 h']
    · simp [BitVec.toInt_inj.1 h']

theorem ofInt_toInt_max (x y : W32) : (if x.slt y then y else x) = BitVec.ofInt 32 (max x.toInt y.toInt) := by
  rw [BitVec.slt_eq_decide, Int.max_def]
  by_cases h : x.toInt < y.toInt
  · simp [h, Int.le_of_lt h]
  · obtain h' | h' := Int.le_iff_lt_or_eq.1 (Int.not_lt.1 h)
    · simp [h, Int.not_le.2 h']
    · simp [BitVec.toInt_inj.1 h']

theorem ofNat_neg_word (x : W32) : BitVec.ofNat 32 ((2 ^ 32 - x.toNat) % 2 ^ 32) = BitVec.ofInt 32 (-x.toInt) := by
  rw [BitVec.ofInt_neg, BitVec.ofInt_toInt]
  exact BitVec.eq_of_toNat_eq (by simp [BitVec.toNat_neg])

theorem sub_word (x y : W32) : x - y = BitVec.ofInt 32 (x.toInt - y.toInt) := by
  rw [Int.sub_eq_add_neg, BitVec.ofInt_add, BitVec.ofInt_neg, BitVec.ofInt_toInt, BitVec.ofInt_toInt, BitVec.sub_eq_add_neg]

theorem toInt_neg_iff (x : W32) : x.toInt < 0 ↔ ¬x.toNat < 2 ^ 31 := by
  rw [BitVec.toInt_eq_toNat_cond]
  have := x.isLt
  split <;> omega

/-- A compare's word: all ones where it holds, else zero. -/
theorem cmp_word {b : Bool} {q : Prop} [Decidable q] (h : b = true ↔ q) :
    BitVec.ofNat 32 (if b then 2 ^ 32 - 1 else 0) = BitVec.ofInt 32 (if q then -1 else 0) := by
  by_cases hq : q
  · rw [if_pos (h.2 hq), if_pos hq]; rfl
  · rw [if_neg (fun hb => hq (h.1 hb)), if_neg hq]; rfl

theorem shiftLeft_word (x y : W32) : x <<< sh5 y = BitVec.ofNat 32 (x.toNat * 2 ^ (y.toNat % 32)) := by
  refine BitVec.eq_of_toNat_eq ?_
  rw [BitVec.toNat_shiftLeft, BitVec.toNat_ofNat, Nat.shiftLeft_eq, sh5]

theorem shiftRight_word (x y : W32) : x >>> sh5 y = BitVec.ofNat 32 (x.toNat / 2 ^ (y.toNat % 32)) := by
  refine BitVec.eq_of_toNat_eq ?_
  rw [BitVec.toNat_ushiftRight, BitVec.toNat_ofNat, Nat.shiftRight_eq_div_pow, sh5,
    Nat.mod_eq_of_lt (Nat.lt_of_le_of_lt (Nat.div_le_self ..) x.isLt)]

theorem sshiftRight_word (x y : W32) : x.sshiftRight (sh5 y) = BitVec.ofInt 32 (x.toInt / 2 ^ (y.toNat % 32)) := by
  rw [← BitVec.ofInt_toInt (x := x.sshiftRight _), BitVec.toInt_sshiftRight, Int.shiftRight_eq_div_pow, sh5]
  norm_cast

theorem vcmp_int32 (fcmp : FV → FV → Bool) (icmp : W32 → W32 → Bool) (srcs : List (List W32)) : vcmp .int32 fcmp icmp srcs =
    mapLanes (fun _ l => (BitVec.ofNat 32 (if icmp (BitVec.ofNat 32 (n1 (l.map BitVec.toNat)))
      (BitVec.ofNat 32 (n2 (l.map BitVec.toNat))) then 2 ^ 32 - 1 else 0), {})) srcs := rfl

theorem word_ofNat_toNat (x : W32) : BitVec.ofNat 32 x.toNat = x := by simp

/-- Settles O8: each form's lane function is the one of the rule, lane by lane. -/
theorem vectorIntegerAndLogic : Obligations.VectorIntegerAndLogic := by
  constructor
  · intro s c vd vs1 vs2 vs3 h hq
    have h1 : ready s.part s.dev c [] [vd, vs1] = true := ready_mono h (by simp) (by simp)
    have h2 : ready s.part s.dev c [] [vd, vs1, vs2] = true := ready_mono h (by simp) (by simp)
    have cmp : ∀ {i fcmp icmp} (q : W32 → W32 → Prop) [∀ a b, Decidable (q a b)],
        exec i s = va c .int32 vd [vs1, vs2] s (fun _ => vcmp .int32 fcmp icmp) → (∀ a b, icmp a b = true ↔ q a b) →
        Answers i s fun t => Queues s t c vd (fun j => BitVec.ofInt 32 (if q ((s.k c).lane vs1 j) ((s.k c).lane vs2 j) then -1 else 0)) 0 0 := by
      intro i fcmp icmp q _ he hi
      refine va_lanes _ rfl h2 hq he (fun _ srcs => vcmp_int32 fcmp icmp srcs) fun j _ => ?_
      simp only [List.map_cons, n1, n2, List.getD_cons_zero, List.getD_cons_succ, word_ofNat_toNat]
      exact cmp_word (hi _ _)
    refine ⟨?_, ?_, ?_, ?_, ?_, ?_, ?_, ?_, ?_, ?_, ?_⟩
    · exact va_int32 h2 hq (exec_vadd ..) fun j _ => by
        rw [BitVec.ofInt_add, BitVec.ofInt_toInt, BitVec.ofInt_toInt]; rfl
    · exact va_int32 h2 hq (exec_vsub ..) fun j _ => sub_word _ _
    · exact va_int32 h2 hq (exec_vmul ..) fun j _ => by
        rw [BitVec.ofInt_mul, BitVec.ofInt_toInt, BitVec.ofInt_toInt]; rfl
    · exact va_int32 h2 hq (exec_vmin ..) fun j _ => ofInt_toInt_min _ _
    · exact va_int32 h2 hq (exec_vmax ..) fun j _ => ofInt_toInt_max _ _
    · exact cmp (fun a b => a.toInt = b.toInt) (exec_vceq ..) fun a b => by rw [beq_iff_eq, BitVec.toInt_inj]
    · exact cmp (fun a b => a.toInt < b.toInt) (exec_vclt ..) fun a b => by rw [BitVec.slt_eq_decide, decide_eq_true_iff]
    · exact cmp (fun a b => a.toInt ≤ b.toInt) (exec_vcle ..) fun a b => by rw [BitVec.sle_eq_decide, decide_eq_true_iff]
    · refine va_bits h1 hq (exec_vabs ..) fun j _ => ?_
      simp only [List.map_cons, n1, List.getD_cons_zero, toInt_neg_iff]
      by_cases hx : ((s.k c).lane vs1 j).toNat < 2 ^ 31
      · rw [if_pos hx, if_neg (not_not.2 hx), word_ofNat_toNat, BitVec.ofInt_toInt]
      · rw [if_neg hx, if_pos hx, ofNat_neg_word]
    · exact va_bits h1 hq (exec_vneg ..) fun j _ => ofNat_neg_word _
    · exact va_lanes (fun l => (w1 l &&& l.getD 2 0) ||| (w2 l &&& ~~~ l.getD 2 0)) rfl h hq (exec_vsel ..) (fun _ _ => rfl)
        fun j _ => rfl
  · intro s c vd vs1 vs2 aux h hq
    have h0 : ready s.part s.dev c [] [vd] = true := ready_mono h (by simp) (by simp)
    have h1 : ready s.part s.dev c [] [vd, vs1] = true := ready_mono h (by simp) (by simp)
    have h2 : ready s.part s.dev c [] [vd, vs1, vs2] = true := ready_mono h (by simp) (by simp)
    refine ⟨?_, ?_, ?_, ?_, ?_, ?_, ?_, ?_, ?_, ?_, ?_⟩
    · exact vm_lanes _ h2 hq (exec_vand ..) (fun _ => rfl) fun j _ => rfl
    · exact vm_lanes _ h2 hq (exec_vor ..) (fun _ => rfl) fun j _ => rfl
    · exact vm_lanes _ h2 hq (exec_vxor ..) (fun _ => rfl) fun j _ => rfl
    · exact vm_lanes _ h1 hq (exec_vnot ..) (fun _ => rfl) fun j _ => (BitVec.xor_allOnes (w := 32)).symm
    · exact vm_lanes _ h2 hq (exec_vshl ..) (fun _ => rfl) fun j _ => shiftLeft_word _ _
    · exact vm_lanes _ h2 hq (exec_vshr ..) (fun _ => rfl) fun j _ => shiftRight_word _ _
    · exact vm_lanes _ h2 hq (exec_vsra ..) (fun _ => rfl) fun j _ => sshiftRight_word _ _
    · exact vm_queues (ev := {}) h0 hq (exec_viota ..) rfl
    · exact vm_lanes _ h1 hq (exec_vmov ..) (fun _ => rfl) fun j _ => rfl
    · refine vm_queues (ev := {}) h2 hq (exec_vperm ..) ?_
      refine mapLanes_lanes (s.k c) [vs2] (fun _ x => ((s.k c).lanes vs1).getD ((w1 x).toNat % 64) 0) _ fun j _ => ?_
      exact lanes_getD _ _ (Nat.mod_lt _ (by decide))
    · refine vm_queues (ev := {}) h hq (exec_vperm2 ..) ?_
      refine mapLanes_lanes (s.k c) [vs2] (fun _ x =>
        (([vs1, vs2, aux].map (s.k c).lanes).getD (if (w1 x).getLsbD 6 then 2 else 0) []).getD ((w1 x).toNat % 64) 0) _ fun j _ => ?_
      have hbit : ((s.k c).lane vs2 j).getLsbD 6 = decide (((s.k c).lane vs2 j).toNat / 64 % 2 = 1) := by
        rw [BitVec.getLsbD, Nat.testBit_eq_decide_div_mod_eq]
      simp only [w1, List.map_cons, List.getD_cons_zero, hbit]
      by_cases hb : ((s.k c).lane vs2 j).toNat / 64 % 2 = 1
      · simp only [hb, decide_true, if_true, List.getD_cons_succ, List.getD_cons_zero, Nat.one_ne_zero, if_false]
        exact lanes_getD _ _ (Nat.mod_lt _ (by decide))
      · simp only [hb, decide_false, Bool.false_eq_true, if_false, List.getD_cons_zero]
        rw [if_pos (by omega)]
        exact lanes_getD _ _ (Nat.mod_lt _ (by decide))

end Sys2Proof.Machine
end

-- The assists on special inputs (R75)
section

namespace Sys2Proof.Machine

/-! ### FP32 words -/

/-- The value of an FP32 word by its fields (R98). -/
theorem val32_eq (x : W32) : val32 x =
    if x.toNat / 2 ^ 23 % 256 = 255 then (if x.toNat % 2 ^ 23 = 0 then .inf (x.getLsbD 31) else .nan)
    else if x.toNat / 2 ^ 23 % 256 = 0 then .fin (x.getLsbD 31) (x.toNat % 2 ^ 23) (-149)
    else .fin (x.getLsbD 31) (2 ^ 23 + x.toNat % 2 ^ 23) (-149 + (x.toNat / 2 ^ 23 % 256 : Nat) - 1) := by
  have hs : (x.toNat / 2 ^ (8 + 23) % 2 == 1) = x.getLsbD 31 := by
    rw [BitVec.getLsbD, Nat.testBit_eq_decide_div_mod_eq]
    rfl
  simp only [val32, FFmt.decode, fp32, hs, FFmt.minExp, true_and, reduceCtorEq, false_and, if_false]
  rfl

theorem val32_nan {x : W32} (h : x.toNat % 2 ^ 31 > 0x7F800000) : val32 x = .nan := by
  rw [val32_eq, if_pos (by omega), if_neg (by omega)]

/-- A word that is neither NaN nor counts as zero: an infinity or a value of its sign that is not zero. -/
theorem val32_regular {x : W32} (ht : x.toNat / 2 ^ 23 % 256 ≠ 0) : val32 x = .nan ∨ val32 x = .inf (x.getLsbD 31) ∨
    ∃ m e, m ≠ 0 ∧ val32 x = .fin (x.getLsbD 31) m e := by
  rw [val32_eq, if_neg ht]
  split
  · split
    · exact .inr (.inl rfl)
    · exact .inl rfl
  · exact .inr (.inr ⟨_, _, by omega, rfl⟩)

theorem flushIn_regular {x : W32} (h : x.toNat / 2 ^ 23 % 256 ≠ 0) : flushIn x = x := if_neg h

theorem flushIn_nan {x : W32} (h : x.toNat % 2 ^ 31 > 0x7F800000) : flushIn x = x := flushIn_regular (by omega)

/-- A zero or subnormal word counts as zero of its sign. -/
theorem val32_flushIn_tiny {x : W32} (h : x.toNat / 2 ^ 23 % 256 = 0) : val32 (flushIn x) = .fin (x.getLsbD 31) 0 (-149) := by
  have hx := x.isLt
  have hn : (flushIn x).toNat = x.toNat / 2 ^ 31 * 2 ^ 31 := by
    rw [flushIn, if_pos h, BitVec.toNat_ofNat]; omega
  have hs : (flushIn x).getLsbD 31 = x.getLsbD 31 := by
    simp only [BitVec.getLsbD, Nat.testBit_eq_decide_div_mod_eq, hn]
    congr 1
    have : x.toNat / 2 ^ 31 * 2 ^ 31 / 2 ^ 31 = x.toNat / 2 ^ 31 := by omega
    rw [this]
  rw [val32_eq, hs, hn, if_neg (by omega), if_pos (by omega)]
  congr 1
  omega

theorem val32_inf : val32 0x7F800000 = .inf false ∧ val32 0xFF800000 = .inf true := by
  constructor <;> (rw [val32_eq]; rfl)

/-! ### Comparisons with hundredths -/

/-- Above `a` hundredths: positive, with a magnitude above `a` hundredths. -/
theorem above_iff (neg : Bool) (m a : Nat) (e : Int) :
    (FV.fin false a 0).lt ((FV.fin neg m e).mul (FV.fin false 100 0)) = true ↔ neg = false ∧ magAtMost m e a = false := by
  simp only [FV.mul, FV.lt, FV.scaled, magAtMost, Int.add_zero, decide_eq_true_eq, Bool.false_eq_true, if_false]
  by_cases he : 0 ≤ e
  · simp only [Int.min_eq_left he, if_pos he, Int.sub_zero, Nat.mul_right_comm m 100]
    generalize m * 2 ^ e.toNat = n
    cases neg <;> simp <;> omega
  · rw [Int.min_eq_right (by omega), if_neg he, Int.zero_sub]
    generalize a * 2 ^ (-e).toNat = n
    cases neg <;> simp <;> omega

/-- Below minus `a` hundredths. -/
theorem below_iff (neg : Bool) (m a : Nat) (e : Int) :
    ((FV.fin neg m e).mul (FV.fin false 100 0)).lt (FV.fin true a 0) = true ↔ neg = true ∧ magAtMost m e a = false := by
  simp only [FV.mul, FV.lt, FV.scaled, magAtMost, Int.add_zero, decide_eq_true_eq, if_true]
  by_cases he : 0 ≤ e
  · simp only [Int.min_eq_right he, if_pos he, Int.sub_zero, Nat.mul_right_comm m 100]
    generalize m * 2 ^ e.toNat = n
    cases neg <;> simp <;> omega
  · rw [Int.min_eq_left (by omega), if_neg he, Int.zero_sub]
    generalize a * 2 ^ (-e).toNat = n
    cases neg <;> simp <;> omega

theorem magBelow_of_not_atMost {m a : Nat} {e : Int} (h : magAtMost m e a = false) : magBelow m e a = false := by
  unfold magAtMost at h
  unfold magBelow
  split at h <;> rename_i he
  · rw [if_pos he, decide_eq_false_iff_not]
    exact fun hlt => (decide_eq_false_iff_not.1 h) (Nat.le_of_lt hlt)
  · rw [if_neg he, decide_eq_false_iff_not]
    exact fun hlt => (decide_eq_false_iff_not.1 h) (Nat.le_of_lt hlt)

/-- A zero or subnormal word does not exceed one hundredth in magnitude. -/
theorem magAtMost_tiny {x : W32} {a : Nat} (ha : 1 ≤ a) : magAtMost (x.toNat % 2 ^ 23) (-149) a = true := by
  have h : (2 : Nat) ^ 30 ≤ a * 2 ^ 149 := by
    calc (2 : Nat) ^ 30 ≤ 1 * 2 ^ 149 := by decide
      _ ≤ a * 2 ^ 149 := Nat.mul_le_mul_right _ ha
  simp only [magAtMost]
  rw [if_neg (by decide), decide_eq_true_eq]
  show x.toNat % 2 ^ 23 * 100 ≤ a * 2 ^ 149
  omega

/-- A word above `a` hundredths is positive infinity or a positive value of a magnitude above them, and is not flushed. -/
theorem above_cases {x : W32} {a : Nat} (ha : 1 ≤ a)
    (h : (FV.fin false a 0).lt ((val32 x).mul (FV.fin false 100 0)) = true) : flushIn x = x ∧
      (val32 x = .inf false ∨ ∃ m e, m ≠ 0 ∧ val32 x = .fin false m e ∧ magAtMost m e a = false) := by
  by_cases ht : x.toNat / 2 ^ 23 % 256 = 0
  · rw [val32_eq, if_neg (by omega), if_pos ht, above_iff, magAtMost_tiny ha] at h
    simp at h
  · refine ⟨flushIn_regular ht, ?_⟩
    obtain hv | hv | ⟨m, e, hm, hv⟩ := val32_regular ht
    · rw [hv] at h; simp [FV.mul, FV.lt] at h
    · rw [hv] at h
      have : x.getLsbD 31 = false := by simpa [FV.mul, FV.lt] using h
      exact .inl (by rw [hv, this])
    · rw [hv, above_iff] at h
      exact .inr ⟨m, e, hm, by rw [hv, h.1], h.2⟩

theorem below_cases {x : W32} {a : Nat} (ha : 1 ≤ a)
    (h : ((val32 x).mul (FV.fin false 100 0)).lt (FV.fin true a 0) = true) : flushIn x = x ∧
      (val32 x = .inf true ∨ ∃ m e, m ≠ 0 ∧ val32 x = .fin true m e ∧ magAtMost m e a = false) := by
  by_cases ht : x.toNat / 2 ^ 23 % 256 = 0
  · rw [val32_eq, if_neg (by omega), if_pos ht, below_iff, magAtMost_tiny ha] at h
    simp at h
  · refine ⟨flushIn_regular ht, ?_⟩
    obtain hv | hv | ⟨m, e, hm, hv⟩ := val32_regular ht
    · rw [hv] at h; simp [FV.mul, FV.lt] at h
    · rw [hv] at h
      have : x.getLsbD 31 = true := by simpa [FV.mul, FV.lt] using h
      exact .inl (by rw [hv, this])
    · rw [hv, below_iff] at h
      exact .inr ⟨m, e, hm, by rw [hv, h.1], h.2⟩

/-! ### The assists of one lane -/

section
variable {x : W32}

theorem vexp1_nan (h : x.toNat % 2 ^ 31 > 0x7F800000) : (vexp1 x).1 = 0x7FC00000 := by
  simp only [vexp1, flushIn_nan h, val32_nan h]; rfl
theorem vexp1_tiny (h : x.toNat / 2 ^ 23 % 256 = 0) : (vexp1 x).1 = 0x3F800000 := by
  simp only [vexp1, val32_flushIn_tiny h, if_true]; rfl
theorem vexp1_above (h : (FV.fin false 8872 0).lt ((val32 x).mul (FV.fin false 100 0)) = true) : (vexp1 x).1 = 0x7F800000 := by
  obtain ⟨hf, hv | ⟨m, e, hm, hv, hb⟩⟩ := above_cases (by decide) h
  · simp only [vexp1, hf, hv]; rfl
  · simp only [vexp1, hf, hv, if_neg hm, hb, Bool.not_false, Bool.and_self, if_true]; rfl
theorem vexp1_below (h : ((val32 x).mul (FV.fin false 100 0)).lt (FV.fin true 8733 0) = true) : (vexp1 x).1 = 0 := by
  obtain ⟨hf, hv | ⟨m, e, hm, hv, hb⟩⟩ := below_cases (by decide) h
  · simp only [vexp1, hf, hv, if_true]
  · simp only [vexp1, hf, hv, if_neg hm, hb, Bool.not_true, Bool.false_and, Bool.false_eq_true, if_false, Bool.not_false,
      Bool.and_self, if_true]

theorem vrcp1_nan (h : x.toNat % 2 ^ 31 > 0x7F800000) : (vrcp1 x).1 = 0x7FC00000 := by
  simp only [vrcp1, flushIn_nan h, val32_nan h]; rfl
theorem vrcp1_tiny (h : x.toNat / 2 ^ 23 % 256 = 0) : (vrcp1 x).1 = inf32 (x.getLsbD 31) := by
  simp only [vrcp1, val32_flushIn_tiny h, if_true]
theorem vrcp1_inf : (vrcp1 0x7F800000).1 = 0 ∧ (vrcp1 0xFF800000).1 = 0x80000000 := by
  have h := val32_inf
  constructor
  · simp only [vrcp1, flushIn_regular (x := 0x7F800000) (by decide), h.1]; rfl
  · simp only [vrcp1, flushIn_regular (x := 0xFF800000) (by decide), h.2]; rfl

theorem vrsqrt1_nan (h : x.toNat % 2 ^ 31 > 0x7F800000) : (vrsqrt1 x).1 = 0x7FC00000 := by
  simp only [vrsqrt1, flushIn_nan h, val32_nan h]; rfl
theorem vrsqrt1_tiny (h : x.toNat / 2 ^ 23 % 256 = 0) : (vrsqrt1 x).1 = inf32 (x.getLsbD 31) := by
  simp only [vrsqrt1, val32_flushIn_tiny h, if_true]
theorem vrsqrt1_inf : (vrsqrt1 0x7F800000).1 = 0 := by
  simp only [vrsqrt1, flushIn_regular (x := 0x7F800000) (by decide), val32_inf.1]; rfl
theorem vrsqrt1_neg (ht : x.toNat / 2 ^ 23 % 256 ≠ 0) (hn : x.getLsbD 31 = true) : (vrsqrt1 x).1 = 0x7FC00000 := by
  obtain hv | hv | ⟨m, e, hm, hv⟩ := val32_regular ht
  · simp only [vrsqrt1, flushIn_regular ht, hv]; rfl
  · simp only [vrsqrt1, flushIn_regular ht, hv, hn]; rfl
  · simp only [vrsqrt1, flushIn_regular ht, hv, hn, if_neg hm]; rfl

theorem vtanh1_nan (h : x.toNat % 2 ^ 31 > 0x7F800000) : (vtanh1 x).1 = 0x7FC00000 := by
  simp only [vtanh1, flushIn_nan h, val32_nan h]; rfl
theorem zero32_sign (x : W32) : zero32 (x.getLsbD 31) = x &&& 0x80000000 := by
  exact (BitVec.and_twoPow x 31).symm
theorem vtanh1_tiny (h : x.toNat / 2 ^ 23 % 256 = 0) : (vtanh1 x).1 = x &&& 0x80000000 := by
  simp only [vtanh1, val32_flushIn_tiny h, if_true, zero32_sign]
theorem vtanh1_above (h : (FV.fin false 901 0).lt ((val32 x).mul (FV.fin false 100 0)) = true) : (vtanh1 x).1 = 0x3F800000 := by
  obtain ⟨hf, hv | ⟨m, e, hm, hv, hb⟩⟩ := above_cases (by decide) h
  · simp only [vtanh1, hf, hv]; rfl
  · simp only [vtanh1, hf, hv, if_neg hm, magBelow_of_not_atMost hb, Bool.not_false, if_true]; rfl
theorem vtanh1_below (h : ((val32 x).mul (FV.fin false 100 0)).lt (FV.fin true 901 0) = true) : (vtanh1 x).1 = 0xBF800000 := by
  obtain ⟨hf, hv | ⟨m, e, hm, hv, hb⟩⟩ := below_cases (by decide) h
  · simp only [vtanh1, hf, hv]; rfl
  · simp only [vtanh1, hf, hv, if_neg hm, magBelow_of_not_atMost hb, Bool.not_false, if_true]; rfl

end

/-- A one-lane operation gives its value on every lane. -/
theorem vm_lanes1 {s : State} {c : CoreId} {vd vs1 : BitVec 5} {i : Instr} {g : W32 → W32 × Events}
    (h : ready s.part s.dev c [] [vd, vs1] = true) (hq : (s.k c).vq.length < 16) (he : exec i s = vm c vd [vs1] s (lanes1 g)) :
    Answers i s fun t => ∃ flags, Queues s t c vd (fun j => (g ((s.k c).lane vs1 j)).1) flags 0 := by
  have hl : lanes1 g [(s.k c).lanes vs1] = ((List.range 64).map fun j => (g ((s.k c).lane vs1 j)).1, (lanes1 g [(s.k c).lanes vs1]).2) := by
    refine Prod.ext ?_ rfl
    rw [lanes1, mapLanes_eq]
    dsimp only
    refine (List.map_congr_left fun j hj => ?_)
    simp only [w1, List.map_cons, List.getD_cons_zero, lanes_getD _ _ (List.mem_range.1 hj)]
  obtain ⟨t, ht, hQ⟩ := vm_queues h hq he hl
  exact ⟨t, ht, _, hQ⟩

/-- Settles O10: each assist of one lane on each special input. -/
theorem assistSpecialInputs : Obligations.AssistSpecialInputs := by
  intro s c vd vs1 h hq
  refine ⟨?_, ?_, ?_, ?_⟩
  · obtain ⟨t, ht, fl, hQ⟩ := vm_lanes1 h hq (exec_vexp ..)
    exact ⟨t, ht, _, fl, hQ, fun i _ => ⟨vexp1_nan, vexp1_tiny, vexp1_above, vexp1_below⟩⟩
  · obtain ⟨t, ht, fl, hQ⟩ := vm_lanes1 h hq (exec_vrcp ..)
    refine ⟨t, ht, _, fl, hQ, fun i _ => ⟨vrcp1_nan, fun hx hn => ?_, fun hx hn => ?_, fun hx => ?_, fun hx => ?_⟩⟩
    · rw [vrcp1_tiny hx, hn]; rfl
    · rw [vrcp1_tiny hx, (Bool.not_eq_true _).mp hn]; rfl
    · simp only [hx, vrcp1_inf.1]
    · simp only [hx, vrcp1_inf.2]
  · obtain ⟨t, ht, fl, hQ⟩ := vm_lanes1 h hq (exec_vrsqrt ..)
    refine ⟨t, ht, _, fl, hQ, fun i _ => ⟨vrsqrt1_nan, fun hx hn => ?_, fun hx hn => ?_, fun hx => ?_, vrsqrt1_neg⟩⟩
    · rw [vrsqrt1_tiny hx, hn]; rfl
    · rw [vrsqrt1_tiny hx, (Bool.not_eq_true _).mp hn]; rfl
    · simp only [hx, vrsqrt1_inf]
  · obtain ⟨t, ht, fl, hQ⟩ := vm_lanes1 h hq (exec_vtanh ..)
    exact ⟨t, ht, _, fl, hQ, fun i _ => ⟨vtanh1_nan, vtanh1_tiny, vtanh1_above, vtanh1_below⟩⟩

end Sys2Proof.Machine
end

-- Reductions and the sort (R76, R78)
section

namespace Sys2Proof.Machine

/-! ### Reductions -/

theorem range_map_two (x : Nat → W32) (m : Nat) :
    (List.range (2 * (m + 1))).map x = x 0 :: x 1 :: (List.range (2 * m)).map fun i => x (i + 2) := by
  rw [Nat.mul_succ, List.range_succ_eq_map, List.map_cons, List.range_succ_eq_map, List.map_cons, List.map_cons, List.map_map,
    List.map_map]
  rfl

/-- One level combines lane 2i with lane 2i + 1. -/
theorem pairUp_range (g : W32 → W32 → W32 × Events) (m : Nat) : ∀ x : Nat → W32,
    (pairUp g ((List.range (2 * m)).map x)).1 = (List.range m).map fun i => (g (x (2 * i)) (x (2 * i + 1))).1 := by
  induction m with
  | zero => intro x; rfl
  | succ m ih =>
    intro x
    rw [range_map_two, List.range_succ_eq_map, List.map_cons, List.map_map]
    exact congrArg _ ((ih _).trans (List.map_congr_left fun i _ => rfl))

/-- The tree over pairs already combined is one level higher. -/
theorem pairwise_level (g : W32 → W32 → W32) (x : Nat → W32) (n : Nat) : ∀ i,
    pairwise g (fun j => g (x (2 * j)) (x (2 * j + 1))) n i = pairwise g x (n + 1) i := by
  induction n with
  | zero => intro i; rfl
  | succ n ih => intro i; exact congrArg₂ g (ih _) (ih _)

theorem pairTree_range (g : W32 → W32 → W32 × Events) (n : Nat) : ∀ x : Nat → W32,
    (pairTree g ((List.range (2 ^ n)).map x) n).1 = [pairwise (fun a b => (g a b).1) x n 0] := by
  induction n with
  | zero => intro x; rfl
  | succ n ih =>
    intro x
    have h : pairTree g ((List.range (2 ^ (n + 1))).map x) (n + 1) =
        ((pairTree g (pairUp g ((List.range (2 ^ (n + 1))).map x)).1 n).1, _) := rfl
    rw [h, Nat.pow_succ', pairUp_range, ih, pairwise_level (fun a b => (g a b).1)]

theorem reduce_queues {s : State} {c : CoreId} {vd vs1 : BitVec 5} {i : Instr} (op : FV → FV → FV)
    (h : ready s.part s.dev c [] [vd, vs1] = true) (hq : (s.k c).vq.length < 16)
    (he : exec i s = vm c vd [vs1] s (reduce (fp32Op2 op))) : Answers i s fun t => ∃ flags, Queues s t c vd
      (fun i => if i = 0 then
        pairwise (fun a b => BitVec.ofNat 32 (fp32.convert (op (val32 a) (val32 b)) none .inf).1) ((s.k c).lane vs1) 6 0
        else 0) flags 0 := by
  have ht : (pairTree (fp32Op2 op) ((s.k c).lanes vs1) 6).1 = _ := pairTree_range (fp32Op2 op) 6 ((s.k c).lane vs1)
  have hr : reduce (fp32Op2 op) [(s.k c).lanes vs1] = ((List.range 64).map fun i => if i = 0 then
      pairwise (fun a b => (fp32Op2 op a b).1) ((s.k c).lane vs1) 6 0 else 0, (reduce (fp32Op2 op) [(s.k c).lanes vs1]).2) := by
    refine Prod.ext ?_ rfl
    simp only [reduce, List.getD_cons_zero, ht]
    generalize pairwise _ _ 6 0 = y
    rfl
  obtain ⟨t, ht, hQ⟩ := vm_queues h hq he hr
  exact ⟨t, ht, _, hQ⟩

/-! ### The sort -/

section
variable (κ : Nat → Int)

/-- The order of the sort on lane numbers: by key, and equal keys in lane order. -/
def SortsBefore (i j : Nat) : Prop := κ i < κ j ∨ (κ i = κ j ∧ i < j)

/-- The lanes of a list in the order in which insertion one by one, each after its equals, leaves them. -/
def sortLanes (l : List Nat) : List Nat := l.foldl (fun acc i => acc.orderedInsert (fun i j => κ i < κ j) i) []

theorem foldl_insert_perm (l : List Nat) : ∀ acc : List Nat,
    (l.foldl (fun acc i => acc.orderedInsert (fun i j => κ i < κ j) i) acc).Perm (l ++ acc) := by
  induction l with
  | nil => intro acc; exact .refl _
  | cons i l ih =>
    intro acc
    refine (ih _).trans (((List.perm_orderedInsert _ i acc).append_left l).trans ?_)
    exact List.perm_middle

theorem sortLanes_perm (l : List Nat) : (sortLanes κ l).Perm l := by
  have h := foldl_insert_perm κ l []
  rwa [List.append_nil] at h

/-- A lane with a number above all those sorted is inserted after those that are not to follow it. -/
theorem insert_pairwise (i : Nat) : ∀ acc : List Nat, acc.Pairwise (SortsBefore κ) → (∀ j ∈ acc, j < i) →
    (acc.orderedInsert (fun i j => κ i < κ j) i).Pairwise (SortsBefore κ) := by
  intro acc
  induction acc with
  | nil => intro _ _; simp
  | cons j acc ih =>
    intro hp hlt
    obtain ⟨hj, hacc⟩ := List.pairwise_cons.1 hp
    by_cases h : κ i < κ j
    · rw [List.orderedInsert_cons, if_pos h]
      refine List.pairwise_cons.2 ⟨fun k hk => .inl ?_, hp⟩
      obtain rfl | hk := List.mem_cons.1 hk
      · exact h
      · rcases hj k hk with h' | h' <;> omega
    · rw [List.orderedInsert_cons, if_neg h]
      refine List.pairwise_cons.2 ⟨fun k hk => ?_, ih hacc fun k hk => hlt k (List.mem_cons_of_mem _ hk)⟩
      obtain rfl | hk := List.mem_cons.1 ((List.perm_orderedInsert _ i acc).mem_iff.1 hk)
      · have := hlt j List.mem_cons_self
        unfold SortsBefore; omega
      · exact hj k hk

theorem sortLanes_pairwise (n : Nat) : (sortLanes κ (List.range n)).Pairwise (SortsBefore κ) := by
  induction n with
  | zero => exact .nil
  | succ n ih =>
    have hs : sortLanes κ (List.range (n + 1)) = (sortLanes κ (List.range n)).orderedInsert (fun i j => κ i < κ j) n := by
      simp only [sortLanes, List.range_succ, List.foldl_append, List.foldl_cons, List.foldl_nil]
    rw [hs]
    exact insert_pairwise κ n _ ih fun j hj => List.mem_range.1 ((sortLanes_perm κ _).mem_iff.1 hj)

/-- The model's sort of keys with their words is the sort of the lanes they come from. -/
theorem sortInsert_map (before : Int → Int → Bool) (f : Nat → Int × W32 × W32)
    (hb : ∀ i j, before (f i).1 (f j).1 = true ↔ κ i < κ j) (i : Nat) : ∀ l : List Nat,
    sortInsert before (f i) (l.map f) = (l.orderedInsert (fun i j => κ i < κ j) i).map f := by
  intro l
  induction l with
  | nil => rfl
  | cons j l ih =>
    rw [List.orderedInsert_cons, List.map_cons, sortInsert]
    by_cases h : κ i < κ j
    · rw [if_pos ((hb i j).2 h), if_pos h]; rfl
    · rw [if_neg fun h' => h ((hb i j).1 h'), if_neg h, ih]; rfl

theorem sortAll_map (before : Int → Int → Bool) (f : Nat → Int × W32 × W32)
    (hb : ∀ i j, before (f i).1 (f j).1 = true ↔ κ i < κ j) (l : List Nat) :
    sortAll before (l.map f) = (sortLanes κ l).map f := by
  have h : ∀ acc : List Nat, (l.map f).foldl (fun acc x => sortInsert before x acc) (acc.map f) =
      (l.foldl (fun acc i => acc.orderedInsert (fun i j => κ i < κ j) i) acc).map f := by
    induction l with
    | nil => intro acc; rfl
    | cons i l ih => intro acc; rw [List.map_cons, List.foldl_cons, sortInsert_map κ before f hb, ih]; rfl
  exact h []

end

/-- The key of a word: its signed value, or its place in totalOrder. -/
theorem sortKey_eq (ints : Bool) (x : W32) : sortKey ints x =
    if ints then x.toInt else if x.toNat < 2 ^ 31 then (x.toNat : Int) else 2 ^ 31 - 1 - (x.toNat : Int) := by
  have hs : x.getLsbD 31 = decide (x.toNat / 2 ^ 31 % 2 = 1) := by rw [BitVec.getLsbD, Nat.testBit_eq_decide_div_mod_eq]
  have := x.isLt
  rw [sortKey]
  cases ints
  · simp only [hs, Bool.false_eq_true, if_false, decide_eq_true_eq]
    by_cases h : x.toNat < 2 ^ 31
    · rw [if_pos h, if_neg (by omega)]
    · rw [if_neg h, if_pos (by omega)]; omega
  · rfl

theorem map_getD (l : List Nat) (f : Nat → W32) {n : Nat} (h : l.length = n) :
    l.map f = (List.range n).map fun i => f (l.getD i 0) := by
  refine List.ext_getElem (by simp [h]) fun i h1 h2 => ?_
  have hi : i < l.length := by simpa using h1
  simp [hi]

/-- Settles O11: the reductions by the levels of their tree, the sort by what its insertions keep in order. -/
theorem vectorReductionsAndSort : Obligations.VectorReductionsAndSort := by
  constructor
  · intro s c vd vs1 h hq
    exact ⟨reduce_queues _ h hq (exec_vrsum ..), reduce_queues _ h hq (exec_vrmax ..), reduce_queues _ h hq (exec_vrmin ..)⟩
  · intro s c vd vs1 ints desc h hq key
    let κ : Nat → Int := fun i => if desc then -key i else key i
    let f : Nat → Int × W32 × W32 := fun i => (sortKey ints ((s.k c).lane vd i), (s.k c).lane vd i, (s.k c).lane vs1 i)
    have hkey : ∀ i, (f i).1 = key i := fun i => sortKey_eq ints _
    have hsort : sortAll (fun a b => if desc then decide (b < a) else decide (a < b))
        ((((s.k c).lanes vd).zip ((s.k c).lanes vs1)).map fun x => (sortKey ints x.1, x.1, x.2)) =
        (sortLanes κ (List.range 64)).map f := by
      rw [CoreSt.lanes, CoreSt.lanes, List.zip_map', List.map_map]
      refine sortAll_map κ _ f (fun i j => ?_) _
      rw [hkey, hkey]
      cases desc <;> simp [κ]
    have hlen : (sortLanes κ (List.range 64)).length = 64 := (sortLanes_perm κ _).length_eq.trans List.length_range
    refine ⟨_, by rw [exec_vsort, execVsort, issueV_ready h hq], sortLanes κ (List.range 64), sortLanes_perm κ _,
      (sortLanes_pairwise κ 64).imp fun {i j} hij => ?_, ?_⟩
    · revert hij
      unfold SortsBefore
      cases desc <;> simp [κ]
    · have hsort' := hsort
      rw [show (s.k c).lanes = (s.k c).take.lanes from rfl] at hsort'
      simp only [Dev.core_modCore_same, hsort', List.map_map]
      rw [map_getD _ ((fun x => x.2.2) ∘ f) hlen, map_getD _ ((fun x => x.2.1) ∘ f) hlen, laneWr_range, laneWr_range]
      exact pushV_retires s c _

end Sys2Proof.Machine
end

-- Issue of the matrix instructions (R57, R64 to R67, R126, R143 to R145)
section

namespace Sys2Proof.Machine

/-! ### Retirement beside a write of a register -/

theorem Retires.after_put {s t : State} {c : CoreId} {k : CoreSt} {a : Nat} {v : W64} (ha : a ≠ coreR c 0x108)
    (h : Retires { s with dev := s.dev.put s.part a v } t c k) : RetiresWith s t c k [a] ∧ t.reg a = v := by
  obtain ⟨hk, hcnt, ⟨hcores, hregs, hrest⟩, hfix, hmem⟩ := h
  have hne : ∀ z, z ≠ a → (s.dev.put s.part a v).get s.part z = s.reg z := fun z hz => Dev.get_put_ne s.part s.dev v hz
  refine ⟨⟨hk, hcnt.trans (congrArg (countUp · 1) (hne _ ha.symm)), ⟨hcores, fun z hz => ?_, hrest⟩, hfix, hmem⟩, ?_⟩
  · simp only [List.mem_cons, List.not_mem_nil, or_false, not_or] at hz
    exact (hregs z (by simpa using hz.1)).trans (hne z hz.2)
  · exact (hregs a (by simpa using ha)).trans (Dev.get_put_same s.part s.dev a v)

/-! ### Issue -/

section
variable {s : State} {c : CoreId}

theorem issueM_ready {vs : List (BitVec 5)} (h : ready s.part s.dev c [] vs = true) (hq : (s.k c).mq.length < 8)
    (f : Part → List Host.Cell → Dev → Dev) :
    issueM c vs s f = .next (State.mk s.part s.mem (f s.part s.mem (s.dev.modCore c CoreSt.take)) s.pending) := by
  have hf : (s.dev.core c).mFull = false := by simpa [CoreSt.mFull] using hq
  simp [issueM, State.upd, h, hf]

/-- A matrix instruction whose effect is known answers it. -/
theorem issueM_answers {i : Instr} {vs : List (BitVec 5)} {f : Part → List Host.Cell → Dev → Dev} {P : State → Prop} {e : Dev}
    (h : ready s.part s.dev c [] vs = true) (hq : (s.k c).mq.length < 8) (he : exec i s = issueM c vs s f)
    (hf : f s.part s.mem (s.dev.modCore c CoreSt.take) = e) (hP : P (State.mk s.part s.mem e s.pending)) : Answers i s P :=
  ⟨_, by rw [he, issueM_ready h hq, hf], hP⟩

/-- The state of a core that has entered an operation into its matrix queue. -/
abbrev CoreSt.queuedM (k : CoreSt) (o : MOp) : CoreSt := { k with mq := k.mq ++ [⟨o, k.pc⟩] }

theorem pushM_retires (s : State) (c : CoreId) (o : MOp) :
    Retires s (State.mk s.part s.mem ((s.dev.modCore c CoreSt.take).pushM s.part c o) s.pending) c ((s.k c).queuedM o) :=
  retires_modCore s c _ _ (fun _ => rfl) rfl

theorem issueM_queues {i : Instr} {vs : List (BitVec 5)} {f : Part → List Host.Cell → Dev → Dev} {o : MOp}
    (h : ready s.part s.dev c [] vs = true) (hq : (s.k c).mq.length < 8) (he : exec i s = issueM c vs s f)
    (hf : f s.part s.mem (s.dev.modCore c CoreSt.take) = (s.dev.modCore c CoreSt.take).pushM s.part c o) :
    Answers i s fun t => Retires s t c ((s.k c).queuedM o) :=
  issueM_answers h hq he hf (pushM_retires s c o)

theorem issueM_excepts {i : Instr} {f : Part → List Host.Cell → Dev → Dev} {cause : Nat} {info : W64}
    (h : ready s.part s.dev c [] [] = true) (hq : (s.k c).mq.length < 8) (he : exec i s = issueM c [] s f)
    (hf : f s.part s.mem (s.dev.modCore c CoreSt.take) = (s.dev.modCore c CoreSt.take).raiseExc s.part c cause info) :
    Answers i s fun t => Excepts s t c cause info :=
  issueM_answers h hq he hf (raiseExc_excepts s c cause info false)

end

/-- MX.ST under SR: the draws of every element are reserved (R119). -/
theorem pushM_issues (s : State) (c : CoreId) (o : MOp) (n : Nat) :
    Issues s (State.mk s.part s.mem (((s.dev.modCore c CoreSt.take).put s.part (coreR c 0x38)
      (lfsrSteps (s.reg (coreR c 0x38)) (16 * n))).pushM s.part c o) s.pending) c ((s.k c).queuedM o) n := by
  rw [put_modCore]
  exact Retires.after_put (by rw [Ne, coreR_inj]; decide) (pushM_retires _ c o)

theorem not_beyond {a n : Nat} (h : a + n ≤ 512) : ¬511 < a + n - 1 := by omega

/-- Settles O14: with its checks passed each instruction comes to enter its operation. -/
theorem matrixIssue : Obligations.MatrixIssue := by
  intro s c ta tb arow swap acc rm ovc v h hq a b sets w queued
  have h0 : ready s.part s.dev c [] [] = true := ready_mono h (by simp) (by simp)
  have hk : ((s.dev.modCore c CoreSt.take).core c).getT = (s.k c).getT := by rw [Dev.core_modCore_same]; rfl
  have hs : ((s.dev.modCore c CoreSt.take).core c).setsAtIssue = sets := by rw [Dev.core_modCore_same]; rfl
  refine ⟨fun hr hc ht => ?_, fun f k cl hw hr hp ht hcol harow => ?_, fun cl hra hrb hp hta htb hrow harow => ?_,
    fun hr ht harow => ?_, ?_, ?_⟩
  · refine issueM_queues h0 hq (exec_mxLdw s c tb) ?_
    simp only [hk, b] at hr hc ht ⊢
    simp only [hr, hc, ht, Bool.false_eq_true, if_false]
  · refine issueM_queues h0 hq (exec_mxMul s c ta arow swap acc) ?_
    simp only [hk, hs, a, w] at hw hr hp ht hcol harow ⊢
    simp only [hw, hr, hp, ht, hcol, not_beyond harow, Bool.false_eq_true, if_false, ne_eq, not_true]
  · refine issueM_queues h0 hq (exec_mxOmul s c ta tb arow acc) ?_
    simp only [hk, a, b] at hra hrb hp hta htb hrow harow ⊢
    simp only [hra, hrb, hp, hta, htb, hrow, not_beyond harow, Bool.false_eq_true, if_false, ne_eq, not_true]
  · simp only [a] at hr ht harow
    cases rm
    · refine issueM_answers h0 hq (exec_mxSt s c ta arow .rne ovc) (e := (s.dev.modCore c CoreSt.take).pushM s.part c
        (.st a arow .rne ovc (s.reg (coreR c 0x38)))) ?_ (pushM_retires s c _).issues
      simp only [hk, hr, ht, not_beyond harow, Bool.false_eq_true, if_false]
      rfl
    · refine issueM_answers h0 hq (exec_mxSt s c ta arow .sr ovc) (e := ((s.dev.modCore c CoreSt.take).put s.part (coreR c 0x38)
        (lfsrSteps (s.reg (coreR c 0x38)) (16 * (tdRows a * tdCols a)))).pushM s.part c
        (.st a arow .sr ovc (s.reg (coreR c 0x38)))) ?_ (pushM_issues s c _ _)
      simp only [hk, hr, ht, not_beyond harow, Bool.false_eq_true, if_false]
      rfl
  · exact issueM_queues h hq (exec_mxRdv s c v arow) rfl
  · refine issueM_queues h hq (exec_mxWrv s c v arow) ?_
    rw [Dev.core_modCore_same]
    rfl

end Sys2Proof.Machine
end

-- The exceptions of the matrix instructions (R51, R64, R66, R67, R126, R144)
section

namespace Sys2Proof.Machine

/-! ### Formats and pairs (R64) -/

theorem fmtReserved_iff {f : BitVec 4} : fmtReserved f = true ↔ 12 ≤ f.toNat := by simp [fmtReserved]
theorem fmtReserved_eq_false {f : BitVec 4} (h : f.toNat < 12) : fmtReserved f = false := by simpa [fmtReserved] using h

theorem pairClass_refused {a b : BitVec 4} (h : fmtClass a = 0 ∨ fmtClass b = 0 ∨ ¬(fmtClass a = 16 ↔ fmtClass b = 16)) :
    pairClass a b = none := by
  unfold pairClass
  dsimp only
  by_cases h0 : fmtClass a = 0 ∨ fmtClass b = 0
  · rw [if_pos h0]
  · have h16 : ¬(fmtClass a = 16 ↔ fmtClass b = 16) := by tauto
    rw [if_neg h0, if_neg fun he => h16 (by rw [he]), if_pos (by tauto)]

theorem fmtClass_ne_zero {f : BitVec 4} (h : f ≠ 0) : fmtClass f ≠ 0 := by
  revert h; revert f; decide

theorem rowBytes_bytes (n : Nat) : rowBytes n 8 = n := by unfold rowBytes; omega

/-! ### The checks of a handle (R66, R126) -/

section
variable {t : TDesc} {role : Role} {cl : Nat}

theorem tdCheck_cols_or_six (h : 64 < tdCols t ∨ fmtBits (tdFmt t) = 6 ∧ tdCols t % 4 ≠ 0) (hr : role ≠ .act) :
    tdCheck t role cl = some 2 := by
  cases role with
  | act => exact absurd rfl hr
  | weight => exact if_pos h
  | omul => exact if_pos h
  | out => exact if_pos h

variable (hf : fmtBits (tdFmt t) = 8) (hc : tdCols t ≤ 64)
include hf hc

/-- Check 2 passes for a format of whole bytes. -/
theorem tdCheck_bytes (hr : role ≠ .act) : tdCheck t role cl =
    if role = .weight ∧ classK cl < tdRows t then some 3
    else if tdStride t < tdCols t ∨ tdStride t % 32 ≠ 0 then some 4
    else if 0x3FFFFF < tdBase t + (tdRows t - 1) * tdStride t + tdCols t - 1 ∨
      (scaleBytes (tdScale t) role.wtLayout (tdRows t) (tdCols t) ≠ 0 ∧
        0x3FFFFF < tdSbase t + scaleBytes (tdScale t) role.wtLayout (tdRows t) (tdCols t) - 1) then some 5
    else if (fmtMx (tdFmt t) ∧ tdSgran t ≠ 1) ∨ (fmtOptScale (tdFmt t) ∧ tdScaled t ∧ (tdSgran t = 0 ∨ tdSgran t = 3)) then some 6
    else none := by
  have h2 : ¬(64 < tdCols t ∨ fmtBits (tdFmt t) = 6 ∧ tdCols t % 4 ≠ 0) := by omega
  cases role with
  | act => exact absurd rfl hr
  | weight => simp only [tdCheck, hf, rowBytes_bytes] at h2 ⊢; rw [if_neg h2]
  | omul => simp only [tdCheck, hf, rowBytes_bytes] at h2 ⊢; rw [if_neg h2]
  | out => simp only [tdCheck, hf, rowBytes_bytes] at h2 ⊢; rw [if_neg h2]

theorem tdCheck_rows (h : classK cl < tdRows t) : tdCheck t .weight cl = some 3 := by
  rw [tdCheck_bytes hf hc (by decide), if_pos ⟨rfl, h⟩]

theorem tdCheck_stride (hr : role ≠ .act) (hw : role = .weight → tdRows t ≤ classK cl)
    (h : tdStride t < tdCols t ∨ tdStride t % 32 ≠ 0) : tdCheck t role cl = some 4 := by
  rw [tdCheck_bytes hf hc hr, if_neg fun h' => absurd (hw h'.1) (Nat.not_le.2 h'.2), if_pos h]

variable (hs : tdCols t ≤ tdStride t) (h32 : tdStride t % 32 = 0)
include hs h32

theorem tdCheck_extent (hr : role ≠ .act) (hw : role = .weight → tdRows t ≤ classK cl)
    (h : 0x3FFFFF < tdBase t + (tdRows t - 1) * tdStride t + tdCols t - 1) : tdCheck t role cl = some 5 := by
  rw [tdCheck_bytes hf hc hr, if_neg fun h' => absurd (hw h'.1) (Nat.not_le.2 h'.2), if_neg (by omega), if_pos (.inl h)]

theorem tdCheck_scale (hr : role ≠ .act) (hw : role = .weight → tdRows t ≤ classK cl)
    (he : tdBase t + (tdRows t - 1) * tdStride t + tdCols t ≤ 2 ^ 22)
    (hsc : tdSbase t + scaleBytes (tdScale t) role.wtLayout (tdRows t) (tdCols t) ≤ 2 ^ 22)
    (h : (fmtMx (tdFmt t) ∧ tdSgran t ≠ 1) ∨ (fmtOptScale (tdFmt t) ∧ tdScaled t ∧ (tdSgran t = 0 ∨ tdSgran t = 3))) :
    tdCheck t role cl = some 6 := by
  rw [tdCheck_bytes hf hc hr, if_neg fun h' => absurd (hw h'.1) (Nat.not_le.2 h'.2), if_neg (by omega),
    if_neg (by generalize (tdRows t - 1) * tdStride t = y at he ⊢; omega), if_pos h]

end

theorem beyond {a n : Nat} (h : 512 < a + n) : 511 < a + n - 1 := by omega

/-- Settles O15: each instruction runs into its first failing check. -/
theorem matrixExceptions : Obligations.MatrixExceptions := by
  intro s c h h2 arow acc rm ovc hr hq d g e e2 refused
  have hk : ((s.dev.modCore c CoreSt.take).core c).getT = (s.k c).getT := by rw [Dev.core_modCore_same]; rfl
  have hs : ((s.dev.modCore c CoreSt.take).core c).setsAtIssue = (s.k c).setsAtIssue := by rw [Dev.core_modCore_same]; rfl
  have hd : (s.k c).getT h = d := rfl
  have hg : (s.k c).getT h2 = g := rfl
  have r3 : fmtReserved 3 = false := rfl
  have p3 : pairClass 3 3 = some 8 := rfl
  have c3 : fmtClass 3 = 8 := rfl
  have b3 : tdFmt d = 3 → fmtBits (tdFmt d) = 8 := fun hf => by rw [hf]; rfl
  have low : ∀ {f : BitVec 4}, f.toNat < 12 → fmtReserved f = false := fmtReserved_eq_false
  refine ⟨?_, ?_, ?_, ?_, ?_, ?_, ?_, ?_, ?_, ?_, ?_, ?_, ?_, ?_, ?_, ?_, ?_, ?_, ?_, ?_, ?_⟩
  · intro hf i hi
    have hf := fmtReserved_iff.2 hf
    simp only [List.mem_cons, List.not_mem_nil, or_false] at hi
    obtain rfl | rfl | rfl | rfl := hi
    · refine issueM_excepts hr hq (exec_mxLdw s c h) ?_
      simp only [hk, hd, hf, if_true]; rfl
    · refine issueM_excepts hr hq (exec_mxMul s c h arow false acc) ?_
      simp only [hk, hd, hf, if_true]; rfl
    · refine issueM_excepts hr hq (exec_mxOmul s c h h2 arow acc) ?_
      simp only [hk, hd, hf, if_true]; rfl
    · refine issueM_excepts hr hq (exec_mxSt s c h arow rm ovc) ?_
      simp only [hk, hd, hf, if_true]; rfl
  · intro hf hf2
    refine issueM_excepts hr hq (exec_mxOmul s c h h2 arow acc) ?_
    simp only [hk, hd, hg, low hf, fmtReserved_iff.2 hf2, Bool.false_eq_true, if_false, if_true]; rfl
  · intro hf hf2 hp
    refine issueM_excepts hr hq (exec_mxOmul s c h h2 arow acc) ?_
    simp only [hk, hd, hg, low hf, low hf2, pairClass_refused hp, Bool.false_eq_true, if_false]; rfl
  · intro f n hw hf hp
    refine issueM_excepts hr hq (exec_mxMul s c h arow false acc) ?_
    simp only [hk, hs, hd, low hf, hw, pairClass_refused hp, Bool.false_and, Bool.false_eq_true, if_false]; rfl
  · intro hf hf2 hc
    refine issueM_excepts hr hq (exec_mxOmul s c h h2 arow acc) ?_
    simp only [hk, hd, hg, hf, hf2, r3, p3, tdCheck_cols_or_six (role := .omul) (cl := 8) (.inl hc) (by decide), Bool.false_eq_true,
      if_false]; rfl
  · intro hf hf2 hc hc2
    refine issueM_excepts hr hq (exec_mxOmul s c h h2 arow acc) ?_
    simp only [hk, hd, hg, hf, hf2, r3, p3, hc, tdCheck_cols_or_six (role := .omul) (cl := 8) (.inl hc2) (by decide),
      Bool.false_eq_true, if_false]; rfl
  · intro hf hc i hi
    have h6 : fmtBits (tdFmt d) = 6 ∧ tdCols d % 4 ≠ 0 := ⟨by rw [hf]; rfl, hc⟩
    have r9 : fmtReserved 9 = false := rfl
    simp only [List.mem_cons, List.not_mem_nil, or_false] at hi
    obtain rfl | rfl := hi
    · refine issueM_excepts hr hq (exec_mxLdw s c h) ?_
      simp only [hk, hd, tdCheck_cols_or_six (role := .weight) (.inr h6) (by decide)]
      simp only [hf, r9, fmtClass_ne_zero (f := 9) (by decide), Bool.false_eq_true, if_false]; rfl
    · refine issueM_excepts hr hq (exec_mxSt s c h arow rm ovc) ?_
      simp only [hk, hd, hf, r9, tdCheck_cols_or_six (role := .out) (cl := 0) (.inr h6) (by decide), Bool.false_eq_true, if_false]; rfl
  · intro hf hsg hc hrows hst h32 hb hsb
    have r7 : fmtReserved 7 = false := rfl
    have c7 : fmtClass 7 = 8 := rfl
    have h8 : fmtBits (tdFmt d) = 8 := by rw [hf]; rfl
    have hmx : fmtMx (tdFmt d) = true := by rw [hf]; rfl
    have hsc : tdScale d = .block := by simp only [tdScale, hmx, if_true]
    have hch : tdCheck d .weight 8 = some 6 :=
      tdCheck_scale h8 hc hst h32 (by decide) (fun _ => hrows) hb (by rw [hsc]; exact hsb) (.inl ⟨hmx, hsg⟩)
    refine issueM_excepts hr hq (exec_mxLdw s c h) ?_
    simp only [hk, hd, hf, r7, c7, hch, Nat.reduceEqDiff, Bool.false_eq_true, if_false]; rfl
  · intro hf hsd hsg hc hst h32 hb
    have hno : fmtMx (tdFmt d) = false := by rw [hf]; rfl
    have hopt : fmtOptScale (tdFmt d) = true := by rw [hf]; rfl
    have hsc : tdScale d = .none := by
      simp only [tdScale, hno, hopt, hsd, Bool.and_self, Bool.false_eq_true, if_false, if_true]
      rw [if_neg (by omega), if_neg (by omega)]
    have hch : tdCheck d .out 0 = some 6 :=
      tdCheck_scale (b3 hf) hc hst h32 (by decide) (fun hw => nomatch hw) hb
        (by rw [hsc]; exact Nat.le_of_lt (Nat.mod_lt _ (by decide))) (.inr ⟨hopt, hsd, hsg⟩)
    refine issueM_excepts hr hq (exec_mxSt s c h arow rm ovc) ?_
    simp only [hk, hd, hf, r3, hch, Bool.false_eq_true, if_false]; rfl
  · intro n hw hf hc hn
    refine issueM_excepts hr hq (exec_mxMul s c h arow false acc) ?_
    simp only [hk, hs, hd, hf, r3, p3, hw, hc, Bool.false_and, Bool.false_eq_true, if_false, ne_eq, hn, not_false_eq_true, if_true]; rfl
  · intro hf hf2 hc hc2 hrow
    refine issueM_excepts hr hq (exec_mxOmul s c h h2 arow acc) ?_
    simp only [hk, hd, hg, hf, hf2, r3, p3, hc, hc2, Bool.false_eq_true, if_false, ne_eq, hrow, not_false_eq_true, if_true]; rfl
  · intro hw hf hc hbig
    refine issueM_excepts hr hq (exec_mxMul s c h arow false acc) ?_
    simp only [hk, hs, hd, hf, r3, p3, hw, hc, Bool.false_and, Bool.false_eq_true, if_false, ne_eq, not_true, beyond hbig, if_true]; rfl
  · intro hf hf2 hc hc2 hrow hbig
    refine issueM_excepts hr hq (exec_mxOmul s c h h2 arow acc) ?_
    simp only [hk, hd, hg, hf, hf2, r3, p3, hc, hc2, Bool.false_eq_true, if_false, ne_eq, hrow, not_true, beyond hbig, if_true]; rfl
  · intro hf
    have r0 : fmtReserved 0 = false := rfl
    have c0 : fmtClass 0 = 0 := rfl
    refine issueM_excepts hr hq (exec_mxLdw s c h) ?_
    simp only [hk, hd, hf, r0, c0, Bool.false_eq_true, if_false, if_true]; rfl
  · intro hf h0 hc
    refine issueM_excepts hr hq (exec_mxLdw s c h) ?_
    simp only [hk, hd, low hf, fmtClass_ne_zero h0, tdCheck_cols_or_six (role := .weight) (.inl hc) (by decide), Bool.false_eq_true,
      if_false]; rfl
  · intro hf hc
    refine issueM_excepts hr hq (exec_mxSt s c h arow rm ovc) ?_
    simp only [hk, hd, low hf, tdCheck_cols_or_six (role := .out) (cl := 0) (.inl hc) (by decide), Bool.false_eq_true, if_false]; rfl
  · intro hf hc hrow
    have hch : tdCheck d .weight 8 = some 3 := tdCheck_rows (b3 hf) hc hrow
    refine issueM_excepts hr hq (exec_mxLdw s c h) ?_
    simp only [hk, hd, hf, r3, c3, hch, Nat.reduceEqDiff, Bool.false_eq_true, if_false]; rfl
  · intro hf hc hrow hst
    have hch : tdCheck d .weight 8 = some 4 := tdCheck_stride (b3 hf) hc (by decide) (fun _ => hrow) hst
    refine issueM_excepts hr hq (exec_mxLdw s c h) ?_
    simp only [hk, hd, hf, r3, c3, hch, Nat.reduceEqDiff, Bool.false_eq_true, if_false]; rfl
  · intro hf _ hc hst h32 hb
    have hch : tdCheck d .out 0 = some 5 := tdCheck_extent (b3 hf) hc hst h32 (by decide) (fun hw => nomatch hw) hb
    refine issueM_excepts hr hq (exec_mxSt s c h arow rm ovc) ?_
    simp only [hk, hd, hf, r3, hch, Bool.false_eq_true, if_false]; rfl
  · intro hf hc hw
    refine issueM_excepts hr hq (exec_mxMul s c h arow false acc) ?_
    simp only [hk, hs, hd, hf, r3, c3, hw, hc, Nat.reduceEqDiff, Bool.false_and, Bool.false_eq_true, if_false]
    rw [BitVec.zeroExtend, BitVec.ofNat_toNat]
  · intro hf hc hbig
    refine issueM_excepts hr hq (exec_mxSt s c h arow rm ovc) ?_
    simp only [hk, hd, low hf, hc, beyond hbig, Bool.false_eq_true, if_false, if_true]; rfl

end Sys2Proof.Machine
end

-- Start of a queued matrix operation (R67, R71, R72, R101 to R104, R145, R492, R493)
section

namespace Sys2Proof.Machine

/-! ### Tiles read from a pantry whose words carry no error -/

theorem read_eq_map (m : List Host.Cell) (n : Nat) : ∀ a,
    Memory.read m a n = (List.range n).map fun i => Memory.get m (a + i) := by
  induction n with
  | zero => intro a; rfl
  | succ n ih =>
    intro a
    rw [Memory.read, ih, List.range_succ_eq_map, List.map_cons, List.map_map]
    refine congrArg _ (List.map_congr_left fun i _ => ?_)
    simp only [Function.comp_apply, Nat.succ_eq_add_one]
    congr 1; omega

/-- A piece of a run of bytes is the run of its own addresses. -/
theorem read_drop_take (m : List Host.Cell) {a n i k : Nat} (h : i + k ≤ n) :
    ((Memory.read m a n).drop i).take k = Memory.read m (a + i) k := by
  refine List.ext_getElem? fun j => ?_
  rw [List.getElem?_take]
  split
  next hj => rw [List.getElem?_drop, read_getElem? m n a _ (by omega), read_getElem? m k _ _ hj, Nat.add_assoc]
  next hj => rw [List.getElem?_eq_none (by rw [read_length]; omega)]

theorem readRows_clean {s : State} {d : Dev} {c : CoreId} (hm : d.mark = s.dev.mark) (stride rb n : Nat) : ∀ a,
    (∀ r, r < n → Clean s c (a + r * stride) rb) → d.readRows s.part s.mem c a stride rb n =
      (d, .ok ((List.range n).map fun r => s.le (pantryAt c (a + r * stride)) rb)) := by
  induction n with
  | zero => intro a _; rfl
  | succ n ih =>
    intro a h
    have h0 : Clean s c a rb := by simpa using h 0 (by omega)
    have hr : ∀ r, a + stride + r * stride = a + (r + 1) * stride := fun r => by ring
    have ht := ih (a + stride) fun r hlt => by rw [hr]; exact h (r + 1) (by omega)
    have hp : d.pantryRead s.part s.mem c a rb = (d, .ok (Memory.read s.mem (pantryAt c a) rb)) :=
      pantryRead_clean (by rw [hm]; exact h0)
    simp only [Dev.readRows, hp, ht, leNat_read s]
    rw [List.range_succ_eq_map, List.map_cons, List.map_map, Nat.zero_mul, Nat.add_zero]
    simp only [hr]
    rfl

theorem decodeScales_read (s : State) (sk : ScaleKind) (a n : Nat) : decodeScales sk (Memory.read s.mem a n) =
    match sk with
    | .none => []
    | .block => (List.range n).map fun i => e8m0 (s.byte (a + i)).toNat
    | .row => (List.range (n / 4)).map fun i => fp32.decode (s.le (a + 4 * i) 4) := by
  cases sk with
  | none => rfl
  | block => simp only [decodeScales, read_eq_map, List.map_map]; rfl
  | row =>
    simp only [decodeScales, read_length]
    refine List.map_congr_left fun i hi => ?_
    have hi := List.mem_range.1 hi
    rw [read_drop_take s.mem (by omega), leNat_read]

theorem readTile_clean {s : State} {d : Dev} {c : CoreId} {t : TDesc} {wt : Bool} (hm : d.mark = s.dev.mark)
    (h : CleanTile s c t wt) : d.readTile s.part s.mem c t wt = (d, .ok (s.tile c t wt)) := by
  obtain ⟨hrows, hsc⟩ := h
  have hp : d.pantryRead s.part s.mem c (tdSbase t) (scaleBytes (tdScale t) wt (tdRows t) (tdCols t)) = _ :=
    pantryRead_clean (by rw [hm]; exact hsc)
  simp only [Dev.readTile, readRows_clean hm _ _ _ _ hrows, hp, decodeScales_read, List.flatMap_map, elemAt, State.tile, pantryAt]
  congr 2
  cases tdScale t <;> simp only [Nat.add_assoc]

/-! ### The rest before an array operation (R492, R493) -/

theorem withBits_self (w : W64) (lo n : Nat) : withBits w lo n (bits w lo n) = w := by
  have hb : bits w lo n * 2 ^ lo ≤ w.toNat := by
    unfold bits
    exact (Nat.mul_le_mul_right _ (Nat.mod_le ..)).trans (Nat.div_mul_le_self ..)
  unfold withBits
  rw [Nat.mod_eq_of_lt (bits_lt w lo n), Nat.sub_add_cancel hb, BitVec.ofNat_toNat, BitVec.setWidth_eq]

/-- The device after the rest before an array operation and a rise of the rest fraction: what may have changed is the
core's rest counter, CNT_REST, and the fraction. -/
structure Rested (p : Part) (c : CoreId) (d e : Dev) : Prop where
  own : e.core c = { d.core c with restCnt := 0 }
  core : ∀ k, k ≠ c → e.core k = d.core k
  frac : e.restFrac p c.site.toNat = max (d.restFrac p c.site.toNat) (d.restTarget p c.site.toNat)
  thm : e.get p (thmR c.site.toNat 8) =
    withBits (d.get p (thmR c.site.toNat 8)) 0 4 (max (d.restFrac p c.site.toNat) (d.restTarget p c.site.toNat))
  away : ∀ z, z ≠ mxuR c 0x110 → z ≠ thmR c.site.toNat 8 → e.get p z = d.get p z
  mark : e.mark = d.mark

theorem restTarget_lt (p : Part) (d : Dev) (w : Nat) : d.restTarget p w < 16 := by
  unfold Dev.restTarget
  split <;> omega

/-- The fraction that the components call for is decided by their register alone. -/
theorem restTarget_congr {p : Part} {d e : Dev} {w : Nat} (hs : e.stopStep = d.stopStep)
    (h : e.get p (thmR w 8) = d.get p (thmR w 8)) : e.restTarget p w = d.restTarget p w := by
  simp only [Dev.restTarget, Dev.fld, hs, h]

theorem thmR_ne_mxuR {w : Nat} {c : CoreId} {a b : Nat} (ha : a < 2 ^ 20) (hb : b < 2 ^ 20) : thmR w a ≠ mxuR c b := by
  have hp := c.p.isLt
  rw [thmR, mxuR, Ne, ctlAddr_inj (by omega) ha (by omega) hb]
  omega

theorem restRaise_frac (p : Part) (d : Dev) (w : Nat) :
    (d.restRaise p w).get p (thmR w 8) = withBits (d.get p (thmR w 8)) 0 4 (max (d.restFrac p w) (d.restTarget p w)) := by
  unfold Dev.restRaise
  split
  next h => rw [Dev.get_setF_same, Nat.max_eq_right (Nat.le_of_lt h)]
  next h =>
    rw [Nat.max_eq_left (Nat.not_lt.1 h)]
    exact (withBits_self _ 0 4).symm

theorem restRaise_rest (p : Part) (d : Dev) (w : Nat) : (d.restRaise p w).noRegs = d.noRegs ∧
    ∀ z, z ≠ thmR w 8 → (d.restRaise p w).get p z = d.get p z := by
  unfold Dev.restRaise
  split
  · exact ⟨setF_noRegs .., fun z hz => Dev.get_setF_ne p d 0 4 _ hz⟩
  · exact ⟨rfl, fun _ _ => rfl⟩

theorem noRegs_core (d : Dev) (c : CoreId) : d.noRegs.core c = d.core c := rfl
theorem noRegs_mark (d : Dev) : d.noRegs.mark = d.mark := rfl

theorem rested (p : Part) (d : Dev) (c : CoreId) (idle : Nat) :
    Rested p c d ((d.insertRest p c idle).restRaise p c.site.toNat) := by
  obtain ⟨wait, hi⟩ : ∃ n, d.insertRest p c idle = (d.modCore c fun k => { k with restCnt := 0 }).count p (mxuR c 0x110) n := ⟨_, rfl⟩
  rw [hi]
  have hne : thmR c.site.toNat 8 ≠ mxuR c 0x110 := thmR_ne_mxuR (by decide) (by decide)
  have hthm : ((d.modCore c fun k => { k with restCnt := 0 }).count p (mxuR c 0x110) wait).get p (thmR c.site.toNat 8) =
      d.get p (thmR c.site.toNat 8) := Dev.get_count_ne p _ _ hne
  have htar : ((d.modCore c fun k => { k with restCnt := 0 }).count p (mxuR c 0x110) wait).restTarget p c.site.toNat =
      d.restTarget p c.site.toNat := restTarget_congr (by rw [Dev.count_stopStep, Dev.modCore_stopStep]) hthm
  have hfrac : ((d.modCore c fun k => { k with restCnt := 0 }).count p (mxuR c 0x110) wait).restFrac p c.site.toNat =
      d.restFrac p c.site.toNat := congrArg (bits · 0 4) hthm
  have hcore : ∀ k, ((d.modCore c fun k => { k with restCnt := 0 }).count p (mxuR c 0x110) wait).core k =
      (d.modCore c fun k => { k with restCnt := 0 }).core k := fun k => Dev.core_count ..
  have haway : ∀ z, z ≠ mxuR c 0x110 →
      ((d.modCore c fun k => { k with restCnt := 0 }).count p (mxuR c 0x110) wait).get p z = d.get p z :=
    fun z hz => Dev.get_count_ne p _ _ hz
  have hmark : ((d.modCore c fun k => { k with restCnt := 0 }).count p (mxuR c 0x110) wait).mark = d.mark := rfl
  generalize (d.modCore c fun k => { k with restCnt := 0 }).count p (mxuR c 0x110) wait = e at *
  obtain ⟨hrest, hget⟩ := restRaise_rest p e c.site.toNat
  have hcore' : ∀ k, (e.restRaise p c.site.toNat).core k = e.core k := fun k => by rw [← noRegs_core, hrest, noRegs_core]
  have hthm' := restRaise_frac p e c.site.toNat
  rw [hthm, htar, hfrac] at hthm'
  refine ⟨?_, fun k hk => ?_, ?_, hthm', fun z h1 h2 => ?_, ?_⟩
  · rw [hcore', hcore, Dev.core_modCore_same]
  · rw [hcore', hcore, Dev.core_modCore_ne _ _ hk]
  · have hlt : max (d.restFrac p c.site.toNat) (d.restTarget p c.site.toNat) < 2 ^ 4 :=
      max_lt (fld_lt ..) (restTarget_lt ..)
    exact (congrArg (bits · 0 4) hthm').trans ((bits_withBits_same _ 0 4 _ (by decide)).trans (Nat.mod_eq_of_lt hlt))
  · rw [hget z h2, haway z h1]
  · rw [← noRegs_mark, hrest, noRegs_mark, hmark]

/-! ### The start -/

/-- What the device has become beside the core's own state, for an operation that the array does not run. -/
theorem modCore_kept (s : State) (c : CoreId) (f : CoreSt → CoreSt) :
    (∀ e, e ≠ c → (s.dev.modCore c f).core e = s.k e) ∧ (∀ x, (s.dev.modCore c f).get s.part x = s.reg x) :=
  ⟨fun _ he => Dev.core_modCore_ne _ _ he, fun _ => rfl⟩

/-- The weight sets as an MX.MUL uses them. -/
def CoreSt.swapSets (k : CoreSt) (swap : Bool) : CoreSt :=
  if swap && k.wShadow.isSome then { k with wActive := k.wShadow, wShadow := none } else k

theorem swapSets_eq (k : CoreSt) (swap : Bool) : k.swapSets swap =
    { k with wActive := if swap && k.wShadow.isSome then k.wShadow else k.wActive, wShadow := if swap then none else k.wShadow } := by
  cases swap
  · rfl
  · cases h : k.wShadow with
    | none => simp [CoreSt.swapSets, h]; rw [← h]
    | some x => simp [CoreSt.swapSets, h]

section
variable {s : State} {c : CoreId} {idle : BitVec 32} {o : MOp} {pc : BitVec 22} {rest : List MQ}

/-- An operation of the array has started on tiles `a` and `w` in a device that has rested. -/
theorem array_starts {d : Dev} {a : Tile} {w : Option Tile} {k' : CoreSt} {g : CoreSt → CoreSt}
    (hd : Rested s.part c (s.dev.modCore c fun k => { k with mq := rest }) d)
    (hg : g { s.k c with mq := rest, restCnt := 0 } = { k' with mq := rest, mrun := (s.k c).mrun, restCnt := 0 }) :
    let frac := max (s.dev.restFrac s.part c.site.toNat) (s.dev.restTarget s.part c.site.toNat)
    let d1 := (d.modCore c g).modCore c fun k => { k with mrun := k.mrun ++ [⟨o, pc, some a, w⟩] }
    let e := match w with
      | some y => d1.occupy s.part c (o.cycles a y)
      | none => d1
    e.core c = { k' with
        restCnt := (match w with
          | some y => BitVec.ofNat 32 (min 65535 (frac * o.cycles a y))
          | none => 0)
        mq := rest, mrun := (s.k c).mrun ++ [⟨o, pc, some a, w⟩] } ∧
      (∀ k, k ≠ c → e.core k = s.k k) ∧
      (∀ x, x ≠ mxuR c 0x110 → x ≠ thmR c.site.toNat 8 → e.get s.part x = s.reg x) ∧
      e.get s.part (thmR c.site.toNat 8) = withBits (s.reg (thmR c.site.toNat 8)) 0 4 frac := by
  intro frac d1 e
  have hown : d.core c = { s.k c with mq := rest, restCnt := 0 } := by rw [hd.own, Dev.core_modCore_same]
  have hother : ∀ k, k ≠ c → d.core k = s.k k := fun k hk => by rw [hd.core k hk, Dev.core_modCore_ne _ _ hk]
  have hf : d.restFrac s.part c.site.toNat = frac := hd.frac
  have h1 : d1.core c = { k' with mq := rest, mrun := (s.k c).mrun ++ [⟨o, pc, some a, w⟩], restCnt := 0 } := by
    simp only [d1, Dev.core_modCore_same, hown, hg]
  have h1' : ∀ k, k ≠ c → d1.core k = s.k k := fun k hk => by
    simp only [d1, Dev.core_modCore_ne _ _ hk, hother k hk]
  have h1r : d1.restFrac s.part c.site.toNat = frac := hf
  have h1g : ∀ x, d1.get s.part x = d.get s.part x := fun x => rfl
  cases w with
  | none => exact ⟨h1, h1', hd.away, hd.thm⟩
  | some y =>
    refine ⟨?_, fun k hk => ?_, fun x ha hb => hd.away x ha hb, hd.thm⟩
    · simp only [e, Dev.occupy, Dev.core_modCore_same, h1, h1r]
      rw [show (0 : BitVec 32).toNat = 0 from rfl, Nat.zero_add]
    · simp only [e, Dev.occupy, Dev.core_modCore_ne _ _ hk, h1' k hk]

end

/-- Settles O16: the operands are those memory holds, and an operation of the array starts after its rest. -/
theorem matrixStart : Obligations.MatrixStart := by
  intro s c idle q rest hheld hmq hfollow k frac starts occupied
  obtain ⟨op, pc⟩ := q
  have hmq' : (s.dev.core c).mq = ⟨op, pc⟩ :: rest := hmq
  have hall : ((s.dev.core c).mrun.all fun r => mayFollow op r.op) = true := List.all_eq_true.2 hfollow
  have hm : ∀ f g, ((s.dev.modCore c f).modCore c g).mark = s.dev.mark := fun _ _ => rfl
  have two : ∀ f g, ((s.dev.modCore c f).modCore c g).core c = g (f (s.k c)) ∧
      ∀ e, e ≠ c → ((s.dev.modCore c f).modCore c g).core e = s.k e := fun f g =>
    ⟨by simp only [Dev.core_modCore_same], fun e he => by simp only [State.k, Dev.core_modCore_ne _ _ he]⟩
  refine ⟨?_, ?_, ?_, ?_, ?_, ?_⟩
  · rintro tb rfl hclean
    refine ⟨_, rfl, ?_⟩
    simp only [hheld, hmq', hall, Bool.false_eq_true, if_false, Bool.not_true, readTile_clean (hm _ _) hclean, MOp.isArray, MOp.isMul,
      MOp.isOmul, Bool.or_self]
    refine ⟨?_, fun e he => ?_, fun x _ _ => rfl, rfl, ⟨rfl, rfl⟩, fun _ => rfl⟩
    · simp only [State.k, Dev.core_modCore_same]; rfl
    · simp only [State.k, Dev.core_modCore_ne _ _ he]
  · rintro ta row swap acc th rfl hclean
    obtain ⟨A, hA⟩ : ∃ A, A = if swap && k.wShadow.isSome then k.wShadow else k.wActive := ⟨_, rfl⟩
    have hr := rested s.part (s.dev.modCore c fun k => { k with mq := rest }) c idle.toNat
    have hst := array_starts (o := .mul ta row swap acc th) (pc := pc) (a := s.tile c ta false) (w := A)
      (k' := { k with osMode := false, wActive := A, wShadow := if swap then none else k.wShadow })
      (g := fun k => ({ k with osMode := false } : CoreSt).swapSets swap) hr
      (by rw [hA]; exact swapSets_eq { s.k c with mq := rest, restCnt := 0, osMode := false } swap)
    have hrd : ∀ g, Dev.readTile s.part s.mem ((((s.dev.modCore c fun k => { k with mq := rest }).insertRest s.part c idle.toNat).restRaise
        s.part c.site.toNat).modCore c g) c ta false = _ := fun g => readTile_clean hr.mark hclean
    refine ⟨_, rfl, ?_⟩
    simp only [hheld, hmq', hall, Bool.false_eq_true, if_false, Bool.not_true, hrd, ← hA]
    have hw : (((((s.dev.modCore c fun k => { k with mq := rest }).insertRest s.part c idle.toNat).restRaise s.part c.site.toNat).modCore
        c fun k => ({ k with osMode := false } : CoreSt).swapSets swap).core c).wActive = A := by
      rw [Dev.core_modCore_same, hr.own, Dev.core_modCore_same, swapSets_eq, hA]
    simp only [CoreSt.swapSets] at hw hst
    rw [hw]
    cases A <;> exact ⟨hst.1, hst.2.1, hst.2.2.1, hst.2.2.2, ⟨rfl, rfl⟩, fun _ => rfl⟩
  · rintro ta tb row acc rfl hca hcb
    have hr := rested s.part (s.dev.modCore c fun k => { k with mq := rest }) c idle.toNat
    have hst := array_starts (o := .omul ta tb row acc) (pc := pc) (a := s.tile c ta true) (w := some (s.tile c tb true))
      (k' := { k with osMode := true, wActive := none }) (g := fun k => { k with osMode := true, wActive := none }) hr rfl
    have hrd : ∀ g t, CleanTile s c t true → Dev.readTile s.part s.mem ((((s.dev.modCore c fun k => { k with mq := rest }).insertRest
        s.part c idle.toNat).restRaise s.part c.site.toNat).modCore c g) c t true = _ := fun g t ht => readTile_clean hr.mark ht
    refine ⟨_, rfl, ?_⟩
    simp only [hheld, hmq', hall, Bool.false_eq_true, if_false, Bool.not_true, hrd _ _ hca, hrd _ _ hcb]
    exact ⟨hst.1, hst.2.1, hst.2.2.1, hst.2.2.2, ⟨rfl, rfl⟩, fun _ => rfl⟩
  · rintro ta row rm ovc l rfl
    refine ⟨_, rfl, ?_⟩
    simp only [hheld, hmq', hall, Bool.false_eq_true, if_false, Bool.not_true]
    obtain ⟨hk, hcores⟩ := two (fun k => { k with mq := rest }) fun k => { k with mrun := k.mrun ++ [⟨.st ta row rm ovc l, pc, none, none⟩] }
    exact ⟨hk, hcores, fun _ _ _ => rfl, rfl, ⟨rfl, rfl⟩, fun _ => rfl⟩
  · rintro v row rfl
    refine ⟨_, rfl, ?_⟩
    simp only [hheld, hmq', hall, Bool.false_eq_true, if_false, Bool.not_true]
    obtain ⟨hk, hcores⟩ := two (fun k => { k with mq := rest }) fun k => { k with mrun := k.mrun ++ [⟨.rdv v row, pc, none, none⟩] }
    exact ⟨hk, hcores, fun _ _ _ => rfl, rfl, ⟨rfl, rfl⟩, fun _ => rfl⟩
  · rintro xs row rfl
    refine ⟨_, rfl, ?_⟩
    simp only [hheld, hmq', hall, Bool.false_eq_true, if_false, Bool.not_true]
    obtain ⟨hk, hcores⟩ := two (fun k => { k with mq := rest }) fun k => { k with mrun := k.mrun ++ [⟨.wrv xs row, pc, none, none⟩] }
    exact ⟨hk, hcores, fun _ _ _ => rfl, rfl, ⟨rfl, rfl⟩, fun _ => rfl⟩

end Sys2Proof.Machine
end

-- Completion of a started matrix operation (R67 to R71, R105, R106, R113 to R117)
section

namespace Sys2Proof.Machine

/-! ### Lanes landed in a register file or in the accumulator -/

theorem zipIdx_range (r : Nat → W32) (b n : Nat) :
    (((List.range n).map r).zipIdx.map fun x => (b + x.2, x.1)) = (List.range n).map fun i => (b + i, r i) := by
  refine List.ext_getElem (by simp) fun i h1 h2 => ?_
  simp

theorem landLanes_other (l : List (Nat × W32)) : ∀ (v : SMap W32) (j : Nat), (∀ x ∈ l, j ≠ x.1) →
    smGet 0 (landLanes v l) j = smGet 0 v j := by
  induction l with
  | nil => intro v j _; rfl
  | cons x l ih =>
    intro v j h
    obtain ⟨i, y⟩ := x
    rw [landLanes, ih _ _ fun z hz => h z (List.mem_cons_of_mem _ hz)]
    exact smGet_set_ne 0 0 v y (h _ List.mem_cons_self)

/-- Consecutive lanes from index `b`: each takes its value, and no other index changes. -/
theorem landLanes_range (v : SMap W32) (r : Nat → W32) (b n j : Nat) :
    smGet 0 (landLanes v ((List.range n).map fun i => (b + i, r i))) j =
      if b ≤ j ∧ j < b + n then r (j - b) else smGet 0 v j := by
  induction n generalizing v b r with
  | zero => rw [if_neg (by omega)]; rfl
  | succ n ih =>
    have hs : (List.range (n + 1)).map (fun i => (b + i, r i)) =
        (b, r 0) :: (List.range n).map fun i => (b + 1 + i, r (i + 1)) := by
      rw [List.range_succ_eq_map, List.map_cons, List.map_map]
      refine congrArg _ (List.map_congr_left fun i _ => ?_)
      simp only [Function.comp_apply, Nat.succ_eq_add_one]
      congr 1; omega
    rw [hs, landLanes, ih]
    by_cases h1 : b + 1 ≤ j ∧ j < b + 1 + n
    · rw [if_pos h1, if_pos (by omega)]
      congr 1; omega
    · rw [if_neg h1, smGet_smSet]
      by_cases h0 : j = b
      · rw [if_pos h0, if_pos (by omega), h0, Nat.sub_self]
      · rw [if_neg h0, if_neg (by omega)]

/-! ### Accumulator rows -/

theorem accAt_putRow (k : CoreSt) (row : Nat) (f : Nat → W32) (m : Nat) {j : Nat} (hj : j < 64) :
    (k.putRow row ((List.range 64).map f)).accAt m j = if m = row then f j else k.accAt m j := by
  simp only [CoreSt.accAt, CoreSt.putRow, zipIdx_range, landLanes_range, smGet_smSet]
  by_cases h : m = row
  · subst h
    rw [if_pos rfl, if_pos rfl, if_pos rfl, if_pos (by omega), Nat.add_sub_cancel_left]
  · have hout : ¬(64 * row ≤ 64 * m + j ∧ 64 * m + j < 64 * row + 64) := by omega
    simp only [if_neg h, if_neg hout]

/-- The rows from `row` on take the elements computed, and no other row changes. -/
theorem accAt_putRows (f : Nat → Nat → W32 × Events) (n : Nat) : ∀ (k : CoreSt) (row i m : Nat) {j : Nat}, j < 64 →
    (k.putRows f row i n).1.accAt m j = if row ≤ m ∧ m < row + n then (f (i + (m - row)) j).1 else k.accAt m j := by
  induction n with
  | zero => intro k row i m j _; rw [if_neg (by omega)]; rfl
  | succ n ih =>
    intro k row i m j hj
    have hz : ((List.range 64).map (f i)).map Prod.fst = (List.range 64).map fun j => (f i j).1 := by rw [List.map_map]; rfl
    simp only [CoreSt.putRows, ih _ _ _ _ hj, hz, accAt_putRow k row _ m hj]
    by_cases h1 : row + 1 ≤ m ∧ m < row + 1 + n
    · rw [if_pos h1, if_pos (by omega)]
      congr 2; omega
    · rw [if_neg h1]
      by_cases h0 : m = row
      · rw [if_pos h0, if_pos (by omega), h0, Nat.sub_self]; rfl
      · rw [if_neg h0, if_neg (by omega)]

theorem putRows_rest (f : Nat → Nat → W32 × Events) (n : Nat) : ∀ (k : CoreSt) (row i : Nat),
    ∃ acc accWr, (k.putRows f row i n).1 = { k with acc := acc, accWr := accWr } := by
  induction n with
  | zero => intro k row i; exact ⟨k.acc, k.accWr, rfl⟩
  | succ n ih =>
    intro k row i
    obtain ⟨a, w, h⟩ := ih (k.putRow row (((List.range 64).map (f i)).map Prod.fst)) (row + 1) (i + 1)
    refine ⟨a, w, ?_⟩
    simp only [CoreSt.putRows, h]
    simp only [CoreSt.putRow]

theorem mxuR_inj (c : CoreId) {a b : Nat} : mxuR c a = mxuR c b ↔ a = b := by
  unfold mxuR ctlAddr; omega

/-- An array operation has written its rows from `row` on: flags and counts, and beside the MXU's registers and the core's
accumulator nothing else. -/
theorem arrayDone_written {s : State} {c : CoreId} {i : Nat} {d : Dev} (f : Nat → Nat → W32 × Events) (row n rows cyc : Nat)
    (hd : d = s.dev.modCore c fun k => { k with mrun := k.mrun.eraseIdx i }) :
    let rest := (s.k c).mrun.eraseIdx i
    let z := (d.core c).putRows f row 0 n
    let e := ((d.setCore c z.1).mxuFlags s.part c z.2).arrayDone s.part c rows cyc
    ((∀ m j, m < n → j < 64 → (e.core c).accAt (row + m) j = (f m j).1) ∧
      ∀ m j, m < row ∨ row + n ≤ m → j < 64 → (e.core c).accAt m j = (s.k c).accAt m j) ∧
    e.get s.part (mxuR c 0x100) = countUp (s.reg (mxuR c 0x100)) rows ∧
    (∃ acc accWr, e.core c = { s.k c with mrun := rest, acc := acc, accWr := accWr }) ∧
    (∀ k, k ≠ c → e.core k = s.k k) ∧ ∀ x, x ∉ [mxuR c 8, mxuR c 0x100, mxuR c 0x108] → e.get s.part x = s.reg x := by
  intro rest z e
  have hown : d.core c = { s.k c with mrun := rest } := by rw [hd, Dev.core_modCore_same]
  have hacc : ∀ m j, (d.core c).accAt m j = (s.k c).accAt m j := fun m j => by rw [hown]; rfl
  have hz : e.core c = z.1 := Dev.core_setCore_same d c z.1
  have hne : mxuR c 0x100 ≠ mxuR c 0x108 := by rw [Ne, mxuR_inj]; decide
  have hne8 : mxuR c 0x100 ≠ mxuR c 8 := by rw [Ne, mxuR_inj]; decide
  have hget : ∀ x, d.get s.part x = s.reg x := fun x => by rw [hd]; rfl
  have hget' : ∀ x, x ≠ mxuR c 8 → ((d.setCore c z.1).mxuFlags s.part c z.2).get s.part x = s.reg x := fun x hx =>
    (Dev.get_put_ne s.part _ _ hx).trans (hget x)
  refine ⟨⟨fun m j hm hj => ?_, fun m j hm hj => ?_⟩, ?_, ?_, fun k hk => ?_, fun x hx => ?_⟩
  · rw [hz, accAt_putRows f n _ _ _ _ hj, if_pos (by omega), Nat.zero_add, Nat.add_sub_cancel_left]
  · rw [hz, accAt_putRows f n _ _ _ _ hj, if_neg (by omega), hacc]
  · simp only [e, Dev.arrayDone]
    rw [Dev.get_count_ne _ _ _ hne, Dev.get_count_same, hget' _ hne8]
  · obtain ⟨acc, accWr, h⟩ := putRows_rest f n (d.core c) row 0
    exact ⟨acc, accWr, by rw [hz, show z.1 = _ from h, hown]⟩
  · have : e.core k = (d.setCore c z.1).core k := rfl
    rw [this, Dev.core_setCore_ne _ _ hk, hd, Dev.core_modCore_ne _ _ hk]
  · simp only [List.mem_cons, List.not_mem_nil, or_false, not_or] at hx
    simp only [e, Dev.arrayDone]
    rw [Dev.get_count_ne _ _ _ hx.2.2, Dev.get_count_ne _ _ _ hx.2.1, hget' _ hx.1]

/-! ### Runs of bytes written to the pantry -/

theorem pantryWrite_nil (p : Part) (d : Dev) (c : CoreId) (a : Nat) : d.pantryWrite p c a [] = (d, .ok []) := by
  simp only [Dev.pantryWrite, List.length_nil, if_true]

/-- Runs written to a pantry without errors, none being injected: each byte run that is not empty is written in its turn. -/
theorem pantryWrites_clean {p : Part} {c : CoreId} (l : List (Nat × List Byte)) : ∀ {d : Dev},
    (∀ a, d.mark (pantryAt c a) = 0) → d.injBits c.site.toNat 1 c.p.toNat = 0 → ∃ m,
      d.pantryWrites p c l = ({ d with ecc := m }, (l.filter fun x => x.2 ≠ []).map fun x => (pantryAt c x.1, x.2), none) := by
  induction l with
  | nil => intro d _ _; exact ⟨d.ecc, rfl⟩
  | cons x l ih =>
    intro d hm hi
    obtain ⟨a, bs⟩ := x
    by_cases hb : bs = []
    · obtain ⟨m, h⟩ := ih hm hi
      refine ⟨m, ?_⟩
      simp only [Dev.pantryWrites, hb, pantryWrite_nil, h]
      rfl
    · obtain ⟨e, hw, m1, rfl, hm1⟩ := pantryWrite_clean (p := p) (a := a) hb hi fun b _ _ => hm b
      have hm' : ∀ a, ({ d with ecc := m1 } : Dev).mark (pantryAt c a) = 0 := fun b => by
        rcases hm1 (pantryAt c b) with h | ⟨-, -, h⟩
        · exact h.trans (hm b)
        · exact h
      obtain ⟨m, h⟩ := ih hm' (show ({ d with ecc := m1 } : Dev).injBits _ _ _ = 0 from hi)
      refine ⟨m, ?_⟩
      simp only [Dev.pantryWrites, hw, h]
      simp [hb]

theorem lineCut_within (n : Nat) : ∀ (a : Nat) (bs : List Byte), ∀ y ∈ lineCut a bs n, a ≤ y.1 ∧ y.1 + y.2.length ≤ a + bs.length := by
  induction n with
  | zero => intro a bs y hy; cases hy
  | succ n ih =>
    intro a bs y hy
    simp only [lineCut] at hy
    split at hy
    · obtain rfl := List.mem_singleton.1 hy
      exact ⟨Nat.le_refl _, Nat.le_refl _⟩
    next h =>
      obtain rfl | hy := List.mem_cons.1 hy
      · simp only [List.length_take]; omega
      · have := ih _ _ y hy
        simp only [List.length_drop] at this
        omega

/-! ### Completion -/

/-- An operation that changes the core's own state alone has completed. -/
theorem modCore_twice (s : State) (c : CoreId) (f g : CoreSt → CoreSt) :
    ((s.dev.modCore c f).modCore c g).core c = g (f (s.k c)) ∧
      ∀ e, e ≠ c → ((s.dev.modCore c f).modCore c g).core e = s.k e :=
  ⟨by simp only [Dev.core_modCore_same], fun e he => by simp only [State.k, Dev.core_modCore_ne _ _ he]⟩

theorem lane_landed (k : CoreSt) (v u : BitVec 5) (f : Nat → W32) {j : Nat} (hj : j < 64) :
    smGet 0 (landLanes k.v (laneWr v ((List.range 64).map f))) (64 * u.toNat + j) = if u = v then f j else k.lane u j := by
  rw [laneWr_range, landLanes_range]
  by_cases h : u = v
  · rw [if_pos h, h, if_pos (by omega), Nat.add_sub_cancel_left]
  · have hn : u.toNat ≠ v.toNat := fun e => h (BitVec.eq_of_toNat_eq e)
    rw [if_neg h, if_neg (by omega)]; rfl

/-- The bytes outside the runs of an MX.ST are unchanged. -/
theorem applyWr_lineRuns_other (c : CoreId) (l : List (Nat × List Byte)) (mem : List Host.Cell) {a : Nat}
    (h : ∀ x ∈ l, a < pantryAt c x.1 ∨ pantryAt c x.1 + x.2.length ≤ a) :
    Memory.get (applyWr mem (((lineRuns l).filter fun x => x.2 ≠ []).map fun x => (pantryAt c x.1, x.2))) a = Memory.get mem a := by
  refine applyWr_get _ _ _ fun y hy => ?_
  obtain ⟨z, hz, rfl⟩ := List.mem_map.1 hy
  obtain ⟨x, hx, hzx⟩ := List.mem_flatMap.1 (List.mem_filter.1 hz).1
  have hin := lineCut_within _ _ _ z hzx
  have hat : ∀ o, pantryAt c o = pantryAt c 0 + o := fun o => by unfold pantryAt; omega
  have hout := h x hx
  show ¬(pantryAt c z.1 ≤ a ∧ a < pantryAt c z.1 + z.2.length)
  rw [hat] at hout ⊢
  omega

theorem rdv_lane (k : CoreSt) (l : List MRun) (v u : BitVec 5) (row : Nat) {j : Nat} (hj : j < 64) :
    ({ k with mrun := l, v := landLanes k.v (laneWr v (({ k with mrun := l } : CoreSt).rowVals row 64)) } : CoreSt).lane u j =
      if u = v then k.accAt row j else k.lane u j := by
  have hacc : ({ k with mrun := l } : CoreSt).accAt row = k.accAt row := rfl
  have hland := lane_landed k v u (k.accAt row) hj
  simp only [CoreSt.lane, CoreSt.rowVals, hacc] at hland ⊢
  exact hland

theorem eq_of_putRow {a k : CoreSt} {l : List MRun} {row : Nat} {xs : List W32}
    (h : a = ({ k with mrun := l } : CoreSt).putRow row xs) : a = { k with mrun := l, acc := a.acc, accWr := a.accWr } := by
  subst h; rfl

theorem list_eq_range {xs : List W32} {n : Nat} (h : xs.length = n) : xs = (List.range n).map fun j => xs.getD j 0 := by
  refine List.ext_getElem (by simp [h]) fun i h1 h2 => ?_
  simp [h1]

theorem stRuns_mrun (k : CoreSt) (l : List MRun) (t : BitVec 128) (arow : Nat) (rm : Rm) (ovc : Ovc) (x : W64) :
    stRuns { k with mrun := l } t arow rm ovc x = stRuns k t arow rm ovc x := rfl

/-- Settles O17: what each kind of operation writes, and where it may not complete yet nothing changes. -/
theorem matrixCompletion : Obligations.MatrixCompletion := by
  refine ⟨?_, ?_, ?_⟩
  · intro s c r i hheld hr hend rest k kept rows
    have hr' : (s.dev.core c).mrun[i.toNat]? = some r := hr
    have hend' : (s.dev.core c).mayEnd i.toNat r.op = true := hend
    refine ⟨fun tb w hrun => ?_, fun ta arow swap acc th a w hrun => ?_, fun ta tb arow acc a w hrun => ?_, fun v arow hop => ?_,
      fun xs arow hop hlen => ?_⟩
    · refine ⟨_, rfl, ?_⟩
      simp only [hheld, hr', hend', Bool.false_eq_true, if_false, Bool.not_true]
      rw [hrun]
      obtain ⟨hk, hcores⟩ := modCore_twice s c (fun k => { k with mrun := rest }) fun k => { k with wShadow := some w }
      exact ⟨hk, hcores, fun _ _ => rfl, ⟨rfl, rfl⟩, fun _ => rfl⟩
    · have hf : mulElem ((s.dev.modCore c fun k => { k with mrun := k.mrun.eraseIdx i.toNat }).core c) = mulElem (s.k c) := by
        rw [Dev.core_modCore_same]; rfl
      obtain ⟨hrows, hcnt, ⟨acc', accWr', hk⟩, hcores, hregs⟩ :=
        arrayDone_written (s := s) (c := c) (i := i.toNat) (mulElem (s.k c) a w arow.toNat acc) arow.toNat a.rows a.rows
          (r.op.cycles a w) rfl
      refine ⟨_, rfl, ?_⟩
      simp only [hheld, hr', hend', Bool.false_eq_true, if_false, Bool.not_true]
      rw [hrun] at hrows hcnt hk hcores hregs ⊢
      simp only [hf]
      exact ⟨hrows, hcnt, (congrArg CoreSt.mrun hk :), (congrArg CoreSt.s hk :), (congrArg CoreSt.v hk :), (congrArg CoreSt.t hk :),
        (congrArg CoreSt.wShadow hk :), hcores, hregs, ⟨rfl, rfl⟩, fun _ => rfl⟩
    · have hf : omulElem ((s.dev.modCore c fun k => { k with mrun := k.mrun.eraseIdx i.toNat }).core c) = omulElem (s.k c) := by
        rw [Dev.core_modCore_same]; rfl
      obtain ⟨hrows, hcnt, ⟨acc', accWr', hk⟩, hcores, hregs⟩ :=
        arrayDone_written (s := s) (c := c) (i := i.toNat) (omulElem (s.k c) a w arow.toNat acc) arow.toNat a.cols a.rows
          (r.op.cycles a w) rfl
      refine ⟨_, rfl, ?_⟩
      simp only [hheld, hr', hend', Bool.false_eq_true, if_false, Bool.not_true]
      rw [hrun] at hrows hcnt hk hcores hregs ⊢
      simp only [hf]
      exact ⟨hrows, hcnt, (congrArg CoreSt.mrun hk :), (congrArg CoreSt.s hk :), (congrArg CoreSt.v hk :), (congrArg CoreSt.t hk :),
        (congrArg CoreSt.wShadow hk :), hcores, hregs, ⟨rfl, rfl⟩, fun _ => rfl⟩
    · rw [hop] at hend'
      refine ⟨_, rfl, ?_⟩
      simp only [hheld, hr', hop, hend', Bool.false_eq_true, if_false, Bool.not_true]
      obtain ⟨hk, hcores⟩ := modCore_twice s c (fun k => { k with mrun := k.mrun.eraseIdx i.toNat })
        fun k => { k with v := landLanes k.v (laneWr v (k.rowVals arow.toNat 64)) }
      have hl : ∀ u j, j < 64 → (((s.dev.modCore c fun k => { k with mrun := k.mrun.eraseIdx i.toNat }).modCore c
          fun k => { k with v := landLanes k.v (laneWr v (k.rowVals arow.toNat 64)) }).core c).lane u j =
          if u = v then k.accAt arow.toNat j else k.lane u j := fun u j hj => by
        rw [hk]; exact rdv_lane k _ v u arow.toNat hj
      refine ⟨fun j hj => (hl v j hj).trans (if_pos rfl), fun u j hu hj => (hl u j hj).trans (if_neg hu), ?_, hcores,
        fun _ _ => rfl, ⟨rfl, rfl⟩, fun _ => rfl⟩
      simp only [State.k, hk, k, rest]
    · rw [hop] at hend'
      refine ⟨_, rfl, ?_⟩
      simp only [hheld, hr', hop, hend', Bool.false_eq_true, if_false, Bool.not_true]
      obtain ⟨hk, hcores⟩ := modCore_twice s c (fun k => { k with mrun := k.mrun.eraseIdx i.toNat }) fun k => k.putRow arow.toNat xs
      have hl : ∀ m j, j < 64 → (((s.dev.modCore c fun k => { k with mrun := k.mrun.eraseIdx i.toNat }).modCore c
          fun k => k.putRow arow.toNat xs).core c).accAt m j = if m = arow.toNat then xs.getD j 0 else k.accAt m j := fun m j hj => by
        rw [hk, list_eq_range hlen, accAt_putRow _ _ (fun j => xs.getD j 0) _ hj, ← list_eq_range hlen]; rfl
      refine ⟨⟨fun m j hm hj => (hl _ j hj).trans (if_pos (by omega)), fun m j hm hj => (hl m j hj).trans (if_neg (by omega))⟩,
        ?_, hcores, fun _ _ => rfl, ⟨rfl, rfl⟩, fun _ => rfl⟩
      exact eq_of_putRow hk
  · intro s c t arow rm ovc l r i hheld hr hend hop hm hi rest z
    have hr' : (s.dev.core c).mrun[i.toNat]? = some r := hr
    have hend' : (s.dev.core c).mayEnd i.toNat (.st t arow rm ovc l) = true := hop ▸ hend
    have hown : (s.dev.modCore c fun k => { k with mrun := k.mrun.eraseIdx i.toNat }).core c = { s.k c with mrun := rest } :=
      Dev.core_modCore_same ..
    have hother : ∀ e, e ≠ c → (s.dev.modCore c fun k => { k with mrun := k.mrun.eraseIdx i.toNat }).core e = s.k e := fun e he =>
      Dev.core_modCore_ne _ _ he
    obtain ⟨m, hw⟩ := pantryWrites_clean (p := s.part) (d := s.dev.modCore c fun k => { k with mrun := k.mrun.eraseIdx i.toNat })
      (lineRuns z.1) hm hi
    have hz : stRuns ((s.dev.modCore c fun k => { k with mrun := k.mrun.eraseIdx i.toNat }).core c) t arow.toNat rm ovc l = z := by
      rw [hown]; exact stRuns_mrun ..
    refine ⟨_, rfl, ?_⟩
    simp only [hheld, hr', hop, hend', Bool.false_eq_true, if_false, Bool.not_true, hz, hw]
    refine ⟨trivial, fun a ha => applyWr_lineRuns_other c z.1 s.mem ha, hown, Dev.get_put_same .., hother, fun x hx => ?_, rfl, rfl⟩
    · exact Dev.get_put_ne s.part _ _ hx
  · intro s c i hend
    refine ⟨s, ?_, rfl⟩
    rw [exec_matrixOpComplete]
    cases hh : s.dev.edgesHeld c
    · cases hr : (s.dev.core c).mrun[i.toNat]? with
      | none => simp only [execMatrixOpComplete, State.updW, hh, hr]; rfl
      | some r => 
        have := hend r hr
        simp only [execMatrixOpComplete, State.updW, hh, hr, show (s.dev.core c).mayEnd i.toNat r.op = false from this]; rfl
    · simp only [execMatrixOpComplete, State.updW, hh]; rfl

end Sys2Proof.Machine
end

-- Waits: their conditions, retirement, and parking (R50, R148, R151 to R155, R173)
section

namespace Sys2Proof.Machine

/-! ### A core's own state that an instruction has changed -/

/-- The device is that of `s` but for the own state of core `c`, which is `k`. -/
structure OwnIs (s : State) (d : Dev) (c : CoreId) (k : CoreSt) : Prop where
  own : d.core c = k
  others : ∀ e, e ≠ c → d.core e = s.k e
  regs : ∀ a, d.get s.part a = s.reg a
  rest : d.noRegs.noCores = s.dev.noRegs.noCores

theorem OwnIs.refl (s : State) (c : CoreId) : OwnIs s s.dev c (s.k c) := ⟨rfl, fun _ _ => rfl, fun _ => rfl, rfl⟩
theorem OwnIs.modCore {s : State} {d : Dev} {c : CoreId} {k : CoreSt} (h : OwnIs s d c k) (f : CoreSt → CoreSt) :
    OwnIs s (d.modCore c f) c (f k) :=
  ⟨by rw [Dev.core_modCore_same, h.own], fun e he => (Dev.core_modCore_ne d f he).trans (h.others e he),
    fun a => (Dev.get_modCore ..).trans (h.regs a), h.rest⟩
theorem OwnIs.take (s : State) (c : CoreId) : OwnIs s (s.dev.modCore c CoreSt.take) c (s.k c).take :=
  (OwnIs.refl s c).modCore _

theorem OwnIs.coreOnly {s : State} {d : Dev} {c : CoreId} {k : CoreSt} (h : OwnIs s d c k) :
    let t : State := State.mk s.part s.mem d s.pending
    t.k c = k ∧ CoreOnly s t c [] ∧ Fixed s t ∧ ∀ a, t.byte a = s.byte a :=
  ⟨h.own, ⟨h.others, fun a _ => h.regs a, h.rest⟩, ⟨rfl, rfl⟩, fun _ => rfl⟩

/-- The instruction of a core whose own state is `k'` but for program counter and STEP retires. -/
theorem OwnIs.retires {s : State} {d : Dev} {c : CoreId} {k : CoreSt} (h : OwnIs s d c k) (k' : CoreSt)
    (hpc : k.pc = (s.k c).pc) (hk : ∀ pc, { k with pc := pc } = { k' with pc := pc, step := false }) :
    Retires s (State.mk s.part s.mem (d.retire s.part c) s.pending) c k' := by
  have hget := (h.modCore fun k => { k with pc := (s.k c).pc + 4 }).regs
  unfold Dev.retire Dev.retireTo
  rw [h.own, hpc]
  refine ⟨?_, ?_, ⟨fun e he => ?_, fun a ha => ?_, h.rest⟩, ⟨rfl, rfl⟩, fun _ => rfl⟩
  · simp only [State.k, Dev.core_count, Dev.core_modCore_same, h.own]
    exact hk _
  · simp only [State.reg, Dev.get_count_same, hget]
  · simp only [State.k, Dev.core_count, Dev.core_modCore_ne _ _ he]
    exact h.others e he
  · exact (Dev.get_count_ne _ _ _ (by simpa using ha)).trans (hget a)

/-! ### The conditions of the waits -/

@[simp] theorem bit_modCore (p : Part) (d : Dev) (c : CoreId) (f : CoreSt → CoreSt) (a i : Nat) :
    (d.modCore c f).bit p a i = d.bit p a i := by unfold Dev.bit; rw [Dev.get_modCore]
@[simp] theorem fld_modCore (p : Part) (d : Dev) (c : CoreId) (f : CoreSt → CoreSt) (a lo n : Nat) :
    (d.modCore c f).fld p a lo n = d.fld p a lo n := by unfold Dev.fld; rw [Dev.get_modCore]

theorem snoop_take (d : Dev) (c : CoreId) : (d.modCore c CoreSt.take).snoop c = d.snoop c := by
  unfold Dev.snoop; rw [Dev.core_modCore_same]; rfl
theorem lobby_take (d : Dev) (c : CoreId) (l : BitVec 3) : (d.modCore c CoreSt.take).lobby c l = d.lobby c l := by
  unfold Dev.lobby; rw [Dev.core_modCore_same]; rfl
theorem descs_take (d : Dev) (c : CoreId) (q : Nat) : (d.modCore c CoreSt.take).descs c q = d.descs c q := by
  unfold Dev.descs; rw [Dev.core_modCore_same]; rfl
theorem lobReady_take (p : Part) (d : Dev) (c : CoreId) (l : BitVec 3) (whole : Bool) :
    (d.modCore c CoreSt.take).lobReady p c l whole = d.lobReady p c l whole := by
  simp only [Dev.lobReady, Dev.lobEn, Dev.curTile, Dev.readSeq, Dev.threshold, bit_modCore, fld_modCore, lobby_take]
  rfl
theorem prtIdle_take (p : Part) (d : Dev) (c : CoreId) (q : Nat) :
    (d.modCore c CoreSt.take).prtIdle p c q = d.prtIdle p c q := by
  simp only [Dev.prtIdle, Dev.qError, Dev.qCause, Dev.qEn, Dev.qHead, Dev.qTail, bit_modCore, fld_modCore, descs_take]
theorem fenceMet_take (p : Part) (d : Dev) (c : CoreId) (mask : BitVec 5) :
    (d.modCore c CoreSt.take).fenceMet p c mask = d.fenceMet p c mask := by
  simp only [Dev.fenceMet, Dev.core_modCore_same, funext (prtIdle_take p d c)]
  rfl
theorem waitxWord_take (p : Part) (d : Dev) (c : CoreId) (x : W64) (l : BitVec 3) :
    (d.modCore c CoreSt.take).waitxWord p c x l = d.waitxWord p c x l := by
  simp only [Dev.waitxWord, snoop_take, lobReady_take]
/-- Taking a STEP changes no wait's condition. -/
theorem waitMet_take (p : Part) (d : Dev) (c : CoreId) (w : WaitOn) :
    (d.modCore c CoreSt.take).waitMet p c w = d.waitMet p c w := by
  cases w with
  | lobWait l whole => exact lobReady_take p d c l whole
  | prtWait q => exact prtIdle_take p d c q.toNat
  | prtAwait => simp only [Dev.waitMet, Dev.core_modCore_same]; rfl
  | fence mask => exact fenceMet_take p d c mask
  | lwait target => simp only [Dev.waitMet, snoop_take]
  | waitx target rb l all => simp only [Dev.waitMet, waitxWord_take]
  | bar b => rfl
  | barDone b => rfl

theorem prtIdle_iff (p : Part) (d : Dev) (c : CoreId) (n : Nat) : d.prtIdle p c n = true ↔
    d.descs c n = [] ∧ (d.qError p c n = true ∨ d.qEn p c n = false ∨ d.qHead p c n = d.qTail p c n) := by
  simp only [Dev.prtIdle, Bool.and_eq_true, List.isEmpty_iff, Bool.or_eq_true, Bool.not_eq_true', beq_iff_eq, or_assoc]

theorem lobReady_iff (p : Part) (d : Dev) (c : CoreId) (l : BitVec 3) (whole : Bool) : d.lobReady p c l whole = true ↔
    d.lobEn p c l = true ∧ ∃ t, d.curTile p c l = some t ∧
      (if whole then t.whole = true else d.threshold p c l t ≤ t.landedCount) := by
  unfold Dev.lobReady
  cases d.lobEn p c l <;> cases d.curTile p c l <;> cases whole <;> simp

theorem fenceMet_iff (p : Part) (d : Dev) (c : CoreId) (mask : BitVec 5) : d.fenceMet p c mask = true ↔
    (mask.getLsbD 0 = true → (∀ x ∈ (d.core c).mq, x.op.touchesPantry = false) ∧ ∀ x ∈ (d.core c).mrun, x.op.isSt = false) ∧
      (mask.getLsbD 1 = true → (d.core c).mq = [] ∧ ∀ x ∈ (d.core c).mrun, x.op.isArray = false) ∧
      (mask.getLsbD 2 = true → (d.core c).vq = []) ∧
      (mask.getLsbD 3 = true → ∀ n, n < 16 → d.prtIdle p c n = true) ∧ (mask.getLsbD 4 = true → (d.core c).atoms = []) := by
  have himp : ∀ a b : Bool, (!a || b) = true ↔ (a = true → b = true) := by decide
  simp only [Dev.fenceMet, CoreSt.pantryQuiet, Bool.and_eq_true, himp, Bool.not_eq_true', List.any_eq_false, List.isEmpty_iff,
    List.all_eq_true, List.mem_range, and_assoc, Bool.not_eq_true]

theorem getP_eq (k : CoreSt) (ra : BitVec 6) :
    k.getP ra = BitVec.ofNat 64 ((k.getS ra).toNat + (k.getS (ra + 1)).toNat * 2 ^ 32) := by
  apply BitVec.eq_of_toNat_eq
  have h0 := (k.getS ra).isLt
  have h1 := (k.getS (ra + 1)).isLt
  rw [CoreSt.getP, BitVec.toNat_append, BitVec.toNat_ofNat, Nat.mod_eq_of_lt (by omega), ← Nat.shiftLeft_add_eq_or_of_lt h0,
    Nat.shiftLeft_eq]
  omega

theorem badPair_iff (r : BitVec 6) : badPair r = true ↔ ¬(r.toNat % 2 = 0 ∧ r.toNat ≠ 62) := by
  revert r; decide

/-! ### A wait instruction -/

/-- A wait instruction whose condition holds retires with what the wait writes; otherwise a core in RUN waits and a core that
stepped it stays in HALT. -/
theorem waitFor_settles (s : State) (c : CoreId) (w : WaitOn) (k' : CoreSt) (hstop : s.dev.stopStep = 0)
    (hk : Retires s (State.mk s.part s.mem (((s.dev.modCore c CoreSt.take).waitWrite s.part c w).retire s.part c) s.pending) c k') :
    let t : State := State.mk s.part s.mem ((s.dev.modCore c CoreSt.take).waitFor s.part c w) s.pending
    let k := s.k c
    (s.dev.waitMet s.part c w = true → Retires s t c k') ∧
    (¬s.dev.waitMet s.part c w = true →
      t.k c = (if k.st = .run then { k with step := false, st := .wait, wait := some w } else { k with step := false }) ∧
        CoreOnly s t c [] ∧ Fixed s t ∧ ∀ a, t.byte a = s.byte a) := by
  intro t k
  refine ⟨fun h => ?_, fun h => ?_⟩
  · simp only [t, Dev.waitFor, waitMet_take, h, if_true]
    exact hk
  · have hp : (s.dev.modCore c CoreSt.take).waitFor s.part c w =
        (s.dev.modCore c CoreSt.take).modCore c fun k => if k.st = .run then { k with st := .wait, wait := some w } else k := by
      simp only [Dev.waitFor, waitMet_take, h, if_false, Dev.park, Dev.modCore_stopStep, hstop, if_true, Bool.false_eq_true]
    have hown : OwnIs s ((s.dev.modCore c CoreSt.take).waitFor s.part c w) c
        (if k.st = .run then { k with step := false, st := .wait, wait := some w } else { k with step := false }) := by
      rw [hp]
      exact (OwnIs.take s c).modCore fun k => if k.st = .run then { k with st := .wait, wait := some w } else k
    exact hown.coreOnly

/-- The wait instructions that write nothing as they retire. -/
theorem waitFor_plain (s : State) (c : CoreId) (w : WaitOn) (hstop : s.dev.stopStep = 0) (hw : ∀ d : Dev, d.waitWrite s.part c w = d) :
    let t : State := State.mk s.part s.mem ((s.dev.modCore c CoreSt.take).waitFor s.part c w) s.pending
    let k := s.k c
    (s.dev.waitMet s.part c w = true → Retires s t c k) ∧
    (¬s.dev.waitMet s.part c w = true →
      t.k c = (if k.st = .run then { k with step := false, st := .wait, wait := some w } else { k with step := false }) ∧
        CoreOnly s t c [] ∧ Fixed s t ∧ ∀ a, t.byte a = s.byte a) :=
  waitFor_settles s c w _ hstop (by rw [hw]; exact retires_plain s c)

theorem waitxWord_eq (p : Part) (d : Dev) (c : CoreId) (x : W64) (l : BitVec 3) :
    (d.waitxWord p c x l).zeroExtend 32 =
      BitVec.ofNat 32 ((if d.lobReady p c l false then 1 else 0) + if reached (d.snoop c) x then 2 else 0) := by
  unfold Dev.waitxWord
  cases d.lobReady p c l false <;> cases reached (d.snoop c) x <;> rfl

theorem waitxMet_iff (p : Part) (d : Dev) (c : CoreId) (x : W64) (rb : BitVec 6) (l : BitVec 3) (all : Bool) :
    d.waitMet p c (.waitx x rb l all) = true ↔
      if all then d.lobReady p c l false = true ∧ reached (d.snoop c) x = true
      else d.lobReady p c l false = true ∨ reached (d.snoop c) x = true := by
  have hword : d.waitMet p c (.waitx x rb l all) =
      if all then d.waitxWord p c x l == 3 else d.waitxWord p c x l != 0 := rfl
  rw [hword, Dev.waitxWord]
  cases d.lobReady p c l false <;> cases reached (d.snoop c) x <;> cases all <;> decide

theorem waitxWrite_retires (s : State) (c : CoreId) (x : W64) (rb : BitVec 6) (l : BitVec 3) (all : Bool) :
    Retires s (State.mk s.part s.mem (((s.dev.modCore c CoreSt.take).waitWrite s.part c (.waitx x rb l all)).retire s.part c) s.pending) c
      ((s.k c).setS rb ((s.dev.waitxWord s.part c x l).zeroExtend 32)) := by
  simp only [Dev.waitWrite, waitxWord_take]
  exact retiresS s c rb _

/-- Waking a core of the own state `k` retires its wait instruction. -/
theorem OwnIs.wakes {s : State} {d : Dev} {c : CoreId} {k : CoreSt} (h : OwnIs s d c k) (hpc : k.pc = (s.k c).pc)
    (hstep : k.step = false) : Retires s (State.mk s.part s.mem (d.wake s.part c) s.pending) c { k with st := .run, wait := none } :=
  (h.modCore fun k => { k with st := .run, wait := none }).retires _ hpc fun pc => by rw [← hstep]

theorem setS_step (k : CoreSt) (r : BitVec 6) (x : W32) : (k.setS r x).step = k.step := by unfold CoreSt.setS; split <;> rfl

/-- Settles O22: a wait instruction, and the core it has left waiting. -/
theorem waits : Obligations.Waits := by
  refine ⟨?_, ?_⟩
  · intro s c l all q mask ra rb hr hstop heven h62 k d target time idle lands cut first waits
    have hpair : badPair ra = false := by
      rw [← Bool.not_eq_true, badPair_iff]; exact not_not_intro ⟨heven, h62⟩
    have htarget : ((s.dev.modCore c CoreSt.take).core c).getP ra = target := by
      rw [Dev.core_modCore_same, getP_eq]; rfl
    have hr0 : ready s.part s.dev c [] [] = true := ready_mono hr (by simp) (by simp)
    have hr2 : ready s.part s.dev c [ra, ra + 1] [] = true := ready_mono hr (by simp) (by simp)
    have htime : reached (d.snoop c) target = true ↔ time := by simp only [reached, decide_eq_true_eq, time]
    have hfirst : d.lobReady s.part c l false = true ↔ first := lobReady_iff ..
    have hidle : ∀ n, d.prtIdle s.part c n = true ↔ idle n := prtIdle_iff s.part d c
    have plain : ∀ (i : Instr) (w : WaitOn) (met : Prop), (∀ d : Dev, d.waitWrite s.part c w = d) →
        exec i s = .next (State.mk s.part s.mem ((s.dev.modCore c CoreSt.take).waitFor s.part c w) s.pending) →
        (d.waitMet s.part c w = true ↔ met) → waits i w met k := fun i w met hw hexec hmet => by
      obtain ⟨hyes, hno⟩ := waitFor_plain s c w hstop hw
      exact ⟨_, hexec, fun h => hyes (hmet.2 h), fun h => hno (mt hmet.1 h)⟩
    refine ⟨plain _ _ _ (fun _ => rfl) (by rw [exec_lobWait]; exact issue_ready hr0 _) hfirst,
      plain _ _ _ (fun _ => rfl) (by rw [exec_lobWait]; exact issue_ready hr0 _) ?_,
      plain _ _ _ (fun _ => rfl) (by rw [exec_prtWait]; exact issue_ready hr0 _) (hidle q.toNat),
      plain _ _ _ (fun _ => rfl) (by rw [exec_prtAwait]; exact issue_ready hr0 _) List.isEmpty_iff,
      plain _ _ _ (fun _ => rfl) (by rw [exec_fence]; exact issue_ready hr0 _) ?_,
      plain _ _ _ (fun _ => rfl) ?_ htime, fun b0 b1 hb0 hb1 => ?_⟩
    · refine (lobReady_iff ..).trans ?_
      simp only [if_true, LSlot.whole, LSlot.lineCount, beq_iff_eq]
    · refine (fenceMet_iff ..).trans ?_
      simp only [hidle]
      exact Iff.rfl
    · rw [exec_lwait, execLwait, issue_ready hr2]
      simp only [hpair, htarget, Bool.false_eq_true, if_false]
    · obtain rfl : b0 = d.lobReady s.part c l false := Bool.eq_iff_iff.2 (hb0.trans hfirst.symm)
      obtain rfl : b1 = reached (d.snoop c) target := Bool.eq_iff_iff.2 (hb1.trans htime.symm)
      have hret := waitxWrite_retires s c target rb l all
      rw [waitxWord_eq] at hret
      obtain ⟨hyes, hno⟩ := waitFor_settles s c (.waitx target rb l all) _ hstop hret
      have hmet := waitxMet_iff s.part d c target rb l all
      rw [hfirst, htime] at hmet
      refine ⟨_, ?_, fun h => hyes (hmet.2 h), fun h => hno (mt hmet.1 h)⟩
      rw [exec_waitx, execWaitx, issue_ready hr]
      simp only [hpair, htarget, Bool.false_eq_true, if_false]
  · intro s c w hheld hst hwait hstep hmet hbar
    have hst' : (s.dev.core c).st = .wait := hst
    have hwait' : (s.dev.core c).wait = some w := hwait
    refine ⟨_, rfl, ?_⟩
    simp only [hheld, hst', hwait', hmet, Bool.false_eq_true, if_false, if_true]
    cases w with
    | waitx target rb l all =>
      exact ((OwnIs.refl s c).modCore fun k => k.setS rb ((s.dev.waitxWord s.part c target l).zeroExtend 32)).wakes
        (CoreSt.setS_pc ..) ((setS_step ..).trans hstep)
    | bar b => exact absurd hmet Bool.false_ne_true
    | barDone b => exact absurd rfl (hbar b)
    | lobWait l whole => exact (OwnIs.refl s c).wakes rfl hstep
    | prtWait q => exact (OwnIs.refl s c).wakes rfl hstep
    | prtAwait => exact (OwnIs.refl s c).wakes rfl hstep
    | fence mask => exact (OwnIs.refl s c).wakes rfl hstep
    | lwait target => exact (OwnIs.refl s c).wakes rfl hstep

end Sys2Proof.Machine
end

-- System instructions, and the decoding of a core's words (R53, R56, R118, R120, R127 to R130, R151, R154)
section

namespace Sys2Proof.Machine

/-! ### Counts of good cores -/

theorem foldl_count (q : Nat → Bool) (l : List Nat) (a : Nat) :
    l.foldl (fun n i => if q i then n + 1 else n) a = a + (l.filter q).length := by
  induction l generalizing a with
  | nil => rfl
  | cons x l ih =>
    rw [List.foldl_cons, ih, List.filter_cons]
    split
    · rw [List.length_cons]; omega
    · rfl

theorem nGood_eq (p : Part) (n : Nat) : p.nGood n = ((List.range 64).filter fun i => p.goodCore n i).length :=
  (foldl_count _ _ 0).trans (Nat.zero_add _)

theorem filter_lt_range (n m : Nat) (h : n ≤ m) : (List.range m).filter (fun i => i < n) = List.range n := by
  obtain ⟨k, rfl⟩ := Nat.exists_eq_add_of_le h
  rw [List.range_add, List.filter_append, List.filter_eq_self.2 (by simp), List.filter_eq_nil_iff.2 (by simp), List.append_nil]

theorem logical_eq (p : Part) (n c : Nat) (h : c ≤ 64) :
    p.logical n c = (((List.range 64).filter fun i => p.goodCore n i).filter fun i => i < c).length := by
  rw [List.filter_filter, List.filter_congr fun _ _ => Bool.and_comm .., ← List.filter_filter, filter_lt_range c 64 h]
  exact (foldl_count _ _ 0).trans (Nat.zero_add _)

theorem coreSrc_eq (d : Dev) (c : CoreId) :
    (d.coreSrc c).zeroExtend 32 = BitVec.ofNat 32 (d.node.toNat * 2 ^ 11 + c.site.toNat * 2 ^ 6 + c.p.toNat) := by
  apply BitVec.eq_of_toNat_eq
  have h0 := d.node.isLt
  have h1 := c.site.isLt
  have h2 := c.p.isLt
  simp only [Dev.coreSrc, mkSrc, BitVec.truncate_eq_setWidth, BitVec.toNat_setWidth, BitVec.toNat_append, BitVec.toNat_ofNat]
  rw [← Nat.shiftLeft_add_eq_or_of_lt h2, Nat.mod_eq_of_lt (a := c.site.toNat) (by omega),
    ← Nat.shiftLeft_add_eq_or_of_lt (show c.site.toNat < 2 ^ 5 by omega)]
  simp only [Nat.shiftLeft_eq]
  omega

theorem setP_eq (k : CoreSt) (ra : BitVec 6) (x : W64) :
    k.setP ra x = (k.setS ra (BitVec.ofNat 32 x.toNat)).setS (ra + 1) (BitVec.ofNat 32 (x.toNat / 2 ^ 32)) := by
  unfold CoreSt.setP
  have hlo : x.extractLsb' 0 32 = BitVec.ofNat 32 x.toNat := by simp [← BitVec.toNat_inj]
  have hhi : x.extractLsb' 32 32 = BitVec.ofNat 32 (x.toNat / 2 ^ 32) := BitVec.eq_of_toNat_eq (by
    rw [BitVec.extractLsb'_toNat, BitVec.toNat_ofNat, Nat.shiftRight_eq_div_pow])
  rw [hlo, hhi]

theorem setP_retires (s : State) (c : CoreId) (ra : BitVec 6) (x : W64) :
    Retires s (State.mk s.part s.mem (((s.dev.modCore c CoreSt.take).modCore c fun k => k.setP ra x).retire s.part c) s.pending) c
      (((s.k c).setS ra (BitVec.ofNat 32 x.toNat)).setS (ra + 1) (BitVec.ofNat 32 (x.toNat / 2 ^ 32))) :=
  retires_modCore s c (fun k => k.setP ra x) _ (fun _ => by simp only [setP_eq, CoreSt.setS_take]; rfl)
    (by simp only [setP_eq, CoreSt.setS_pc, CoreSt.take_pc])

/-! ### Which words spell a command (R127 to R129) -/

section
variable (c : CoreId) {w : W32}

theorem decRR_isSome (h : wf w 0 6 ≤ 0x12) : (decRR c w).isSome = true := by
  unfold decRR
  generalize wf w 0 6 = f at h ⊢
  interval_cases f <;> rfl
theorem decImm_isSome (h : wf w 12 4 ≤ 8) : (decImm c w).isSome = true := by
  unfold decImm
  generalize wf w 12 4 = f at h ⊢
  interval_cases f <;> rfl
theorem decBranch_isSome (h : wf w 24 4 ≤ 5) : (decBranch c w).isSome = true := by
  unfold decBranch
  generalize wf w 24 4 = f at h ⊢
  interval_cases f <;> rfl
theorem decJump_isSome (h : wf w 20 2 ≤ 1) : (decJump c w).isSome = true := by
  unfold decJump
  generalize wf w 20 2 = f at h ⊢
  interval_cases f <;> rfl
theorem decVl_isSome (h : wf w 24 4 ≤ 5) : (decVl c w).isSome = true := by
  unfold decVl
  generalize wf w 24 4 = f at h ⊢
  interval_cases f <;> rfl
theorem decVa_isSome (h : wf w 22 4 ≤ 0xD) : (decVa c w).isSome = true := by
  unfold decVa
  generalize wf w 22 4 = f at h ⊢
  interval_cases f <;> rfl
theorem decVm_isSome (h : wf w 22 6 ≤ 0x16) : (decVm c w).isSome = true := by
  unfold decVm
  generalize wf w 22 6 = f at h ⊢
  interval_cases f <;> rfl
theorem decSystem_isSome (h : wf w 22 6 ≤ 7) : (decSystem c w).isSome = true := by
  unfold decSystem
  generalize wf w 22 6 = f at h ⊢
  interval_cases f <;> rfl
theorem decMx_isSome (h : wf w 24 4 ≤ 5) : (decMx c w).isSome = true := by
  unfold decMx
  generalize wf w 24 4 = f at h ⊢
  interval_cases f <;> rfl
theorem decTd_isSome (h : wf w 24 4 ≤ 4) : (decTd c w).isSome = true := by
  unfold decTd
  generalize wf w 24 4 = f at h ⊢
  interval_cases f <;> rfl
theorem decLb_isSome (h : wf w 24 4 ≤ 5) : (decLb c w).isSome = true := by
  unfold decLb
  generalize wf w 24 4 = f at h ⊢
  interval_cases f <;> rfl
theorem decPt_isSome (h : wf w 24 4 ≤ 5) : (decPt c w).isSome = true := by
  unfold decPt
  generalize wf w 24 4 = f at h ⊢
  interval_cases f <;> rfl
theorem decSync_isSome (h : wf w 22 6 ≤ 4) : (decSync c w).isSome = true := by
  unfold decSync
  generalize wf w 22 6 = f at h ⊢
  interval_cases f <;> rfl
theorem decLs_isSome (h : okLs w = true) : (decLs c w).isSome = true := by
  unfold okLs at h
  unfold decLs
  generalize wf w 12 4 = f at h ⊢
  simp only [Bool.or_eq_true, decide_eq_true_eq, beq_iff_eq] at h
  obtain ((h | rfl) | rfl) | rfl := h
  · interval_cases f <;> rfl
  all_goals rfl

/-! What a legal word's func is at most, by major opcode. -/

theorem okSystem_func (h : okSystem w = true) : wf w 22 6 ≤ 7 := by
  unfold okSystem at h
  split at h <;> simp_all
theorem okRR_func (h : okRR w = true) : wf w 0 6 ≤ 0x12 := by
  simp only [okRR, Bool.and_eq_true, decide_eq_true_eq] at h
  obtain ⟨⟨hfunc, -⟩, -⟩ := h
  exact hfunc
theorem okImm_func (h : okImm w = true) : wf w 12 4 ≤ 8 := by
  simp only [okImm, Bool.and_eq_true, decide_eq_true_eq] at h
  exact h.1
theorem okVa_func (h : okVa w = true) : wf w 22 4 ≤ 0xD := by
  simp only [okVa, Bool.and_eq_true, decide_eq_true_eq] at h
  obtain ⟨⟨⟨⟨hfunc, -⟩, -⟩, -⟩, -⟩ := h
  exact hfunc
theorem okVm_func (h : okVm w = true) : wf w 22 6 ≤ 0x16 := by
  simp only [okVm, Bool.and_eq_true, decide_eq_true_eq] at h
  obtain ⟨⟨⟨⟨⟨hfunc, -⟩, -⟩, -⟩, -⟩, -⟩ := h
  exact hfunc
theorem okVl_func (h : okVl w = true) : wf w 24 4 ≤ 5 := by
  simp only [okVl] at h
  split at h
  · omega
  split at h
  · omega
  · simp only [Bool.and_eq_true, beq_iff_eq] at h; omega
theorem okMx_func (h : okMx w = true) : wf w 24 4 ≤ 5 := by
  unfold okMx at h
  split at h <;> simp_all
theorem okTd_func (h : okTd w = true) : wf w 24 4 ≤ 4 := by
  unfold okTd at h
  split at h <;> simp_all
theorem okLb_func (h : okLb w = true) : wf w 24 4 ≤ 5 := by
  unfold okLb at h
  split at h <;> simp_all
theorem okPt_func (h : okPt w = true) : wf w 24 4 ≤ 5 := by
  unfold okPt at h
  split at h <;> simp_all
theorem okSync_func (h : okSync w = true) : wf w 22 6 ≤ 4 := by
  unfold okSync at h
  split at h <;> simp_all

/-- Every word that is not illegal spells a command. -/
theorem decodeCore_isNone (w : W32) : (decodeCore c w).isNone = illegalWord w := by
  cases h : illegalWord w with
  | true => simp [decodeCore, h]
  | false =>
    rw [Option.isNone_eq_false_iff]
    simp only [decodeCore, h, Bool.false_eq_true, if_false]
    simp only [illegalWord, Bool.not_eq_false'] at h
    generalize wf w 28 4 = m at h ⊢
    split at h
    · exact decSystem_isSome c (okSystem_func h)
    · exact decRR_isSome c (okRR_func h)
    · exact decImm_isSome c (okImm_func h)
    · rfl
    · exact decBranch_isSome c (of_decide_eq_true h)
    · exact decJump_isSome c (of_decide_eq_true h)
    · exact decLs_isSome c h
    · exact decVl_isSome c (okVl_func h)
    · exact decVa_isSome c (okVa_func h)
    · exact decVm_isSome c (okVm_func h)
    · exact decMx_isSome c (okMx_func h)
    · exact decTd_isSome c (okTd_func h)
    · exact decLb_isSome c (okLb_func h)
    · exact decPt_isSome c (okPt_func h)
    · exact decSync_isSome c (okSync_func h)
    · cases h
end

theorem major_eq (w : W32) : wf w 28 4 = w.toNat / 2 ^ 28 := by
  have := w.isLt
  unfold wf; omega

/-- The fields of an ADD word. -/
theorem decodeCore_add (c : CoreId) (rd rs1 rs2 : BitVec 6) :
    decodeCore c ((1 : BitVec 4) ++ rd ++ rs1 ++ rs2 ++ (0 : BitVec 10)) = some (.add c rd rs1 rs2) := by
  have hd := rd.isLt
  have h1 := rs1.isLt
  have h2 := rs2.isLt
  have hw : ((1 : BitVec 4) ++ rd ++ rs1 ++ rs2 ++ (0 : BitVec 10)).toNat =
      2 ^ 28 + rd.toNat * 2 ^ 22 + rs1.toNat * 2 ^ 16 + rs2.toNat * 2 ^ 10 := by
    simp only [BitVec.toNat_append]
    rw [← Nat.shiftLeft_add_eq_or_of_lt hd, ← Nat.shiftLeft_add_eq_or_of_lt h1, ← Nat.shiftLeft_add_eq_or_of_lt h2,
      ← Nat.shiftLeft_add_eq_or_of_lt (show (0 : BitVec 10).toNat < 2 ^ 10 by decide)]
    have hone : (1 : BitVec 4).toNat = 1 := rfl
    have hzero : (0 : BitVec 10).toNat = 0 := rfl
    simp only [Nat.shiftLeft_eq, hone, hzero]
    omega
  generalize (1 : BitVec 4) ++ rd ++ rs1 ++ rs2 ++ (0 : BitVec 10) = w at hw
  have hmajor : wf w 28 4 = 1 := by unfold wf; omega
  have hfunc : wf w 0 6 = 0 := by unfold wf; omega
  have hzero : wf w 6 4 = 0 := by unfold wf; omega
  have field : ∀ (lo : Nat) (r : BitVec 6), w.toNat / 2 ^ lo % 2 ^ 6 = r.toNat → wb w lo 6 = r := fun lo r h =>
    BitVec.eq_of_toNat_eq (by rw [wb, BitVec.extractLsb'_toNat, Nat.shiftRight_eq_div_pow, h])
  have hlegal : illegalWord w = false := by simp [illegalWord, hmajor, okRR, hfunc, wz, hzero]
  simp only [decodeCore, hlegal, Bool.false_eq_true, if_false, hmajor, decRR, hfunc]
  rw [field 22 rd (by omega), field 16 rs1 (by omega), field 10 rs2 (by omega)]

/-! ### Retirement -/

/-- An instruction that changes its core's own state as it retires. -/
theorem Retires.modCore {s : State} {c : CoreId} {d : Dev} {k k' : CoreSt}
    (h : Retires s (State.mk s.part s.mem d s.pending) c k) (f : CoreSt → CoreSt)
    (hf : ∀ pc, f { k with pc := pc, step := false } = { k' with pc := pc, step := false }) :
    Retires s (State.mk s.part s.mem (d.modCore c f) s.pending) c k' := by
  obtain ⟨hk, hcnt, ⟨hcores, hregs, hrest⟩, hfix, hmem⟩ := h
  refine ⟨?_, (Dev.get_modCore ..).trans hcnt, ⟨fun e he => (Dev.core_modCore_ne d f he).trans (hcores e he),
    fun a ha => (Dev.get_modCore ..).trans (hregs a ha), hrest⟩, hfix, hmem⟩
  have hk' : d.core c = _ := hk
  simp only [State.k, Dev.core_modCore_same, hk', hf]

/-- A register read, and cleared when asked, by an instruction that retires with its value. -/
theorem flag_read (s : State) (c : CoreId) (ra : BitVec 6) (a : Nat) (x : W32) (clear : Bool) (ha : a ≠ coreR c 0x108) :
    let d := s.dev.modCore c CoreSt.take
    let t : State := State.mk s.part s.mem ((if clear then d.put s.part a 0 else d).retireS s.part c ra x) s.pending
    RetiresWith s t c ((s.k c).setS ra x) [a] ∧ t.reg a = if clear then 0 else s.reg a := by
  cases clear with
  | true =>
    have h := retiresS { s with dev := s.dev.put s.part a 0 } c ra x
    simp only [if_true, put_modCore]
    exact Retires.after_put ha h
  | false =>
    have h := retiresS s c ra x
    refine ⟨h.retiresWith _, ?_⟩
    obtain ⟨-, -, ⟨-, hregs, -⟩, -, -⟩ := h
    exact hregs a (by simpa using ha)

theorem flag_ready {s : State} {c : CoreId} {ra : BitVec 6} (h : ready s.part s.dev c [ra, ra + 1] [] = true) :
    ready s.part s.dev c [ra] [] = true := ready_mono h (by simp) (by simp)

/-- The RA field of a synchronisation word. -/
theorem syncWord_ra (major func imm rb : Nat) (ra : BitVec 6) (hr : rb < 64) (hi : imm < 1024) (hm : major < 16) (hf : func < 64) :
    (syncWord major func ra.toNat rb imm).toNat / 2 ^ 16 % 64 = ra.toNat := by
  have hra := ra.isLt
  have hlt : major * 2 ^ 28 + func * 2 ^ 22 + ra.toNat * 2 ^ 16 + rb * 2 ^ 10 + imm < 2 ^ 64 := by omega
  rw [syncWord, BitVec.toNat_ofNat, Nat.mod_eq_of_lt hlt]
  omega

section
variable {s : State} {c : CoreId}

/-- An instruction that may issue answers with its effect. -/
theorem issue_answers {i : Instr} {ss : List (BitVec 6)} {vs : List (BitVec 5)} {f : Part → List Host.Cell → Dev → Dev}
    {P : State → Prop} (h : ready s.part s.dev c ss vs = true) (he : exec i s = issue c ss vs s f)
    (hP : P (State.mk s.part s.mem (f s.part s.mem (s.dev.modCore c CoreSt.take)) s.pending)) : Answers i s P :=
  ⟨_, he.trans (issue_ready h f), hP⟩

/-- An instruction whose check fails raises its exception. -/
theorem issue_excepts {i : Instr} {ss : List (BitVec 6)} {vs : List (BitVec 5)} {f : Part → List Host.Cell → Dev → Dev}
    {P : State → Prop} {cause : Nat} {info : W64} (h : ready s.part s.dev c ss vs = true) (he : exec i s = issue c ss vs s f)
    (hf : f s.part s.mem (s.dev.modCore c CoreSt.take) = (s.dev.modCore c CoreSt.take).raiseExc s.part c cause info)
    (hP : ∀ t, Excepts s t c cause info → P t) : Answers i s P :=
  issue_answers h he (by rw [hf]; exact hP _ (raiseExc_excepts s c cause info false))

/-- A pair field that is odd or 62 raises exception 0x0A. -/
theorem pair_excepts {i : Instr} {ra : BitVec 6} {major func : Nat} {f : Part → List Host.Cell → Dev → Dev}
    (h : ready s.part s.dev c [ra, ra + 1] [] = true) (hbad : badPair ra = true) (hm : major < 16) (hf : func < 64)
    (he : exec i s = issue c [ra, ra + 1] [] s fun p m d =>
      if badPair ra then d.raiseExc p c 0x0A (syncWord major func ra.toNat 0 0) else f p m d) :
    Answers i s fun t => ∃ w, Excepts s t c 0x0A w ∧ w.toNat / 2 ^ 16 % 64 = ra.toNat :=
  issue_excepts h he (if_pos hbad) fun _ hx => ⟨_, hx, syncWord_ra _ _ _ _ ra (by decide) (by decide) hm hf⟩

end

/-- Settles O23: each system instruction's effect, and the decoder. -/
theorem systemInstructions : Obligations.SystemInstructions := by
  refine ⟨?_, ?_⟩
  · intro s c ra clear h k pairOk pair both gives good
    have h0 : ready s.part s.dev c [] [] = true := ready_mono h (by simp) (by simp)
    have h1 := flag_ready h
    have hown : (s.dev.modCore c CoreSt.take).core c = k.take := Dev.core_modCore_same ..
    have hbad : pairOk → badPair ra = false := fun hp => by rw [← Bool.not_eq_true, badPair_iff]; exact not_not_intro hp
    have hget : ∀ a, (s.dev.modCore c CoreSt.take).get s.part a = s.reg a := fun a => Dev.get_modCore ..
    refine ⟨issue_answers h0 (exec_nop s c) (retires_plain s c),
      issue_answers h0 (exec_icinv s c) (retires_modCore s c (fun k => { k with ic := [] }) _ (fun _ => rfl) rfl),
      issue_answers h0 (exec_halt s c) ((retires_plain s c).modCore (fun k => { k with st := .halt }) fun _ => rfl),
      fun hst hv hm => ?_, fun hst hq => ?_, fun hp => ?_, fun hp => ?_, fun hp => ?_, fun hp => ?_, fun hq => ?_, fun hq => ?_, ?_, ?_, ?_⟩
    · refine issue_answers h0 (exec_endProgram s c) ((retires_plain s c).modCore _ fun pc => ?_)
      have he : (s.k c).queuesEmpty = true := by
        simp only [CoreSt.queuesEmpty, show (s.k c).vq = [] from hv, show (s.k c).mq = [] from hm]; rfl
      exact (if_pos hst).trans (if_pos he)
    · refine issue_answers h0 (exec_endProgram s c) ((retires_plain s c).modCore _ fun pc => ?_)
      have he : ¬(s.k c).queuesEmpty = true := by
        simp only [CoreSt.queuesEmpty, Bool.and_eq_true, List.isEmpty_iff, not_and_or]; exact hq
      exact (if_pos hst).trans (if_neg he)
    · refine issue_answers h (exec_seed s c ra) ?_
      simp only [hbad hp, Bool.false_eq_true, if_false, hown, Dev.setSr]
      have hpair : k.take.getP ra = pair := getP_eq k ra
      rw [hpair, put_modCore]
      exact Retires.after_put (by rw [Ne, coreR_inj]; decide) (retires_plain { s with dev := _ } c)
    · refine issue_answers h (exec_srrd s c ra) ?_
      simp only [hbad hp, Bool.false_eq_true, if_false, Dev.srState, hget]
      exact setP_retires s c ra _
    · refine issue_answers h (exec_lrd s c ra) ?_
      simp only [hbad hp, Bool.false_eq_true, if_false, snoop_take]
      exact setP_retires s c ra _
    · have hb : badPair ra = true := (badPair_iff ra).2 hp
      simp only [List.forall_mem_cons, List.not_mem_nil, false_imp_iff, implies_true, and_true]
      exact ⟨pair_excepts h hb (by decide) (by decide) (exec_seed s c ra), pair_excepts h hb (by decide) (by decide) (exec_srrd s c ra),
        pair_excepts h hb (by decide) (by decide) (exec_lrd s c ra), pair_excepts h hb (by decide) (by decide) (exec_lwait s c ra)⟩
    · have hv : vecR c 8 ≠ coreR c 0x108 := by unfold vecR coreR ctlAddr; omega
      have hq' : (s.dev.core c).vq.isEmpty = true := List.isEmpty_iff.2 hq
      refine ⟨_, rfl, ?_⟩
      simp only [h1, hq', if_true, Bool.and_self, hget]
      rw [← BitVec.ofNat_toNat]
      exact flag_read s c ra _ _ clear hv
    · have hm : mxuR c 8 ≠ coreR c 0x108 := by unfold mxuR coreR ctlAddr; omega
      have hq' : (s.dev.core c).mq.isEmpty = true := List.isEmpty_iff.2 hq
      refine ⟨_, rfl, ?_⟩
      simp only [h1, hq', if_true, Bool.false_eq_true, if_false, Bool.and_self, hget]
      rw [← BitVec.ofNat_toNat]
      exact flag_read s c ra _ _ clear hm
    · refine issue_answers h1 (exec_cid s c ra 0) ?_
      rw [← coreSrc_eq]
      exact retiresS s c ra _
    · refine issue_answers h1 (exec_cid s c ra 1) ?_
      rw [← logical_eq _ _ _ (by omega)]
      exact retiresS s c ra _
    · refine issue_answers h1 (exec_cid s c ra 2) ?_
      rw [← nGood_eq]
      exact retiresS s c ra _
  · intro s c word ra h
    have h0 : ready s.part s.dev c [] [] = true := ready_mono h (by simp) (by simp)
    refine ⟨fun hill => ?_, decodeCore_isNone c, rfl, rfl, rfl, rfl, rfl, rfl, rfl, decodeCore_add c, fun w hw => ?_, fun w hw hf => ?_,
      fun w hw hf => ?_, ?_⟩
    · refine issue_excepts h0 (exec_illegalEncoding s c word) (if_pos hill) fun t ht => ?_
      rwa [BitVec.ofNat_toNat]
    · rw [illegalWord, major_eq, hw]; rfl
    · have hfunc : ¬wf w 0 6 ≤ 0x12 := by unfold wf; omega
      have hok : okRR w = false := by rw [← Bool.not_eq_true]; exact mt okRR_func hfunc
      rw [illegalWord, major_eq, hw]
      exact congrArg Bool.not hok
    · have hfunc : ¬wf w 22 6 ≤ 7 := by unfold wf; omega
      have hok : okSystem w = false := by rw [← Bool.not_eq_true]; exact mt okSystem_func hfunc
      rw [illegalWord, major_eq, hw]
      exact congrArg Bool.not hok
    · exact issue_excepts h (exec_cid s c ra 3) rfl fun t ht => ⟨_, ht⟩

end Sys2Proof.Machine
end

-- Core control (R50, R53, R91, R182)
section

namespace Sys2Proof.Machine

section
variable {s : State} {i : Instr} {P : State → Prop}

/-- A command answers with the device it makes. -/
theorem upd_answers {f : Part → List Host.Cell → Dev → Dev} {e : Dev} (he : exec i s = s.upd f) (hf : f s.part s.mem s.dev = e)
    (hP : P (State.mk s.part s.mem e s.pending)) : Answers i s P :=
  ⟨_, he.trans (by rw [State.upd, hf]), hP⟩

theorem updW_answers {f : Part → List Host.Cell → Dev → Dev × Wr} {e : Dev} {ws : Wr} (he : exec i s = s.updW f)
    (hf : f s.part s.mem s.dev = (e, ws)) (hP : P (State.mk s.part (applyWr s.mem ws) e s.pending)) : Answers i s P :=
  ⟨_, he.trans (by rw [State.updW, hf]), hP⟩

end

/-- What a sparse map that keeps only the indices of `f` holds. -/
theorem smGet_filter_index {α : Type} (z : α) (m : SMap α) (f : Nat → Bool) (k : Nat) :
    smGet z (m.filter fun e => f e.1) k = if f k then smGet z m k else z := by
  by_cases hk : f k = true
  · rw [if_pos hk]; exact smGet_filter z m fun _ => hk
  · rw [if_neg hk]
    induction m with
    | nil => rfl
    | cons e m ih =>
      rw [List.filter_cons]
      split
      next he => exact (smGet_cons_ne z e.2 _ fun h : e.1 = k => hk (h ▸ he)).trans ih
      next => exact ih

theorem get_dropCoreRegs (p : Part) (d : Dev) (c : CoreId) (a : Nat) : (d.dropCoreRegs p c).get p a =
    if isCoreBlk c a = true ∧ isCounterAddr p a = false then resetWord p a else d.get p a := by
  unfold Dev.dropCoreRegs Dev.get
  rw [smGet_filter_index _ _ fun a => !(isCoreBlk c a && !isCounterAddr p a)]
  cases isCoreBlk c a <;> cases isCounterAddr p a <;> rfl

theorem OwnIs.of_eq {s : State} {d : Dev} {c : CoreId} {k k' : CoreSt} (h : OwnIs s d c k) (e : k = k') : OwnIs s d c k' := e ▸ h

/-- A write of CORE.CTRL other than RESET changes the core's own state alone. -/
theorem ctrlWrite_ownIs (s : State) (c : CoreId) (start halt resume step : Bool) (hopen : s.dev.coreOpen s.part c = true) :
    OwnIs s (s.dev.ctrlWrite s.part c start halt resume false step) c
      (let k := s.k c
       let k := if start && s.dev.stopStep == 0 then k.start (s.dev.siteReady s.part c.site.toNat) else k
       let k := if halt then k.halt else k
       let k := if resume then k.resume else k
       if step then k.stepOne else k) := by
  simp only [Dev.ctrlWrite, hopen, Bool.not_true, Bool.false_eq_true, if_false]
  exact (OwnIs.refl s c).modCore _

theorem start_of_not_held {k : CoreSt} (b : Bool) (h : k.heldReset = false) :
    k.start b = if k.st = .idle then { k with st := .run } else k := by
  unfold CoreSt.start
  by_cases hi : k.st = .idle
  · rw [if_pos (.inl hi), if_pos hi, ← h]
  · rw [if_neg hi, if_neg]
    simp [hi, h]

/-- Settles O24: the effect of each write of CORE.CTRL on the core's own state. -/
theorem coreControl : Obligations.CoreControl := by
  intro s c hopen hstop hfree k goes
  have own : ∀ {i : Instr} {d : Dev} {k' : CoreSt}, exec i s = .next (State.mk s.part s.mem d s.pending) → OwnIs s d c k' → goes i k' :=
    fun he h => ⟨_, he, h.coreOnly⟩
  refine ⟨own rfl ?_, own rfl (ctrlWrite_ownIs s c false true false false hopen), own rfl (ctrlWrite_ownIs s c false false true false hopen),
    own rfl (ctrlWrite_ownIs s c false false false true hopen), own rfl ?_, fun hready => own rfl ?_, fun hheld => own rfl ?_, ?_⟩
  · have h := ctrlWrite_ownIs s c true false false false hopen
    simp only [hstop, beq_self_eq_true, Bool.and_self, if_true, Bool.false_eq_true, if_false] at h
    rwa [start_of_not_held _ hfree] at h
  · simp only [hopen, if_true]
    exact (OwnIs.refl s c).modCore fun k => if k.st = .run ∨ k.st = .wait then k else { k with ic := [] }
  · have hhas : s.part.has c = true := by
      simp only [Dev.coreOpen, Bool.and_eq_true] at hopen; exact hopen.1
    simp only [hhas, hready, Bool.and_self, if_true]
    refine ((OwnIs.refl s c).modCore fun k => if k.st = .reset ∧ !k.heldReset then { k with st := .idle } else k).of_eq ?_
    exact if_congr (by simp [hfree, k]) rfl rfl
  · simp only [hheld, Bool.false_eq_true, if_false]
    refine ((OwnIs.refl s c).modCore fun k =>
      if k.ending && k.st == .run && k.queuesEmpty then { k with st := .idle, ending := false } else k).of_eq ?_
    refine if_congr ?_ rfl rfl
    simp only [CoreSt.queuesEmpty, Bool.and_eq_true, List.isEmpty_iff, beq_iff_eq, and_assoc]
    exact Iff.rfl
  · have hr : s.dev.ctrlWrite s.part c false false false true false = s.dev.coreReset s.part c := by
      simp only [Dev.ctrlWrite, hopen, Bool.not_true, Bool.false_eq_true, if_false, if_true]
    refine upd_answers (exec_coreReset s c) hr ?_
    refine ⟨Dev.core_modCore_same .., fun e he => Dev.core_modCore_ne _ _ he, fun a => ?_, rfl, ⟨rfl, rfl⟩, fun _ => rfl⟩
    exact (Dev.get_modCore ..).trans (get_dropCoreRegs ..)

end Sys2Proof.Machine
end

-- Instruction fetch (R56, R60, R93)
section

namespace Sys2Proof.Machine

/-! ### An exception of a core whose STEP is still armed -/

theorem coreFault_raisedAt (p : Part) (d : Dev) (c : CoreId) (cls code : Nat) (c0 c1 : W64) (inj : Bool) :
    RaisedAt p c.site.toNat d (d.coreFault p c cls code c0 c1 inj) := raiseRec_raisedAt _ _

/-- What raising an exception leaves of the core and of its registers. -/
theorem raiseExc_own (p : Part) (d : Dev) (c : CoreId) (cause : Nat) (info : W64) (inj : Bool) :
    let e := d.raiseExc p c cause info inj
    e.core c = { d.core c with st := .fault, step := false, wait := none, ending := false } ∧
    e.get p (coreR c 0x18) = BitVec.ofNat 64 (cause + 2 ^ 8 + (d.core c).pc.toNat * 2 ^ 32) ∧ e.get p (coreR c 0x20) = info ∧
    e.get p (coreR c 0x40) = d.get p (coreR c 0x40) := by
  intro e
  let d1 : Dev := ((d.put p (coreR c 0x18) (BitVec.ofNat 64 (cause + 2 ^ 8 + (d.core c).pc.toNat * 2 ^ 32))).put p (coreR c 0x20)
    info).modCore c fun k => { k with st := .fault, step := false, wait := none, ending := false }
  have hr : RaisedAt p c.site.toNat d1 e :=
    coreFault_raisedAt p d1 c 3 0x0101 (BitVec.ofNat 64 cause) (Config.excContext (d.core c).pc info) inj
  have hget : ∀ off, off < 2 ^ 20 → e.get p (coreR c off) =
      ((d.put p (coreR c 0x18) (BitVec.ofNat 64 (cause + 2 ^ 8 + (d.core c).pc.toNat * 2 ^ 32))).put p (coreR c 0x20) info).get p
        (coreR c off) := fun off ho =>
    (hr.away _ (awayFromLog_coreR c ho _)).trans (Dev.get_modCore ..)
  refine ⟨(hr.core c).trans (Dev.core_modCore_same ..), ?_, ?_, ?_⟩
  · rw [hget _ (by decide), Dev.get_put_ne _ _ _ (by rw [Ne, coreR_inj]; decide), Dev.get_put_same]
  · rw [hget _ (by decide), Dev.get_put_same]
  · rw [hget _ (by decide), Dev.get_put_ne _ _ _ (by rw [Ne, coreR_inj]; decide), Dev.get_put_ne _ _ _ (by rw [Ne, coreR_inj]; decide)]

/-- Exception 0x08 on a word that the check has recorded in PERR. -/
theorem raiseBad_noted (s : State) {d : Dev} {c : CoreId} {w : Nat} (hown : d.core c = s.k c) (hw : w < 2 ^ 22) :
    MeetsDouble s (State.mk s.part s.mem ((d.notePerr s.part c w 33).raiseBad s.part c w) s.pending) c w := by
  obtain ⟨hk, hexc, hinfo, hperr⟩ := raiseExc_own s.part (d.notePerr s.part c w 33) c 0x08 (BitVec.ofNat 64 w)
    (((d.notePerr s.part c w 33).mark (pantryAt c w)).getLsbD 2)
  rw [show (d.notePerr s.part c w 33).core c = s.k c from hown] at hk hexc
  exact ⟨(congrArg CoreSt.st hk :), (congrArg CoreSt.pc hk :), (congrArg CoreSt.s hk :), (congrArg CoreSt.ic hk :), hexc, hinfo,
    (congrArg (bits · 0 22) hperr).trans (notePerr_fld s.part d c hw (by omega) (by omega)),
    (congrArg (BitVec.getLsbD · 33) hperr).trans (notePerr_bit s.part d c (by omega)), fun _ => rfl⟩

/-! ### The check of the words of a line -/

/-- The check of a word without a double-bit error changes no core and no other word's mark. -/
theorem checkWord_passes {p : Part} {d : Dev} {c : CoreId} {a : Nat} (h : (d.mark (pantryAt c a)).getLsbD 1 = false) :
    ∃ e, d.checkWord p c a = (e, false) ∧ (∀ k, e.core k = d.core k) ∧ ∀ x, x ≠ pantryAt c a → e.mark x = d.mark x := by
  cases h0 : (d.mark (pantryAt c a)).getLsbD 0 with
  | false => exact ⟨d, by simp only [Dev.checkWord, h, h0, Bool.false_eq_true, if_false], fun _ => rfl, fun _ _ => rfl⟩
  | true =>
    let d2 := ((d.setMark (pantryAt c a) 0).count p (coreR c 0x128) 1).notePerr p c a 32
    have hr := coreFault_raisedAt p d2 c 1 0x0102 (BitVec.ofNat 64 a) 0 ((d.mark (pantryAt c a)).getLsbD 2)
    refine ⟨d2.coreFault p c 1 0x0102 (BitVec.ofNat 64 a) 0 ((d.mark (pantryAt c a)).getLsbD 2), ?_, hr.core, fun x hx => ?_⟩
    · simp only [Dev.checkWord, h, h0, if_true, Bool.false_eq_true, if_false]
      rfl
    rw [Dev.coreFault, raiseRec_mark]
    exact (Dev.mark_setMark d _ 0 _).trans (if_neg hx)

theorem pantryAt_inj (c : CoreId) {a b : Nat} : pantryAt c a = pantryAt c b ↔ a = b := by unfold pantryAt; omega

/-- The first word with a double-bit error among those checked is recorded and named. -/
theorem checkWords_double {p : Part} {c : CoreId} (i : Nat) : ∀ {d : Dev} {a n : Nat}, i < n →
    (d.mark (pantryAt c (a + 8 * i))).getLsbD 1 = true → (∀ j, j < i → (d.mark (pantryAt c (a + 8 * j))).getLsbD 1 = false) →
    ∃ e : Dev, d.checkWords p c a n = (e.notePerr p c (a + 8 * i) 33, some (a + 8 * i)) ∧ ∀ k, e.core k = d.core k := by
  induction i with
  | zero =>
    intro d a n hn h _
    obtain ⟨n, rfl⟩ := Nat.exists_eq_succ_of_ne_zero (by omega : n ≠ 0)
    simp only [Nat.mul_zero, Nat.add_zero] at h ⊢
    exact ⟨d, by simp only [Dev.checkWords, checkWord_double h], fun _ => rfl⟩
  | succ i ih =>
    intro d a n hn h hbefore
    obtain ⟨n, rfl⟩ := Nat.exists_eq_succ_of_ne_zero (by omega : n ≠ 0)
    obtain ⟨e, he, hcore, hmark⟩ := checkWord_passes (p := p) (hbefore 0 (by omega))
    have hm : ∀ j, e.mark (pantryAt c (a + 8 + 8 * j)) = d.mark (pantryAt c (a + 8 * (j + 1))) := fun j => by
      rw [hmark _ (by rw [Ne, pantryAt_inj]; omega)]
      congr 2; omega
    obtain ⟨e', he', hcore'⟩ := ih (d := e) (a := a + 8) (n := n) (by omega) (by rw [hm]; exact h)
      fun j hj => by rw [hm]; exact hbefore (j + 1) (by omega)
    refine ⟨e', ?_, fun k => (hcore' k).trans (hcore k)⟩
    simp only [Dev.checkWords, show d.checkWord p c a = (e, false) from he, he']
    rw [show a + 8 + 8 * i = a + 8 * (i + 1) by omega]

/-! ### The fetch -/

section
variable {s : State} {c : CoreId} {e : Dev}

/-- An uncached fetch whose read of the pantry succeeds. -/
theorem fetch_uncached {bs : List Byte} {P : State → Prop} (hhas : s.part.has c = true) (hissue : (s.k c).canIssue = true)
    (hheld : s.dev.edgesHeld c = false) (hen : s.dev.bit s.part (coreR c 0x48) 0 = false)
    (hread : s.dev.pantryRead s.part s.mem c (s.k c).pc.toNat 4 = (e, .ok bs))
    (hP : P (State.mk s.part s.mem (e.modCore c fun k => { k with fetched := some (k.pc, BitVec.ofNat 32 (leNat bs)) }) s.pending)) :
    Answers (.instructionFetch c) s P := by
  refine upd_answers (exec_instructionFetch s c) ?_ hP
  have hissue' : (s.dev.core c).canIssue = true := hissue
  simp only [hhas, hissue', hheld, hen, Bool.and_self, Bool.not_true, Bool.or_self, Bool.false_eq_true, if_false, hread]

theorem fetch_uncached_fails {w : Nat} {P : State → Prop} (hhas : s.part.has c = true) (hissue : (s.k c).canIssue = true)
    (hheld : s.dev.edgesHeld c = false) (hen : s.dev.bit s.part (coreR c 0x48) 0 = false)
    (hread : s.dev.pantryRead s.part s.mem c (s.k c).pc.toNat 4 = (e, .error w))
    (hP : P (State.mk s.part s.mem (e.raiseBad s.part c w) s.pending)) : Answers (.instructionFetch c) s P := by
  refine upd_answers (exec_instructionFetch s c) ?_ hP
  have hissue' : (s.dev.core c).canIssue = true := hissue
  simp only [hhas, hissue', hheld, hen, Bool.and_self, Bool.not_true, Bool.or_self, Bool.false_eq_true, if_false, hread]

theorem fetch_hit {x : ICLine} {P : State → Prop} (hhas : s.part.has c = true) (hissue : (s.k c).canIssue = true)
    (hheld : s.dev.edgesHeld c = false) (hen : s.dev.bit s.part (coreR c 0x48) 0 = true)
    (hx : smGet none (s.k c).ic ((s.k c).pc.toNat / 128 % 128) = some x) (hline : x.line.toNat = (s.k c).pc.toNat / 128)
    (hP : P (State.mk s.part s.mem (s.dev.modCore c fun k => { k with
      fetched := some (k.pc, BitVec.ofNat 32 (leNat ((x.data.drop ((s.k c).pc.toNat % 128)).take 4))) }) s.pending)) :
    Answers (.instructionFetch c) s P := by
  refine upd_answers (exec_instructionFetch s c) ?_ hP
  have hissue' : (s.dev.core c).canIssue = true := hissue
  have hx' : smGet none (s.dev.core c).ic ((s.dev.core c).pc.toNat / 128 % 128) = some x := hx
  have hline' : x.line.toNat = (s.dev.core c).pc.toNat / 128 := hline
  simp only [hhas, hissue', hheld, hen, Bool.and_self, Bool.not_true, Bool.or_self, Bool.false_eq_true, if_false, if_true, hx', hline']

/-- A fetch whose line the cache does not hold, where the fill reads the pantry without a double-bit error. -/
theorem fetch_miss {bs : List Byte} {P : State → Prop} (hhas : s.part.has c = true) (hissue : (s.k c).canIssue = true)
    (hheld : s.dev.edgesHeld c = false) (hen : s.dev.bit s.part (coreR c 0x48) 0 = true)
    (hmiss : ∀ x, smGet none (s.k c).ic ((s.k c).pc.toNat / 128 % 128) = some x → x.line.toNat ≠ (s.k c).pc.toNat / 128)
    (hread : (s.dev.count s.part (coreR c 0x118) 1).pantryRead s.part s.mem c ((s.k c).pc.toNat / 128 * 128) 128 = (e, .ok bs))
    (hP : P (State.mk s.part s.mem ((e.modCore c fun k => { k with
      ic := smSet none k.ic ((s.k c).pc.toNat / 128 % 128) (some ⟨BitVec.ofNat 15 ((s.k c).pc.toNat / 128), bs⟩) }).modCore c fun k => { k with
      fetched := some (k.pc, BitVec.ofNat 32 (leNat ((bs.drop ((s.k c).pc.toNat % 128)).take 4))) }) s.pending)) :
    Answers (.instructionFetch c) s P := by
  refine upd_answers (exec_instructionFetch s c) ?_ hP
  have hissue' : (s.dev.core c).canIssue = true := hissue
  simp only [hhas, hissue', hheld, hen, Bool.and_self, Bool.not_true, Bool.or_self, Bool.false_eq_true, if_false, if_true]
  cases hx : smGet none (s.dev.core c).ic ((s.dev.core c).pc.toNat / 128 % 128) with
  | none => simp only [hread]
  | some x => simp only [if_neg (hmiss x hx), hread]

theorem fetch_miss_fails {w : Nat} {P : State → Prop} (hhas : s.part.has c = true) (hissue : (s.k c).canIssue = true)
    (hheld : s.dev.edgesHeld c = false) (hen : s.dev.bit s.part (coreR c 0x48) 0 = true)
    (hmiss : ∀ x, smGet none (s.k c).ic ((s.k c).pc.toNat / 128 % 128) = some x → x.line.toNat ≠ (s.k c).pc.toNat / 128)
    (hread : (s.dev.count s.part (coreR c 0x118) 1).pantryRead s.part s.mem c ((s.k c).pc.toNat / 128 * 128) 128 = (e, .error w))
    (hP : P (State.mk s.part s.mem (e.raiseBad s.part c w) s.pending)) : Answers (.instructionFetch c) s P := by
  refine upd_answers (exec_instructionFetch s c) ?_ hP
  have hissue' : (s.dev.core c).canIssue = true := hissue
  simp only [hhas, hissue', hheld, hen, Bool.and_self, Bool.not_true, Bool.or_self, Bool.false_eq_true, if_false, if_true]
  cases hx : smGet none (s.dev.core c).ic ((s.dev.core c).pc.toNat / 128 % 128) with
  | none => simp only [hread]
  | some x => simp only [if_neg (hmiss x hx), hread]

end

/-- Settles O25: the uncached fetch, the hit, the filled line, and the errors that the check of a word meets. -/
theorem instructionFetch : Obligations.InstructionFetch := by
  intro s c hhas hissue hheld halign k pc line en fetches
  have hpc : pc < 2 ^ 22 := k.pc.isLt
  have halign' : pc % 4 = 0 := halign
  have hword : (pc + 4 - 1) / 8 = pc / 8 := by omega
  refine ⟨fun hen hclean => ?_, fun x hen hx hline => ?_, fun hen hmiss hclean => ?_, fun hen hd => ?_, fun i hi hen hmiss hd hbefore => ?_,
    fun hen hd => ?_⟩
  · refine fetch_uncached hhas hissue hheld hen (pantryRead_clean hclean) ?_
    rw [leNat_read]
    exact ((OwnIs.refl s c).modCore fun k => { k with fetched := some (k.pc, BitVec.ofNat 32 (s.le (pantryAt c pc) 4)) }).coreOnly
  · refine fetch_hit hhas hissue hheld hen hx hline ?_
    exact ((OwnIs.refl s c).modCore fun k => { k with fetched := some (k.pc, BitVec.ofNat 32 (leNat ((x.data.drop (pc % 128)).take 4))) }).coreOnly
  · refine fetch_miss hhas hissue hheld hen hmiss (pantryRead_clean hclean) ?_
    have hline : line * 128 + pc % 128 = pc := by show pc / 128 * 128 + pc % 128 = pc; omega
    have hle : leNat (((Memory.read s.mem (pantryAt c (line * 128)) 128).drop (pc % 128)).take 4) = s.le (pantryAt c pc) 4 := by
      rw [read_drop_take s.mem (by omega), leNat_read, pantryAt, Nat.add_assoc, hline]; rfl
    have hcount : ∀ z, z ≠ coreR c 0x118 → (s.dev.count s.part (coreR c 0x118) 1).get s.part z = s.reg z := fun z hz =>
      Dev.get_count_ne _ _ _ hz
    refine ⟨⟨⟨BitVec.ofNat 15 line, Memory.read s.mem (pantryAt c (line * 128)) 128⟩, ?_, fun i hi => ?_, ?_, ⟨fun e he => ?_, fun z hz => ?_, rfl⟩,
      ⟨rfl, rfl⟩, fun _ => rfl⟩, ?_⟩
    · exact Nat.mod_eq_of_lt (show pc / 128 < 2 ^ 15 by omega)
    · rw [read_getElem? _ _ _ _ hi, pantryAt, Nat.add_assoc]; rfl
    · simp only [State.k, Dev.core_modCore_same, Dev.core_count]
      rw [← hle]
    · simp only [State.k, Dev.core_modCore_ne _ _ he, Dev.core_count]
    · simp only [State.reg, Dev.get_modCore]
      exact hcount z (by simpa using hz)
    · simp only [State.reg, Dev.get_modCore, Dev.get_count_same]
  · obtain ⟨t, ht, hbad⟩ := fetch_uncached_fails (P := fun t => MeetsDouble s t c (pc / 8 * 8)) hhas hissue hheld hen
      (pantryRead_double (by decide) hword hd) (raiseBad_noted s rfl (by omega))
    exact ⟨t, ht, hbad⟩
  · have hi' : line * 128 + 8 * i < 2 ^ 22 := by show pc / 128 * 128 + 8 * i < 2 ^ 22; omega
    obtain ⟨e, he, hcore⟩ := checkWords_double (p := s.part) (d := s.dev.count s.part (coreR c 0x118) 1) (a := line * 128) (n := 16) i hi
      hd hbefore
    have hread : (s.dev.count s.part (coreR c 0x118) 1).pantryRead s.part s.mem c (line * 128) 128 =
        (e.notePerr s.part c (line * 128 + 8 * i) 33, .error (line * 128 + 8 * i)) := by
      have h0 : wordOf (line * 128) = line * 128 := by unfold wordOf; omega
      have h1 : wordsIn (line * 128) 128 = 16 := by rw [wordsIn_pos (by decide)]; omega
      simp only [Dev.pantryRead, h0, h1, he]
    obtain ⟨t, ht, hbad⟩ := fetch_miss_fails (P := fun t => MeetsDouble s t c (line * 128 + 8 * i)) hhas hissue hheld hen hmiss hread
      (raiseBad_noted s (hcore c) hi')
    exact ⟨t, ht, hbad⟩
  · obtain ⟨e, hr, hc⟩ := pantryRead_single (p := s.part) (m := s.mem) (d := s.dev) (c := c) (a := pc) (n := 4) (by decide) hpc hword hd
    refine fetch_uncached hhas hissue hheld hen hr ?_
    rw [leNat_read]
    refine ⟨?_, hc.mark, (Dev.get_modCore ..).trans hc.count, (fld_modCore ..).trans hc.word, (bit_modCore ..).trans hc.single, fun _ => rfl⟩
    simp only [State.k, Dev.core_modCore_same, hc.core]
    rfl

end Sys2Proof.Machine
end

-- The porter's queues: doorbells, tails, heads and enables (R86, R90, R96, R148)
section

namespace Sys2Proof.Machine

/-! ### Fields beside a field written -/

section
variable (p : Part) (d : Dev) {a b : Nat}

theorem fld_setF_ne (lo n v m k : Nat) (h : b ≠ a) : (d.setF p a lo n v).fld p b m k = d.fld p b m k := by
  unfold Dev.fld; rw [Dev.get_setF_ne p d lo n v h]
theorem bit_setF_ne (lo n v i : Nat) (h : b ≠ a) : (d.setF p a lo n v).bit p b i = d.bit p b i := by
  unfold Dev.bit; rw [Dev.get_setF_ne p d lo n v h]
theorem fld_setB_ne (i : Nat) (x : Bool) (m k : Nat) (h : b ≠ a) : (d.setB p a i x).fld p b m k = d.fld p b m k :=
  fld_setF_ne p d i 1 _ m k h
theorem bit_setB_ne (i : Nat) (x : Bool) (j : Nat) (h : b ≠ a) : (d.setB p a i x).bit p b j = d.bit p b j :=
  bit_setF_ne p d i 1 _ j h
theorem fld_setF_below {lo n m k : Nat} (v : Nat) (h : lo + n ≤ 64) (hd : m + k ≤ lo) :
    (d.setF p a lo n v).fld p a m k = d.fld p a m k := by
  unfold Dev.fld; rw [Dev.get_setF_same, bits_withBits_below _ v h hd]
theorem fld_setF_above {lo n m k : Nat} (v : Nat) (h : lo + n ≤ 64) (hd : lo + n ≤ m) :
    (d.setF p a lo n v).fld p a m k = d.fld p a m k := by
  unfold Dev.fld; rw [Dev.get_setF_same, bits_withBits_above _ v h hd]

end

theorem prtReg_inj (c : CoreId) (q : Nat) {a b : Nat} : prtReg c q a = prtReg c q b ↔ a = b := by
  unfold prtReg prtR ctlAddr; omega
theorem prtReg_ne_coreR (c : CoreId) {q off x : Nat} (hq : q < 16) (ho : off < 0x20) (hx : x < 2 ^ 20) : prtReg c q off ≠ coreR c x := by
  have := c.p.isLt
  rw [Ne, prtReg, prtR, coreR, ctlAddr_inj (by omega) (by omega) (by omega) hx]
  omega

/-! ### Retirement beside registers written -/

/-- An instruction that has written registers retires. -/
theorem retire_regsIn {s : State} {c : CoreId} {e : Dev} {regs : List Nat}
    (h : RegsIn s.part (· ∈ regs) (s.dev.modCore c CoreSt.take) e) (h0 : coreR c 0x108 ∉ regs) :
    RetiresWith s (State.mk s.part s.mem (e.retire s.part c) s.pending) c (s.k c) regs ∧
      ∀ a, a ≠ coreR c 0x108 → (e.retire s.part c).get s.part a = e.get s.part a := by
  have hcore : ∀ x, e.core x = (s.dev.modCore c CoreSt.take).core x := fun x => by
    unfold Dev.core; rw [h.cores]
  have hget : ∀ a, a ≠ coreR c 0x108 → (e.retire s.part c).get s.part a = e.get s.part a := fun a ha => by
    unfold Dev.retire Dev.retireTo
    rw [Dev.get_count_ne _ _ _ ha, Dev.get_modCore]
  refine ⟨⟨?_, ?_, ⟨fun x hx => ?_, fun a ha => ?_, ?_⟩, ⟨rfl, rfl⟩, fun _ => rfl⟩, hget⟩
  · simp only [State.k, Dev.retire, Dev.retireTo, Dev.core_count, Dev.core_modCore_same, hcore]
    rfl
  · simp only [State.reg, Dev.retire, Dev.retireTo, Dev.get_count_same, Dev.get_modCore, h.2 _ h0]
  · simp only [State.k, Dev.retire, Dev.retireTo, Dev.core_count, Dev.core_modCore_ne _ _ hx, hcore]
  · simp only [List.mem_cons, not_or] at ha
    exact (hget a ha.1).trans (h.2 a ha.2)
  · have hrest : e.noRegs.noCores = (s.dev.modCore c CoreSt.take).noRegs.noCores := congrArg Dev.noCores h.1
    exact hrest

/-! ### A new tail (R86) -/

section
variable (p : Part) (d : Dev) (c : CoreId) (q : Nat)

theorem qTail_setTailField (t : BitVec 16) : (d.setF p (prtReg c q 0x10) 0 16 t.toNat).qTail p c q = t := by
  unfold Dev.qTail
  rw [Dev.fld_setF_same _ _ _ _ _ _ (by omega), Nat.mod_eq_of_lt t.isLt, BitVec.ofNat_toNat, BitVec.setWidth_eq]

theorem qFail_regsIn (cause : Nat) (i : BitVec 16) : RegsIn p (· ∈ [prtReg c q 0x18]) d (d.qFail p c q cause i) := by
  unfold Dev.qFail
  split
  · exact (setF_regsIn _ _ _ (by simp)).trans (setF_regsIn _ _ _ (by simp))
  · exact RegsIn.refl d

theorem qFail_sets {cause : Nat} (i : BitVec 16) (h : d.qCause p c q = 0) (hc : cause < 2 ^ 4) :
    (d.qFail p c q cause i).qCause p c q = cause ∧ (d.qFail p c q cause i).qErrIndex p c q = i := by
  have hf : d.qFail p c q cause i = (d.setF p (prtReg c q 0x18) 4 4 cause).setF p (prtReg c q 0x18) 16 16 i.toNat := if_pos h
  rw [hf]
  unfold Dev.qCause Dev.qErrIndex
  rw [fld_setF_below p _ _ (by omega) (by omega), Dev.fld_setF_same _ _ _ _ _ _ (by omega), Dev.fld_setF_same _ _ _ _ _ _ (by omega),
    Nat.mod_eq_of_lt hc, Nat.mod_eq_of_lt i.isLt, BitVec.ofNat_toNat, BitVec.setWidth_eq]
  exact ⟨rfl, rfl⟩

/-- The registers of a new tail, and when it puts the queue into ERROR. -/
theorem setTail_moves (t : BitVec 16) :
    RegsIn p (· ∈ [prtReg c q 0x10, prtReg c q 0x18]) d (d.setTail p c q t) ∧ (d.setTail p c q t).qTail p c q = t ∧
    (d.qEn p c q = true → 2 ^ d.qLog2 p c q < (t - d.qHead p c q).toNat → d.qCause p c q = 0 →
      (d.setTail p c q t).qCause p c q = 2 ∧
      (d.setTail p c q t).qErrIndex p c q = d.qHead p c q + BitVec.ofNat 16 (2 ^ d.qLog2 p c q)) ∧
    ((t - d.qHead p c q).toNat ≤ 2 ^ d.qLog2 p c q → (d.setTail p c q t).get p (prtReg c q 0x18) = d.get p (prtReg c q 0x18)) := by
  have h0 : prtReg c q 0 ≠ prtReg c q 0x10 := by rw [Ne, prtReg_inj]; decide
  have h8 : prtReg c q 8 ≠ prtReg c q 0x10 := by rw [Ne, prtReg_inj]; decide
  have h18 : prtReg c q 0x18 ≠ prtReg c q 0x10 := by rw [Ne, prtReg_inj]; decide
  have htail := qTail_setTailField p d c q t
  have hen : (d.setF p (prtReg c q 0x10) 0 16 t.toNat).qEn p c q = d.qEn p c q := bit_setF_ne p d _ _ _ _ h0
  have hlog : (d.setF p (prtReg c q 0x10) 0 16 t.toNat).qLog2 p c q = d.qLog2 p c q := fld_setF_ne p d _ _ _ _ _ h0
  have hhead : (d.setF p (prtReg c q 0x10) 0 16 t.toNat).qHead p c q = d.qHead p c q :=
    congrArg (BitVec.ofNat 16) (fld_setF_ne p d _ _ _ _ _ h8)
  have hcause : (d.setF p (prtReg c q 0x10) 0 16 t.toNat).qCause p c q = d.qCause p c q := fld_setF_ne p d _ _ _ _ _ h18
  have hget : (d.setF p (prtReg c q 0x10) 0 16 t.toNat).get p (prtReg c q 0x18) = d.get p (prtReg c q 0x18) :=
    Dev.get_setF_ne p d _ _ _ h18
  have hin : RegsIn p (· ∈ [prtReg c q 0x10, prtReg c q 0x18]) d (d.setF p (prtReg c q 0x10) 0 16 t.toNat) :=
    setF_regsIn _ _ _ (by simp)
  unfold Dev.setTail
  generalize d.setF p (prtReg c q 0x10) 0 16 t.toNat = e at htail hen hlog hhead hcause hget hin
  simp only [Dev.qOverflow, htail, hen, hlog, hhead]
  split
  next h =>
    simp only [Bool.and_eq_true, decide_eq_true_eq] at h
    have hf := qFail_regsIn p e c q 2 (d.qHead p c q + BitVec.ofNat 16 (2 ^ d.qLog2 p c q))
    refine ⟨hin.trans (hf.mono fun a ha => by simp at ha; simp [ha]), ?_, fun _ _ h0 => qFail_sets p e c q _ (hcause.trans h0) (by decide),
      fun hle => absurd h.2 (by omega)⟩
    refine Eq.trans (congrArg (BitVec.ofNat 16) ?_) htail
    unfold Dev.fld
    rw [hf.2 _ (by simp only [List.mem_singleton]; exact h18.symm)]
  next h =>
    simp only [Bool.and_eq_true, decide_eq_true_eq] at h
    exact ⟨hin, htail, fun h1 h2 => absurd ⟨h1, h2⟩ h, fun _ => hget⟩

end

/-- What a new tail `v` of queue `q` leaves in the queue's registers. -/
def TailMoved (p : Part) (d e : Dev) (c : CoreId) (q : Nat) (v : BitVec 16) : Prop :=
  e.qTail p c q = v ∧
  (d.qEn p c q = true → 2 ^ d.qLog2 p c q < (v - d.qHead p c q).toNat → d.qCause p c q = 0 →
    e.qCause p c q = 2 ∧ e.qErrIndex p c q = d.qHead p c q + BitVec.ofNat 16 (2 ^ d.qLog2 p c q)) ∧
  ((v - d.qHead p c q).toNat ≤ 2 ^ d.qLog2 p c q → e.get p (prtReg c q 0x18) = d.get p (prtReg c q 0x18))

/-- Only the tail and the state register of the later device matter. -/
theorem TailMoved.of_get {p : Part} {d e e' : Dev} {c : CoreId} {q : Nat} {v : BitVec 16} (h : TailMoved p d e c q v)
    (h10 : e'.get p (prtReg c q 0x10) = e.get p (prtReg c q 0x10)) (h18 : e'.get p (prtReg c q 0x18) = e.get p (prtReg c q 0x18)) :
    TailMoved p d e' c q v := by
  unfold TailMoved Dev.qTail Dev.qErrIndex Dev.qCause Dev.fld at *
  rwa [h10, h18]

section
variable {s : State} {c : CoreId}

/-- A doorbell moves the tail of an enabled queue and is refused by one whose EN is 0. -/
theorem doorbell_rings (q : BitVec 4) (n : BitVec 16) :
    let t : State := State.mk s.part s.mem ((s.dev.modCore c CoreSt.take).doorbell s.part c q n) s.pending
    (s.dev.qEn s.part c q.toNat = true →
      RetiresWith s t c (s.k c) [prtReg c q.toNat 0x10, prtReg c q.toNat 0x18] ∧
        TailMoved s.part s.dev t.dev c q.toNat (s.dev.qTail s.part c q.toNat + n)) ∧
    (s.dev.qEn s.part c q.toNat = false → Excepts s t c 0x09 (BitVec.ofNat 64 q.toNat)) := by
  have hen : (s.dev.modCore c CoreSt.take).qEn s.part c q.toNat = s.dev.qEn s.part c q.toNat := bit_modCore ..
  have htail : (s.dev.modCore c CoreSt.take).qTail s.part c q.toNat = s.dev.qTail s.part c q.toNat :=
    congrArg (BitVec.ofNat 16) (fld_modCore ..)
  have h10 : prtReg c q.toNat 0x10 ≠ coreR c 0x108 := prtReg_ne_coreR c q.isLt (by decide) (by decide)
  have h18 : prtReg c q.toNat 0x18 ≠ coreR c 0x108 := prtReg_ne_coreR c q.isLt (by decide) (by decide)
  refine ⟨fun h => ?_, fun h => ?_⟩
  · simp only [Dev.doorbell, hen, h, if_true, htail]
    obtain ⟨hin, hmoved⟩ := setTail_moves s.part (s.dev.modCore c CoreSt.take) c q.toNat (s.dev.qTail s.part c q.toNat + n)
    obtain ⟨hret, hget⟩ := retire_regsIn hin (by simp only [List.mem_cons, List.not_mem_nil, or_false, not_or]; exact ⟨h10.symm, h18.symm⟩)
    exact ⟨hret, TailMoved.of_get hmoved (hget _ h10) (hget _ h18)⟩
  · simp only [Dev.doorbell, hen, h, Bool.false_eq_true, if_false]
    rw [BitVec.ofNat_toNat]
    exact raiseExc_excepts s c 0x09 _ false

/-- A command that writes registers alone. -/
theorem RegsIn.still {e : Dev} {regs : List Nat} (h : RegsIn s.part (· ∈ regs) s.dev e) :
    let t : State := State.mk s.part s.mem e s.pending
    Still s t ∧ RegsOnly s t regs :=
  ⟨⟨fun _ => rfl, fun x => by simp only [State.k, Dev.core]; rw [h.cores], rfl, rfl⟩, h.2, h.1⟩

end

/-! ### EN (R90) -/

section
variable (p : Part) (d : Dev) (c : CoreId) (q : Nat)

theorem setEn_keeps_fields (x : Bool) : (d.setB p (prtReg c q 0) 0 x).fld p (prtReg c q 0) 1 63 = d.fld p (prtReg c q 0) 1 63 :=
  fld_setF_above p d _ (by omega) (by omega)

/-- EN written 1 clears the error of a queue whose tail is not too far ahead. -/
theorem setEn_enables (hen : d.qEn p c q = false) (hsize : (d.qTail p c q - d.qHead p c q).toNat ≤ 2 ^ d.qLog2 p c q) :
    ∃ e, d.setEn p c q true = (e, []) ∧ RegsIn p (· ∈ [prtReg c q 0, prtReg c q 0x18]) d e ∧ e.qEn p c q = true ∧
      e.qCause p c q = 0 ∧ e.qErrIndex p c q = 0 ∧ e.fld p (prtReg c q 0) 1 63 = d.fld p (prtReg c q 0) 1 63 := by
  have h0 : prtReg c q 0 ≠ prtReg c q 0x18 := by rw [Ne, prtReg_inj]; decide
  have h8 : prtReg c q 8 ≠ prtReg c q 0x18 := by rw [Ne, prtReg_inj]; decide
  have h10 : prtReg c q 0x10 ≠ prtReg c q 0x18 := by rw [Ne, prtReg_inj]; decide
  have h80 : prtReg c q 8 ≠ prtReg c q 0 := by rw [Ne, prtReg_inj]; decide
  have h100 : prtReg c q 0x10 ≠ prtReg c q 0 := by rw [Ne, prtReg_inj]; decide
  let e := ((d.setB p (prtReg c q 0) 0 true).setF p (prtReg c q 0x18) 4 4 0).setF p (prtReg c q 0x18) 16 16 0
  have hget : ∀ a, a ≠ prtReg c q 0 → a ≠ prtReg c q 0x18 → e.get p a = d.get p a := fun a ha ha' => by
    simp only [e]
    rw [Dev.get_setF_ne _ _ _ _ _ ha', Dev.get_setF_ne _ _ _ _ _ ha', Dev.get_setB_ne _ _ _ _ ha]
  have hlog : e.qLog2 p c q = d.qLog2 p c q := by
    simp only [e, Dev.qLog2]
    rw [fld_setF_ne _ _ _ _ _ _ _ h0, fld_setF_ne _ _ _ _ _ _ _ h0]
    exact fld_setF_above p d _ (by omega) (by omega)
  have hhead : e.qHead p c q = d.qHead p c q := by unfold Dev.qHead Dev.fld; rw [hget _ h80 h8]
  have htail : e.qTail p c q = d.qTail p c q := by unfold Dev.qTail Dev.fld; rw [hget _ h100 h10]
  have hover : e.qOverflow p c q = e := by
    simp only [Dev.qOverflow, hlog, hhead, htail]
    rw [if_neg]
    simp only [Bool.and_eq_true, decide_eq_true_eq, not_and]
    omega
  refine ⟨e, ?_, ?_, ?_, ?_, ?_, ?_⟩
  · simp only [Dev.setEn, hen, Bool.true_eq_false, if_false, if_true]
    exact congrArg (·, []) hover
  · exact ((setB_regsIn _ _ (by simp)).trans (setF_regsIn _ _ _ (by simp))).trans (setF_regsIn _ _ _ (by simp))
  · simp only [e, Dev.qEn]
    rw [bit_setF_ne _ _ _ _ _ _ h0, bit_setF_ne _ _ _ _ _ _ h0, Dev.bit_setB_same _ _ _ _ (by omega)]
  · simp only [e, Dev.qCause]
    rw [fld_setF_below _ _ _ (by omega) (by omega), Dev.fld_setF_same _ _ _ _ _ _ (by omega)]
    rfl
  · simp only [e, Dev.qErrIndex]
    rw [Dev.fld_setF_same _ _ _ _ _ _ (by omega)]
    rfl
  · simp only [e]
    rw [fld_setF_ne _ _ _ _ _ _ _ h0, fld_setF_ne _ _ _ _ _ _ _ h0, setEn_keeps_fields]

/-- EN written 0 while no WAIT stands moves the head past the descriptor that failed. -/
theorem setEn_disables (hen : d.qEn p c q = true) (hwait : ∀ x ∈ d.descs c q, x.phase ≠ .waitLedger) :
    ∃ e, d.setEn p c q false = (e, []) ∧ RegsIn p (· ∈ [prtReg c q 0, prtReg c q 8]) d e ∧ e.qEn p c q = false ∧
      e.fld p (prtReg c q 0) 1 63 = d.fld p (prtReg c q 0) 1 63 ∧
      e.qHead p c q = if d.qCause p c q ∈ [1, 3, 4] ∧ d.qHead p c q = d.qErrIndex p c q then d.qHead p c q + 1 else d.qHead p c q := by
  have h0 : prtReg c q 0 ≠ prtReg c q 8 := by rw [Ne, prtReg_inj]; decide
  have h180 : prtReg c q 0x18 ≠ prtReg c q 0 := by rw [Ne, prtReg_inj]; decide
  have hcause : (d.setB p (prtReg c q 0) 0 false).qCause p c q = d.qCause p c q := fld_setB_ne _ _ _ _ _ _ h180
  have hidx : (d.setB p (prtReg c q 0) 0 false).qErrIndex p c q = d.qErrIndex p c q :=
    congrArg (BitVec.ofNat 16) (fld_setB_ne _ _ _ _ _ _ h180)
  have hhead : (d.setB p (prtReg c q 0) 0 false).qHead p c q = d.qHead p c q :=
    congrArg (BitVec.ofNat 16) (fld_setB_ne _ _ _ _ _ _ h0.symm)
  have hen1 : (d.setB p (prtReg c q 0) 0 false).qEn p c q = false := Dev.bit_setB_same _ _ _ _ (by omega)
  have hin : RegsIn p (· ∈ [prtReg c q 0, prtReg c q 8]) d (d.setB p (prtReg c q 0) 0 false) := setB_regsIn _ _ (by simp)
  have hmem : (d.qCause p c q = 1 ∨ d.qCause p c q = 4 ∨ d.qCause p c q = 3) ↔ d.qCause p c q ∈ [1, 3, 4] := by
    simp only [List.mem_cons, List.not_mem_nil, or_false]; omega
  have hdescs : ∀ e : Dev, e.cores = d.cores → e.descs c q = d.descs c q := fun e he => by unfold Dev.descs Dev.core; rw [he]
  by_cases h : d.qCause p c q ∈ [1, 3, 4] ∧ d.qHead p c q = d.qErrIndex p c q
  · refine ⟨(d.setB p (prtReg c q 0) 0 false).setHead p c q (d.qErrIndex p c q + 1), ?_, ?_, ?_, ?_, ?_⟩
    · simp only [Dev.setEn, hen, Bool.false_eq_true, if_false, hcause, hhead, hidx, hmem, if_pos h]
      rw [hdescs ((d.setB p (prtReg c q 0) 0 false).setHead p c q (d.qErrIndex p c q + 1)) rfl,
        List.find?_eq_none.2 fun x hx => by simp [hwait x hx]]
    · exact hin.trans (setF_regsIn _ _ _ (by simp))
    · exact (bit_setF_ne _ _ _ _ _ _ h0).trans hen1
    · exact (fld_setF_ne _ _ _ _ _ _ _ h0).trans (setEn_keeps_fields p d c q false)
    · rw [if_pos h, h.2]
      simp only [Dev.qHead, Dev.setHead]
      rw [Dev.fld_setF_same _ _ _ _ _ _ (by omega), Nat.mod_eq_of_lt (BitVec.isLt _), BitVec.ofNat_toNat, BitVec.setWidth_eq]
  · refine ⟨d.setB p (prtReg c q 0) 0 false, ?_, hin, hen1, setEn_keeps_fields p d c q false, hhead.trans (if_neg h).symm⟩
    simp only [Dev.setEn, hen, Bool.false_eq_true, if_false, hcause, hhead, hidx, hmem, if_neg h]
    rw [hdescs (d.setB p (prtReg c q 0) 0 false) rfl, List.find?_eq_none.2 fun x hx => by simp [hwait x hx]]

end

/-- Settles O26: each command as the new tail, or the EN it writes. -/
theorem porterQueues : Obligations.PorterQueues := by
  intro s c q ra rd imm tail h hopen n en head size regs moved rings
  have h0 : ready s.part s.dev c [] [] = true := ready_mono h (by simp) (by simp)
  have ha : ready s.part s.dev c [ra] [] = true := ready_mono h (by simp) (by simp)
  have hd : ready s.part s.dev c [rd] [] = true := ready_mono h (by simp) (by simp)
  refine ⟨?_, fun himm => ?_, ?_, ?_, ?_, fun hen hsize => ?_, fun hen hwait => ?_⟩
  · refine issue_answers ha (exec_prtDb s c q ra) ?_
    have hs : (((s.dev.modCore c CoreSt.take).core c).getS ra).extractLsb' 0 16 = BitVec.ofNat 16 ((s.k c).getS ra).toNat := by
      rw [Dev.core_modCore_same, CoreSt.getS_take]
      simp [← BitVec.toNat_inj]
    simp only [hs]
    exact doorbell_rings q _
  · refine issue_answers h0 (exec_prtDbi s c q imm) ?_
    simp only [himm, if_false]
    have hz : imm.zeroExtend 16 = BitVec.ofNat 16 imm.toNat := by rw [BitVec.ofNat_toNat]
    rw [hz]
    exact doorbell_rings q _
  · exact issue_excepts h0 (exec_prtDbi s c q 0) (if_pos rfl) fun t ht => ⟨_, ht⟩
  · refine issue_answers hd (exec_prtHead s c q rd) ?_
    have hhead : ((s.dev.modCore c CoreSt.take).qHead s.part c q.toNat).zeroExtend 32 = BitVec.ofNat 32 head.toNat := by
      rw [BitVec.ofNat_toNat]; exact congrArg (fun x => (BitVec.ofNat 16 x).zeroExtend 32) (fld_modCore ..)
    simp only [hhead]
    exact retiresS s c rd _
  · obtain ⟨hin, hmoved⟩ := setTail_moves s.part s.dev c n tail
    exact upd_answers (exec_qtailWrite s c q tail) (if_pos hopen) ⟨hmoved, hin.still⟩
  · obtain ⟨e, he, hin, hen1, hcause, hidx, hfld⟩ := setEn_enables s.part s.dev c n hen hsize
    exact updW_answers (exec_qcfgEn s c q true) ((if_pos hopen).trans he) ⟨hen1, hcause, hidx, hfld, hin.still⟩
  · obtain ⟨e, he, hin, hen1, hfld, hhead⟩ := setEn_disables s.part s.dev c n hen hwait
    exact updW_answers (exec_qcfgEn s c q false) ((if_pos hopen).trans he) ⟨hen1, hfld, hhead, hin.still⟩

end Sys2Proof.Machine
end

-- The counters of a core (R92)
section

namespace Sys2Proof.Machine

/-! ### Counting -/

theorem countUp_count (w : W64) : bits (countUp w 1) 0 48 = min (2 ^ 48 - 1) (bits w 0 48 + 1) := by
  have hlt := bits_lt w 0 48
  unfold countUp
  rw [if_neg (by decide)]
  split
  · rw [show bits (BitVec.ofNat 64 (2 ^ 48 - 1 + 2 ^ 63)) 0 48 = 2 ^ 48 - 1 by decide]
    omega
  · rw [bits_withBits_same _ _ _ _ (by omega), Nat.mod_eq_of_lt (by omega)]
    omega

theorem countUp_ovf (w : W64) : (countUp w 1).getLsbD 63 = true ↔ w.getLsbD 63 = true ∨ 2 ^ 48 - 2 ≤ bits w 0 48 := by
  unfold countUp
  rw [if_neg (by decide)]
  split
  next h => exact iff_of_true (by decide) (.inr (by omega))
  next h =>
    rw [getLsbD_bits, getLsbD_bits, bits_withBits_above _ _ (by omega) (by omega)]
    have : ¬(2 ^ 48 - 2 ≤ bits w 0 48) := by omega
    simp only [this, or_false]

/-! ### A write of a counter -/

theorem counter_written (old v : W64) {lower upper : Bool} (h : lower = true ∨ upper = true) :
    bits (fieldsWritten counterFields old v lower upper) 0 48 = 0 ∧
    (fieldsWritten counterFields old v lower upper).getLsbD 63 = (old.getLsbD 63 && !(upper && v.getLsbD 63)) := by
  have hsat : (⟨0, 47, .sat, 0, []⟩ : Field).written old v lower upper = 0 := by
    simp only [Field.written]
    exact if_pos (by simpa using h)
  have hw : fieldsWritten counterFields old v lower upper = withBits (withBits 0 0 48 0) 63 1 
      ((⟨63, 63, .w1c, 0, []⟩ : Field).written old v lower upper) := by
    show withBits (withBits 0 0 48 ((⟨0, 47, .sat, 0, []⟩ : Field).written old v lower upper)) 63 1 _ = _
    rw [hsat]
  rw [hw]
  refine ⟨?_, ?_⟩
  · rw [bits_withBits_below _ _ (by omega) (by omega), bits_withBits_same _ _ _ _ (by omega)]
    rfl
  · rw [getLsbD_bits, bits_withBits_same _ _ _ _ (by omega)]
    have hr : List.range (⟨63, 63, .w1c, 0, []⟩ : Field).width = [0] := rfl
    have hreach : halfReaches lower upper 63 = upper := rfl
    have hbit : ∀ w : W64, bits w 63 1 = if w.getLsbD 63 then 1 else 0 := fun w => by
      have := bits_lt w 63 1
      rw [getLsbD_bits]
      split <;> simp_all
      omega
    simp only [Field.written, hr, List.foldl_cons, List.foldl_nil, hreach, hbit]
    cases upper <;> cases v.getLsbD 63 <;> cases old.getLsbD 63 <;> rfl

theorem counter_not_reserved (old v : W64) (lower upper : Bool) : writesReserved counterFields old v lower upper = false := rfl

/-! ### The counters of a core's blocks -/

/-- Group of blocks and offset of each counter of R93 to R96. -/
def counterPlaces : List (Nat × Nat) :=
  (List.range 6).map (fun i => (0x100, 0x100 + 8 * i)) ++ (List.range 4).map (fun i => (0x140, 0x100 + 8 * i)) ++
    [(0x180, 0x100), (0x180, 0x108)] ++ (List.range 3).map fun i => (0x200, 0x10 + 8 * i)

/-- The table of a group of a core's blocks. -/
def coreTable (g : Nat) : List RegDesc :=
  if g < 0x140 then regsCORE else if g < 0x180 then regsMXU else if g < 0x1C0 then regsVEC
  else if g < 0x200 then regsLOB else if g < 0x240 then regsPRT else regsLEDC

/-- What the tables say of the counters' places. -/
theorem counterPlaces_spec : ∀ x ∈ counterPlaces, (x.1 % 64 = 0 ∧ 0x100 ≤ x.1 ∧ x.1 < 0x240 ∧ x.1 ≠ 0x1C0) ∧
    (x.2 % 8 = 0 ∧ x.2 < 0x200) ∧ (x.1 = 0x100 → 0x100 ≤ x.2) ∧ (x.1 = 0x200 → x.2 < 0x100) ∧
    findReg (coreTable x.1) x.2 = some counterFields := by
  decide

section
variable (p : Part) (c : CoreId) {g off : Nat} (hg : g % 64 = 0) (hlo : 0x100 ≤ g) (hhi : g < 0x240) (hoff : off < 2 ^ 20)
include hg hlo hhi hoff

theorem ctlBlk_group : ctlBlk (ctlAddr c.site.toNat (g + c.p.toNat) off) = g + c.p.toNat :=
  ctlBlk_ctlAddr (by have := c.p.isLt; omega) hoff
theorem ctlSite_group : ctlSite (ctlAddr c.site.toNat (g + c.p.toNat) off) = c.site.toNat :=
  ctlSite_ctlAddr (by have := c.p.isLt; omega) hoff
theorem regCore_group : regCore (ctlAddr c.site.toNat (g + c.p.toNat) off) = c := by
  have hp := c.p.isLt
  obtain ⟨w, k⟩ := c
  rw [regCore, ctlSite_group _ hg hlo hhi hoff, ctlBlk_group _ hg hlo hhi hoff]
  congr 1
  · simp
  · apply BitVec.eq_of_toNat_eq
    rw [BitVec.toNat_ofNat]
    dsimp only at *
    omega
theorem isW_group : isW (ctlSite (ctlAddr c.site.toNat (g + c.p.toNat) off)) = true := by
  rw [ctlSite_group c hg hlo hhi hoff, isW_site]

theorem regFields_group (hc : p.has c = true) : regFields p (ctlAddr c.site.toNat (g + c.p.toNat) off) = findReg (coreTable g) off := by
  have hp := c.p.isLt
  have below : ∀ n, n % 64 = 0 → (g + c.p.toNat < n) = (g < n) := fun n hn => propext (by omega)
  rw [regFields_eq_findReg (l := coreTable g), ctlOff_ctlAddr hoff]
  rw [ctlSite_group c hg hlo hhi hoff, ctlBlk_group c hg hlo hhi hoff, blockRegs_coreBlk hc (by omega) (by omega) (by omega)]
  simp only [below _ (show 0x140 % 64 = 0 from rfl), below _ (show 0x180 % 64 = 0 from rfl), below _ (show 0x1C0 % 64 = 0 from rfl),
    below _ (show 0x200 % 64 = 0 from rfl), below _ (show 0x240 % 64 = 0 from rfl), coreTable]

/-- An access to a core's registers that is not refused is of a good core. -/
theorem has_of_taken {d : Dev} (ht : d.refusedAtSender p (.ctl (ctlAddr c.site.toNat (g + c.p.toNat) off)) = none) : p.has c = true := by
  have hp := c.p.isLt
  have hW := isW_site c.site
  obtain ⟨-, -, hG⟩ := not_others_of_isW hW
  cases hc : p.has c with
  | true => rfl
  | false =>
    have hgood : p.goodCore c.site.toNat ((g + c.p.toNat) % 64) = false := by rwa [show (g + c.p.toNat) % 64 = c.p.toNat by omega]
    have hne : ∀ n < 0x100, g + c.p.toNat ≠ n := by omega
    have hb : blockRegs p c.site.toNat (g + c.p.toNat) = none := by
      simp only [blockRegs, hW, hG, hgood, hne, Bool.false_or, Bool.true_or, Bool.not_true, Bool.false_eq_true, if_false, if_true,
        Nat.reduceLT, Bool.not_false, ite_self]
    simp [Dev.refusedAtSender, ctlSite_group c hg hlo hhi hoff, ctlBlk_group c hg hlo hhi hoff, hG, hb] at ht

theorem fencedReg_group {d : Dev} (hf : (d.core c).st ≠ .fenced) :
    d.fencedReg (ctlAddr c.site.toNat (g + c.p.toNat) off) true = false := by
  have hst : ((d.core c).st == .fenced) = false := by simpa using hf
  rw [Dev.fencedReg, regCore_group c hg hlo hhi hoff, hst]
  simp

/-- A register of a core without behaviour of its own is stored by its fields' accesses. -/
theorem regWrite_plain (d : Dev) (src : Src) (ans : Option Req) (v : W64) (lower upper : Bool) (hg' : g ≠ 0x1C0) (h100 : g = 0x100 → 0x100 ≤ off)
    (h200 : g = 0x200 → off < 0x100) :
    d.regWrite p src ans (ctlAddr c.site.toNat (g + c.p.toNat) off) v lower upper =
      (d.regStore p (ctlAddr c.site.toNat (g + c.p.toNat) off) v lower upper, [], some stOk) := by
  have hp := c.p.isLt
  have hW := isW_group c hg hlo hhi hoff
  have hb := ctlBlk_group c hg hlo hhi hoff
  have hgroup : (g + c.p.toNat) / 64 * 64 = g := by omega
  rw [regWrite_of_site p d src ans v lower upper (isTrim_eq_false p (by omega) (by simp [isBase_of_isW hW])) (by omega)
    (by simp [not_others_of_isW hW]), if_pos hW, if_pos (by omega), Dev.coreWrite, hb, hgroup, ctlOff_ctlAddr hoff]
  dsimp only
  by_cases h1 : g = 0x100
  · have := h100 h1
    rw [if_pos h1, if_neg (by omega), if_neg (by omega), if_neg (by omega), if_neg (by omega), if_neg (by omega)]
  · rw [if_neg h1, if_neg hg']
    by_cases h2 : g = 0x200
    · have := h200 h2
      rw [if_pos h2, if_neg (by omega), if_neg (by omega)]
    · rw [if_neg h2]

end

theorem k0Refused_of_taken {p : Part} {d : Dev} {a : Nat} (h : d.refusedAtSender p (.ctl a) = none) : d.k0Refused p a = none := by
  unfold Dev.k0Refused
  rw [h]

/-- Settles O33: each counter is a place of the tables, and a write stores it by its fields' accesses. -/
theorem counterLayout : Obligations.CounterLayout := by
  refine ⟨fun w => ⟨countUp_count w, countUp_ovf w⟩, fun c a ha => ?_⟩
  have hlist : (List.range 6).map (fun i => coreR c (0x100 + 8 * i)) ++ (List.range 4).map (fun i => mxuR c (0x100 + 8 * i)) ++
      [vecR c 0x100, vecR c 0x108] ++ (List.range 3).map (fun i => prtR c (0x10 + 8 * i)) =
      counterPlaces.map fun x => ctlAddr c.site.toNat (x.1 + c.p.toNat) x.2 := by
    simp only [counterPlaces, coreR, mxuR, vecR, prtR, List.map_append, List.map_map, List.map_cons, List.map_nil, Function.comp_def]
  rw [hlist] at ha
  obtain ⟨⟨g, off⟩, hx, rfl⟩ := List.mem_map.1 ha
  obtain ⟨⟨hg, hlo, hhi, hg'⟩, ⟨h8, hoff⟩, h100, h200, htable⟩ := counterPlaces_spec _ hx
  dsimp only at *
  have hoff' : off < 2 ^ 20 := by omega
  have hp := c.p.isLt
  have hsite := c.site.isLt
  have hW := isW_group c hg hlo hhi hoff'
  refine ⟨?_, fun s v lower upper hdead htaken hf hhalf => ?_⟩
  · rw [reset_reg]
    refine resetWord_of_isW (v := 0) (l := coreTable g) ?_ hW (.inr ?_) ?_
    · rw [regFields_group _ c hg hlo hhi hoff' (standard_has c), ctlOff_ctlAddr hoff']
    · rw [ctlBlk_group c hg hlo hhi hoff']; omega
    · rw [ctlOff_ctlAddr hoff', htable]; rfl
  · have hfields := (regFields_group s.part c hg hlo hhi hoff' (has_of_taken _ c hg hlo hhi hoff' htaken)).trans htable
    have hfence := fencedReg_group c hg hlo hhi hoff' (d := s.dev) hf
    have hwrite := regWrite_plain s.part c hg hlo hhi hoff' s.dev s.dev.kSrc none v lower upper hg' h100 h200
    have haligned : ctlAddr c.site.toNat (g + c.p.toNat) off % 8 = 0 := by unfold ctlAddr; omega
    have hcanon : canonAddr (ctlAddr c.site.toNat (g + c.p.toNat) off) = _ := canonAddr_of_not_base (isBase_of_isW hW)
    have haddr : (BitVec.ofNat 40 (ctlAddr c.site.toNat (g + c.p.toNat) off)).toNat = ctlAddr c.site.toNat (g + c.p.toNat) off := by
      rw [BitVec.toNat_ofNat, Nat.mod_eq_of_lt (by unfold ctlAddr; omega)]
    generalize ctlAddr c.site.toNat (g + c.p.toNat) off = a at *
    have hk0 := k0Refused_of_taken htaken
    obtain ⟨hcount, hovf⟩ := counter_written (s.reg a) v hhalf
    refine updW_answers (ws := []) (exec_registerWrite s (BitVec.ofNat 40 a) v lower upper) (e := s.dev.put s.part a
      (fieldsWritten counterFields (s.reg a) v lower upper)) ?_ ⟨?_, ?_, ⟨fun _ => rfl, fun _ => rfl, rfl, rfl⟩, fun b hb => ?_, rfl⟩
    · simp only [haddr, hdead, hk0, Option.isSome_none, Bool.or_self, Bool.false_eq_true, if_false]
      rw [ctlWrite_some s.part s.dev s.dev.kSrc none v lower upper haligned hfence hfields, hcanon, hwrite,
        regStore_clean _ _ _ _ _ hfields (counter_not_reserved ..)]
    · exact (congrArg (bits · 0 48) (Dev.get_put_same ..)).trans hcount
    · exact (congrArg (BitVec.getLsbD · 63) (Dev.get_put_same ..)).trans hovf
    · exact Dev.get_put_ne _ _ _ (by simpa using hb)

end Sys2Proof.Machine
end

-- Descriptors: their start, and how one ends (R81 to R87, R500)
section

namespace Sys2Proof.Machine

/-! ### The descriptors of a queue -/

/-- Queue `q` of core `c` holds the descriptors `l`; beside its descriptors no core has changed. -/
structure QueueIs (d e : Dev) (c : CoreId) (q : Nat) (l : List Desc) : Prop where
  queue : e.descs c q = l
  own : e.core c = { d.core c with prt := (e.core c).prt }
  others : ∀ m, m ≠ q → e.descs c m = d.descs c m
  cores : ∀ k, k ≠ c → e.core k = d.core k

section
variable {p : Part} {d e f : Dev} {c : CoreId} {q : Nat} {l l' : List Desc} {x : Desc}

theorem QueueIs.refl (h : d.descs c q = l) : QueueIs d d c q l := ⟨h, rfl, fun _ _ => rfl, fun _ _ => rfl⟩

theorem QueueIs.of_cores (h : QueueIs d e c q l) (hcore : ∀ k, f.core k = e.core k) : QueueIs d f c q l := by
  have hdescs : ∀ m, f.descs c m = e.descs c m := fun m => by unfold Dev.descs; rw [hcore]
  exact ⟨(hdescs q).trans h.queue, by rw [hcore]; exact h.own, fun m hm => (hdescs m).trans (h.others m hm),
    fun k hk => (hcore k).trans (h.cores k hk)⟩

theorem QueueIs.pc (h : QueueIs d e c q l) : (e.core c).pc = (d.core c).pc := by rw [h.own]
theorem QueueIs.scalars (h : QueueIs d e c q l) : (e.core c).s = (d.core c).s := by rw [h.own]

theorem QueueIs.trans (h : QueueIs d e c q l) (h' : QueueIs e f c q l') : QueueIs d f c q l' :=
  ⟨h'.queue, by rw [h'.own, h.own], fun m hm => (h'.others m hm).trans (h.others m hm), fun k hk => (h'.cores k hk).trans (h.cores k hk)⟩

theorem setDescs_queueIs (d : Dev) (c : CoreId) (q : Nat) (l : List Desc) : QueueIs d (d.setDescs c q l) c q l := by
  unfold Dev.setDescs
  refine ⟨?_, ?_, fun m hm => ?_, fun k hk => Dev.core_modCore_ne _ _ hk⟩
  · simp only [Dev.descs, Dev.core_modCore_same, smGet_set_same]
  · rw [Dev.core_modCore_same]
  · simp only [Dev.descs, Dev.core_modCore_same, smGet_set_ne [] [] _ _ hm]

theorem modDesc_queueIs (h : d.descs c q = [x]) (g : Desc → Desc) : QueueIs d (d.modDesc c q x.idx g) c q [g x] := by
  unfold Dev.modDesc
  rw [h]
  have hm : [x].map (fun y => if y.idx == x.idx then g y else y) = [g x] := by simp
  rw [hm]
  exact setDescs_queueIs d c q [g x]

theorem setDescs_get (a : Nat) : (d.setDescs c q l).get p a = d.get p a := Dev.get_modCore ..
theorem modDesc_get (i : BitVec 16) (g : Desc → Desc) (a : Nat) : (d.modDesc c q i g).get p a = d.get p a := Dev.get_modCore ..

theorem QueueIs.snoop (h : QueueIs d e c q l) (hn : e.now = d.now) (ho : e.own = d.own) : e.snoop c = d.snoop c := by
  unfold Dev.snoop
  rw [hn, ho, h.own]

/-! ### How a descriptor ends (R84, R87, R89) -/

/-- A descriptor that has ended at the count `now`. -/
def Desc.ended (x : Desc) (now : W64) : Desc :=
  { x with
    phase := .done
    done := if x.op = 3 then prefixLen x.acked 0 x.acked.length * x.tileBytes else match x.errAt with | some e => e | none => x.total
    endT := now, pkts := [], buf := [], retry := [], half := none }

/-- The device in which the one descriptor of a queue has ended and counts, before its record is written. -/
def Dev.endCounted (p : Part) (d : Dev) (c : CoreId) (q : Nat) (x : Desc) : Dev :=
  let e := (d.modDesc c q x.idx fun _ => x.ended (d.snoop c)).count p (prtR c 0x10) 1
  if x.status != 0 then e.count p (prtR c 0x20) 1 else e

theorem endCounted_queueIs {y : Desc} (h : d.descs c q = [y]) (hi : y.idx = x.idx) :
    QueueIs d (d.endCounted p c q x) c q [x.ended (d.snoop c)] := by
  have hm := modDesc_queueIs h fun _ => x.ended (d.snoop c)
  rw [hi] at hm
  unfold Dev.endCounted
  dsimp only
  split
  · exact hm.of_cores fun _ => rfl
  · exact hm.of_cores fun _ => rfl

/-- The last descriptor of a queue leaves it with its record. -/
theorem endDesc_last {y : Desc} (h : d.descs c q = [y]) (hi : y.idx = x.idx) (hst : x.status.getLsbD 7 = false) :
    d.endDesc p c q x = (((d.endCounted p c q x).writeRecord p c q (x.ended (d.snoop c))).1.setDescs c q [],
      ((d.endCounted p c q x).writeRecord p c q (x.ended (d.snoop c))).2) := by
  have hq := (endCounted_queueIs (p := p) h hi).queue
  have he : d.endDesc p c q x = ((flushRecords p c q (d.endCounted p c q x) ((d.endCounted p c q x).descs c q)).1.setDescs c q
      (flushRecords p c q (d.endCounted p c q x) ((d.endCounted p c q x).descs c q)).2.1,
      (flushRecords p c q (d.endCounted p c q x) ((d.endCounted p c q x).descs c q)).2.2) := by
    simp only [Dev.endDesc, hst, Bool.false_and, Bool.false_eq_true, if_false]
    rfl
  rw [he, hq]
  have hp : (x.ended (d.snoop c)).phase = .done := rfl
  simp only [flushRecords, hp, if_true, List.append_nil]

/-- Without CPL a descriptor that meets no error leaves no record. -/
theorem writeRecord_none (p : Part) (d : Dev) (c : CoreId) (q : Nat) {x : Desc} (hc : x.cpl = false) (hs : x.status = 0) :
    d.writeRecord p c q x = (d, []) := by
  simp [Dev.writeRecord, hc, hs]

theorem endCounted_get (p : Part) (d : Dev) (c : CoreId) (q : Nat) (hs : x.status = 0) (a : Nat) : (d.endCounted p c q x).get p a =
    if a = prtR c 0x10 then countUp (d.get p (prtR c 0x10)) 1 else d.get p a := by
  have h0 : (x.status != 0) = false := by simp [hs]
  simp only [Dev.endCounted, h0, Bool.false_eq_true, if_false]
  by_cases ha : a = prtR c 0x10
  · rw [if_pos ha, ha, Dev.get_count_same, modDesc_get]
  · rw [if_neg ha, Dev.get_count_ne _ _ _ ha, modDesc_get]

/-- A descriptor that meets no error and asks for no record ends with its count alone. -/
theorem endDesc_quiet {y : Desc} (h : d.descs c q = [y]) (hi : y.idx = x.idx) (hs : x.status = 0) (hc : x.cpl = false) :
    ∃ e, d.endDesc p c q x = (e, []) ∧ QueueIs d e c q [] ∧ e.noRegs.noCores = d.noRegs.noCores ∧
      ∀ a, e.get p a = if a = prtR c 0x10 then countUp (d.get p (prtR c 0x10)) 1 else d.get p a := by
  have hst : x.status.getLsbD 7 = false := by rw [hs]; rfl
  have hr : (d.endCounted p c q x).writeRecord p c q (x.ended (d.snoop c)) = (d.endCounted p c q x, []) :=
    writeRecord_none p _ c q hc hs
  refine ⟨(d.endCounted p c q x).setDescs c q [], by rw [endDesc_last h hi hst, hr],
    (endCounted_queueIs h hi).trans (setDescs_queueIs _ c q []), ?_, fun a => (setDescs_get a).trans (endCounted_get p d c q hs a)⟩
  have h0 : (x.status != 0) = false := by simp [hs]
  simp only [Dev.endCounted, h0, Bool.false_eq_true, if_false]
  rfl

/-- A write of whole words succeeds, whatever is injected: it leaves the cores, and every register but those of the site's
injection. -/
theorem produce_keeps (site checker unit step : Nat) (n : Nat) : ∀ (d : Dev) (a : Nat),
    (∀ k, (d.produce p site checker unit a step n).core k = d.core k) ∧
      ∀ z, z ≠ fltR site 0 → z ≠ fltR site 0x50 → (d.produce p site checker unit a step n).get p z = d.get p z := by
  induction n with
  | zero => intro d a; exact ⟨fun _ => rfl, fun _ _ _ => rfl⟩
  | succ n ih =>
    intro d a
    have htake : (∀ k, (d.injTake p site checker unit).1.core k = d.core k) ∧
        ∀ z, z ≠ fltR site 0 → z ≠ fltR site 0x50 → (d.injTake p site checker unit).1.get p z = d.get p z := by
      unfold Dev.injTake Dev.injUse
      dsimp only
      split
      · exact ⟨fun _ => rfl, fun _ _ _ => rfl⟩
      · split
        · refine ⟨fun _ => rfl, fun z h0 h50 => ?_⟩
          rw [Dev.get_count_ne _ _ _ h50]
          exact Dev.get_setF_ne p _ _ _ _ h0
        · exact ⟨fun _ => rfl, fun _ _ _ => rfl⟩
    obtain ⟨hcore, hget⟩ := ih ((d.injTake p site checker unit).1.setMark a (injMark (d.injTake p site checker unit).2)) (a + step)
    exact ⟨fun k => (hcore k).trans (htake.1 k), fun z h0 h50 => (hget z h0 h50).trans ((Dev.get_setMark ..).trans (htake.2 z h0 h50))⟩

theorem pantryWrite_whole {a : Nat} {bs : List Byte} (hn : bs ≠ []) (ha : a % 8 = 0) (hl : (a + bs.length) % 8 = 0) :
    ∃ e, d.pantryWrite p c a bs = (e, .ok [(pantryAt c a, bs)]) ∧ (∀ k, e.core k = d.core k) ∧
      ∀ z, z ≠ fltR c.site.toNat 0 → z ≠ fltR c.site.toNat 0x50 → e.get p z = d.get p z := by
  have h0 : bs.length ≠ 0 := by simpa using hn
  obtain ⟨hcore, hget⟩ := produce_keeps (p := p) c.site.toNat 1 c.p.toNat 8 (wordsIn a bs.length) d (pantryAt c (wordOf a))
  refine ⟨_, ?_, hcore, hget⟩
  simp only [Dev.pantryWrite, h0, if_false]
  have h1 : ¬(a % 8 ≠ 0 ∨ wordOf a = wordOf (a + bs.length - 1) ∧ (a + bs.length) % 8 ≠ 0) := by omega
  have h2 : ¬(wordOf a ≠ wordOf (a + bs.length - 1) ∧ (a + bs.length) % 8 ≠ 0) := by omega
  simp only [if_neg h1, if_neg h2]

/-- The place of a record in the completion ring, and its bytes (R87). -/
def Dev.recordAt (p : Part) (d : Dev) (c : CoreId) (q : Nat) (i : BitVec 16) : Nat :=
  (d.qCbase p c q + 16 * (i.toNat % 2 ^ d.qLog2 p c q)) % 0x400000
def recordBytes (lg : Nat) (x : Desc) : List Byte :=
  leBytes 8 (x.tag + x.status.toNat * 2 ^ 16 + (1 - x.idx.toNat / 2 ^ lg % 2) * 2 ^ 24 + x.done / 16 * 2 ^ 32) ++ leBytes 8 x.endT.toNat

theorem recordAt_mod (p : Part) (d : Dev) (c : CoreId) (q : Nat) (i : BitVec 16) : d.recordAt p c q i % 16 = 0 := by
  unfold Dev.recordAt Dev.qCbase; omega
theorem recordBytes_length (lg : Nat) (x : Desc) : (recordBytes lg x).length = 16 := by
  rw [recordBytes, List.length_append, leBytes_length, leBytes_length]
theorem recordBytes_ne (lg : Nat) (x : Desc) : recordBytes lg x ≠ [] := by
  rw [← List.length_pos_iff_ne_nil, recordBytes_length]; decide

/-- The record that a descriptor leaves stands at its place, once the write of it succeeds. -/
theorem writeRecord_written (hc : (x.cpl || x.status != 0) = true)
    (hw : d.pantryWrite p c (d.recordAt p c q x.idx) (recordBytes (d.qLog2 p c q) x) =
      (e, .ok [(pantryAt c (d.recordAt p c q x.idx), recordBytes (d.qLog2 p c q) x)])) :
    d.writeRecord p c q x = (e, [(pantryAt c (d.recordAt p c q x.idx), recordBytes (d.qLog2 p c q) x)]) := by
  simp only [Dev.writeRecord, hc, if_true]
  simp only [Dev.recordAt, recordBytes] at hw ⊢
  rw [hw]

end

/-! ### The head of a queue -/

theorem setHead_qHead (p : Part) (d : Dev) (c : CoreId) (q : Nat) (i : BitVec 16) : (d.setHead p c q i).qHead p c q = i := by
  unfold Dev.qHead Dev.setHead
  rw [Dev.fld_setF_same _ _ _ _ _ _ (by omega), Nat.mod_eq_of_lt i.isLt, BitVec.ofNat_toNat, BitVec.setWidth_eq]

theorem qHead_of_get {p : Part} {d e : Dev} {c : CoreId} {q : Nat} (h : e.get p (prtReg c q 8) = d.get p (prtReg c q 8)) :
    e.qHead p c q = d.qHead p c q := by unfold Dev.qHead Dev.fld; rw [h]

theorem prtReg_ne_prtR (c : CoreId) (q : Nat) {a b : Nat} (hb : b < 0x100) : prtReg c q a ≠ prtR c b := by
  unfold prtReg prtR ctlAddr; omega

/-! ### The start of a descriptor -/

/-- What the porter makes of the descriptor `x` at the head of an idle queue, once its 32 bytes at `a` are read (R83 to R86). -/
def Dev.startDesc (p : Part) (d : Dev) (c : CoreId) (q a : Nat) (x : Desc) : Dev × Wr :=
  if x.malformed then
    (((d.setDescs c q [{ x with status := 0x01, errAt := some 0 }]).qFail p c q 1 x.idx).coreFault p c 0 0x0107 (BitVec.ofNat 64 a)
      (BitVec.ofNat 64 q)).endDesc p c q { x with status := 0x01, errAt := some 0 }
  else if x.op = 0 then ((d.setHead p c q (x.idx + 1)).setDescs c q [x]).endDesc p c q x
  else if x.op = 4 then ((d.setHead p c q (x.idx + 1)).setDescs c q [{ x with phase := .waitLedger }], [])
  else ((d.setHead p c q (x.idx + 1)).setDescs c q [x], [])

/-- Place of the descriptor at the head of a queue in its ring. -/
def Dev.headAt (p : Part) (d : Dev) (c : CoreId) (q : Nat) : Nat :=
  (d.qDbase p c q + 32 * ((d.qHead p c q).toNat % 2 ^ d.qLog2 p c q)) % 0x400000

/-- The descriptor at the head of a queue, as memory holds it. -/
def State.headDesc (s : State) (c : CoreId) (q : Nat) : Desc :=
  let w (j : Nat) : W64 := BitVec.ofNat 64 (s.le (pantryAt c (s.dev.headAt s.part c q + 8 * j)) 8)
  { idx := s.dev.qHead s.part c q, w0 := w 0, w1 := w 1, w2 := w 2, w3 := w 3 }

/-- The words of a descriptor are those that memory holds. -/
theorem leNat_read_word (s : State) (c : CoreId) (a : Nat) {j : Nat} (hj : j < 4) :
    leNat (((Memory.read s.mem (pantryAt c a) 32).drop (8 * j)).take 8) = s.le (pantryAt c (a + 8 * j)) 8 := by
  rw [read_drop_take s.mem (by omega : 8 * j + 8 ≤ 32), leNat_read]
  have h : pantryAt c a + 8 * j = pantryAt c (a + 8 * j) := by unfold pantryAt; omega
  rw [h]

/-- The descriptor at the head of an idle, enabled queue whose 32 bytes carry no error starts. -/
theorem descriptorStart_answers {s : State} {c : CoreId} {q : BitVec 4} {e : Dev} {ws : Wr} {P : State → Prop}
    (hhas : s.part.has c = true) (hst : (s.k c).st ≠ .fenced) (hheld : s.dev.edgesHeld c = false) (hstop : s.dev.stopStep ≠ 3)
    (hen : s.dev.qEn s.part c q.toNat = true) (hcause : s.dev.qCause s.part c q.toNat = 0)
    (hne : s.dev.qHead s.part c q.toNat ≠ s.dev.qTail s.part c q.toNat) (hdescs : s.dev.descs c q.toNat = [])
    (hact : (s.k c).activeDescs < 8) (hclean : Clean s c (s.dev.headAt s.part c q.toNat) 32)
    (hx : s.dev.startDesc s.part c q.toNat (s.dev.headAt s.part c q.toNat) (s.headDesc c q.toNat) = (e, ws))
    (hP : P (State.mk s.part (applyWr s.mem ws) e s.pending)) : Answers (.descriptorStart c q) s P := by
  refine updW_answers (exec_descriptorStart s c q) ?_ hP
  have h1 : (s.dev.stopStep == 3) = false := by simpa using hstop
  have h2 : ((s.dev.core c).st == .fenced) = false := by simpa using hst
  have h3 : (s.dev.qHead s.part c q.toNat == s.dev.qTail s.part c q.toNat) = false := by simpa using hne
  have h4 : decide (8 ≤ (s.dev.core c).activeDescs) = false := decide_eq_false (Nat.not_le.2 hact)
  have hread := pantryRead_clean (p := s.part) (m := s.mem) hclean
  have hguard : (!s.part.has c || (s.dev.core c).st == .fenced || !s.dev.qEn s.part c q.toNat || s.dev.qCause s.part c q.toNat != 0
      || s.dev.qHead s.part c q.toNat == s.dev.qTail s.part c q.toNat
      || ([] : List Desc).any fun x => x.phase == .active || x.phase == .waitLedger) = false := by
    rw [hhas, h2, hen, hcause, h3]; rfl
  have hstopped : (s.dev.edgesHeld c || s.dev.stopStep == 3) = false := by rw [hheld, h1]; rfl
  unfold Dev.headAt at hread
  simp only [hstopped, hguard, Bool.false_eq_true, if_false, hread, hdescs, h4, List.isEmpty_nil, Bool.not_true, Bool.and_false,
    Bool.or_false, List.nil_append]
  simp only [leNat_read_word s c _ (by decide : 0 < 4), leNat_read_word s c _ (by decide : 1 < 4),
    leNat_read_word s c _ (by decide : 2 < 4), leNat_read_word s c _ (by decide : 3 < 4)]
  exact hx

section
variable {p : Part} {d e : Dev} {c : CoreId} {q : Nat} {x : Desc}

/-- A descriptor that takes its place in the queue moves the head on, and no other register. -/
theorem setHead_setDescs (p : Part) (d : Dev) (c : CoreId) (q : Nat) (i : BitVec 16) (l : List Desc) :
    let e := (d.setHead p c q i).setDescs c q l
    QueueIs d e c q l ∧ e.qHead p c q = i ∧ (∀ a, a ≠ prtReg c q 8 → e.get p a = d.get p a) ∧ e.noRegs.noCores = d.noRegs.noCores := by
  have hhead : QueueIs d (d.setHead p c q i) c q (d.descs c q) := (QueueIs.refl rfl).of_cores fun _ => rfl
  refine ⟨hhead.trans (setDescs_queueIs _ c q l), ?_, fun a ha => ?_, rfl⟩
  · rw [qHead_of_get (setDescs_get _), setHead_qHead]
  · rw [setDescs_get]
    exact Dev.get_setF_ne p d _ _ _ ha

theorem prtR_inj {c : CoreId} {a b : Nat} : prtR c a = prtR c b ↔ a = b := by
  unfold prtR ctlAddr; omega

theorem awayFromLog_prtR (c : CoreId) (off site : Nat) (h : off < 2 ^ 20) : AwayFromLog site (prtR c off) := by
  refine awayFromLog_of_blk ?_
  have := c.p.isLt
  rw [prtR, ctlBlk_ctlAddr (by omega) h]
  omega

theorem endCounted_get_ne (p : Part) (d : Dev) (c : CoreId) (q : Nat) (x : Desc) {a : Nat} (h10 : a ≠ prtR c 0x10)
    (h20 : a ≠ prtR c 0x20) : (d.endCounted p c q x).get p a = d.get p a := by
  unfold Dev.endCounted
  dsimp only
  split
  · rw [Dev.get_count_ne _ _ _ h20, Dev.get_count_ne _ _ _ h10, modDesc_get]
  · rw [Dev.get_count_ne _ _ _ h10, modDesc_get]

/-- A descriptor that has met an error counts as ended and as failed. -/
theorem endCounted_counts (p : Part) (d : Dev) (c : CoreId) (q : Nat) (hs : x.status ≠ 0) :
    (d.endCounted p c q x).get p (prtR c 0x10) = countUp (d.get p (prtR c 0x10)) 1 ∧
      (d.endCounted p c q x).get p (prtR c 0x20) = countUp (d.get p (prtR c 0x20)) 1 := by
  have hne : prtR c 0x10 ≠ prtR c 0x20 := by unfold prtR ctlAddr; omega
  have hs' : (x.status != 0) = true := by simpa using hs
  simp only [Dev.endCounted, hs', if_true]
  exact ⟨by rw [Dev.get_count_ne _ _ _ hne, Dev.get_count_same, modDesc_get],
    by rw [Dev.get_count_same, Dev.get_count_ne _ _ _ hne.symm, modDesc_get]⟩

/-- A descriptor ends with its record, whatever is injected into the words of it. -/
theorem endDesc_recorded {y : Desc} (h : d.descs c q = [y]) (hi : y.idx = x.idx) (hst : x.status.getLsbD 7 = false) (hs : x.status ≠ 0) :
    ∃ e ws, d.endDesc p c q x = (e, ws) ∧ QueueIs d e c q [] ∧
      ∀ z, z ≠ fltR c.site.toNat 0 → z ≠ fltR c.site.toNat 0x50 → e.get p z = (d.endCounted p c q x).get p z := by
  have hs' : ((x.ended (d.snoop c)).cpl || (x.ended (d.snoop c)).status != 0) = true := by
    have : (x.status != 0) = true := by simpa using hs
    exact Bool.or_eq_true_iff.2 (.inr this)
  have hat := recordAt_mod p (d.endCounted p c q x) c q (x.ended (d.snoop c)).idx
  have hlen := recordBytes_length ((d.endCounted p c q x).qLog2 p c q) (x.ended (d.snoop c))
  obtain ⟨f, hf, hcore, hget⟩ := pantryWrite_whole (p := p) (d := d.endCounted p c q x) (c := c)
    (recordBytes_ne ((d.endCounted p c q x).qLog2 p c q) (x.ended (d.snoop c)))
    (by omega : (d.endCounted p c q x).recordAt p c q (x.ended (d.snoop c)).idx % 8 = 0) (by omega)
  have hw := writeRecord_written hs' hf
  refine ⟨f.setDescs c q [], _, by rw [endDesc_last h hi hst, hw],
    ((endCounted_queueIs h hi).of_cores hcore).trans (setDescs_queueIs f c q []), fun z h0 h50 => (setDescs_get z).trans (hget z h0 h50)⟩

/-- A malformed descriptor puts its queue into ERROR with its index, raises a fault and ends at once (R83). -/
theorem startDesc_malformed (a : Nat) (hx : x.malformed = true) (hq : d.qCause p c q = 0) (hlt : q < 16) :
    ∃ e ws, d.startDesc p c q a x = (e, ws) ∧ QueueIs d e c q [] ∧ e.qHead p c q = d.qHead p c q ∧ e.qCause p c q = 1 ∧
      e.qErrIndex p c q = x.idx ∧ e.get p (prtR c 0x10) = countUp (d.get p (prtR c 0x10)) 1 ∧
      e.get p (prtR c 0x20) = countUp (d.get p (prtR c 0x20)) 1 ∧
      e.get p (fltR c.site.toNat 0x40) = countUp (d.get p (fltR c.site.toNat 0x40)) 1 := by
  let y : Desc := { x with status := 0x01, errAt := some 0 }
  have h0 := setDescs_queueIs d c q [y]
  have hc0 : (d.setDescs c q [y]).qCause p c q = 0 := by
    unfold Dev.qCause Dev.fld at hq ⊢; rw [setDescs_get]; exact hq
  have hfail := qFail_regsIn (p := p) (d := d.setDescs c q [y]) (c := c) (q := q) 1 x.idx
  obtain ⟨hcause, hidx⟩ := qFail_sets p (d.setDescs c q [y]) c q x.idx hc0 (by decide : 1 < 2 ^ 4)
  let d1 := (d.setDescs c q [y]).qFail p c q 1 x.idx
  have hf := coreFault_raisedAt p d1 c 0 0x0107 (BitVec.ofNat 64 a) (BitVec.ofNat 64 q) false
  let d2 := d1.coreFault p c 0 0x0107 (BitVec.ofNat 64 a) (BitVec.ofNat 64 q)
  have h2 : QueueIs d d2 c q [y] := (h0.of_cores fun k => by unfold Dev.core; rw [hfail.cores]).of_cores hf.core
  obtain ⟨e, ws, he, hq3, hget⟩ := endDesc_recorded (p := p) (x := y) h2.queue rfl
    (rfl : (0x01 : BitVec 8).getLsbD 7 = false) (by decide : (0x01 : BitVec 8) ≠ 0)
  obtain ⟨hc10, hc20⟩ := endCounted_counts p d2 c q (x := y) (by decide : (0x01 : BitVec 8) ≠ 0)
  have hflt : ∀ off < 2 ^ 20, ∀ j < 2 ^ 20, prtR c off ≠ fltR c.site.toNat j := fun off ho j hj => by
    have := c.p.isLt
    rw [Ne, prtR, fltR, ctlAddr_inj (by omega) ho (by omega) hj]
    omega
  have hreg : ∀ off < 2 ^ 20, off ≠ 0x10 → off ≠ 0x20 → e.get p (prtR c off) = d1.get p (prtR c off) := fun off ho h10 h20 => by
    rw [hget _ (hflt _ ho _ (by decide)) (hflt _ ho _ (by decide)), endCounted_get_ne p d2 c q y (mt prtR_inj.1 h10) (mt prtR_inj.1 h20)]
    exact hf.away _ (awayFromLog_prtR c off _ ho)
  have hd1 : ∀ z, z ≠ prtReg c q 0x18 → d1.get p z = d.get p z := fun z hz =>
    (hfail.2 z (by simpa using hz)).trans (setDescs_get z)
  have h10 : d2.get p (prtR c 0x10) = d.get p (prtR c 0x10) :=
    (hf.away _ (awayFromLog_prtR c _ _ (by decide))).trans (hd1 _ (prtReg_ne_prtR c q (by decide)).symm)
  have h20 : d2.get p (prtR c 0x20) = d.get p (prtR c 0x20) :=
    (hf.away _ (awayFromLog_prtR c _ _ (by decide))).trans (hd1 _ (prtReg_ne_prtR c q (by decide)).symm)
  have hq18 : e.get p (prtReg c q 0x18) = d1.get p (prtReg c q 0x18) := hreg _ (by omega) (by omega) (by omega)
  refine ⟨e, ws, (if_pos hx).trans he, h2.trans hq3, ?_, ?_, ?_, ?_, ?_, ?_⟩
  · refine (qHead_of_get (hreg _ (by omega) (by omega) (by omega))).trans (qHead_of_get (hd1 _ ?_))
    rw [Ne, prtReg_inj]; decide
  · unfold Dev.qCause Dev.fld at hcause ⊢; rw [hq18]; exact hcause
  · unfold Dev.qErrIndex Dev.fld at hidx ⊢; rw [hq18]; exact hidx
  · rw [hget _ (hflt _ (by decide) _ (by decide)) (hflt _ (by decide) _ (by decide)), hc10, h10]
  · rw [hget _ (hflt _ (by decide) _ (by decide)) (hflt _ (by decide) _ (by decide)), hc20, h20]
  · have hne : ∀ off < 2 ^ 20, fltR c.site.toNat 0x40 ≠ prtR c off := fun off ho => (hflt off ho _ (by decide)).symm
    have hfl : ∀ z < 2 ^ 20, 0x40 ≠ z → fltR c.site.toNat 0x40 ≠ fltR c.site.toNat z := fun z hz hoz => by
      unfold fltR ctlAddr; omega
    rw [hget _ (hfl _ (by decide) (by decide)) (hfl _ (by decide) (by decide)),
      endCounted_get_ne p d2 c q y (hne _ (by decide)) (hne _ (by decide)), hf.count, hd1 _ ?_]
    rw [prtReg]; exact hne _ (by omega)
end

/-! ### The end of a WAIT (R82, R87) -/

/-- Memory after one run of bytes is written. -/
theorem byte_written (s : State) (a : Nat) (bs : List Byte) (e : Dev) (b : Nat) :
    (State.mk s.part (applyWr s.mem [(a, bs)]) e s.pending).byte b = if a ≤ b ∧ b < a + bs.length then bs.getD (b - a) 0 else s.byte b :=
  Memory.get_write s.mem a bs b

/-- The value of the bytes that stand in memory one after another. -/
theorem le_eq_leNat (t : State) : ∀ (bs : List Byte) (a : Nat), (∀ i, i < bs.length → t.byte (a + i) = bs.getD i 0) →
    t.le a bs.length = leNat bs
  | [], _, _ => rfl
  | b :: bs, a, h => by
    have h0 : t.byte a = b := h 0 (by simp)
    have ht := le_eq_leNat t bs (a + 1) fun i hi => by
      have := h (i + 1) (by simpa using hi)
      rwa [Nat.add_comm i 1, ← Nat.add_assoc, Nat.add_comm 1 i, List.getD_cons_succ] at this
    simp only [List.length_cons, State.le, leNat, h0, ht]

/-- The bytes of a record, as two words. -/
theorem recordBytes_written (s : State) (a lg : Nat) (x : Desc) (e : Dev) :
    let t : State := ⟨s.part, applyWr s.mem [(a, recordBytes lg x)], e, s.pending⟩
    t.le a 8 = (x.tag + x.status.toNat * 2 ^ 16 + (1 - x.idx.toNat / 2 ^ lg % 2) * 2 ^ 24 + x.done / 16 * 2 ^ 32) % 256 ^ 8 ∧
      t.le (a + 8) 8 = x.endT.toNat := by
  intro t
  let w := x.tag + x.status.toNat * 2 ^ 16 + (1 - x.idx.toNat / 2 ^ lg % 2) * 2 ^ 24 + x.done / 16 * 2 ^ 32
  have hlen : ∀ v, (leBytes 8 v).length = 8 := leBytes_length 8
  have hbyte : ∀ i, i < 16 → t.byte (a + i) = (leBytes 8 w ++ leBytes 8 x.endT.toNat).getD i 0 := fun i hi => by
    have hw := byte_written s a (recordBytes lg x) e (a + i)
    rw [if_pos (by rw [recordBytes_length]; omega), Nat.add_sub_cancel_left] at hw
    exact hw
  constructor
  · rw [← leNat_leBytes, ← le_eq_leNat t (leBytes 8 w) a, hlen]
    intro i hi
    rw [hlen] at hi
    rw [hbyte i (by omega), List.getD_eq_getElem?_getD, List.getElem?_append_left (by rw [hlen]; omega), List.getD_eq_getElem?_getD]
  · have hv : leNat (leBytes 8 x.endT.toNat) = x.endT.toNat := by
      rw [leNat_leBytes]; exact Nat.mod_eq_of_lt x.endT.isLt
    rw [← hv, ← le_eq_leNat t (leBytes 8 x.endT.toNat) (a + 8), hlen]
    intro i hi
    rw [hlen] at hi
    rw [Nat.add_assoc, hbyte (8 + i) (by omega), List.getD_eq_getElem?_getD, List.getElem?_append_right (by rw [hlen]; omega), hlen,
      Nat.add_sub_cancel_left, List.getD_eq_getElem?_getD]

theorem recordAt_of_get {p : Part} {d e : Dev} {c : CoreId} {q : Nat} (h : e.get p (prtReg c q 0) = d.get p (prtReg c q 0))
    (i : BitVec 16) : e.recordAt p c q i = d.recordAt p c q i := by
  unfold Dev.recordAt Dev.qCbase Dev.qLog2 Dev.fld; rw [h]

/-- A WAIT that meets no error ends with its count and, under CPL, with the record of the count it reached. -/
theorem endDesc_wait {s : State} {c : CoreId} {q : Nat} {x : Desc} (hdescs : s.dev.descs c q = [x]) (hop : x.op = 4)
    (hstatus : x.status = 0) (herr : x.errAt = none) (hinj : s.dev.injBits c.site.toNat 1 c.p.toNat = 0) :
    let lg := s.dev.qLog2 s.part c q
    let a := pantryAt c (s.dev.recordAt s.part c q x.idx)
    ∃ e ws, s.dev.endDesc s.part c q x = (e, ws) ∧ QueueIs s.dev e c q [] ∧
      (∀ r, e.get s.part r = if r = prtR c 0x10 then countUp (s.reg (prtR c 0x10)) 1 else s.reg r) ∧
      let t : State := ⟨s.part, applyWr s.mem ws, e, s.pending⟩
      if x.cpl then MemKept s t a 16 ∧ t.le a 8 = x.tag + (if x.idx.toNat / 2 ^ lg % 2 = 0 then 2 ^ 24 else 0) ∧
        t.le (a + 8) 8 = (s.dev.snoop c).toNat else ∀ b, t.byte b = s.byte b := by
  intro lg a
  by_cases hcpl : x.cpl = true
  case neg =>
    have hc : x.cpl = false := by simpa using hcpl
    obtain ⟨e, he, hq, -, hget⟩ := endDesc_quiet (p := s.part) hdescs rfl hstatus hc
    refine ⟨e, [], he, hq, hget, ?_⟩
    rw [if_neg hcpl]
    exact fun b => rfl
  let d1 := s.dev.endCounted s.part c q x
  let y := x.ended (s.dev.snoop c)
  have hq1 : QueueIs s.dev d1 c q [y] := endCounted_queueIs hdescs rfl
  have hget1 : ∀ r, d1.get s.part r = if r = prtR c 0x10 then countUp (s.reg (prtR c 0x10)) 1 else s.reg r :=
    endCounted_get s.part s.dev c q hstatus
  have h0 : d1.get s.part (prtReg c q 0) = s.dev.get s.part (prtReg c q 0) :=
    (hget1 _).trans (if_neg (prtReg_ne_prtR c q (by decide)))
  have hat : d1.recordAt s.part c q y.idx = s.dev.recordAt s.part c q x.idx := recordAt_of_get h0 _
  have hlg : d1.qLog2 s.part c q = lg := by unfold Dev.qLog2 Dev.fld; rw [h0]; rfl
  have hinj1 : d1.injBits c.site.toNat 1 c.p.toNat = 0 := by
    rw [← hinj]
    simp only [d1, Dev.endCounted]
    split <;> rfl
  have h16 := recordAt_mod s.part s.dev c q x.idx
  have hl := recordBytes_length (d1.qLog2 s.part c q) y
  obtain ⟨f, hf, m, hm, -⟩ := pantryWrite_of_checked (p := s.part) (a := d1.recordAt s.part c q y.idx)
    (recordBytes_ne (d1.qLog2 s.part c q) y) hinj1 (fun h => by omega) (fun h => by omega)
  have hst : x.status.getLsbD 7 = false := by rw [hstatus]; rfl
  have hy : (y.cpl || y.status != 0) = true := Bool.or_eq_true_iff.2 (.inl hcpl)
  have hw := writeRecord_written hy hf
  rw [hat, hlg] at hw
  refine ⟨f.setDescs c q [], _, by rw [endDesc_last hdescs rfl hst, hw],
    (hq1.of_cores fun k => by rw [hm]; rfl).trans (setDescs_queueIs f c q []), fun r => ?_, ?_⟩
  · rw [setDescs_get, hm]; exact hget1 r
  · rw [if_pos hcpl]
    obtain ⟨hlo, hhi⟩ := recordBytes_written s a lg y (f.setDescs c q [])
    refine ⟨fun b hb => ?_, ?_, hhi⟩
    · rw [byte_written, if_neg]
      rw [recordBytes_length]; omega
    · have hdone : y.done = 0 := by
        simp [y, Desc.ended, hop, herr, Desc.total]
      have htag : y.tag = x.tag := rfl
      have hys : y.status = 0 := hstatus
      have hyi : y.idx = x.idx := rfl
      have hlt : x.tag < 2 ^ 16 := bits_lt ..
      rw [hdone, htag, hys, hyi] at hlo
      rw [hlo]
      split
      next h => rw [h]; simp; omega
      next h =>
        have h1 : x.idx.toNat / 2 ^ lg % 2 = 1 := by omega
        rw [h1]; simp; omega

/-- Settles O27: nothing starts in step 3 of a stop; the head of a queue starts as its 32 bytes say; a WAIT ends with its record. -/
theorem descriptorStart : Obligations.DescriptorStart := by
  refine ⟨fun s c q hstop => ?_, ?_, ?_⟩
  · refine updW_answers (exec_descriptorStart s c q) (e := s.dev) (ws := []) (if_pos ?_) rfl
    rw [hstop]; exact Bool.or_true _
  · intro s c q hhas hst hheld hstop n i at' w x hen hcause hne hdescs hact hclean starts counts
    have hx : s.headDesc c n = x := rfl
    have hans := fun {e ws P} => descriptorStart_answers (e := e) (ws := ws) (P := P) hhas hst hheld hstop hen hcause hne hdescs hact hclean
    have active : ∀ y, s.dev.startDesc s.part c n at' x = ((s.dev.setHead s.part c n (i + 1)).setDescs c n [y], []) → starts y := fun y hy => by
      obtain ⟨hq, hhead, hreg, -⟩ := setHead_setDescs s.part s.dev c n (i + 1) [y]
      exact hans hy ⟨hq.queue, hhead, hq.pc, hq.scalars, hq.others, ⟨fun _ => rfl, hq.cores, rfl, rfl⟩, hreg⟩
    refine ⟨fun hok h1 h3 => active x ?_, fun hok h4 => active _ ?_, fun hok h0 hcpl => ?_, fun hbad => ?_⟩
    · have h0 : x.op ≠ 0 := by omega
      have h4 : x.op ≠ 4 := by omega
      simp only [Dev.startDesc, hok, h0, h4, Bool.false_eq_true, if_false]
      rfl
    · simp only [Dev.startDesc, hok, h4, Bool.false_eq_true, if_false, if_true]
      rfl
    · obtain ⟨hq, hhead, hreg, -⟩ := setHead_setDescs s.part s.dev c n (i + 1) [x]
      obtain ⟨e, he, hq', -, hget⟩ := endDesc_quiet (p := s.part) hq.queue rfl (rfl : x.status = 0) hcpl
      have hne8 : prtReg c n 8 ≠ prtR c 0x10 := prtReg_ne_prtR c n (by decide)
      have hs : s.dev.startDesc s.part c n at' x = (e, []) := by
        simp only [Dev.startDesc, hok, h0, Bool.false_eq_true, if_false, if_true]
        exact he
      have hall := hq.trans hq'
      refine hans hs ⟨⟨hall.queue, ?_, hall.others, hall.cores⟩, ?_, fun _ => rfl, fun a ha _ => ?_⟩
      · exact (hget _).trans (by rw [if_pos rfl, hreg _ hne8.symm])
      · exact (qHead_of_get ((hget _).trans (if_neg hne8))).trans hhead
      · simp only [List.mem_cons, List.not_mem_nil, or_false, not_or] at ha
        exact (hget a).trans ((if_neg ha.2).trans (hreg a ha.1))
    · obtain ⟨e, ws, he, hq, hhead, hcause1, hidx, h10, h20, h40⟩ := startDesc_malformed at' hbad hcause q.isLt
      exact hans he ⟨⟨hq.queue, h10, hq.others, hq.cores⟩, hhead, hcause1, hidx, h20, h40⟩
  · intro s c q x hheld hdescs hphase hop hstatus herr htime hinj n lg a
    obtain ⟨e, ws, he, hq, hget, hmem⟩ := endDesc_wait hdescs hop hstatus herr hinj
    have hfind : (s.dev.descs c n).find? (fun x => x.phase == .waitLedger) = some x := by
      rw [hdescs]; simp [hphase]
    have hreached : reached (s.dev.snoop c) x.w1 = true := by simpa [reached] using htime
    refine updW_answers (exec_porterWaitReached s c q) (e := e) (ws := ws) ?_ ⟨hq.queue, hq.others, hq.cores, hq.pc, hq.scalars,
      (hget _).trans (if_pos rfl), fun r hr => (hget r).trans (if_neg hr), ⟨rfl, rfl⟩, hmem⟩
    simp only [hheld, Bool.false_eq_true, if_false]
    rw [show q.toNat = n from rfl, hfind]
    simp only [hreached, if_true]
    exact he

end Sys2Proof.Machine
end

-- The way of a request through the node (R25, R26, R294)
section

namespace Sys2Proof.Machine

/-! ### What the way of a request depends on (R25, R26, R294) -/

/-- Two devices that send every request the same way: they agree on the registers outside the blocks of the cores, on the node,
on the roles that are out and on the stop. -/
structure SameRoutes (p : Part) (d e : Dev) : Prop where
  regs : ∀ z, ctlBlk z < 0x100 → e.get p z = d.get p z
  node : e.node = d.node
  roles : e.rolesOut = d.rolesOut
  stop : e.stopStep = d.stopStep

namespace SameRoutes
variable {p : Part} {d e f : Dev}

theorem trans (h : SameRoutes p d e) (h' : SameRoutes p e f) : SameRoutes p d f :=
  ⟨fun z hz => (h'.regs z hz).trans (h.regs z hz), h'.node.trans h.node, h'.roles.trans h.roles, h'.stop.trans h.stop⟩

theorem bit (h : SameRoutes p d e) {z : Nat} (hz : ctlBlk z < 0x100) (i : Nat) : e.bit p z i = d.bit p z i := by
  unfold Dev.bit; rw [h.regs z hz]
theorem fld (h : SameRoutes p d e) {z : Nat} (hz : ctlBlk z < 0x100) (lo n : Nat) : e.fld p z lo n = d.fld p z lo n := by
  unfold Dev.fld; rw [h.regs z hz]

theorem blk_lt {site blk off : Nat} (hb : blk < 0x100) (ho : off < 2 ^ 20) : ctlBlk (ctlAddr site blk off) < 0x100 := by
  rw [ctlBlk_ctlAddr (by omega) ho]; exact hb
theorem blk_latR {x : Nat} (hx : x ≤ 23) : ctlBlk (latR x 0) < 0x100 := by
  unfold latR
  split
  · exact blk_lt (by omega) (by omega)
  · exact blk_lt (by omega) (by omega)
theorem blk_memcR (l : Nat) {off : Nat} (ho : off < 2 ^ 20) : ctlBlk (memcR l off) < 0x100 := blk_lt (by decide) ho
theorem blk_idR (site : Nat) {off : Nat} (ho : off < 2 ^ 20) : ctlBlk (idR site off) < 0x100 := blk_lt (by decide) ho
theorem blk_brtR {g off : Nat} (hg : g ≤ 1) (ho : off < 2 ^ 20) : ctlBlk (brtR g off) < 0x100 := blk_lt (by omega) ho

theorem usable (h : SameRoutes p d e) : e.usable p = d.usable p := by
  unfold Dev.usable Dev.dataRows Dev.checkOn
  rw [h.bit (blk_memcR 0 (by decide))]
theorem place (h : SameRoutes p d e) (a : Nat) : e.place p a = d.place p a := by
  unfold Dev.place; rw [h.usable]
theorem channelOf (h : SameRoutes p d e) (a : Nat) : e.channelOf p a = d.channelOf p a := by
  unfold Dev.channelOf; rw [h.usable, h.fld (blk_memcR 0 (by decide))]
theorem placeSite (h : SameRoutes p d e) (pl : Place) : e.placeSite p pl = d.placeSite p pl := by
  cases pl with
  | gddr a => simp only [Dev.placeSite, h.channelOf]
  | _ => rfl
theorem siteReady (h : SameRoutes p d e) (x : Nat) : e.siteReady p x = d.siteReady p x := by
  unfold Dev.siteReady; rw [h.bit (blk_idR 20 (by decide))]
theorem heldOut (h : SameRoutes p d e) (x : Nat) : e.heldOut p x = d.heldOut p x := by
  unfold Dev.heldOut; rw [h.bit (blk_idR 20 (by decide))]
theorem berthLive (h : SameRoutes p d e) {g : Nat} (hg : g ≤ 1) : e.berthLive p g = d.berthLive p g := by
  unfold Dev.berthLive; rw [h.heldOut, h.bit (blk_brtR hg (by decide))]

theorem ownPantry (h : SameRoutes p d e) (c : CoreId) (a : W64) : e.ownPantry p c a = d.ownPantry p c a := by
  unfold Dev.ownPantry; rw [h.node, h.place]
theorem offDie (h : SameRoutes p d e) (c : CoreId) (a : W64) : e.offDie p c a = d.offDie p c a := by
  unfold Dev.offDie; rw [h.node, h.place, h.placeSite]
theorem coreSrc (h : SameRoutes p d e) (c : CoreId) : e.coreSrc c = d.coreSrc c := by
  unfold Dev.coreSrc; rw [h.node]

/-- There are two berths. -/
theorem berth_le {a g : Nat} (h : d.place p a = .berth g) : g ≤ 1 := by
  unfold Dev.place at h
  dsimp only at h
  split_ifs at h <;> cases h <;> omega

theorem refusedAtSender (h : SameRoutes p d e) {pl : Place} (hb : ∀ g, pl = .berth g → g ≤ 1) :
    e.refusedAtSender p pl = d.refusedAtSender p pl := by
  unfold Dev.refusedAtSender
  simp only [h.placeSite, h.heldOut, h.siteReady]
  cases pl with
  | gddr a => rw [h.bit (blk_memcR 0 (by decide))]
  | berth g => simp only [h.berthLive (hb g rfl)]
  | ctl a =>
    by_cases hg : isG (ctlSite a) = true
    · have hsite : ctlSite a - 21 ≤ 1 := by simp [isG] at hg; omega
      simp only [hg, if_true, h.berthLive hsite]
    · simp only [hg, Bool.false_eq_true, if_false]
  | _ => rfl

theorem k0Reaches (h : SameRoutes p d e) (x : Nat) : e.k0Reaches p x = d.k0Reaches p x := by
  unfold Dev.k0Reaches Dev.bootReached Dev.bootAt
  rw [h.stop, h.fld (blk_idR 20 (by decide))]

theorem refusedReq (h : SameRoutes p d e) (r : Req) (a : Nat) : e.refusedReq p r (d.place p a) = d.refusedReq p r (d.place p a) := by
  unfold Dev.refusedReq
  rw [h.node, h.k0Reaches, h.placeSite, h.refusedAtSender fun _ => berth_le]

theorem inFallback (h : SameRoutes p d e) (x : Nat) : e.inFallback p (endpointOf x) = d.inFallback p (endpointOf x) := by
  unfold Dev.inFallback
  rw [h.bit (blk_latR (by unfold endpointOf; split <;> omega))]

theorem latEnds (h : SameRoutes p d e) (a b unit : Nat) : e.latEnds a b unit = d.latEnds a b unit := by
  unfold Dev.latEnds Dev.roleOut; rw [h.roles]

/-- The ends of a path are endpoints. -/
theorem reqEnds_endpoints {r : Req} {pl : Place} {a b : Nat} (h : d.reqEnds p r pl = some (a, b)) :
    (∃ x, a = endpointOf x) ∧ ∃ y, b = endpointOf y := by
  unfold Dev.reqEnds Dev.latEnds at h
  dsimp only at h
  split_ifs at h <;> cases h <;> exact ⟨⟨_, rfl⟩, ⟨_, rfl⟩⟩

theorem pathDown (h : SameRoutes p d e) (r : Req) (pl : Place) :
    e.pathDown p r (e.reqEnds p r pl) = d.pathDown p r (d.reqEnds p r pl) := by
  have hends : e.reqEnds p r pl = d.reqEnds p r pl := by
    unfold Dev.reqEnds; simp only [h.placeSite, h.latEnds]
  rw [hends]
  unfold Dev.pathDown
  cases hr : d.reqEnds p r pl with
  | none => rfl
  | some ab =>
    obtain ⟨⟨x, hx⟩, ⟨y, hy⟩⟩ := reqEnds_endpoints (a := ab.1) (b := ab.2) hr
    simp only [hx, hy, h.inFallback]

/-- Such devices send a request the same way. -/
theorem sendReq_net (h : SameRoutes p d e) (hnet : e.net = d.net) (r : Req) : (e.sendReq p r).net = (d.sendReq p r).net := by
  unfold Dev.sendReq
  simp only [h.node, h.place, h.refusedReq, h.pathDown, h.inFallback, Dev.send]
  repeat' split
  all_goals simp only [hnet]

end SameRoutes
end Sys2Proof.Machine
end

-- Packets of the porter (R79, R80, R85, R162, R167)
section

namespace Sys2Proof.Machine

/-! ### A packet leaves (R79, R85) -/

/-- Queue `q` of core `c` holds the descriptor `y`; no packet has left yet. -/
structure ToSend (p : Part) (d e : Dev) (c : CoreId) (q : Nat) (y : Desc) : Prop where
  descs : e.descs c q = [y]
  tag : (e.core c).prtTag = (d.core c).prtTag
  cores : ∀ k, k ≠ c → e.core k = d.core k
  routes : SameRoutes p d e
  net : e.net = d.net

/-- The request `r` has left; queue `q` of core `c` holds the descriptor `y`. -/
structure HasSent (p : Part) (d e : Dev) (c : CoreId) (q : Nat) (r : Req) (y : Desc) : Prop where
  descs : e.descs c q = [y]
  tag : (e.core c).prtTag = (d.core c).prtTag + 1
  cores : ∀ k, k ≠ c → e.core k = d.core k
  net : e.net = (d.sendReq p r).net

section
variable {p : Part} {d e : Dev} {c : CoreId} {q : Nat} {x y : Desc} {r : Req}

theorem sendReq_core (p : Part) (d : Dev) (r : Req) (k : CoreId) : (d.sendReq p r).core k = d.core k := by
  unfold Dev.sendReq
  dsimp only
  split
  · split
    · rfl
    · split <;> rfl
  · split <;> rfl

theorem SameRoutes.of_cores (d : Dev) (p : Part) (cs : SMap CoreSt) : SameRoutes p d { d with cores := cs } := ⟨fun _ _ => rfl, rfl, rfl, rfl⟩

/-- A change of the one descriptor of a queue sends nothing. -/
theorem ToSend.modDesc (h : ToSend p d e c q x) (g : Desc → Desc) : ToSend p d (e.modDesc c q x.idx g) c q (g x) := by
  have hq := modDesc_queueIs h.descs g
  exact ⟨hq.queue, by rw [hq.own]; exact h.tag, fun k hk => (hq.cores k hk).trans (h.cores k hk),
    h.routes.trans (SameRoutes.of_cores e p _), h.net⟩

theorem ToSend.start (h : d.descs c q = [x]) : ToSend p d d c q x := ⟨h, rfl, fun _ _ => rfl, ⟨fun _ _ => rfl, rfl, rfl, rfl⟩, rfl⟩

/-- The request of a packet of descriptor `x`. -/
def Dev.pktReq (d : Dev) (c : CoreId) (x : Desc) (a : W64) (op : ReqOp) (bulk last : Bool) : Req :=
  { src := d.coreSrc c, addr := a, tag := (d.core c).prtTag, op := op, chan := x.w0.extractLsb' 8 8
    ord := x.w0.getLsbD 6, flag := last && x.w0.getLsbD 7, bulk := bulk }

/-- A packet of a descriptor leaves under the next tag, and is noted. -/
theorem ToSend.sendPkt (h : ToSend p d e c q y) (hi : y.idx = x.idx) (a : W64) (op : ReqOp) (kind : PKind) (pos size lines : Nat)
    (bulk last : Bool) : ∃ k, HasSent p d (e.sendPkt p c q x a op kind pos size lines bulk last) c q (d.pktReq c x a op bulk last)
      { y with pkts := y.pkts ++ [k] } := by
  let k : PPkt := { tag := (e.core c).prtTag, kind := kind, pos := pos, size := size, lines := if e.offDie p c a then lines else 0 }
  let e1 := (e.takeTag c).2
  have hd1 : e1.descs c q = [y] := by
    rw [← h.descs]
    simp only [e1, Dev.takeTag, Dev.descs, Dev.core_modCore_same]
  let e2 := e1.modDesc c q y.idx fun z => { z with pkts := z.pkts ++ [k] }
  have hq : QueueIs e1 e2 c q [{ y with pkts := y.pkts ++ [k] }] := modDesc_queueIs hd1 _
  have hroutes : SameRoutes p d e2 := h.routes.trans (SameRoutes.of_cores e p _)
  have he : e.sendPkt p c q x a op kind pos size lines bulk last = e2.sendReq p (d.pktReq c x a op bulk last) := by
    unfold Dev.pktReq
    rw [← h.tag, ← h.routes.coreSrc]
    simp only [e2, hi]
    rfl
  have hcore := sendReq_core p e2 (d.pktReq c x a op bulk last)
  refine ⟨k, ?_, ?_, fun m hm => ?_, ?_⟩
  · rw [he]
    unfold Dev.descs
    rw [hcore]
    exact hq.queue
  · rw [he, hcore, hq.own]
    show (e1.core c).prtTag = _
    simp only [e1, Dev.takeTag, Dev.core_modCore_same, h.tag]
  · rw [he, hcore]
    exact (hq.cores m hm).trans ((Dev.core_modCore_ne _ _ hm).trans (h.cores m hm))
  · rw [he]
    exact hroutes.sendReq_net h.net _

/-- A descriptor that still waits for an answer goes on. -/
theorem settle_goesOn (h : d.descs c q = [y]) (hp : y.pkts ≠ [] ∨ y.allIssued = false) (hph : y.phase = .active) :
    ∃ ph : Desc → DPhase, d.settle p c q y.idx = (d.modDesc c q y.idx fun z => { z with phase := ph z }, []) := by
  have hf : d.findDesc c q y.idx = some y := by
    unfold Dev.findDesc; rw [h]; simp
  have hno : ¬(y.allIssued = true ∧ y.pkts.isEmpty = true) := by
    rintro ⟨h1, h2⟩
    obtain hp | hp := hp
    · exact hp (List.isEmpty_iff.1 h2)
    · rw [h1] at hp; cases hp
  have hnot : ¬(y.phase = .done ∨ y.phase = .waitLedger) := by rw [hph]; simp
  exact ⟨_, by simp only [Dev.settle, hf, if_neg hnot, if_neg hno]; rfl⟩

/-- After its packet has left, a descriptor waits for the answer. -/
theorem HasSent.settle (h : HasSent p d e c q r y) (hp : y.pkts ≠ []) (hph : y.phase = .active) :
    ∃ f ph, e.settle p c q y.idx = (f, []) ∧ HasSent p d f c q r { y with phase := ph } := by
  obtain ⟨ph, hs⟩ := settle_goesOn (p := p) h.descs (.inl hp) hph
  have hq := modDesc_queueIs h.descs fun z => { z with phase := ph z }
  exact ⟨_, _, hs, hq.queue, by rw [hq.own]; exact h.tag, fun k hk => (hq.cores k hk).trans (h.cores k hk), h.net⟩

end

/-! ### The chunk of a FILL (R82, R85) -/

theorem fillBytes_length (w : W64) {n : Nat} (hn : n % 8 = 0) : (fillBytes w n).length = n := by
  unfold fillBytes
  simp only [List.length_flatten, List.map_replicate, List.sum_replicate, leBytes_length, smul_eq_mul]
  omega

theorem leBytes_getElem? {n j : Nat} (h : j < n) : ∀ x, (leBytes n x)[j]? = some (BitVec.ofNat 8 (x / 256 ^ j)) := by
  induction n generalizing j with
  | zero => omega
  | succ n ih =>
    intro x
    cases j with
    | zero => simp [leBytes]
    | succ j =>
      rw [leBytes, List.getElem?_cons_succ, ih (by omega), Nat.div_div_eq_div_mul, Nat.pow_succ']

/-- The bytes of a FILL repeat its pattern. -/
theorem fillBytes_getElem? (w : W64) (n : Nat) : ∀ j, j < n / 8 * 8 → (fillBytes w n)[j]? = some (BitVec.ofNat 8 (w.toNat / 256 ^ (j % 8))) := by
  unfold fillBytes
  induction n / 8 with
  | zero => intro j hj; omega
  | succ k ih =>
    intro j hj
    rw [List.replicate_succ, List.flatten_cons]
    by_cases h8 : j < 8
    · rw [List.getElem?_append_left (by rw [leBytes_length]; exact h8), leBytes_getElem? h8, Nat.mod_eq_of_lt h8]
    · rw [List.getElem?_append_right (by rw [leBytes_length]; omega), leBytes_length, ih (j - 8) (by omega)]
      have hmod : (j - 8) % 8 = j % 8 := by omega
      rw [hmod]

theorem fillBytes_byte {w : W64} {n j : Nat} {b : Byte} (hn : n % 8 = 0) (h : (fillBytes w n)[j]? = some b) :
    b = BitVec.ofNat 8 (w.toNat / 256 ^ (j % 8)) := by
  have hj : j < n := by
    have := (List.getElem?_eq_some_iff.1 h).1
    rwa [fillBytes_length w hn] at this
  rw [fillBytes_getElem? w n j (by omega)] at h
  exact (Option.some.inj h).symm

section
variable {p : Part} {d : Dev} {c : CoreId} {q : Nat} {x : Desc}

/-- The destination of a FILL and the size of its packets are whole lines of 16 bytes. -/
theorem fill_aligned (own : Bool) (hop : x.op = 2) (hdst : x.w2.toNat % 16 = 0) (htot : x.total % 16 = 0) (hiss : x.issued % 16 = 0) :
    (x.dstAt x.issued).toNat % 16 = 0 ∧ x.chunk own x.issued % 16 = 0 ∧ (x.issued < x.total → 0 < x.chunk own x.issued) := by
  have hd : (x.dstAt x.issued).toNat % 16 = 0 := by
    unfold Desc.dstAt
    rw [if_neg (by omega), BitVec.toNat_add, BitVec.toNat_ofNat]
    omega
  have h1 : (x.op == 1) = false := by rw [hop]; rfl
  have hn1 : x.op ≠ 1 := by omega
  have hl : x.dstLeft x.issued % 16 = 0 ∧ 0 < x.dstLeft x.issued := by
    unfold Desc.dstLeft
    dsimp only
    split <;> omega
  refine ⟨hd, ?_⟩
  unfold Desc.chunk Desc.rowLeft
  simp only [h1, if_neg hn1, Bool.and_false, Bool.false_and, Bool.false_eq_true, if_false]
  omega

theorem ownPantry_mod {a : W64} {off : Nat} (h : d.ownPantry p c a = some off) (ha : a.toNat % 16 = 0) : off % 16 = 0 := by
  have hl : gaLocal a % 16 = 0 := by unfold gaLocal; omega
  unfold Dev.ownPantry at h
  split at h
  next =>
    split at h
    next c' o heq =>
      split at h
      next =>
        cases h
        unfold Dev.place at heq
        dsimp only at heq
        split_ifs at heq
        cases heq
        omega
      next => cases h
    next => cases h
  next => cases h

/-- A FILL issues its next chunk. -/
theorem issuePkt_fill (m : List Host.Cell) (hop : x.op = 2) (hbuf : x.buf = []) :
    let n := x.chunk (d.srcOwn p c x x.issued) x.issued
    d.issuePkt p m c q x = (d.modDesc c q x.idx fun y => { y with issued := y.issued + n }).deliver p c q x x.issued (fillBytes x.w1 n)
      (decide (x.total ≤ x.issued + n)) := by
  have hn : x.nextOut = none := by unfold Desc.nextOut; rw [hbuf]
  have h3 : x.op ≠ 3 := by omega
  simp only [Dev.issuePkt, if_neg h3, hn, if_pos hop]

/-- A FILL with bytes left has packets left. -/
theorem allIssued_fill (hop : x.op = 2) (herr : x.errAt = none) (h : x.issued < x.total) : x.allIssued = false := by
  have h3 : x.op ≠ 3 := by omega
  simp [Desc.allIssued, herr, h3, h]

/-- The queue that the porter serves issues a packet of its descriptor at work, which then goes on. -/
theorem porterPacketIssue_answers {s : State} {q : BitVec 4} {e f : Dev} {w w' : Wr} {P : State → Prop}
    (hheld : s.dev.edgesHeld c = false) (hserved : s.dev.served s.part s.mem c = some q.toNat)
    (hwork : s.dev.worker s.part s.mem c q.toNat = some x)
    (hi : (s.dev.modCore c fun k => { k with prtLast := q }).issuePkt s.part s.mem c q.toNat x = (e, w))
    (hs : e.settle s.part c q.toNat x.idx = (f, w'))
    (hP : P (State.mk s.part (applyWr s.mem (w ++ w')) f s.pending)) : Answers (.porterPacketIssue c q) s P := by
  refine updW_answers (exec_porterPacketIssue s c q) ?_ hP
  simp only [hheld, hserved, hwork, hi, hs, Bool.false_eq_true, if_false, if_true]

end

section
variable {p : Part} {d e : Dev} {c : CoreId} {q : Nat} {x y : Desc}

theorem pantryAt_add (c : CoreId) (a j : Nat) : pantryAt c (a + j) = pantryAt c a + j := by unfold pantryAt; omega

/-- A chunk for the own pantry is written there. -/
theorem deliver_own {a : Nat} {pos : Nat} {bs : List Byte} {last : Bool} (ha : d.ownPantry p c (x.dstAt pos) = some a) (hn : bs ≠ [])
    (hlo : a % 8 = 0) (hhi : (a + bs.length) % 8 = 0) :
    ∃ e, d.deliver p c q x pos bs last = (e, [(pantryAt c a, bs)]) ∧ ∀ k, e.core k = d.core k := by
  obtain ⟨e, he, hcore, -⟩ := pantryWrite_whole (p := p) (d := d) (c := c) hn hlo hhi
  exact ⟨e.count p (prtR c 0x18) (linesIn (x.dstAt pos).toNat bs.length), by simp only [Dev.deliver, ha, he], hcore⟩

/-- A chunk for another place leaves as a packet. -/
theorem deliver_away {pos : Nat} {bs : List Byte} {last : Bool} (ha : d.ownPantry p c (x.dstAt pos) = none) :
    d.deliver p c q x pos bs last = (d.sendPkt p c q x (x.dstAt pos) (.write bs) .wr pos bs.length (linesIn (x.dstAt pos).toNat bs.length)
      true last, []) := by
  simp only [Dev.deliver, ha]

/-! ### The tile of a PUSH (R162, R167) -/

theorem le_lt (s : State) (n : Nat) : ∀ a, s.le a n < 256 ^ n := by
  induction n with
  | zero => intro a; simp [State.le]
  | succ n ih =>
    intro a
    have h0 := (s.byte a).isLt
    have h1 := ih (a + 1)
    rw [State.le, Nat.pow_succ]
    omega

/-- The header of a tile that has been read, and its lines, are as memory holds them. -/
theorem tile_read (s : State) (c : CoreId) (off : Nat) {n lineN : Nat} (hn : n ≤ lineN) :
    let bs := Memory.read s.mem (pantryAt c off) (16 + 128 * lineN)
    (tileHeader bs).toNat = s.le (pantryAt c off) 16 ∧ (tileLines bs n).length = n ∧
      ∀ i j b, ((tileLines bs n)[i]?.bind fun y => y[j]?) = some b → b = s.byte (pantryAt c (off + 16 + 128 * i + j)) := by
  intro bs
  refine ⟨?_, by simp [tileLines], fun i j b hb => ?_⟩
  · have htake : bs.take 16 = Memory.read s.mem (pantryAt c off) 16 :=
      read_drop_take s.mem (a := pantryAt c off) (i := 0) (by omega)
    rw [tileHeader, BitVec.toNat_ofNat, htake, leNat_read]
    exact Nat.mod_eq_of_lt (le_lt s 16 _)
  · unfold tileLines at hb
    rw [List.getElem?_map] at hb
    by_cases hi : i < n
    · rw [List.getElem?_range hi, Option.map_some, Option.bind_some] at hb
      have hline : (bs.drop (16 + 128 * i)).take 128 = Memory.read s.mem (pantryAt c off + (16 + 128 * i)) 128 :=
        read_drop_take s.mem (by omega)
      rw [hline] at hb
      have hj : j < 128 := by
        have := (List.getElem?_eq_some_iff.1 hb).1
        rwa [read_length] at this
      rw [read_getElem? s.mem 128 _ _ hj] at hb
      rw [← Option.some.inj hb, Nat.add_assoc off, Nat.add_assoc off, pantryAt_add, Nat.add_assoc (pantryAt c off)]
    · rw [List.getElem?_eq_none (by simpa using hi)] at hb
      cases hb

/-- A descriptor whose refused tile `t` has been sent again. -/
def Desc.sentAgain (x : Desc) (t : Nat) : Desc :=
  { x with retry := x.retry.map fun w => if w.tile == t then { w with tries := w.tries + 1, sent := true } else w }

/-- A tile whose source is the own pantry is read there. -/
theorem tileData_own {s : State} {t off : Nat} (hm : d.mark = s.dev.mark) (ha : d.ownPantry s.part c (x.srcAt (t * x.tileBytes)) = some off)
    (hclean : Clean s c off x.tileBytes) :
    d.tileData s.part s.mem c x t = (d, some (.ok (Memory.read s.mem (pantryAt c off) x.tileBytes))) := by
  have hr := pantryRead_clean (p := s.part) (m := s.mem) (d := d) (c := c) (a := off) (n := x.tileBytes) fun b h1 h2 => by
    rw [hm]; exact hclean b h1 h2
  simp only [Dev.tileData, ha, hr]

/-- A PUSH that has no second packet to send issues the header packet of its next tile. -/
theorem issuePkt_push {s : State} {bs : List Byte} (hop : x.op = 3) (hhalf : x.half = none)
    (ht : d.tileData s.part s.mem c x x.tiles = (d, some (.ok bs))) :
    d.issuePkt s.part s.mem c q x = ((d.modDesc c q x.idx fun y =>
      { y with tiles := x.tiles + 1, half := if x.lineN = 4 then some x.tiles else none }).sendHead s.part c q x x.tiles bs, []) := by
  simp only [Dev.issuePkt, if_pos hop, hhalf, Option.getD_none, ht, Option.isSome_none, Bool.false_eq_true, if_false]

end

/-- Settles O28: what the served queue issues, and the tile sent again. -/
theorem porterPackets : Obligations.PorterPackets := by
  intro s c q x hheld n sends tile own size hdescs herr
  have hlast : ToSend s.part s.dev (s.dev.modCore c fun k => { k with prtLast := q }) c n x := by
    refine ⟨?_, ?_, fun k hk => Dev.core_modCore_ne _ _ hk, SameRoutes.of_cores s.dev s.part _, rfl⟩
    · rw [← hdescs]; simp only [Dev.descs, Dev.core_modCore_same]
    · rw [Dev.core_modCore_same]
  have hsrc : (s.dev.modCore c fun k => { k with prtLast := q }).srcOwn s.part c x x.issued = s.dev.srcOwn s.part c x x.issued := by
    unfold Dev.srcOwn; rw [hlast.routes.ownPantry]
  refine ⟨fun hserved hwork hph hbuf hop hdst htot hiss hpkts => ?_, ?_, ?_⟩
  · have hissue := issuePkt_fill (p := s.part) (d := s.dev.modCore c fun k => { k with prtLast := q }) (c := c) (q := n) s.mem hop hbuf
    rw [hsrc] at hissue
    have hmod := hlast.modDesc fun y => { y with issued := y.issued + size }
    obtain ⟨hdst16, hsize, hpos⟩ := fill_aligned (s.dev.srcOwn s.part c x x.issued) hop hdst htot hiss
    have hlen : (fillBytes x.w1 size).length = size := fillBytes_length x.w1 (by omega)
    refine ⟨fun off hown hlt _ => ?_, fun hown => ?_⟩
    · have hoff := ownPantry_mod hown hdst16
      have hne : fillBytes x.w1 size ≠ [] := by
        rw [← List.length_pos_iff_ne_nil, hlen]; exact hpos (by omega)
      obtain ⟨e, he, hcore⟩ := deliver_own (q := n) (last := decide (x.total ≤ x.issued + size))
        ((hmod.routes.ownPantry c _).trans hown) hne (by omega) (by rw [hlen]; omega)
      have hdescs' : e.descs c n = [{ x with issued := x.issued + size }] := by
        rw [← hmod.descs]; unfold Dev.descs; rw [hcore]
      have hgo : Desc.allIssued { x with issued := x.issued + size } = false := allIssued_fill hop herr hlt
      obtain ⟨ph, hs⟩ := settle_goesOn (p := s.part) hdescs' (.inr hgo) hph
      have hq := modDesc_queueIs hdescs' fun z => { z with phase := ph z }
      refine porterPacketIssue_answers hheld hserved hwork (hissue.trans he) hs
        ⟨fun j hj => ?_, fun b hb => ?_, by rw [hq.queue]; rfl, fun k hk => ?_, rfl, rfl⟩
      · rw [List.append_nil, pantryAt_add, byte_written, if_pos (by rw [hlen]; omega), Nat.add_sub_cancel_left, List.getD_eq_getElem?_getD,
          fillBytes_getElem? x.w1 size j (by omega)]
        rfl
      · rw [List.append_nil, byte_written, if_neg (by rw [hlen]; omega)]
      · exact (hq.cores k hk).trans ((hcore k).trans (hmod.cores k hk))
    · obtain ⟨k, hk⟩ := hmod.sendPkt (x := x) rfl (x.dstAt x.issued) (.write (fillBytes x.w1 size)) .wr x.issued (fillBytes x.w1 size).length
        (linesIn (x.dstAt x.issued).toNat (fillBytes x.w1 size).length) true (decide (x.total ≤ x.issued + size))
      obtain ⟨f, ph, hs, hf⟩ := hk.settle (by simp) hph
      refine porterPacketIssue_answers hheld hserved hwork (hissue.trans (deliver_away ((hmod.routes.ownPantry c _).trans hown))) hs
        ⟨_, _, ⟨rfl, rfl, rfl, rfl, rfl, rfl, hf.net, hf.tag, hf.cores, ⟨rfl, rfl⟩, fun _ => rfl⟩, rfl, hlen, fun j b hb => ?_⟩
      exact fillBytes_byte (by omega) hb
  · intro off hserved hwork hph hop hhalf hretry hown hclean
    have ht : (s.dev.modCore c fun k => { k with prtLast := q }).tileData s.part s.mem c x x.tiles =
        (s.dev.modCore c fun k => { k with prtLast := q }, some (.ok (Memory.read s.mem (pantryAt c off) x.tileBytes))) :=
      tileData_own rfl ((hlast.routes.ownPantry c _).trans hown) hclean
    have hmod := hlast.modDesc fun y => { y with tiles := x.tiles + 1, half := if x.lineN = 4 then some x.tiles else none }
    obtain ⟨hh, hlen, hbyte⟩ := tile_read s c off (Nat.min_le_right 3 x.lineN)
    obtain ⟨k, hk⟩ := hmod.sendPkt (x := x) rfl x.w2 (.push _ 0 (some _) (tileLines _ (min 3 x.lineN))) .tileHead x.tiles
      (16 + 128 * min 3 x.lineN) (min 3 x.lineN) true (x.tiles + 1 == x.rows && x.lineN != 4)
    obtain ⟨f, ph, hs, hf⟩ := hk.settle (by simp) hph
    exact porterPacketIssue_answers hheld hserved hwork (issuePkt_push hop hhalf ht) hs
      ⟨_, ⟨rfl, rfl, rfl, rfl, rfl, rfl, hf.net, hf.tag, hf.cores, ⟨rfl, rfl⟩, fun _ => rfl⟩, ⟨_, _, rfl, hh, hlen, hbyte⟩,
        by rw [hf.descs]; rfl⟩
  · intro y off hretry hsent htime haway hop hline hown hclean
    have hdue : (!y.sent && reached (s.dev.snoop c) y.at') = true := by rw [hsent]; simpa [reached] using htime
    have hfind : (s.dev.descs c n).find? (fun z => z.retry.any fun r => !r.sent && reached (s.dev.snoop c) r.at') = some x := by
      rw [hdescs]; simp [hretry, hdue]
    have hfirst : x.retry.find? (fun r => !r.sent && reached (s.dev.snoop c) r.at') = some y := by
      rw [hretry]; simp [hdue]
    have ht : s.dev.tileData s.part s.mem c x y.tile =
        (s.dev, some (.ok (Memory.read s.mem (pantryAt c off) x.tileBytes))) := tileData_own rfl hown hclean
    have h4 : x.lineN ≠ 4 := by omega
    have hmod := (ToSend.start (p := s.part) hdescs).modDesc fun z => z.sentAgain y.tile
    obtain ⟨hh, hlen, hbyte⟩ := tile_read s c off (Nat.min_le_right 3 x.lineN)
    obtain ⟨k, hk⟩ := hmod.sendPkt (x := x) rfl x.w2 (.push _ 0 (some _) (tileLines _ (min 3 x.lineN))) .tileHead y.tile
      (16 + 128 * min 3 x.lineN) (min 3 x.lineN) true (y.tile + 1 == x.rows && x.lineN != 4)
    refine updW_answers (exec_pushRetry s c q) (ws := []) (e := (s.dev.modDesc c n x.idx fun z => z.sentAgain y.tile).sendHead
        s.part c n x y.tile (Memory.read s.mem (pantryAt c off) x.tileBytes)) ?_
      ⟨_, ⟨rfl, rfl, rfl, rfl, rfl, rfl, hk.net, hk.tag, hk.cores, ⟨rfl, rfl⟩, fun _ => rfl⟩, ⟨_, _, rfl, hh, hlen, hbyte⟩, ?_⟩
    · simp only [hheld, Bool.false_eq_true, if_false]
      rw [show q.toNat = n from rfl, hfind]
      simp only [hfirst, haway, Bool.false_and, Bool.false_eq_true, if_false, ht, if_neg h4]
      rfl
    · exact (congrArg (List.map Desc.retry) hk.descs).trans (by simp [Desc.sentAgain, hretry])

end Sys2Proof.Machine
end

-- The atomics of a core (R149, R150, R410, R411, R413)
section

namespace Sys2Proof.Machine

section
variable {p : Part} {d e : Dev} {c : CoreId}

/-- Sending a request puts messages on their way, and changes nothing else. -/
theorem sendReq_eq (p : Part) (d : Dev) (r : Req) : d.sendReq p r = { d with net := (d.sendReq p r).net } := by
  unfold Dev.sendReq
  dsimp only
  split
  · split
    · rfl
    · split <;> rfl
  · split <;> rfl

theorem sendReq_get (p : Part) (d : Dev) (r : Req) (a : Nat) : (d.sendReq p r).get p a = d.get p a := by
  rw [sendReq_eq]; rfl

theorem PantryWritten.mark_clean {a n : Nat} (h : PantryWritten c a n d e) {b : Nat} (hb : d.mark b = 0) : e.mark b = 0 := by
  obtain ⟨m, rfl, hm⟩ := h
  obtain hk | ⟨-, -, h0⟩ := hm b
  · exact hk.trans hb
  · exact h0

theorem issueW_answers {s : State} {i : Instr} {ss : List (BitVec 6)} {vs : List (BitVec 5)} {f : Part → List Host.Cell → Dev → Dev × Wr}
    {ws : Wr} {P : State → Prop} (h : ready s.part s.dev c ss vs = true) (he : exec i s = issueW c ss vs s f)
    (hf : f s.part s.mem (s.dev.modCore c CoreSt.take) = (e, ws)) (hP : P (State.mk s.part (applyWr s.mem ws) e s.pending)) :
    Answers i s P :=
  ⟨_, he.trans (issueW_ready h f), by rw [hf]; exact hP⟩

end

/-! ### PRT.ATOM (R149, R150) -/

/-- The operands of an atomic, as its block holds them, with the numbers its core gives it. -/
def State.atomOf (s : State) (c : CoreId) (op : BitVec 4) (a : Nat) : Atom :=
  { block := BitVec.ofNat 22 a, aseq := (s.k c).aseq, tag := (s.k c).prtTag, op := op, addr := BitVec.ofNat 64 (s.le (pantryAt c a) 8)
    a := BitVec.ofNat 128 (s.le (pantryAt c a + 8) 16), b := BitVec.ofNat 128 (s.le (pantryAt c a + 24) 16), attempt := 0
    sentT := s.dev.snoop c, bad := [] }

/-- A core after it has issued an atomic. -/
def CoreSt.issued (k : CoreSt) (x : Atom) : CoreSt :=
  { k with step := false, aseq := k.aseq + 1, pc := k.pc + 4, prtTag := k.prtTag + 1, atoms := [x] }

/-- The device once an atomic of core `c` has been numbered and its instruction has retired. -/
def Dev.numbered (p : Part) (d : Dev) (c : CoreId) : Dev := (d.modCore c fun k => { k with aseq := k.aseq + 1 }).retire p c
/-- The device once core `c` holds the atomic `x`, whose attempt has taken its tag. -/
def Dev.holding (p : Part) (d : Dev) (c : CoreId) (x : Atom) : Dev :=
  ((d.numbered p c).takeTag c).2.modCore c fun k => { k with atoms := k.atoms ++ [x] }

section
variable {s : State} {p : Part} {d : Dev} {c : CoreId} {k : CoreSt}

theorem numbered_core (h : d.core c = k.take) :
    (d.numbered p c).core c = { k with step := false, aseq := k.aseq + 1, pc := k.pc + 4 } := by
  simp only [Dev.numbered, Dev.retire, Dev.retireTo, Dev.core_modCore_same, Dev.core_count, h, CoreSt.take]

theorem numbered_snoop (h : d.core c = k.take) : (d.numbered p c).snoop c = d.snoop c := by
  unfold Dev.snoop
  rw [numbered_core h, h]
  rfl

theorem holding_core (h : d.core c = k.take) (hat : k.atoms = []) (x : Atom) : (d.holding p c x).core c = k.issued x := by
  simp only [Dev.holding, Dev.takeTag, Dev.core_modCore_same, numbered_core h, CoreSt.issued, hat, List.nil_append]

theorem holding_core_ne (x : Atom) {j : CoreId} (hj : j ≠ c) : (d.holding p c x).core j = d.core j := by
  simp only [Dev.holding, Dev.numbered, Dev.takeTag, Dev.retire, Dev.retireTo, Dev.core_modCore_ne _ _ hj, Dev.core_count]

theorem holding_get (x : Atom) {r : Nat} (hr : r ≠ coreR c 0x108) : (d.holding p c x).get p r = d.get p r := by
  simp only [Dev.holding, Dev.numbered, Dev.takeTag, Dev.retire, Dev.retireTo, Dev.get_modCore, Dev.get_count_ne _ _ _ hr]

theorem holding_routes (x : Atom) : SameRoutes p d (d.holding p c x) := by
  refine ⟨fun z hz => holding_get x ?_, rfl, rfl, rfl⟩
  rintro rfl
  rw [coreR, ctlBlk_ctlAddr (by have := c.p.isLt; omega) (by decide)] at hz
  omega

/-- What PRT.ATOM makes of a block that it has read and whose address fits (R150). -/
theorem atomOf_eq {op : BitVec 4} {a : Nat} (h : d.core c = (s.k c).take) (hs : d.snoop c = s.dev.snoop c) :
    s.atomOf c op a = { block := BitVec.ofNat 22 a, aseq := (d.core c).aseq, tag := ((d.numbered p c).takeTag c).1, op := op
                        addr := BitVec.ofNat 64 (leNat ((Memory.read s.mem (pantryAt c a) 64).take 8))
                        a := BitVec.ofNat 128 (leNat (((Memory.read s.mem (pantryAt c a) 64).drop 8).take 16))
                        b := BitVec.ofNat 128 (leNat (((Memory.read s.mem (pantryAt c a) 64).drop 24).take 16)), attempt := 0
                        sentT := (d.numbered p c).snoop c } := by
  have h0 : (Memory.read s.mem (pantryAt c a) 64).take 8 = Memory.read s.mem (pantryAt c a) 8 :=
    read_drop_take s.mem (a := pantryAt c a) (i := 0) (by decide)
  have htag : ((d.numbered p c).takeTag c).1 = (s.k c).prtTag := by
    unfold Dev.takeTag; rw [numbered_core h]
  rw [h0, read_drop_take s.mem (by decide), read_drop_take s.mem (by decide), htag, numbered_snoop h, hs, h]
  simp only [leNat_read]
  rfl

end

/-- An atomic whose block carries no error is numbered and sent. -/
theorem prtAtom_sends {s : State} {c : CoreId} {ra : BitVec 6} {op : BitVec 4} {a : Nat} (ha : ((s.k c).getS ra).toNat = a)
    (h : ready s.part s.dev c [ra] [] = true) (hop : op.toNat < 6) (hle : a + 63 ≤ 0x3FFFFF) (hal : a % 64 = 0) (hat : (s.k c).atoms = [])
    (hclean : Clean s c a 64) (hinj : s.dev.injBits c.site.toNat 1 c.p.toNat = 0)
    (hadr : (s.atomOf c op a).addr.toNat % (if op = 5 then 16 else 8) = 0) :
    Answers (.prtAtom c ra op) s fun t => t.mem = applyWr s.mem [(pantryAt c (a + 57), [0])] ∧
      (t.k c) = (s.k c).issued (s.atomOf c op a) ∧ t.dev.net = (s.dev.sendAtom s.part c (s.atomOf c op a)).net ∧
      (∀ e, e ≠ c → t.k e = s.k e) ∧ (∀ r, r ≠ coreR c 0x108 → t.reg r = s.reg r) ∧ Fixed s t := by
  let d0 := s.dev.modCore c CoreSt.take
  have hcheck : addrCheck a 64 64 = none := by
    unfold addrCheck; rw [if_neg (by omega), if_neg (by omega)]
  have hnone : ¬(8 ≤ (d0.core c).atoms.length ∨
      (d0.core c).atoms.any (fun x => decide (256 ≤ ((d0.core c).aseq - x.aseq).toNat)) = true) := by
    simp [d0, Dev.core_modCore_same, CoreSt.take, hat]
  obtain ⟨e1, he1, hw⟩ := pantryWrite_clean (p := s.part) (d := d0) (c := c) (a := a + 57) (bs := [0]) (by simp) hinj fun b h1 h2 =>
    hclean b (by omega) (by simp at h2; omega)
  have hread := pantryRead_clean (p := s.part) (m := s.mem) (d := e1.numbered s.part c) (c := c) (a := a) (n := 64) fun b h1 h2 =>
    hw.mark_clean (hclean b h1 h2)
  obtain ⟨m, hm, -⟩ := hw
  have hown : e1.core c = (s.k c).take := by rw [hm]; exact Dev.core_modCore_same ..
  have hothers : ∀ j, j ≠ c → e1.core j = s.dev.core j := fun j hj => by rw [hm]; exact Dev.core_modCore_ne _ _ hj
  have hroutes : SameRoutes s.part s.dev e1 := by rw [hm]; exact ⟨fun _ _ => rfl, rfl, rfl, rfl⟩
  have hsnoop : e1.snoop c = s.dev.snoop c := by
    rw [← snoop_take s.dev c, hm]; rfl
  have hx := atomOf_eq (p := s.part) (op := op) (a := a) hown hsnoop
  let x := s.atomOf c op a
  have hway : SameRoutes s.part s.dev (e1.holding s.part c x) := hroutes.trans (holding_routes x)
  refine issueW_answers h (exec_prtAtom s c ra op) (e := (e1.holding s.part c x).sendAtom s.part c x) (ws := [(pantryAt c (a + 57), [0])]) ?_
    ⟨rfl, ?_, ?_, fun j hj => ?_, fun r hr => ?_, ⟨rfl, rfl⟩⟩
  · have h6 : ¬6 ≤ op.toNat := by omega
    have hs : ((s.dev.modCore c CoreSt.take).core c).getS ra = (s.k c).getS ra := by rw [Dev.core_modCore_same, CoreSt.getS_take]
    simp only [hs, ha, if_neg h6, hcheck]
    rw [if_neg hnone]
    simp only [d0] at he1
    simp only [he1]
    simp only [Dev.numbered] at hread
    simp only [hread]
    rw [hx] at hadr
    rw [if_neg (not_not.2 hadr)]
    simp only [x, hx]
    rfl
  · exact (sendReq_core ..).trans (holding_core hown hat x)
  · rw [Dev.sendAtom, hway.coreSrc]
    exact hway.sendReq_net (by rw [hm]; rfl) _
  · exact (sendReq_core ..).trans ((holding_core_ne x hj).trans (hothers j hj))
  · refine (sendReq_get ..).trans ((holding_get x hr).trans ?_)
    rw [hm]; rfl

/-! ### The end of an atomic (R88, R150, R399) -/

section
variable {p : Part} {d e : Dev} {c : CoreId} {x : Atom}

theorem modCore_congr {f g : CoreSt → CoreSt} (h : f (d.core c) = g (d.core c)) : d.modCore c f = d.modCore c g := by
  unfold Dev.modCore; rw [h]

/-- The runs of bytes that the end of an atomic with status OK writes into its block. -/
def blockRuns (c : CoreId) (block : Nat) (data : List Byte) : Wr :=
  [(pantryAt c (block + 40), data), (pantryAt c (block + 56), [0x80, 1])]

/-- RESULT, STATUS and DONE go into a block without ECC errors. -/
theorem writeBlock_ok {block : Nat} {data : List Byte} (hi : d.injBits c.site.toNat 1 c.p.toNat = 0) (hal : block % 64 = 0)
    (hlen : data.length = 8 ∨ data.length = 16) (hclean : ∀ b, block ≤ b → b < block + 64 → d.mark (pantryAt c b) = 0) :
    ∃ e, d.writeBlock p c block data 0x80 = (e, blockRuns c block data) ∧ (∀ k, e.core k = d.core k) ∧ e.net = d.net ∧
      ∀ z, e.get p z = d.get p z := by
  have hne : data ≠ [] := by rintro rfl; simp at hlen
  obtain ⟨e, he, hw⟩ := pantryWrite_clean (p := p) (d := d) (c := c) (a := block + 40) (bs := data) hne hi fun b h1 h2 =>
    hclean b (by omega) (by omega)
  obtain ⟨f, hf, hw'⟩ := pantryWrite_clean (p := p) (d := e) (c := c) (a := block + 56) (bs := [0x80, 1]) (by simp)
    (by obtain ⟨m, hm, -⟩ := hw; rw [hm]; exact hi) fun b h1 h2 => hw.mark_clean (hclean b (by omega) (by simp at h2; omega))
  obtain ⟨m, hm, -⟩ := hw
  obtain ⟨m', hm', -⟩ := hw'
  have hemp : data.isEmpty = false := by simpa using hne
  refine ⟨f, by simp only [Dev.writeBlock, hemp, Bool.false_eq_true, if_false, he, hf]; rfl, fun k => ?_, ?_, fun z => ?_⟩
  · rw [hm', hm]; rfl
  · rw [hm', hm]
  · rw [hm', hm]; rfl

/-- An atomic with the final status OK ends: its block takes the answer, and its core forgets it. -/
theorem endAtom_ok {data : List Byte} (hat : (d.core c).atoms = [x]) (hi : d.injBits c.site.toNat 1 c.p.toNat = 0)
    (hal : x.block.toNat % 64 = 0) (hlen : data.length = if x.op = 5 then 16 else 8)
    (hclean : ∀ b, x.block.toNat ≤ b → b < x.block.toNat + 64 → d.mark (pantryAt c b) = 0) :
    ∃ e, d.endAtom p c x stOk data = (e, blockRuns c x.block.toNat data) ∧ (e.core c).atoms = [] ∧ (∀ k, k ≠ c → e.core k = d.core k) ∧
      e.net = d.net ∧ ∀ z, e.get p z = d.get p z := by
  have hmod : (d.modCore c fun k => { k with atoms := k.atoms.filter fun y => y.aseq != x.aseq }) = d.modCore c fun k => { k with atoms := [] } :=
    modCore_congr (by simp [hat])
  have htake : data.take (if x.op = 5 then 16 else 8) = data := List.take_of_length_le hlen.le
  obtain ⟨e, he, hcore, hnet, hget⟩ := writeBlock_ok (p := p) (d := d.modCore c fun k => { k with atoms := [] }) (data := data) hi hal
    (by split at hlen <;> omega) hclean
  have hst : stOk ≠ stUncertain := by decide
  refine ⟨e, ?_, by rw [hcore, Dev.core_modCore_same], fun k hk => (hcore k).trans (Dev.core_modCore_ne _ _ hk), hnet, hget⟩
  simp only [Dev.endAtom, hmod, if_neg hst, if_true, htake]
  exact he

/-- Memory after the end of an atomic. -/
theorem blockRuns_byte (s : State) (c : CoreId) (block : Nat) (data : List Byte) (e : Dev) (b : Nat) :
    (State.mk s.part (applyWr s.mem (blockRuns c block data)) e s.pending).byte b =
      if b = pantryAt c block + 56 then 0x80 else if b = pantryAt c block + 57 then 1
      else if pantryAt c block + 40 ≤ b ∧ b < pantryAt c block + 40 + data.length then data.getD (b - (pantryAt c block + 40)) 0
      else s.byte b := by
  show Memory.get (Memory.write (Memory.write s.mem (pantryAt c (block + 40)) data) (pantryAt c (block + 56)) [0x80, 1]) b = _
  rw [Memory.get_write, Memory.get_write, pantryAt_add, pantryAt_add]
  by_cases h56 : b = pantryAt c block + 56
  · rw [if_pos h56, if_pos (by simp; omega), h56, Nat.sub_self]
    rfl
  · rw [if_neg h56]
    by_cases h57 : b = pantryAt c block + 57
    · rw [if_pos h57, if_pos (by simp; omega), h57, Nat.add_sub_add_left]
      rfl
    · rw [if_neg h57, if_neg (by simp; omega)]

/-- What stands in the block after the end of an atomic. -/
theorem blockRuns_written (s : State) (c : CoreId) (block : Nat) (data : List Byte) (e : Dev) (hlen : data.length ≤ 16) :
    let t : State := ⟨s.part, applyWr s.mem (blockRuns c block data), e, s.pending⟩
    let b := pantryAt c block
    (∀ i, i < data.length → data[i]? = some (t.byte (b + 40 + i))) ∧ t.byte (b + 56) = 0x80 ∧ t.byte (b + 57) = 1 ∧
      ∀ z, (z < b + 40 ∨ (b + 40 + data.length ≤ z ∧ z < b + 56) ∨ b + 58 ≤ z) → t.byte z = s.byte z := by
  intro t b
  have hbyte := fun z => blockRuns_byte s c block data e z
  refine ⟨fun i hi => ?_, ?_, ?_, fun z hz => ?_⟩
  · rw [hbyte, if_neg (by omega), if_neg (by omega), if_pos (by omega), Nat.add_sub_cancel_left, List.getD_eq_getElem?_getD,
      List.getElem?_eq_getElem hi, Option.getD_some]
  · rw [hbyte, if_pos rfl]
  · rw [hbyte, if_neg (by omega), if_pos rfl]
  · rw [hbyte, if_neg (by omega), if_neg (by omega), if_neg (by omega)]

/-- The first element of a list that is one of a kind. -/
theorem find?_of_only {α : Type} {l : List α} {y : α} {f : α → Bool} (hin : y ∈ l) (hf : f y = true)
    (honly : ∀ z ∈ l, f z = true → z = y) : l.find? f = some y := by
  cases h : l.find? f with
  | none => exact absurd hf (List.find?_eq_none.1 h y hin)
  | some z => rw [honly z (List.mem_of_find?_eq_some h) (List.find?_some h)]

/-- A response that is on its way reaches its requester. -/
theorem recv_eq {m : Msg} (h : m ∈ d.net) : ∃ hops mcast, d.recv m = { d with net := d.net.erase m, hops := hops, mcast := mcast } := by
  have hc : d.net.contains m = true := List.contains_iff_mem.2 h
  unfold Dev.recv
  rw [if_pos hc]
  exact ⟨_, _, rfl⟩

/-- The answer with status OK that an atomic waits for ends it. -/
theorem atomAnswer_ok {s : State} {r : Resp} (hin : Msg.resp r ∈ s.dev.net) (hat : (s.k c).atoms = [x]) (hst : r.status = stOk)
    (hi : s.dev.injBits c.site.toNat 1 c.p.toNat = 0) (hal : x.block.toNat % 64 = 0)
    (hlen : r.data.length = if x.op = 5 then 16 else 8) (hclean : Clean s c x.block.toNat 64) :
    ∃ e, (s.dev.recv (.resp r)).atomAnswer s.part c x r = (e, blockRuns c x.block.toNat r.data) ∧ (e.core c).atoms = [] ∧
      (∀ k, k ≠ c → e.core k = s.dev.core k) ∧ e.net = s.dev.net.erase (.resp r) ∧ ∀ z, e.get s.part z = s.dev.get s.part z := by
  obtain ⟨hops, mcast, hrecv⟩ := recv_eq hin
  have hfinal : atomicRetried r.status = false := by rw [hst]; rfl
  obtain ⟨e, he, hatoms, hcores, hnet, hget⟩ := endAtom_ok (p := s.part) (d := s.dev.recv (.resp r)) (x := x) (c := c) (data := r.data)
    (by rw [hrecv]; exact hat) (by rw [hrecv]; exact hi) hal hlen fun b h1 h2 => by rw [hrecv]; exact hclean b (by omega) (by omega)
  refine ⟨e, ?_, hatoms, fun k hk => (hcores k hk).trans (by rw [hrecv]; rfl), hnet.trans (by rw [hrecv]),
    fun z => (hget z).trans (by rw [hrecv]; rfl)⟩
  unfold Dev.atomAnswer
  rw [if_neg (by rw [hfinal]; decide), hst]
  exact he

end

/-- Settles O29: an atomic is sent, sent again, and ended by its answer; operands that do not fit raise their exceptions. -/
theorem porterAtomics : Obligations.PorterAtomics := by
  intro s c ra op hinj k a m addr sent
  refine ⟨fun h hop hle hal hat hclean hadr => ?_, fun h hop => ?_, fun h hop hle hal => ?_, fun x hheld hat h3 htime => ?_,
    fun x r hheld hat hdst htag hst hop hlen hblock hclean honly hin hwait => ?_⟩
  · obtain ⟨t, ht, hmem, hcore, hnet, hcores, hget, hfixed⟩ := prtAtom_sends rfl h hop hle hal hat hclean hinj hadr
    have hbyte : ∀ b, t.byte b = if b = m + 57 then 0 else s.byte b := fun b => by
      show Memory.get t.mem b = _
      rw [hmem, pantryAt_add]
      show Memory.get (Memory.write s.mem (m + 57) [0]) b = _
      rw [Memory.get_write]
      by_cases hb : b = m + 57
      · rw [if_pos hb, if_pos (by simp; omega), hb, Nat.sub_self]; rfl
      · rw [if_neg hb, if_neg (by simp; omega)]
    refine ⟨t, ht, by rw [hcore]; rfl, hnet, by rw [hcore]; rfl, by rw [hcore]; rfl, by rw [hcore]; rfl, ?_, fun b hb => ?_, hcores, hget,
      hfixed⟩
    · rw [hbyte, if_pos rfl]
    · rw [hbyte, if_neg (by omega)]
  · exact issueW_answers h (exec_prtAtom s c ra op) (ws := []) (if_pos hop) ⟨_, raiseExc_excepts s c 0x01 _ _⟩
  · have h6 : ¬6 ≤ op.toNat := by omega
    have hs : ((s.dev.modCore c CoreSt.take).core c).getS ra = (s.k c).getS ra := by rw [Dev.core_modCore_same, CoreSt.getS_take]
    have hcheck : addrCheck a 64 64 = some 0x03 := by
      unfold addrCheck; rw [if_neg (by omega), if_pos (by omega)]
    refine issueW_answers h (exec_prtAtom s c ra op) (ws := []) ?_ (raiseExc_excepts s c 0x03 (BitVec.ofNat 64 a) false)
    simp only [hs, if_neg h6]
    rw [show ((s.k c).getS ra).toNat = a from rfl, hcheck]
  · let y : Atom := { x with attempt := x.attempt + 1, sentT := s.dev.snoop c, tag := k.prtTag, oldTags := x.oldTags ++ [x.tag] }
    let d1 := (s.dev.takeTag c).2.modCore c fun k => { k with atoms := k.atoms.map fun z => if z.aseq == x.aseq then y else z }
    have hcore : (d1.core c).atoms = [y] ∧ (d1.core c).prtTag = k.prtTag + 1 := by
      have hk : (s.dev.core c).atoms = [x] := hat
      simp [d1, Dev.takeTag, Dev.core_modCore_same, hk, k]
    have hroutes : SameRoutes s.part s.dev d1 := SameRoutes.of_cores s.dev s.part _
    have hfind : (s.dev.core c).atoms.find? (fun z => z.aseq == x.aseq) = some x := by
      rw [show (s.dev.core c).atoms = [x] from hat]; simp
    have hreached : x.attempt ≠ 3 ∧ reached (s.dev.snoop c) (x.sentT + 12000) = true := ⟨h3, by simpa [reached] using htime⟩
    refine upd_answers (exec_atomicRetry s c x.aseq) (e := d1.sendAtom s.part c y) ?_
      ⟨?_, ?_, ?_, ⟨fun _ => rfl, fun e he => ?_, rfl, rfl⟩, fun r => ?_⟩
    · simp only [hheld, Bool.false_eq_true, if_false, hfind]
      rw [if_pos hreached]
      rfl
    · exact (congrArg CoreSt.atoms (sendReq_core ..)).trans hcore.1
    · exact hroutes.sendReq_net rfl _
    · exact (congrArg CoreSt.prtTag (sendReq_core ..)).trans hcore.2
    · refine (sendReq_core ..).trans ?_
      simp only [d1, Dev.takeTag, Dev.core_modCore_ne _ _ he]
    · exact sendReq_get ..
  · have hfind : (s.dev.core c).atoms.find? (fun z => z.tags.contains x.tag) = some x := by
      rw [show (s.dev.core c).atoms = [x] from hat]; simp [Atom.tags]
    have hlen' : r.data.length = if x.op = 5 then 16 else 8 := by rw [if_pos hop]; exact hlen
    obtain ⟨e, he, hatoms, hcores, hnet', hget⟩ := atomAnswer_ok hin hat hst hinj hblock hlen' hclean
    obtain ⟨hdata, h56, h57, hkept⟩ := blockRuns_written s c x.block.toNat r.data e (by omega)
    refine updW_answers (exec_atomicResult s c x.tag) (ws := blockRuns c x.block.toNat r.data) (e := e) ?_
      ⟨hatoms, fun i hi => hdata i (by omega), h56, h57, fun z hz => hkept z (by omega), hnet', hcores, hget, ⟨rfl, rfl⟩⟩
    have hgo : (s.dev.edgesHeld c || s.dev.respWaits r) = false := by rw [hheld, hwait]; rfl
    rw [hfind, find?_of_only hin (by simp [hdst, htag]) ?_]
    · simp only [hgo, Bool.false_eq_true, if_false]
      exact he
    · intro y hy hf
      cases y with
      | resp z =>
        simp only [Bool.and_eq_true, beq_iff_eq] at hf
        exact honly _ hy ⟨z, rfl, hf.1.trans hdst.symm, hf.2.trans htag.symm⟩
      | _ => cases hf

end Sys2Proof.Machine
end

-- Responses to a core (R79, R398, R413)
section

namespace Sys2Proof.Machine

section
variable {p : Part} {d : Dev} {c : CoreId} {s : State} {r : Resp} {i : Instr}

theorem srcSite_coreSrc (d : Dev) (c : CoreId) : (srcSite (d.coreSrc c)).toNat = c.site.toNat := by
  have := c.site.isLt
  rw [Dev.coreSrc, srcSite_mkSrc, BitVec.toNat_setWidth, Nat.mod_eq_of_lt (by omega)]
theorem srcCore_coreSrc (d : Dev) (c : CoreId) : srcCore (d.coreSrc c) = c := by
  have hs : (srcSite (d.coreSrc c)).extractLsb' 0 4 = c.site := by
    rw [← BitVec.toNat_inj, BitVec.extractLsb'_toNat, srcSite_coreSrc]
    have := c.site.isLt
    omega
  unfold srcCore
  rw [hs, Dev.coreSrc, srcUnit_mkSrc]
theorem srcNode_coreSrc (d : Dev) (c : CoreId) : srcNode (d.coreSrc c) = d.node := srcNode_mkSrc ..
theorem isW_coreSrc (d : Dev) (c : CoreId) : isW (srcSite (d.coreSrc c)).toNat = true := by
  rw [srcSite_coreSrc]
  exact decide_eq_true c.site.isLt

/-- Whichever response carries it, an answer reaches a core the same way (log entry 18). -/
theorem exec_response (hi : i = .targetAck r ∨ i = .rdata r ∨ i = .rstat r) (hdst : r.dst = s.dev.coreSrc c) :
    exec i s = s.updW fun p _ d => d.takeResponse p r := by
  have hw : isW (srcSite r.dst).toNat = true := by rw [hdst]; exact isW_coreSrc s.dev c
  obtain rfl | rfl | rfl := hi
  · rw [exec_targetAck, execTargetAck]
    simp only [hw, if_true]
  · rfl
  · rfl

/-- An answer waits on the mesh, and while the core's clock edges are withheld. -/
theorem takeResponse_waits (hdst : r.dst = d.coreSrc c) (h : (d.respWaits r || d.edgesHeld c) = true) : d.takeResponse p r = (d, []) := by
  unfold Dev.takeResponse
  by_cases hw : d.respWaits r = true
  · rw [if_pos (.inr (.inr hw))]
  · have hheld : d.edgesHeld c = true := by simpa [hw] using h
    have hsite : isW (srcSite r.dst).toNat = true := by rw [hdst]; exact isW_coreSrc d c
    have hcore : d.edgesHeld (srcCore r.dst) = true := by rw [hdst, srcCore_coreSrc]; exact hheld
    dsimp only
    rw [if_pos hsite, if_pos hcore, ite_self]

/-- Where nothing waits, an answer reaches the porter of its core. -/
theorem takeResponse_arrives (hdst : r.dst = d.coreSrc c) (hdead : d.dead = false) (h : (d.respWaits r || d.edgesHeld c) = false) :
    d.takeResponse p r = (d.recv (.resp r)).coreResponse p r := by
  obtain ⟨hw, hheld⟩ := Bool.or_eq_false_iff.1 h
  have hsite : isW (srcSite r.dst).toNat = true := by rw [hdst]; exact isW_coreSrc d c
  have hcore : ¬d.edgesHeld (srcCore r.dst) = true := by rw [hdst, srcCore_coreSrc, hheld]; decide
  have hno : ¬(d.dead = true ∨ srcNode r.dst ≠ d.node ∨ d.respWaits r = true) := by
    rw [hdst, srcNode_coreSrc, hdead, hw]; simp
  unfold Dev.takeResponse
  rw [if_neg hno]
  dsimp only
  rw [if_pos hsite, if_neg hcore]

/-- What an answer that reaches a core ends: the packet of its tag. -/
theorem coreResponse_packet {q : Nat} {x : Desc} {y : PPkt} (hc : srcCore r.dst = c)
    (hopen : ¬(!p.has c || (d.core c).st == .fenced) = true) (hp : (d.core c).pktOf r.tag = some (q, x, y)) :
    d.coreResponse p r = d.pktAnswer p c q x y r := by
  simp only [Dev.coreResponse, hc, if_neg hopen, hp]

/-- What an answer that reaches a core ends: the atomic of its tag. -/
theorem coreResponse_atom {x : Atom} (hc : srcCore r.dst = c) (hopen : ¬(!p.has c || (d.core c).st == .fenced) = true)
    (hp : (d.core c).pktOf r.tag = none) (hf : (d.core c).atoms.find? (fun x => x.tags.contains r.tag) = some x) :
    d.coreResponse p r = d.atomAnswer p c x r := by
  simp only [Dev.coreResponse, hc, if_neg hopen, hp, hf]

/-- An answer to nothing that its core has outstanding is discarded. -/
theorem coreResponse_none (hc : srcCore r.dst = c) (hopen : ¬(!p.has c || (d.core c).st == .fenced) = true)
    (hp : (d.core c).pktOf r.tag = none) (hf : (d.core c).atoms.find? (fun x => x.tags.contains r.tag) = none) :
    d.coreResponse p r = (d, []) := by
  simp only [Dev.coreResponse, hc, if_neg hopen, hp, hf]

/-- An answer that is on its way is on it no longer once it has been taken; no core and no register has changed. -/
theorem recv_keeps {m : Msg} (h : m ∈ d.net) : (d.recv m).net = d.net.erase m ∧ (∀ k, (d.recv m).core k = d.core k) ∧
    (∀ a, (d.recv m).get p a = d.get p a) ∧ (d.recv m).now = d.now ∧ (d.recv m).own = d.own := by
  obtain ⟨hops, mcast, hrecv⟩ := recv_eq h
  rw [hrecv]
  exact ⟨rfl, fun _ => rfl, fun _ => rfl, rfl, rfl⟩

/-! ### The answer to a WRITE packet (R79) -/

/-- The descriptor whose last packet is answered OK ends. -/
theorem pktAnswer_last {q : Nat} {x : Desc} {y : PPkt} (hdescs : d.descs c q = [x]) (hpkts : x.pkts = [y]) (hkind : y.kind = .wr)
    (hop : x.op = 2) (hphase : x.phase = .waitAcks) (hstatus : x.status = 0) (hcpl : x.cpl = false) (hbuf : x.buf = [])
    (hiss : x.total ≤ x.issued) (hok : r.status = stOk) :
    ∃ e, d.pktAnswer p c q x y r = (e, []) ∧ QueueIs d e c q [] ∧ e.net = d.net ∧
      ∀ a, e.get p a = if a = prtR c 0x10 then countUp (d.get p (prtR c 0x10)) 1
        else if a = prtR c 0x18 then countUp (d.get p (prtR c 0x18)) (linesIn (x.dstAt y.pos).toNat y.size) else d.get p a := by
  let x' : Desc := { x with pkts := [] }
  let d1 := d.modDesc c q x.idx fun z => { z with pkts := z.pkts.filter fun w => w.tag != y.tag }
  have hq1 : QueueIs d d1 c q [x'] := by
    have h := modDesc_queueIs hdescs fun z => { z with pkts := z.pkts.filter fun w => w.tag != y.tag }
    have hx : ({ x with pkts := x.pkts.filter fun w => w.tag != y.tag } : Desc) = x' := by simp [x', hpkts]
    rw [← hx]
    exact h
  let d2 := d1.count p (prtR c 0x18) (linesIn (x.dstAt y.pos).toNat y.size)
  have hq2 : QueueIs d d2 c q [x'] := hq1.of_cores fun _ => rfl
  obtain ⟨e, he, hq, hrest, hget⟩ := endDesc_quiet (p := p) (d := d2) (x := x') hq2.queue rfl hstatus hcpl
  have hsettle : d2.settle p c q x.idx = d2.endDesc p c q x' := by
    have hf : d2.findDesc c q x.idx = some x' := by
      unfold Dev.findDesc; rw [hq2.queue]; simp [x']
    have hall : x'.allIssued = true := by
      have h3 : x'.op ≠ 3 := by show x.op ≠ 3; omega
      have ht : x'.total ≤ x'.issued := hiss
      have hb : x'.buf = [] := hbuf
      simp [Desc.allIssued, h3, ht, hb]
    have hph : ¬(x'.phase = .done ∨ x'.phase = .waitLedger) := by
      show ¬(x.phase = .done ∨ x.phase = .waitLedger)
      rw [hphase]; simp
    have hend : x'.allIssued = true ∧ x'.pkts.isEmpty = true := ⟨hall, rfl⟩
    simp only [Dev.settle, hf, if_neg hph, if_pos hend]
  have hne : prtR c 0x10 ≠ prtR c 0x18 := mt prtR_inj.1 (by decide)
  refine ⟨e, ?_, hq2.trans hq, (congrArg Dev.net hrest :), fun a => ?_⟩
  · unfold Dev.pktAnswer
    simp only [hkind, hok, if_true]
    rw [show (d.modDesc c q x.idx fun y_1 => { y_1 with pkts := y_1.pkts.filter fun z => z.tag != y.tag }).count p (prtR c 0x18)
      (linesIn (x.dstAt y.pos).toNat y.size) = d2 from rfl, hsettle, he]
    rfl
  · rw [hget]
    have h10 : d2.get p (prtR c 0x10) = d.get p (prtR c 0x10) := (Dev.get_count_ne _ _ _ hne).trans (modDesc_get _ _ _)
    rw [h10]
    by_cases ha : a = prtR c 0x10
    · rw [if_pos ha, if_pos ha]
    · rw [if_neg ha, if_neg ha]
      by_cases h18 : a = prtR c 0x18
      · rw [if_pos h18, h18, Dev.get_count_same, modDesc_get]
      · rw [if_neg h18, Dev.get_count_ne _ _ _ h18, modDesc_get]

end

/-- Settles O39: the answer that waits changes nothing; one that arrives ends the FILL or the atomic it answers, is kept with its
attempt, or is discarded. -/
theorem responses : Obligations.Responses := by
  intro s c r i hdead hhas hst hdst hin hi waits
  have hexec := exec_response hi hdst
  refine ⟨fun hw => ?_, fun hw => ?_⟩
  · rw [hexec, State.updW, takeResponse_waits hdst hw]
    rfl
  intro net
  obtain ⟨hnet, hcores, hget, hnow, hown⟩ := recv_keeps (p := s.part) hin
  have harrives := takeResponse_arrives (p := s.part) hdst hdead hw
  have hk : (s.dev.recv (.resp r)).core c = s.k c := hcores c
  have hopen : ¬(!s.part.has c || ((s.dev.recv (.resp r)).core c).st == .fenced) = true := by
    rw [hhas, hk]; simpa using hst
  have hcore : srcCore r.dst = c := by rw [hdst, srcCore_coreSrc]
  have hatom : ∀ x, (s.k c).pktOf r.tag = none → (s.k c).atoms.find? (fun x => x.tags.contains r.tag) = some x →
      (s.dev.recv (.resp r)).coreResponse s.part r = (s.dev.recv (.resp r)).atomAnswer s.part c x r := fun x hp hf =>
    coreResponse_atom hcore hopen (by rw [hk]; exact hp) (by rw [hk]; exact hf)
  have hfind : ∀ x : Atom, (s.k c).atoms = [x] → r.tag ∈ x.tags → (s.k c).atoms.find? (fun x => x.tags.contains r.tag) = some x :=
    fun x hat htag => by rw [hat]; simp [htag]
  refine ⟨fun q x y hpkt hdescs hpkts hkind hop hphase _ hstatus hcpl hbuf hiss hok => ?_, fun hpkt x hat htag => ⟨?_, ?_⟩,
    fun hpkt hno => ?_⟩
  · have hd : ∀ n, (s.dev.recv (.resp r)).descs c n = s.dev.descs c n := fun n => by unfold Dev.descs; rw [hcores]
    obtain ⟨e, he, hq, hnet', hregs⟩ := pktAnswer_last (p := s.part) ((hd q).trans hdescs) hpkts hkind hop hphase hstatus hcpl hbuf
      hiss hok
    have hcr := (coreResponse_packet hcore hopen (by rw [hk]; exact hpkt)).trans he
    have hne : prtR c 0x18 ≠ prtR c 0x10 := mt prtR_inj.1 (by decide)
    refine updW_answers hexec (harrives.trans hcr) ⟨hnet'.trans hnet, hq.queue, fun n hn => (hq.others n hn).trans (hd n), ?_, ?_, fun a ha => ?_,
      ⟨fun _ => rfl, fun k hk => (hq.cores k hk).trans (hcores k), rfl, rfl⟩⟩
    · exact (hregs _).trans (by rw [if_pos rfl, hget])
    · exact (hregs _).trans (by rw [if_neg hne, if_pos rfl, hget])
    · simp only [List.mem_cons, List.not_mem_nil, or_false, not_or] at ha
      exact (hregs a).trans (by rw [if_neg ha.1, if_neg ha.2, hget])
  · intro hok hop hlen hblock hclean hinj
    have hlen' : r.data.length = if x.op = 5 then 16 else 8 := by rw [if_neg hop]; exact hlen
    obtain ⟨e, he, hatoms, hothers, hnet', hregs⟩ := atomAnswer_ok hin hat hok hinj hblock hlen' hclean
    obtain ⟨hdata, h56, h57, hkept⟩ := blockRuns_written s c x.block.toNat r.data e (by omega)
    have hcr := hatom x hpkt (hfind x hat htag)
    exact updW_answers hexec (harrives.trans (hcr.trans he)) ⟨hnet', hatoms, fun j hj => hdata j (by omega), h56, h57,
      fun z hz => hkept z (by omega), hothers, hregs, ⟨rfl, rfl⟩⟩
  · intro kept hretried hfew
    have hre : atomicRetried r.status = true := by
      simpa [atomicRetried, or_assoc] using hretried
    have hcr := hatom x hpkt (hfind x hat htag)
    have hlt : ¬4 ≤ kept.ended := by omega
    let e := (s.dev.recv (.resp r)).modCore c fun k => { k with atoms := k.atoms.map fun y => if y.aseq == x.aseq then kept else y }
    have he : (s.dev.recv (.resp r)).atomAnswer s.part c x r = (e, []) := by
      unfold Dev.atomAnswer
      rw [if_pos hre]
      exact if_neg hlt
    refine updW_answers hexec (harrives.trans (hcr.trans he)) ⟨hnet, ?_, hget, ⟨fun _ => rfl, fun k hk => ?_, rfl, rfl⟩⟩
    · have hk' : (s.dev.recv (.resp r)).core c = s.k c := hk
      show (e.core c).atoms = [kept]
      simp only [e, Dev.core_modCore_same, hk', hat]
      simp
    · exact (Dev.core_modCore_ne _ _ hk).trans (hcores k)
  · have hcr := coreResponse_none (p := s.part) hcore hopen (by rw [hk]; exact hpkt) (by
      rw [hk]; exact List.find?_eq_none.2 fun x hx => by simpa using hno x hx)
    exact updW_answers hexec (harrives.trans hcr) ⟨by rw [show net = _ from hnet.symm], fun _ => rfl, hcores, rfl, rfl⟩

end Sys2Proof.Machine
end

-- Scalar arithmetic, logic and shifts (R131 to R133)
section

namespace Sys2Proof.Machine

/-! ### Instructions with a scalar result -/

section
variable {s : State} {c : CoreId} {rd rs1 rs2 : BitVec 6} {i : Instr} {r : W32}

theorem opRR_answers {f : W32 → W32 → W32} (h : ready s.part s.dev c [rd, rs1, rs2] [] = true)
    (he : exec i s = opRR c rd rs1 rs2 f s) (hr : f ((s.k c).getS rs1) ((s.k c).getS rs2) = r) :
    Answers i s fun t => Retires s t c ((s.k c).setS rd r) := by
  refine issue_answers h he ?_
  simp only [Dev.core_modCore_same, CoreSt.getS_take]
  rw [← hr]
  exact retiresS s c rd _

theorem opR_answers {f : W32 → W32} (h : ready s.part s.dev c [rd, rs1] [] = true) (he : exec i s = opR c rd rs1 f s)
    (hr : f ((s.k c).getS rs1) = r) : Answers i s fun t => Retires s t c ((s.k c).setS rd r) := by
  refine issue_answers h he ?_
  simp only [Dev.core_modCore_same, CoreSt.getS_take]
  rw [← hr]
  exact retiresS s c rd _

end

/-! ### The results as values (R131) -/

theorem add_word (x y : W32) : x + y = BitVec.ofNat 32 (x.toNat + y.toNat) := BitVec.add_eq x y

theorem mul_word (x y : W32) : x * y = BitVec.ofInt 32 (x.toInt * y.toInt) := by
  rw [BitVec.ofInt_mul, BitVec.ofInt_toInt, BitVec.ofInt_toInt]

theorem signExtend_word {n m : Nat} (x : BitVec n) : x.signExtend m = BitVec.ofInt m x.toInt := rfl

theorem add_signExtend {n m : Nat} (x : BitVec m) (y : BitVec n) :
    x + y.signExtend m = BitVec.ofInt m (x.toInt + y.toInt) := by
  rw [signExtend_word, BitVec.ofInt_add, BitVec.ofInt_toInt]

/-- The upper half of 64 bits of an integer. -/
theorem extractHigh_ofInt (z : Int) : (BitVec.ofInt 64 z).extractLsb' 32 32 = BitVec.ofInt 32 (z / 2 ^ 32) := by
  refine BitVec.eq_of_toNat_eq ?_
  rw [BitVec.extractLsb'_toNat, BitVec.toNat_ofInt, BitVec.toNat_ofInt, Nat.shiftRight_eq_div_pow]
  omega

theorem mulhS_word (x y : W32) : mulhS x y = BitVec.ofInt 32 (x.toInt * y.toInt / 2 ^ 32) := by
  rw [mulhS, signExtend_word, signExtend_word, ← BitVec.ofInt_mul, extractHigh_ofInt]

theorem mulhU_word (x y : W32) : mulhU x y = BitVec.ofNat 32 (x.toNat * y.toNat / 2 ^ 32) := by
  refine BitVec.eq_of_toNat_eq ?_
  have hx := x.isLt
  have hy := y.isLt
  rw [mulhU, BitVec.extractLsb'_toNat, BitVec.toNat_mul, BitVec.toNat_ofNat, Nat.shiftRight_eq_div_pow]
  simp only [BitVec.truncate_eq_setWidth, BitVec.toNat_setWidth]
  rw [Nat.mod_eq_of_lt (a := x.toNat) (by omega), Nat.mod_eq_of_lt (a := y.toNat) (by omega)]
  omega

theorem bool32_decide (q : Prop) [Decidable q] : bool32 (decide q) = if q then 1 else 0 := by
  simp only [bool32, decide_eq_true_eq]

theorem slt_word (x y : W32) : bool32 (x.slt y) = if x.toInt < y.toInt then 1 else 0 := by
  rw [BitVec.slt_eq_decide, bool32_decide]

theorem ult_word (x y : W32) : bool32 (x.ult y) = if x.toNat < y.toNat then 1 else 0 := by
  rw [BitVec.ult_eq_decide, bool32_decide]

theorem minu_word (x y : W32) : (if x.ult y then x else y) = BitVec.ofNat 32 (min x.toNat y.toNat) := by
  rw [BitVec.ult_eq_decide]
  by_cases h : x.toNat < y.toNat
  · simp [h, Nat.min_eq_left (Nat.le_of_lt h)]
  · simp [h, Nat.min_eq_right (Nat.le_of_not_lt h)]

theorem maxu_word (x y : W32) : (if x.ult y then y else x) = BitVec.ofNat 32 (max x.toNat y.toNat) := by
  rw [BitVec.ult_eq_decide]
  by_cases h : x.toNat < y.toNat
  · simp [h, Nat.max_eq_right (Nat.le_of_lt h)]
  · simp [h, Nat.max_eq_left (Nat.le_of_not_lt h)]

theorem getLsbD_eq_div (x : W32) (n : Nat) : x.getLsbD n = (x.toNat / 2 ^ n % 2 == 1) := by
  rw [BitVec.getLsbD, Nat.testBit_eq_decide_div_mod_eq]
  rfl

/-- The zeros above the highest set bit, counted from bit n down. -/
theorem clzFrom_eq (x : W32) (n : Nat) (h : x.toNat < 2 ^ n) : clzFrom x n = if x = 0 then n else n - 1 - Nat.log2 x.toNat := by
  induction n with
  | zero => simp [clzFrom]
  | succ n ih =>
    rw [clzFrom, getLsbD_eq_div]
    by_cases hn : x.toNat < 2 ^ n
    · rw [Nat.div_eq_of_lt hn, if_neg (by decide), ih hn]
      by_cases hx : x = 0
      · rw [if_pos hx, if_pos hx]
      · have h0 : x.toNat ≠ 0 := fun e => hx (BitVec.eq_of_toNat_eq e)
        have hl : Nat.log2 x.toNat < n := (Nat.log2_lt h0).2 hn
        rw [if_neg hx, if_neg hx]
        omega
    · have hq : x.toNat / 2 ^ n = 1 := Nat.div_eq_of_lt_le (by omega) (by rw [Nat.pow_succ] at h; omega)
      have h0 : x.toNat ≠ 0 := by have := Nat.two_pow_pos n; omega
      have hl : Nat.log2 x.toNat = n := (Nat.log2_eq_iff h0).2 ⟨by omega, h⟩
      rw [hq, if_pos (by decide), if_neg fun e => h0 (congrArg BitVec.toNat e), hl]
      omega

theorem clz32_word (x : W32) : clz32 x = if x = 0 then 32 else BitVec.ofNat 32 (31 - Nat.log2 x.toNat) := by
  rw [clz32, clzFrom_eq x 32 x.isLt]
  split <;> rfl

theorem popc32_word (x : W32) :
    popc32 x = BitVec.ofNat 32 ((List.range 32).filter fun i => x.toNat / 2 ^ i % 2 == 1).length := by
  have hb : x.getLsbD = fun i => x.toNat / 2 ^ i % 2 == 1 := funext (getLsbD_eq_div x)
  rw [popc32, popCount, foldl_count, Nat.zero_add, hb]

/-! ### Immediates (R132, R133) -/

theorem zeroExtend_word (y : BitVec 12) : y.zeroExtend 32 = BitVec.ofNat 32 y.toNat := (BitVec.ofNat_toNat ..).symm

/-- A shift amount of five bits is its own low five bits. -/
theorem sh5_setWidth (y : BitVec 5) : sh5 (y.setWidth 32) = y.toNat := by
  have := y.isLt
  rw [sh5, BitVec.toNat_setWidth]
  omega

theorem shiftLeft_imm (x : W32) (y : BitVec 5) : x <<< y.toNat = BitVec.ofNat 32 (x.toNat * 2 ^ y.toNat) := by
  have h := shiftLeft_word x (y.setWidth 32)
  rwa [sh5_setWidth, show (y.setWidth 32).toNat % 32 = y.toNat from sh5_setWidth y] at h

theorem shiftRight_imm (x : W32) (y : BitVec 5) : x >>> y.toNat = BitVec.ofNat 32 (x.toNat / 2 ^ y.toNat) := by
  have h := shiftRight_word x (y.setWidth 32)
  rwa [sh5_setWidth, show (y.setWidth 32).toNat % 32 = y.toNat from sh5_setWidth y] at h

theorem sshiftRight_imm (x : W32) (y : BitVec 5) : x.sshiftRight y.toNat = BitVec.ofInt 32 (x.toInt / 2 ^ y.toNat) := by
  have h := sshiftRight_word x (y.setWidth 32)
  rwa [sh5_setWidth, show (y.setWidth 32).toNat % 32 = y.toNat from sh5_setWidth y] at h

/-- Two words side by side, as a sum. -/
theorem toNat_append_eq {n m : Nat} (x : BitVec n) (y : BitVec m) : (x ++ y).toNat = x.toNat * 2 ^ m + y.toNat := by
  rw [BitVec.toNat_append, ← Nat.shiftLeft_add_eq_or_of_lt y.isLt, Nat.shiftLeft_eq]

theorem lui_word (y : BitVec 22) : y ++ (0 : BitVec 10) = BitVec.ofNat 32 (y.toNat * 2 ^ 10) := by
  have := y.isLt
  refine BitVec.eq_of_toNat_eq ?_
  rw [toNat_append_eq, BitVec.toNat_ofNat, Nat.mod_eq_of_lt (by omega)]
  exact Nat.add_zero _

/-- Settles O1: each instruction is `opRR` or `opR` at its function, whose value is the rule's. -/
theorem scalarArithmetic : Obligations.ScalarArithmetic := by
  constructor
  · intro s c rd rs1 rs2 h x y gives
    have h1 : ready s.part s.dev c [rd, rs1] [] = true := ready_mono h (by simp) (by simp)
    refine ⟨?_, ?_, ?_, ?_, ?_, ?_, ?_, ?_, ?_, ?_, ?_, ?_, ?_, ?_, ?_, ?_, ?_, ?_, ?_⟩
    · exact opRR_answers h (exec_add ..) (add_word x y)
    · exact opRR_answers h (exec_sub ..) (sub_word x y)
    · exact opRR_answers h (exec_and ..) rfl
    · exact opRR_answers h (exec_or ..) rfl
    · exact opRR_answers h (exec_xor ..) rfl
    · exact opRR_answers h (exec_sll ..) (shiftLeft_word x y)
    · exact opRR_answers h (exec_srl ..) (shiftRight_word x y)
    · exact opRR_answers h (exec_sra ..) (sshiftRight_word x y)
    · exact opRR_answers h (exec_slt ..) (slt_word x y)
    · exact opRR_answers h (exec_sltu ..) (ult_word x y)
    · exact opRR_answers h (exec_mul ..) (mul_word x y)
    · exact opRR_answers h (exec_mulh ..) (mulhS_word x y)
    · exact opRR_answers h (exec_mulhu ..) (mulhU_word x y)
    · exact opRR_answers h (exec_min ..) (ofInt_toInt_min x y)
    · exact opRR_answers h (exec_max ..) (ofInt_toInt_max x y)
    · exact opRR_answers h (exec_minu ..) (minu_word x y)
    · exact opRR_answers h (exec_maxu ..) (maxu_word x y)
    · exact opR_answers h1 (exec_clz ..) (clz32_word x)
    · exact opR_answers h1 (exec_popc ..) (popc32_word x)
  · intro s c rd rs1 imm sh hi h x gives
    have h0 : ready s.part s.dev c [rd] [] = true := ready_mono h (by simp) (by simp)
    refine ⟨?_, ?_, ?_, ?_, ?_, ?_, ?_, ?_, ?_, ?_⟩
    · exact opR_answers h (exec_addi ..) (add_signExtend x imm)
    · exact opR_answers h (exec_andi ..) (congrArg (x &&& ·) (zeroExtend_word imm))
    · exact opR_answers h (exec_ori ..) (congrArg (x ||| ·) (zeroExtend_word imm))
    · exact opR_answers h (exec_xori ..) (congrArg (x ^^^ ·) (zeroExtend_word imm))
    · exact opR_answers h (exec_slli ..) (shiftLeft_imm x sh)
    · exact opR_answers h (exec_srli ..) (shiftRight_imm x sh)
    · exact opR_answers h (exec_srai ..) (sshiftRight_imm x sh)
    · exact opR_answers h (exec_slti ..) (slt_word x _ |>.trans (by rw [BitVec.toInt_signExtend_of_le (by decide)]))
    · exact opR_answers h (exec_sltiu ..) (ult_word x _)
    · refine issue_answers h0 (exec_lui ..) ?_
      rw [lui_word]
      exact retiresS s c rd _

end Sys2Proof.Machine
end

-- Branches and jumps (R134, R135)
section

namespace Sys2Proof.Machine

/-! ### Where they continue -/

/-- A branch's offset in bytes. -/
theorem branchOffset_eq (off : BitVec 12) : (off ++ (0 : BitVec 2)).signExtend 22 = BitVec.ofInt 22 (off.toInt * 4) := by
  have hn : (off ++ (0 : BitVec 2)).toNat = off.toNat * 4 := toNat_append_eq ..
  have hi : (off ++ (0 : BitVec 2)).toInt = off.toInt * 4 := by
    have := off.isLt
    rw [BitVec.toInt_eq_toNat_cond, BitVec.toInt_eq_toNat_cond, hn]
    split <;> split <;> omega
  rw [BitVec.signExtend, hi]

theorem branchTarget_eq (pc : BitVec 22) (off : BitVec 12) :
    pc + (off ++ (0 : BitVec 2)).signExtend 22 = BitVec.ofInt 22 (pc.toNat + off.toInt * 4) := by
  rw [branchOffset_eq, BitVec.ofInt_add, BitVec.ofInt_natCast, BitVec.ofNat_toNat, BitVec.setWidth_eq]

theorem jalTarget_eq (imm : BitVec 20) : imm ++ (0 : BitVec 2) = BitVec.ofNat 22 (imm.toNat * 4) := by
  have := imm.isLt
  refine BitVec.eq_of_toNat_eq ?_
  rw [toNat_append_eq, BitVec.toNat_ofNat, Nat.mod_eq_of_lt (by omega)]
  rfl

theorem jalrTarget_eq (k : CoreSt) (rs : BitVec 6) (imm : BitVec 14) :
    jalrTarget k rs imm = BitVec.ofInt 22 ((k.getS rs).toInt + imm.toInt) := by
  have h : k.getS rs + imm.signExtend 32 = BitVec.ofInt 32 ((k.getS rs).toInt + imm.toInt) := add_signExtend _ _
  rw [jalrTarget, h]
  refine BitVec.eq_of_toNat_eq ?_
  rw [BitVec.extractLsb'_toNat, BitVec.toNat_ofInt, BitVec.toNat_ofInt, Nat.shiftRight_zero]
  omega

/-- The address of the next instruction, as a register holds it. -/
theorem linkWord_eq (pc : BitVec 22) : (pc + 4).zeroExtend 32 = BitVec.ofNat 32 ((pc.toNat + 4) % 2 ^ 22) := by
  refine BitVec.eq_of_toNat_eq ?_
  simp [BitVec.toNat_add]

section
variable {s : State} {c : CoreId} {i : Instr}

theorem branch_answers {rs1 rs2 : BitVec 6} {off : BitVec 12} {taken : W32 → W32 → Bool} {b : Prop}
    (h : ready s.part s.dev c [rs1, rs2] [] = true) (he : exec i s = branch c rs1 rs2 off taken s)
    (hb : taken ((s.k c).getS rs1) ((s.k c).getS rs2) = true ↔ b) : Answers i s fun t =>
      (b → RetiresTo s t c (BitVec.ofInt 22 ((s.k c).pc.toNat + off.toInt * 4)) (s.k c)) ∧ (¬b → Retires s t c (s.k c)) := by
  refine issue_answers h he ?_
  simp only [Dev.core_modCore_same, CoreSt.getS_take, CoreSt.take_pc, branchTarget_eq]
  refine ⟨fun ht => ?_, fun hn => ?_⟩
  · rw [if_pos (hb.2 ht)]; exact retiresTo_plain s c _
  · rw [if_neg (mt hb.1 hn)]; exact retires_plain s c

/-- Retirement of a jump, which writes the address of the next instruction. -/
theorem link_retiresTo (s : State) (c : CoreId) (rd : BitVec 6) (pc : BitVec 22) :
    RetiresTo s (State.mk s.part s.mem (((s.dev.modCore c CoreSt.take).modCore c fun k =>
      k.setS rd ((k.pc + 4).zeroExtend 32)).retireTo s.part c pc) s.pending) c pc
      ((s.k c).setS rd (BitVec.ofNat 32 (((s.k c).pc.toNat + 4) % 2 ^ 22))) :=
  retiresTo_of s c _ pc _ (by simp only [CoreSt.setS_take, CoreSt.take_pc, linkWord_eq]; rfl)

end

/-! ### Their words (R127 to R129) -/

theorem wb_eq_of_toNat {w : W32} {lo n : Nat} {r : BitVec n} (h : w.toNat / 2 ^ lo % 2 ^ n = r.toNat) : wb w lo n = r :=
  BitVec.eq_of_toNat_eq (by rw [wb, BitVec.extractLsb'_toNat, Nat.shiftRight_eq_div_pow, h])

section
variable (c : CoreId) {w : W32}

theorem illegalWord_branch (h : w.toNat / 2 ^ 28 = 4) (hcond : 5 < w.toNat / 2 ^ 24 % 16) : illegalWord w = true := by
  rw [illegalWord, major_eq, h]
  simp only [Bool.not_eq_true', decide_eq_false_iff_not]
  exact Nat.not_le.2 hcond

theorem illegalWord_jump (h : w.toNat / 2 ^ 28 = 5) (hfunc : 1 < w.toNat / 2 ^ 20 % 4) : illegalWord w = true := by
  rw [illegalWord, major_eq, h]
  simp only [Bool.not_eq_true', decide_eq_false_iff_not]
  exact Nat.not_le.2 hfunc

theorem decodeCore_major4 (h : wf w 28 4 = 4) (hcond : wf w 24 4 ≤ 5) : decodeCore c w = decBranch c w := by
  simp [decodeCore, illegalWord, h, hcond]

theorem decodeCore_major5 (h : wf w 28 4 = 5) (hfunc : wf w 20 2 ≤ 1) : decodeCore c w = decJump c w := by
  simp [decodeCore, illegalWord, h, hfunc]

end

/-- The fields of a branch's word. -/
theorem branchWord_toNat (cond : BitVec 4) (rs1 rs2 : BitVec 6) (off : BitVec 12) :
    ((4 : BitVec 4) ++ cond ++ rs1 ++ rs2 ++ off).toNat =
      4 * 2 ^ 28 + cond.toNat * 2 ^ 24 + rs1.toNat * 2 ^ 18 + rs2.toNat * 2 ^ 12 + off.toNat := by
  have hfour : (4 : BitVec 4).toNat = 4 := rfl
  simp only [toNat_append_eq, hfour]
  omega

/-- The branch that a condition code names (R134). -/
theorem decodeCore_branch {c : CoreId} {rs1 rs2 : BitVec 6} {off : BitVec 12} {i : Instr} (cond : BitVec 4) (h : cond.toNat ≤ 5)
    (hi : ∀ w, wf w 24 4 = cond.toNat → wb w 18 6 = rs1 → wb w 12 6 = rs2 → wb w 0 12 = off → decBranch c w = some i) :
    decodeCore c ((4 : BitVec 4) ++ cond ++ rs1 ++ rs2 ++ off) = some i := by
  have hw := branchWord_toNat cond rs1 rs2 off
  have h1 := rs1.isLt
  have h2 := rs2.isLt
  have ho := off.isLt
  generalize (4 : BitVec 4) ++ cond ++ rs1 ++ rs2 ++ off = w at hw
  have hcond : wf w 24 4 = cond.toNat := by unfold wf; omega
  rw [decodeCore_major4 c (by unfold wf; omega) (by omega)]
  exact hi w hcond (wb_eq_of_toNat (by omega)) (wb_eq_of_toNat (by omega)) (wb_eq_of_toNat (by omega))

theorem decodeCore_jal (c : CoreId) (rd : BitVec 6) (imm : BitVec 20) :
    decodeCore c ((5 : BitVec 4) ++ rd ++ (0 : BitVec 2) ++ imm) = some (.jal c rd imm) := by
  have hd := rd.isLt
  have hi := imm.isLt
  have hw : ((5 : BitVec 4) ++ rd ++ (0 : BitVec 2) ++ imm).toNat = 5 * 2 ^ 28 + rd.toNat * 2 ^ 22 + imm.toNat := by
    have hfive : (5 : BitVec 4).toNat = 5 := rfl
    have hzero : (0 : BitVec 2).toNat = 0 := rfl
    simp only [toNat_append_eq, hfive, hzero]
    omega
  generalize (5 : BitVec 4) ++ rd ++ (0 : BitVec 2) ++ imm = w at hw
  have hfunc : wf w 20 2 = 0 := by unfold wf; omega
  rw [decodeCore_major5 c (by unfold wf; omega) (by omega), decJump, hfunc, wb_eq_of_toNat (r := rd) (by omega),
    wb_eq_of_toNat (r := imm) (by omega)]
  rfl

theorem decodeCore_jalr (c : CoreId) (rd rs : BitVec 6) (imm : BitVec 14) :
    decodeCore c ((5 : BitVec 4) ++ rd ++ (1 : BitVec 2) ++ rs ++ imm) = some (.jalr c rd rs imm) := by
  have hd := rd.isLt
  have hs := rs.isLt
  have hi := imm.isLt
  have hw : ((5 : BitVec 4) ++ rd ++ (1 : BitVec 2) ++ rs ++ imm).toNat =
      5 * 2 ^ 28 + rd.toNat * 2 ^ 22 + 2 ^ 20 + rs.toNat * 2 ^ 14 + imm.toNat := by
    have hfive : (5 : BitVec 4).toNat = 5 := rfl
    have hone : (1 : BitVec 2).toNat = 1 := rfl
    simp only [toNat_append_eq, hfive, hone]
    omega
  generalize (5 : BitVec 4) ++ rd ++ (1 : BitVec 2) ++ rs ++ imm = w at hw
  have hfunc : wf w 20 2 = 1 := by unfold wf; omega
  rw [decodeCore_major5 c (by unfold wf; omega) (by omega), decJump, hfunc, wb_eq_of_toNat (r := rd) (by omega),
    wb_eq_of_toNat (r := rs) (by omega), wb_eq_of_toNat (r := imm) (by omega)]
  rfl

/-- Settles O2: each branch is `branch` at its condition, each jump retires with its link, and the words by their fields. -/
theorem branchesAndJumps : Obligations.BranchesAndJumps := by
  intro s c rd rs1 rs2 off imm imm14 h x y pc goes
  have h2 : ready s.part s.dev c [rs1, rs2] [] = true := ready_mono h (by simp) (by simp)
  have hd : ready s.part s.dev c [rd] [] = true := ready_mono h (by simp) (by simp)
  have hd1 : ready s.part s.dev c [rd, rs1] [] = true := ready_mono h (by simp) (by simp)
  refine ⟨?_, ?_, ?_, ?_, ?_, ?_, ?_, ?_, fun w => ⟨illegalWord_branch, illegalWord_jump⟩, ?_, decodeCore_jal c rd imm,
    decodeCore_jalr c rd rs1 imm14⟩
  · exact branch_answers h2 (exec_beq ..) beq_iff_eq
  · exact branch_answers h2 (exec_bne ..) bne_iff_ne
  · exact branch_answers h2 (exec_blt ..) BitVec.slt_iff_toInt_lt
  · exact branch_answers h2 (exec_bge ..) (by rw [BitVec.slt_eq_decide, Bool.not_eq_true', decide_eq_false_iff_not, Int.not_lt])
  · exact branch_answers h2 (exec_bltu ..) BitVec.ult_iff_lt
  · exact branch_answers h2 (exec_bgeu ..) (by rw [BitVec.ult_eq_decide, Bool.not_eq_true', decide_eq_false_iff_not, Nat.not_lt])
  · refine issue_answers hd (exec_jal ..) ?_
    rw [jalTarget_eq]
    exact link_retiresTo s c rd _
  · refine issue_answers hd1 (exec_jalr ..) ?_
    simp only [Dev.core_modCore_same, jalrTarget_eq, CoreSt.getS_take]
    refine ⟨fun hz => ?_, fun hz => ?_⟩
    · rw [if_neg (not_not_intro hz)]; exact link_retiresTo s c rd _
    · rw [if_pos hz]; exact raiseExc_excepts s c 0x03 _ false
  · simp only [List.forall_mem_cons, List.not_mem_nil, false_imp_iff, implies_true, and_true]
    refine ⟨decodeCore_branch 0 (by decide) ?_, decodeCore_branch 1 (by decide) ?_, decodeCore_branch 2 (by decide) ?_,
      decodeCore_branch 3 (by decide) ?_, decodeCore_branch 4 (by decide) ?_, decodeCore_branch 5 (by decide) ?_⟩ <;>
      (intro w hcond h1 h2 ho; simp only [decBranch, hcond, h1, h2, ho]; rfl)

end Sys2Proof.Machine
end

-- Vector loads, stores and moves (R60, R62, R137)
section

namespace Sys2Proof.Machine

/-! ### Addresses over a range of bytes -/

theorem vAddr_eq (k : CoreSt) (r : BitVec 6) (imm : BitVec 13) (scale : Nat) :
    vAddr k r imm scale = (BitVec.ofInt 32 ((k.getS r).toInt + imm.toInt * scale)).toNat := by
  rw [vAddr, BitVec.signExtend, BitVec.ofInt_add, BitVec.ofInt_mul, BitVec.ofInt_toInt, BitVec.ofInt_natCast]

section
variable {a n al : Nat}

theorem addrCheck_range_beyond (h : 0x3FFFFF < a + n - 1) : addrCheck a n al = some 0x02 := if_pos h
theorem addrCheck_range_misaligned (h : a + n - 1 ≤ 0x3FFFFF) (hm : a % al ≠ 0) : addrCheck a n al = some 0x03 := by
  rw [addrCheck, if_neg (Nat.not_lt.2 h), if_pos hm]
theorem addrCheck_range_ok (h : a + n - 1 ≤ 0x3FFFFF) (hm : a % al = 0) : addrCheck a n al = none := by
  rw [addrCheck, if_neg (Nat.not_lt.2 h), if_neg (not_not_intro hm)]

end

/-! ### Lanes and their bytes -/

theorem lanesOf_read (s : State) (c : CoreId) (a : Nat) : lanesOf (Memory.read s.mem (pantryAt c a) 256) =
    (List.range 64).map fun i => BitVec.ofNat 32 (s.le (pantryAt c (a + 4 * i)) 4) := by
  refine List.map_congr_left fun i hi => ?_
  have hi := List.mem_range.1 hi
  rw [read_drop_take _ (by omega), leNat_read, pantryAt_add]

theorem leBytes_range (n x : Nat) : leBytes n x = (List.range n).map fun i => BitVec.ofNat 8 (x / 256 ^ i) := by
  refine List.ext_getElem? fun i => ?_
  by_cases h : i < n
  · rw [leBytes_getElem? h]; simp [h]
  · rw [List.getElem?_eq_none (by simpa using h), List.getElem?_eq_none (by simpa using h)]

/-- Byte i of a run of words is byte i % 4 of word i / 4. -/
theorem bytesOf_range (r : Nat → W32) (n : Nat) : bytesOf ((List.range n).map r) =
    (List.range (4 * n)).map fun i => BitVec.ofNat 8 ((r (i / 4)).toNat / 256 ^ (i % 4)) := by
  induction n with
  | zero => rfl
  | succ n ih =>
    have hw : bytesOf [r n] = (List.range 4).map fun i =>
        BitVec.ofNat 8 ((r ((4 * n + i) / 4)).toNat / 256 ^ ((4 * n + i) % 4)) := by
      rw [bytesOf, List.flatMap_singleton, leBytes_range]
      refine List.map_congr_left fun i hi => ?_
      have hi := List.mem_range.1 hi
      rw [show (4 * n + i) / 4 = n by omega, show (4 * n + i) % 4 = i by omega]
    rw [Nat.mul_succ, List.range_add (n := 4 * n), List.map_append, List.map_map, ← ih, List.range_succ, List.map_append]
    exact List.flatMap_append.trans (congrArg _ hw)

theorem bytesOf_lanes (k : CoreSt) (v : BitVec 5) : bytesOf (k.lanes v) =
    (List.range 256).map fun i => BitVec.ofNat 8 ((k.lane v (i / 4)).toNat / 256 ^ (i % 4)) := bytesOf_range (k.lane v) 64

section
variable {s : State} {c : CoreId} {v : BitVec 5} {r : BitVec 6} {i : Instr}

/-! ### Issue -/

/-- A vector instruction that may issue answers with its effect. -/
theorem issueV_answers {ss : List (BitVec 6)} {vs : List (BitVec 5)} {f : Part → List Host.Cell → Dev → Dev} {P : State → Prop}
    (h : ready s.part s.dev c ss vs = true) (hq : (s.k c).vq.length < 16) (he : exec i s = issueV c ss vs s f)
    (hP : P (State.mk s.part s.mem (f s.part s.mem (s.dev.modCore c CoreSt.take)) s.pending)) : Answers i s P :=
  ⟨_, he.trans (issueV_ready h hq f), hP⟩

theorem replicate_queues (x : W32) : Queues s (State.mk s.part s.mem
    ((s.dev.modCore c CoreSt.take).pushV s.part c (VOp.full v (List.replicate 64 x))) s.pending) c v (fun _ => x) 0 0 := by
  have h := full_queues (s := s) (c := c) (vd := v) (fun _ => x) {}
  rwa [List.map_const', List.length_range] at h

/-- Retirement of a vector instruction that has written its core's own pantry. -/
theorem pushV_stores {a : Nat} {bs : List Byte} {e : Dev} (o : VOp)
    (hw : PantryWritten c a bs.length (s.dev.modCore c CoreSt.take) e) :
    Stores s (State.mk s.part (applyWr s.mem [(pantryAt c a, bs)]) (e.pushV s.part c o) s.pending) c
      { s.k c with vq := (s.k c).vq ++ [o] } (pantryAt c a) bs := by
  obtain ⟨m, rfl, hm⟩ := hw
  obtain ⟨hk, hcnt, ⟨hcores, hregs, -⟩, -, -⟩ := pushV_retires s c o
  refine ⟨hk, hcnt, hcores, fun r hr => hregs r (by simpa using hr), rfl, ⟨rfl, rfl⟩, fun b hb => ?_, fun i x hx => ?_, hm⟩
  · exact (byte_written s _ bs _ b).trans (if_neg (by omega))
  · have hi : i < bs.length := (List.getElem?_eq_some_iff.1 hx).1
    rw [byte_written, if_pos (by omega), Nat.add_sub_cancel_left, List.getD_eq_getElem?_getD, hx]
    rfl

theorem vst_answers {imm : BitVec 13} {a : Nat} (h : ready s.part s.dev c [r] [v] = true) (hq : (s.k c).vq.length < 16)
    (ha : vAddr (s.k c) r imm 32 = a) : Answers (.vst c v r imm) s fun t =>
      (0x3FFFFF < a + 255 → Excepts s t c 0x02 (BitVec.ofNat 64 a)) ∧
      (a + 255 ≤ 0x3FFFFF → a % 32 ≠ 0 → Excepts s t c 0x03 (BitVec.ofNat 64 a)) ∧
      (a + 255 ≤ 0x3FFFFF → a % 32 = 0 → s.dev.injBits c.site.toNat 1 c.p.toNat = 0 →
        Stores s t c { s.k c with vq := (s.k c).vq ++ [{}] } (pantryAt c a) (bytesOf ((s.k c).lanes v))) := by
  have ha' : vAddr (s.k c).take r imm 32 = a := ha
  have hl : ((s.k c).take.lanes v) = (s.k c).lanes v := rfl
  have hf : (s.dev.core c).vFull = false := by simpa [CoreSt.vFull] using hq
  refine ⟨_, (exec_vst ..).trans (State.updW_next ..), ?_⟩
  simp only [h, hf, Bool.not_false, Bool.and_self, if_true, Dev.core_modCore_same, ha', hl]
  refine ⟨fun hb => ?_, fun hb hm => ?_, fun hb hm hi => ?_⟩
  · rw [addrCheck_range_beyond hb]; exact raiseExc_excepts s c 0x02 _ _
  · rw [addrCheck_range_misaligned hb hm]; exact raiseExc_excepts s c 0x03 _ _
  · have hlen : (bytesOf ((s.k c).lanes v)).length = 256 := by rw [bytesOf_lanes, List.length_map, List.length_range]
    obtain ⟨e, hw, hwr⟩ := pantryWrite_of_checked (p := s.part) (d := s.dev.modCore c CoreSt.take) (c := c) (a := a)
      (bs := bytesOf ((s.k c).lanes v)) (List.ne_nil_of_length_pos (by omega)) hi (by omega) (by omega)
    rw [addrCheck_range_ok hb hm]
    simp only [hw]
    exact pushV_stores {} hwr

end

/-- Settles O5: a load by the words it reads, the store by the bytes of its lanes, a move by the operation it queues. -/
theorem vectorLoadsAndMoves : Obligations.VectorLoadsAndMoves := by
  intro s c v r lane imm h hq x a b
  have ha : vAddr (s.k c).take r imm 32 = a := vAddr_eq (s.k c) r imm 32
  have hb : vAddr (s.k c).take r imm 4 = b := vAddr_eq (s.k c) r imm 4
  have hx : (s.k c).take.getS r = x := rfl
  refine ⟨?_, ?_, ?_, ?_, ?_, ?_⟩
  · refine issueV_answers h hq (exec_vld ..) ?_
    simp only [Dev.core_modCore_same, ha]
    refine ⟨fun hbig => ?_, fun hin hm => ?_, fun hin hm hc => ?_⟩
    · rw [addrCheck_range_beyond hbig]; exact raiseExc_excepts s c 0x02 _ _
    · rw [addrCheck_range_misaligned hin hm]; exact raiseExc_excepts s c 0x03 _ _
    · have hr : (s.dev.modCore c CoreSt.take).pantryRead s.part s.mem c a 256 = _ := pantryRead_clean hc
      rw [addrCheck_range_ok hin hm]
      simp only [hr, lanesOf_read]
      exact full_queues _ {}
  · refine issueV_answers h hq (exec_vldb ..) ?_
    simp only [Dev.core_modCore_same, hb]
    refine ⟨fun hbig => ?_, fun hin hm => ?_, fun hin hm hc => ?_⟩
    · rw [addrCheck_range_beyond hbig]; exact raiseExc_excepts s c 0x02 _ _
    · rw [addrCheck_range_misaligned hin hm]; exact raiseExc_excepts s c 0x03 _ _
    · have hr : (s.dev.modCore c CoreSt.take).pantryRead s.part s.mem c b 4 = _ := pantryRead_clean hc
      rw [addrCheck_range_ok hin hm]
      simp only [hr, leNat_read]
      exact replicate_queues _
  · have hv := vst_answers h hq ha
    rwa [bytesOf_lanes] at hv
  · refine issueV_answers h hq (exec_vmvs ..) ?_
    rw [Dev.core_modCore_same, hx]
    exact pushV_retires s c _
  · refine issueV_answers h hq (exec_vmvv ..) ?_
    rw [Dev.core_modCore_same]
    exact pushV_retires s c _
  · refine issueV_answers h hq (exec_vbcast ..) ?_
    rw [Dev.core_modCore_same, hx]
    exact replicate_queues _

end Sys2Proof.Machine
end

-- Vector conversions (R97 to R102, R111 to R114, R118, R119, R140, R141)
section

namespace Sys2Proof.Machine

/-! ### Draws reserved at issue (R118, R119) -/

theorem lfsrSteps_add (m n : Nat) : ∀ x, lfsrSteps x (m + n) = lfsrSteps (lfsrSteps x m) n := by
  induction m with
  | zero => intro x; rw [Nat.zero_add]; rfl
  | succ m ih => intro x; rw [Nat.succ_add]; exact ih _

theorem lfsrDraws_state (n : Nat) : ∀ x, (lfsrDraws x n).2 = lfsrSteps x (16 * n) := by
  induction n with
  | zero => intro x; rfl
  | succ n ih => intro x; rw [Nat.mul_succ, Nat.add_comm (16 * n), lfsrSteps_add]; exact ih _

theorem lfsrDraws_length (n : Nat) : ∀ x, (lfsrDraws x n).1.length = n := by
  induction n with
  | zero => intro x; rfl
  | succ n ih => intro x; exact congrArg Nat.succ (ih _)

/-- Draw j of the `n` that an instruction reserves at a stochastic rounding state, none without SR. -/
def drawAt (rm : Rm) (x : W64) (n j : Nat) : Option (BitVec 16) := if rm = .sr then (lfsrDraws x n).1[j]? else none

theorem reserve_draws (p : Part) (d : Dev) (c : CoreId) (rm : Rm) (n : Nat) :
    (d.reserve p c rm n).1 = (List.range n).map (drawAt rm (d.get p (coreR c 0x38)) n) := by
  cases rm with
  | rne => exact List.ext_getElem (by simp [Dev.reserve]) fun j h1 h2 => by simp [Dev.reserve, drawAt]
  | sr =>
    refine List.ext_getElem (by simp [Dev.reserve, lfsrDraws_length]) fun j h1 h2 => ?_
    have hj : j < (lfsrDraws (d.get p (coreR c 0x38)) n).1.length := by rw [lfsrDraws_length]; simpa using h2
    simp [Dev.reserve, Dev.srState, drawAt, hj]

/-! ### Elements in a bit string (R101) -/

theorem packElems_append (w : Nat) (xs : List Nat) (y : Nat) :
    packElems w (xs ++ [y]) = packElems w xs + y % 2 ^ w * 2 ^ (w * xs.length) := by
  induction xs with
  | nil => simp [packElems]
  | cons x xs ih => rw [List.cons_append, packElems, packElems, ih, List.length_cons, Nat.mul_succ, Nat.pow_add]; ring

theorem packElems_range (w : Nat) (f : Nat → Nat) (n : Nat) : packElems w ((List.range n).map f) =
    (List.range n).foldl (fun a j => a + f j % 2 ^ w * 2 ^ (w * j)) 0 := by
  induction n with
  | zero => rfl
  | succ n ih =>
    rw [List.range_succ, List.map_append, List.map_singleton, packElems_append, ih, List.foldl_append, List.length_map,
      List.length_range]
    rfl

theorem lanesNat_eq (xs : List W32) : lanesNat xs = packElems 32 (xs.map BitVec.toNat) := by
  induction xs with
  | nil => rfl
  | cons x xs ih => rw [lanesNat, ih, List.map_cons, packElems, Nat.mod_eq_of_lt x.isLt]

/-- A register's lanes as one bit string. -/
theorem lanesNat_lanes (k : CoreSt) (v : BitVec 5) : lanesNat (k.lanes v) =
    (List.range 64).foldl (fun a j => a + (k.lane v j).toNat * 2 ^ (32 * j)) 0 := by
  have hlt : ∀ j, (k.lane v j).toNat % 2 ^ 32 = (k.lane v j).toNat := fun j => Nat.mod_eq_of_lt (k.lane v j).isLt
  rw [lanesNat_eq, CoreSt.lanes, List.map_map, packElems_range]
  simp only [Function.comp_apply, hlt]

/-! ### Formats (R97, R110, R140) -/

theorem cvtBad_iff (fmt : BitVec 4) : cvtBad fmt = true ↔ fmt.toNat = 0 ∨ 12 ≤ fmt.toNat := by
  rw [cvtBad, Bool.or_eq_true, beq_iff_eq, fmtReserved_iff, ← BitVec.toNat_inj]
  rfl

theorem fmtMx_iff {fmt : BitVec 4} (h : fmt.toNat < 12) : fmtMx fmt = true ↔ 7 ≤ fmt.toNat := by
  rw [fmtMx, Bool.and_eq_true, decide_eq_true_eq, decide_eq_true_eq]
  omega

theorem cvtInfo_eq (fmt : BitVec 4) : cvtInfo fmt = BitVec.ofNat 64 (fmt.toNat * 257) := by
  rw [cvtInfo]; congr 1; omega

theorem widen_scaled (fmt : BitVec 4) (x y : Nat) : (widen fmt x (some (e8m0 y))).1 = BitVec.ofNat 32 (fp32.convert
    (if y = 255 then .nan else (fmtDecode fmt x).mul (.fin false 1 ((y : Int) - 127))) none .inf).1 := by
  by_cases h : y = 255
  · simp only [widen, e8m0, if_pos h]; rfl
  · simp only [widen, e8m0, if_neg h]; rfl

/-- The scale byte of element j: the elements of a block of 32 share one. -/
theorem scaleByte_eq (n : Nat) {j : Nat} (h : j < 64) :
    (if j < 32 then n % 256 else n / 256 % 256) = n / 256 ^ (j / 32) % 256 := by
  split
  · rw [show j / 32 = 0 by omega, Nat.pow_zero, Nat.div_one]
  · rw [show j / 32 = 1 by omega, Nat.pow_one]

/-! ### Issue with draws -/

section
variable {s : State} {c : CoreId} {vd : BitVec 5} {i : Instr}

/-- An operation queued with the draws it reserves. -/
theorem reserve_queues (rm : Rm) (r : Nat → W32) (ev : Events) : Queues s (State.mk s.part s.mem
    (((s.dev.modCore c CoreSt.take).reserve s.part c rm 64).2.pushV s.part c (VOp.full vd ((List.range 64).map r) ev)) s.pending)
      c vd r ev.vec (if rm = .sr then 64 else 0) := by
  cases rm with
  | rne => exact full_queues r ev
  | sr =>
    have h := pushV_retires { s with dev := s.dev.put s.part (coreR c 0x38) (lfsrSteps (s.reg (coreR c 0x38)) (16 * 64)) } c
      (VOp.full vd ((List.range 64).map r) ev)
    simp only [VOp.full, laneWr_range] at h
    simp only [Dev.reserve, Dev.srState, Dev.get_modCore, lfsrDraws_state, put_modCore, VOp.full, laneWr_range]
    exact Retires.after_put (by rw [Ne, coreR_inj]; decide) h

/-- The lanes of a register, each with its draw. -/
theorem zip_draws (vs1 : BitVec 5) (rm : Rm) :
    (((s.dev.modCore c CoreSt.take).core c).lanes vs1).zip ((s.dev.modCore c CoreSt.take).reserve s.part c rm 64).1 =
      (List.range 64).map fun j => ((s.k c).lane vs1 j, drawAt rm (s.reg (coreR c 0x38)) 64 j) := by
  rw [Dev.core_modCore_same, reserve_draws, CoreSt.lanes, List.zip_map', Dev.get_modCore]
  rfl

/-- A conversion lane by lane, each with its draw. -/
theorem convert_queues {vs1 : BitVec 5} {rm : Rm} (g : W32 → Option (BitVec 16) → Nat × Events)
    (h : ready s.part s.dev c [] [vd, vs1] = true) (hq : (s.k c).vq.length < 16)
    (he : exec i s = issueV c [] [vd, vs1] s fun p _ d =>
      let r := d.reserve p c rm 64
      let z := (((d.core c).lanes vs1).zip r.1).map fun x => g x.1 x.2
      r.2.pushV p c (VOp.full vd (z.map fun x => BitVec.ofNat 32 x.1) ((z.map Prod.snd).foldl Events.or {}))) :
    Answers i s fun t => ∃ flags, Queues s t c vd
      (fun j => BitVec.ofNat 32 (g ((s.k c).lane vs1 j) (drawAt rm (s.reg (coreR c 0x38)) 64 j)).1) flags
      (if rm = .sr then 64 else 0) := by
  refine issueV_answers h hq he ?_
  simp only [zip_draws, List.map_map]
  exact ⟨_, reserve_queues rm _ _⟩

end

/-- Settles O12: the two narrow conversions by their bit strings, the others lane by lane. -/
theorem vectorConversions : Obligations.VectorConversions := by
  intro s c vd vs1 vs2 fmt rm ovc h hq x draws draw bad w packed string scale wide refuses
  have h1 : ready s.part s.dev c [] [vd, vs1] = true := ready_mono h (by simp) (by simp)
  have hbad : cvtBad fmt = true ↔ bad := cvtBad_iff fmt
  have hx : ((s.dev.modCore c CoreSt.take).core c).lanes vs1 = (s.k c).lanes vs1 := by rw [Dev.core_modCore_same]; rfl
  have hsc : ((s.dev.modCore c CoreSt.take).core c).lane vs2 0 = (s.k c).lane vs2 0 := by rw [Dev.core_modCore_same]; rfl
  have hs : lanesNat ((s.k c).lanes vs1) = string := lanesNat_lanes (s.k c) vs1
  refine ⟨?_, ?_, ?_, ?_⟩
  · refine issueV_answers h1 hq (exec_vcvtt ..) ⟨fun hb => ?_, fun hb => ?_⟩
    · rw [if_pos (hbad.2 hb), cvtInfo_eq]; exact raiseExc_excepts s c 0x07 _ _
    · have hp : packElems w ((List.range 64).map fun j => (fmtEncode fmt (val32 (x j)) (draw j) ovc).1) = packed :=
        packElems_range w _ 64
      rw [if_neg (mt hbad.1 hb), ← hp]
      simp only [zip_draws, List.map_map]
      exact ⟨_, reserve_queues rm _ _⟩
  · have hr : ready s.part s.dev c [] (if fmtMx fmt then [vd, vs1, vs2] else [vd, vs1]) = true := by
      split
      · exact h
      · exact h1
    refine issueV_answers hr hq (exec_vcvtf ..) ⟨fun hb => ?_, fun hb => ?_⟩
    · rw [if_pos (hbad.2 hb), cvtInfo_eq]; exact raiseExc_excepts s c 0x07 _ _
    · have hmx : fmtMx fmt = true ↔ 7 ≤ fmt.toNat := fmtMx_iff (by simp only [bad] at hb; omega)
      have hwide : ∀ j ∈ List.range 64, (widen fmt (elemAt string (fmtBits fmt) j) (if fmtMx fmt then
          some (e8m0 (if j < 32 then ((s.k c).lane vs2 0).toNat % 256 else ((s.k c).lane vs2 0).toNat / 256 % 256)) else none)).1 =
            BitVec.ofNat 32 (fp32.convert (wide j) none .inf).1 := by
        intro j hj
        rw [scaleByte_eq _ (List.mem_range.1 hj)]
        by_cases h7 : 7 ≤ fmt.toNat
        · rw [if_pos (hmx.2 h7), widen_scaled]
          simp only [wide, if_pos h7]
          rfl
        · rw [if_neg (mt hmx.1 h7)]
          simp only [wide, if_neg h7]
          rfl
      rw [if_neg (mt hbad.1 hb)]
      simp only [hx, hsc, hs, List.map_map, Function.comp_def]
      rw [List.map_congr_left hwide]
      exact ⟨_, full_queues _ _⟩
  · exact convert_queues (fun y u => intConvert 32 (val32 y) u) h1 hq (exec_vcvti ..)
  · exact convert_queues (fun y u => fp32.convert (FV.ofInt y.toInt) u .inf) h1 hq (exec_vcvtif ..)

end Sys2Proof.Machine
end

-- Tile descriptors (R65, R125, R142)
section

namespace Sys2Proof.Machine

/-! ### The two halves of a descriptor -/

/-- The descriptor whose doublewords are `lo` and `hi`, with the bits that do not exist read as zero. -/
def tdOf (lo hi : Nat) : TDesc := BitVec.ofNat 128 (lo % 2 ^ 59 / 32 * 32 + hi % 2 ^ 24 / 32 * 32 * 2 ^ 64)

theorem tdMask_getLsbD : ∀ i < 128, (BitVec.ofNat 128 ((2 ^ 59 - 2 ^ 5) + (2 ^ 88 - 2 ^ 69))).getLsbD i =
    (decide (5 ≤ i ∧ i < 59) || decide (69 ≤ i ∧ i < 88)) := by decide

theorem tdClean_eq_append (t : TDesc) :
    tdClean t = (0 : BitVec 40) ++ t.extractLsb' 69 19 ++ (0 : BitVec 10) ++ t.extractLsb' 5 54 ++ (0 : BitVec 5) := by
  refine BitVec.eq_of_getLsbD_eq fun i hi => ?_
  rw [tdClean, BitVec.getLsbD_and, tdMask_getLsbD i hi]
  simp only [BitVec.getLsbD_append, BitVec.getLsbD_extractLsb', BitVec.ofNat_eq_ofNat, BitVec.getLsbD_zero]
  grind

theorem tdClean_eq {t : TDesc} {lo hi : Nat} (h : t.toNat = lo + hi * 2 ^ 64) (hlo : lo < 2 ^ 64) : tdClean t = tdOf lo hi := by
  have hw := t.isLt
  refine BitVec.eq_of_toNat_eq ?_
  rw [tdClean_eq_append, tdOf, BitVec.toNat_ofNat]
  have h40 : (0 : BitVec 40).toNat = 0 := rfl
  have h10 : (0 : BitVec 10).toNat = 0 := rfl
  have h5 : (0 : BitVec 5).toNat = 0 := rfl
  simp only [toNat_append_eq, BitVec.extractLsb'_toNat, Nat.shiftRight_eq_div_pow, h, h40, h10, h5]
  omega

/-- BASE replaced in the low half. -/
theorem tdWith_base {t : TDesc} {lo hi : Nat} (h : t.toNat = lo + hi * 2 ^ 64) (v : Nat) :
    (tdWith t 0 v).toNat = (lo / 2 ^ 22 * 2 ^ 22 + v % 2 ^ 22) + hi * 2 ^ 64 := by
  have hw := t.isLt
  rw [tdWith, BitVec.toNat_ofNat, h]
  omega

/-- SBASE replaced in the high half. -/
theorem tdWith_sbase {t : TDesc} {lo hi : Nat} (h : t.toNat = lo + hi * 2 ^ 64) (hlo : lo < 2 ^ 64) (v : Nat) :
    (tdWith t 64 v).toNat = lo + (hi / 2 ^ 22 * 2 ^ 22 + v % 2 ^ 22) * 2 ^ 64 := by
  have hw := t.isLt
  rw [tdWith, BitVec.toNat_ofNat, h]
  omega

theorem append_words (x : BitVec 64) (y z : W32) : (x ++ y ++ z).toNat = z.toNat + y.toNat * 2 ^ 32 + x.toNat * 2 ^ 64 := by
  simp only [toNat_append_eq]
  omega

theorem words_append (x : BitVec 64) (y z : W32) : (y ++ z ++ x).toNat = x.toNat + (z.toNat + y.toNat * 2 ^ 32) * 2 ^ 64 := by
  simp only [toNat_append_eq]
  omega

/-! ### Issue -/

theorem tdSet_answers {s : State} {c : CoreId} {ss : List (BitVec 6)} {th : BitVec 3} {i : Instr} {f : CoreSt → TDesc} {r : TDesc}
    (h : ready s.part s.dev c ss [] = true) (he : exec i s = tdSet c ss th s f) (hr : tdClean (f (s.k c).take) = r) :
    Answers i s fun t => Retires s t c ((s.k c).setT th r) := by
  refine issue_answers h he ?_
  rw [← hr]
  exact retires_modCore s c (fun k => k.setT th (tdClean (f k))) _ (fun _ => rfl) rfl

/-- Settles O13: what each instruction puts in place of the descriptor, by its halves. -/
theorem tileDefine : Obligations.TileDefine := by
  intro s c th sa sb h a b x lo hi part gives
  have h1 : ready s.part s.dev c [sa] [] = true := ready_mono h (by simp) (by simp)
  have hlo : lo < 2 ^ 64 := Nat.mod_lt _ (by decide)
  have hx : ((s.k c).take.getT th).toNat = lo + hi * 2 ^ 64 := (Nat.mod_add_div' x (2 ^ 64)).symm
  have hhi : hi < 2 ^ 64 := Nat.div_lt_of_lt_mul ((s.k c).getT th).isLt
  have hset : a + b * 2 ^ 32 < 2 ^ 64 := by
    have ha : a < 2 ^ 32 := ((s.k c).getS sa).isLt
    have hb : b < 2 ^ 32 := ((s.k c).getS sb).isLt
    omega
  have hupper : (((s.k c).take.getT th).extractLsb' 64 64).toNat = hi := by
    rw [BitVec.extractLsb'_toNat, hx, Nat.shiftRight_eq_div_pow]; omega
  have hlower : (((s.k c).take.getT th).extractLsb' 0 64).toNat = lo := by
    rw [BitVec.extractLsb'_toNat, hx, Nat.shiftRight_zero]; omega
  have hbase : (tdBase ((s.k c).take.getT th) + a) % 2 ^ 22 = (lo + a) % 2 ^ 22 := by rw [tdBase, hx]; omega
  have hsbase : (tdSbase ((s.k c).take.getT th) + b) % 2 ^ 22 = (hi + b) % 2 ^ 22 := by rw [tdSbase, hx]; omega
  refine ⟨?_, ?_, ?_, ?_, ?_⟩
  · exact tdSet_answers h (exec_tdSetlo ..) (tdClean_eq ((append_words ..).trans (by rw [hupper]; rfl)) hset)
  · exact tdSet_answers h (exec_tdSethi ..) (tdClean_eq ((words_append ..).trans (by rw [hlower]; rfl)) hlo)
  · exact tdSet_answers h1 (exec_tdBase ..) (tdClean_eq (tdWith_base hx _) (by omega))
  · exact tdSet_answers h1 (exec_tdSbase ..) (tdClean_eq (tdWith_sbase hx hlo _) hlo)
  · have hl := tdWith_base hx (tdBase ((s.k c).take.getT th) + a)
    have hh := tdWith_sbase hl (by omega) (tdSbase ((s.k c).take.getT th) + b)
    rw [hbase, hsbase] at hh
    exact tdSet_answers h (exec_tdBadd ..) (tdClean_eq hh (by omega))

end Sys2Proof.Machine
end

-- Reads of a lobby (R146, R147, R169 to R172)
section

namespace Sys2Proof.Machine

/-! ### The registers and the storage of a lobby -/

theorem lobReg_inj (c : CoreId) (l : BitVec 3) {a b : Nat} : lobReg c l a = lobReg c l b ↔ a = b := by
  unfold lobReg lobR ctlAddr; omega

theorem ctlBlk_lobR (c : CoreId) {off : Nat} (h : off < 2 ^ 20) : ctlBlk (lobR c off) = 0x1C0 + c.p.toNat :=
  ctlBlk_ctlAddr (by have := c.p.isLt; omega) h

theorem lobR_ne_lobReg (c : CoreId) (l : BitVec 3) {a b : Nat} (h : a < 0x100) : lobR c a ≠ lobReg c l b := by
  unfold lobReg lobR ctlAddr; omega

theorem lobR_ne_coreR (c : CoreId) {a b : Nat} (ha : a < 2 ^ 20) (hb : b < 2 ^ 20) : lobR c a ≠ coreR c b := by
  have := c.p.isLt
  unfold lobR coreR ctlAddr; omega

theorem lobReg_ne_coreR (c : CoreId) (l : BitVec 3) {a b : Nat} (ha : a < 2 ^ 16) (hb : b < 2 ^ 20) :
    lobReg c l a ≠ coreR c b := lobR_ne_coreR c (by have := l.isLt; omega) hb

theorem CoreSt.lobby_setLobby (k : CoreSt) (l : BitVec 3) (x : Lobby) (m : BitVec 3) :
    (k.setLobby l x).lobby m = if m = l then x else k.lobby m := by
  simp [CoreSt.lobby, CoreSt.setLobby, smGet_smSet, BitVec.toNat_inj]

theorem CoreSt.setS_lob (k : CoreSt) (r : BitVec 6) (x : W32) : (k.setS r x).lob = k.lob := by
  unfold CoreSt.setS
  split <;> rfl

section
variable (p : Part) (d : Dev) (c : CoreId) (l : BitVec 3)

theorem lobEn_take : (d.modCore c CoreSt.take).lobEn p c l = d.lobEn p c l := bit_modCore ..
theorem curTile_take : (d.modCore c CoreSt.take).curTile p c l = d.curTile p c l := by
  unfold Dev.curTile
  rw [lobby_take]
  rfl
theorem lobEmpty_take : (d.modCore c CoreSt.take).lobEmpty p c l = d.lobEmpty p c l := by
  simp only [Dev.lobEmpty, lobEn_take, curTile_take, lobby_take]

theorem readSeq_setReadSeq (x : BitVec 16) : (d.setReadSeq p c l x).readSeq p c l = x := by
  rw [Dev.readSeq, Dev.setReadSeq, Dev.fld_setF_same _ _ _ _ _ _ (by omega), Nat.mod_eq_of_lt x.isLt, BitVec.ofNat_toNat,
    BitVec.setWidth_eq]

variable {d} in
theorem readSeq_of_get {e : Dev} (h : e.get p (lobReg c l 8) = d.get p (lobReg c l 8)) : e.readSeq p c l = d.readSeq p c l := by
  unfold Dev.readSeq Dev.fld; rw [h]

/-! ### Retirement -/

theorem retire_get_ne {z : Nat} (hz : z ≠ coreR c 0x108) : (d.retire p c).get p z = d.get p z := by
  rw [Dev.retire, Dev.retireTo, Dev.get_count_ne p _ _ hz, Dev.get_modCore]
theorem retire_core_same : (d.retire p c).core c = { d.core c with pc := (d.core c).pc + 4 } := by
  rw [Dev.retire, Dev.retireTo, Dev.core_count, Dev.core_modCore_same]
theorem retire_core_ne {k : CoreId} (hk : k ≠ c) : (d.retire p c).core k = d.core k := by
  rw [Dev.retire, Dev.retireTo, Dev.core_count, Dev.core_modCore_ne _ _ hk]
theorem retire_v : ((d.retire p c).core c).v = (d.core c).v := by rw [retire_core_same]
theorem retire_getS (r : BitVec 6) : ((d.retire p c).core c).getS r = (d.core c).getS r := by
  rw [retire_core_same]
  rfl
theorem retire_lobby : (d.retire p c).lobby c l = d.lobby c l := by
  rw [Dev.lobby, retire_core_same]
  rfl

end

/-- The device after a lobby has been read, `e`, with at most the result of the read written to core `c`. -/
structure LobbyAgrees (c : CoreId) (d e : Dev) : Prop where
  ctl : e.ctl = d.ctl
  others : ∀ k, k ≠ c → e.core k = d.core k
  lob : (e.core c).lob = (d.core c).lob
  pc : (e.core c).pc = (d.core c).pc

theorem LobbyAgrees.get {c : CoreId} {d e : Dev} (h : LobbyAgrees c d e) (p : Part) (a : Nat) : e.get p a = d.get p a := by
  unfold Dev.get; rw [h.ctl]

theorem LobbyAgrees.lobby {c : CoreId} {d e : Dev} (h : LobbyAgrees c d e) (l : BitVec 3) : e.lobby c l = d.lobby c l := by
  unfold Dev.lobby CoreSt.lobby; rw [h.lob]

theorem lobbyAgrees_modCore (c : CoreId) (d : Dev) {f : CoreSt → CoreSt} (hl : (f (d.core c)).lob = (d.core c).lob)
    (hp : (f (d.core c)).pc = (d.core c).pc) : LobbyAgrees c d (d.modCore c f) where
  ctl := rfl
  others _ hk := Dev.core_modCore_ne d f hk
  lob := by rw [Dev.core_modCore_same, hl]
  pc := by rw [Dev.core_modCore_same, hp]

theorem lobbyAgrees_setS (c : CoreId) (d : Dev) (r : BitVec 6) (x : W32) : LobbyAgrees c d (d.modCore c fun k => k.setS r x) :=
  lobbyAgrees_modCore c d (CoreSt.setS_lob ..) (CoreSt.setS_pc ..)

/-! ### A line taken (R169, R170) -/

/-- The lobby after its next line, line READPOS of the current tile, has been read; after line NL the tile retires. -/
def Lobby.afterLine (x : Lobby) (tile : LSlot) : Lobby :=
  if x.readpos.toNat = tile.nl.toNat then
    { x with slots := x.slots.filter (fun y => y.seq ≠ tile.seq), readpos := 0,
             last := smGet [] tile.lines x.readpos.toNat, held := tile.hdr }
  else { x with readpos := x.readpos + 1, last := smGet [] tile.lines x.readpos.toNat }

/-- Lobby `l` of core `c` has passed its next line on; of the registers, a tile that retires changes two. -/
structure LineTaken (p : Part) (d e : Dev) (c : CoreId) (l : BitVec 3) (tile : LSlot) : Prop where
  own : e.core c = (d.core c).setLobby l ((d.lobby c l).afterLine tile)
  others : ∀ k, k ≠ c → e.core k = d.core k
  inj : e.injBits = d.injBits
  going : (d.lobby c l).readpos.toNat ≠ tile.nl.toNat → ∀ a, e.get p a = d.get p a
  readSeq : (d.lobby c l).readpos.toNat = tile.nl.toNat → e.readSeq p c l = tile.seq + 1
  counted : (d.lobby c l).readpos.toNat = tile.nl.toNat → e.get p (lobReg c l 0x20) = countUp (d.get p (lobReg c l 0x20)) 1
  kept : ∀ a, a ≠ lobReg c l 8 → a ≠ lobReg c l 0x20 → e.get p a = d.get p a

/-- What a state says of a line taken from lobby `l` by an instruction of core `c` that has retired. -/
def Took (s t : State) (c : CoreId) (l : BitVec 3) (tile : LSlot) : Prop :=
  t.dev.lobby c l = (s.dev.lobby c l).afterLine tile ∧ (∀ m, m ≠ l → t.dev.lobby c m = s.dev.lobby c m) ∧
  (t.k c).pc = (s.k c).pc + 4 ∧ (t.k c).s = (s.k c).s ∧ (∀ e, e ≠ c → t.k e = s.k e) ∧
  (if (s.dev.lobby c l).readpos.toNat = tile.nl.toNat then
    t.dev.readSeq t.part c l = tile.seq + 1 ∧ t.reg (lobReg c l 0x20) = countUp (s.reg (lobReg c l 0x20)) 1 ∧
    RegsKept s t [coreR c 0x108, lobReg c l 8, lobReg c l 0x20]
  else RegsKept s t [coreR c 0x108]) ∧ Fixed s t

section
variable {p : Part} {d : Dev} {c : CoreId} {l : BitVec 3} {tile : LSlot}

theorem lobRead_line (hen : d.lobEn p c l = true) (htile : d.curTile p c l = some tile)
    (hlanded : tile.landed.getLsbD (d.lobby c l).readpos.toNat = true) :
    ∃ e, d.lobRead p c l = (e, smGet [] tile.lines (d.lobby c l).readpos.toNat) ∧ LineTaken p d e c l tile := by
  have hempty : d.lobEmpty p c l = false := by simp [Dev.lobEmpty, hen, htile, hlanded]
  have h820 : lobReg c l 8 ≠ lobReg c l 0x20 := by rw [Ne, lobReg_inj]; decide
  have hfil : (fun y : LSlot => y.seq != tile.seq) = fun y => decide (y.seq ≠ tile.seq) := by
    funext y; simp [bne, BEq.beq]
  by_cases hlast : (d.lobby c l).readpos.toNat = tile.nl.toNat
  · refine ⟨_, by simp only [Dev.lobRead, hempty, htile, hlast, if_true, Bool.false_eq_true, if_false]; rfl, ?_⟩
    refine ⟨?_, fun k hk => ?_, rfl, fun h => absurd hlast h, fun _ => ?_, fun _ => ?_, fun a h8 h20 => ?_⟩
    · rw [Dev.core_count, Dev.setReadSeq, Dev.core_setF, Dev.setLobby, Dev.core_modCore_same, Lobby.afterLine, if_pos hlast, hfil,
        hlast]
    · rw [Dev.core_count, Dev.setReadSeq, Dev.core_setF, Dev.setLobby, Dev.core_modCore_ne d _ hk]
    · exact (readSeq_of_get p c l (Dev.get_count_ne p _ _ h820)).trans (readSeq_setReadSeq ..)
    · rw [Dev.get_count_same, Dev.setReadSeq, Dev.get_setF_ne p _ _ _ _ h820.symm]
      rfl
    · rw [Dev.get_count_ne p _ _ h20, Dev.setReadSeq, Dev.get_setF_ne p _ _ _ _ h8]
      rfl
  · refine ⟨_, by simp only [Dev.lobRead, hempty, htile, hlast, Bool.false_eq_true, if_false]; rfl, ?_⟩
    refine ⟨?_, fun k hk => Dev.core_modCore_ne d _ hk, rfl, fun _ _ => rfl, fun h => absurd h hlast, fun h => absurd h hlast,
      fun _ _ _ => rfl⟩
    rw [Dev.setLobby, Dev.core_modCore_same, Lobby.afterLine, if_neg hlast]

variable {s : State} {d' e : Dev}

theorem LineTaken.took (h : LineTaken s.part (s.dev.modCore c CoreSt.take) d' c l tile) (he : LobbyAgrees c d' e)
    (hs : (e.core c).s = (d'.core c).s) (m : List Host.Cell) :
    Took s (State.mk s.part m (e.retire s.part c) s.pending) c l tile := by
  obtain ⟨hown, hothers, -, hgoing, hseq, hcounted, hkept⟩ := h
  rw [Dev.core_modCore_same, lobby_take] at hown
  simp only [lobby_take] at hgoing hseq hcounted
  have hget : ∀ a, a ≠ coreR c 0x108 → (e.retire s.part c).get s.part a = d'.get s.part a := fun a ha =>
    (retire_get_ne _ _ _ ha).trans (he.get ..)
  have hlob : ∀ m, (e.retire s.part c).lobby c m = if m = l then (s.dev.lobby c l).afterLine tile else s.dev.lobby c m := by
    intro m
    rw [retire_lobby, he.lobby, Dev.lobby, hown, CoreSt.lobby_setLobby]
    rfl
  refine ⟨(hlob l).trans (if_pos rfl), fun m hm => (hlob m).trans (if_neg hm), ?_, ?_, fun k hk => ?_, ?_, rfl, rfl⟩
  · show ((e.retire s.part c).core c).pc = _
    rw [retire_core_same, he.pc, hown]
    rfl
  · show ((e.retire s.part c).core c).s = _
    rw [retire_core_same, hs, hown]
    rfl
  · exact (retire_core_ne _ _ _ hk).trans ((he.others k hk).trans ((hothers k hk).trans (Dev.core_modCore_ne _ _ hk)))
  · split
    next hlast =>
      refine ⟨?_, ?_, fun a ha _ => ?_⟩
      · exact (readSeq_of_get _ _ _ (hget _ (lobReg_ne_coreR c l (by decide) (by decide)))).trans (hseq hlast)
      · exact (hget _ (lobReg_ne_coreR c l (by decide) (by decide))).trans (hcounted hlast)
      · simp only [List.mem_cons, List.not_mem_nil, or_false, not_or] at ha
        exact (hget a ha.1).trans (hkept a ha.2.1 ha.2.2)
    next hlast => exact fun a ha _ => (hget a (by simpa using ha)).trans (hgoing hlast a)

/-! ### An underrun (R171) -/

/-- Lobby `l` of core `c` has underrun: no core changes, and of the registers outside the FLT block two. -/
structure Underran (p : Part) (d e : Dev) (c : CoreId) (l : BitVec 3) : Prop where
  core : ∀ k, e.core k = d.core k
  sticky : e.bit p (lobR c 0) (8 + l.toNat) = true
  counted : e.get p (lobReg c l 0x28) = countUp (d.get p (lobReg c l 0x28)) 1
  notice : e.get p (fltR c.site.toNat 0x40) = if d.bit p (lobR c 0) (8 + l.toNat) then d.get p (fltR c.site.toNat 0x40)
    else countUp (d.get p (fltR c.site.toNat 0x40)) 1
  kept : ∀ a, a ≠ lobR c 0 → a ≠ lobReg c l 0x28 → ctlBlk a ≠ 1 → e.get p a = d.get p a

/-- What a state says of an underrun of lobby `l` by an instruction of core `c` that has retired. -/
def Under (s t : State) (c : CoreId) (l : BitVec 3) : Prop :=
  (∀ m, t.dev.lobby c m = s.dev.lobby c m) ∧ t.dev.bit t.part (lobR c 0) (8 + l.toNat) = true ∧
  t.reg (lobReg c l 0x28) = countUp (s.reg (lobReg c l 0x28)) 1 ∧ (t.k c).pc = (s.k c).pc + 4 ∧
  t.reg (fltR c.site.toNat 0x40) = (if s.dev.bit s.part (lobR c 0) (8 + l.toNat) then s.reg (fltR c.site.toNat 0x40)
    else countUp (s.reg (fltR c.site.toNat 0x40)) 1) ∧
  StillBut s t c ∧ RegsKept s t [coreR c 0x108, lobR c 0, lobReg c l 0x28]

theorem underrun_underran (p : Part) (d : Dev) (c : CoreId) (l : BitVec 3) : Underran p d (d.underrun p c l) c l := by
  have hl := l.isLt
  have h0 : ctlBlk (lobR c 0) ≠ 1 := by rw [ctlBlk_lobR c (by decide)]; omega
  have h28 : ctlBlk (lobReg c l 0x28) ≠ 1 := by rw [lobReg, ctlBlk_lobR c (by omega)]; omega
  have hne : lobR c 0 ≠ lobReg c l 0x28 := lobR_ne_lobReg c l (by decide)
  have hflt : ctlBlk (fltR c.site.toNat 0x40) = 1 := ctlBlk_fltR (by decide)
  have hf0 : fltR c.site.toNat 0x40 ≠ lobR c 0 := fun h => h0 (h ▸ hflt)
  have hf28 : fltR c.site.toNat 0x40 ≠ lobReg c l 0x28 := fun h => h28 (h ▸ hflt)
  let e := (d.setB p (lobR c 0) (8 + l.toNat) true).count p (lobReg c l 0x28) 1
  have hget : ∀ a, a ≠ lobR c 0 → a ≠ lobReg c l 0x28 → e.get p a = d.get p a := fun a h h' => by
    rw [Dev.get_count_ne p _ _ h', Dev.get_setB_ne p _ _ _ h]
  have hbit : e.bit p (lobR c 0) (8 + l.toNat) = true := by
    rw [Dev.bit, Dev.get_count_ne p _ _ hne]
    exact Dev.bit_setB_same p d _ true (by omega)
  have hcnt : e.get p (lobReg c l 0x28) = countUp (d.get p (lobReg c l 0x28)) 1 := by
    rw [Dev.get_count_same, Dev.get_setB_ne p _ _ _ hne.symm]
  by_cases hwas : d.bit p (lobR c 0) (8 + l.toNat) = true
  · have he : d.underrun p c l = e := if_pos hwas
    rw [he]
    exact ⟨fun _ => rfl, hbit, hcnt, by rw [if_pos hwas, hget _ hf0 hf28], fun a h h' _ => hget a h h'⟩
  · have he : d.underrun p c l = e.coreFault p c 0 0x0103 (l.zeroExtend 64) := if_neg hwas
    have hr : RaisedAt p c.site.toNat e (d.underrun p c l) := he ▸ coreFault_raisedAt ..
    refine ⟨hr.core, ?_, (hr.away _ (awayFromLog_of_blk h28)).trans hcnt, ?_, fun a h h' hb => ?_⟩
    · rw [Dev.bit, hr.away _ (awayFromLog_of_blk h0)]; exact hbit
    · rw [hr.count, if_neg hwas, hget _ hf0 hf28]
    · exact (hr.away a (awayFromLog_of_blk hb)).trans (hget a h h')

theorem Underran.under (h : Underran s.part (s.dev.modCore c CoreSt.take) d' c l) (he : LobbyAgrees c d' e) :
    Under s (State.mk s.part s.mem (e.retire s.part c) s.pending) c l := by
  obtain ⟨hcore, hsticky, hcounted, hnotice, hkept⟩ := h
  have hl := l.isLt
  have hown : d'.core c = (s.k c).take := (hcore c).trans (Dev.core_modCore_same ..)
  have hget : ∀ a, a ≠ coreR c 0x108 → (e.retire s.part c).get s.part a = d'.get s.part a := fun a ha =>
    (retire_get_ne _ _ _ ha).trans (he.get ..)
  have hflt : fltR c.site.toNat 0x40 ≠ coreR c 0x108 := fun hc => by
    have := ctlBlk_fltR (s := c.site.toNat) (off := 0x40) (by decide)
    rw [hc, ctlBlk_coreR c (by decide)] at this
    omega
  refine ⟨fun m => ?_, ?_, (hget _ (lobReg_ne_coreR c l (by decide) (by decide))).trans hcounted, ?_, (hget _ hflt).trans hnotice,
    ⟨fun _ => rfl, fun k hk => ?_, rfl, rfl⟩, fun a ha hb => ?_⟩
  · show (e.retire s.part c).lobby c m = _
    rw [retire_lobby, he.lobby, Dev.lobby, hown]
    rfl
  · show ((e.retire s.part c).get s.part (lobR c 0)).getLsbD _ = true
    rw [hget _ (lobR_ne_coreR c (by decide) (by decide))]
    exact hsticky
  · show ((e.retire s.part c).core c).pc = _
    rw [retire_core_same, he.pc, hown]
    rfl
  · exact (retire_core_ne _ _ _ hk).trans ((he.others k hk).trans ((hcore k).trans (Dev.core_modCore_ne _ _ hk)))
  · simp only [List.mem_cons, List.not_mem_nil, or_false, not_or] at ha
    exact (hget a ha.1).trans (hkept a ha.2.1 ha.2.2 hb)

theorem lobRead_empty (h : d.lobEmpty p c l = true) : d.lobRead p c l = (d.underrun p c l, (d.lobby c l).lastValue) := by
  rw [Dev.lobRead]
  exact if_pos h

/-- Before any read the last value is zero. -/
theorem leNat_zeros : ∀ n, leNat (List.replicate n 0) = 0
  | 0 => rfl
  | n + 1 => by rw [List.replicate_succ, leNat, leNat_zeros n]; rfl

theorem lastValue_word (x : Lobby) (i : Nat) : BitVec.ofNat 32 (leNat ((x.lastValue.drop (4 * i)).take 4)) =
    if x.last = [] then 0 else BitVec.ofNat 32 (leNat ((x.last.drop (4 * i)).take 4)) := by
  by_cases h : x.last = []
  · rw [Lobby.lastValue, h, if_pos rfl, if_pos List.isEmpty_nil, List.drop_replicate, List.take_replicate, leNat_zeros]
    rfl
  · rw [Lobby.lastValue, if_neg (mt List.isEmpty_iff.1 h), if_neg h]

theorem hdrWord_eq (h : BitVec 128) (w : Nat) : hdrWord h w = BitVec.ofNat 32 (h.toNat / 2 ^ (32 * w)) :=
  BitVec.eq_of_toNat_eq (by rw [hdrWord, BitVec.extractLsb'_toNat, BitVec.toNat_ofNat, Nat.shiftRight_eq_div_pow])

end

/-! ### The instructions -/

/-- The core after a line has been copied to the 32 lanes from `b` on. -/
def CoreSt.withLine (k : CoreSt) (b : Nat) (line : List Byte) : CoreSt :=
  { k with v := landLanes k.v ((List.range 32).map fun i => (b + i, BitVec.ofNat 32 (leNat ((line.drop (4 * i)).take 4)))) }

theorem CoreSt.withLine_v (k : CoreSt) (b : Nat) (line : List Byte) (j : Nat) : smGet 0 (k.withLine b line).v j =
    if b ≤ j ∧ j < b + 32 then BitVec.ofNat 32 (leNat ((line.drop (4 * (j - b))).take 4)) else smGet 0 k.v j := by
  rw [CoreSt.withLine, landLanes_range]

theorem lobbyAgrees_withLine (c : CoreId) (d : Dev) (b : Nat) (line : List Byte) :
    LobbyAgrees c d (d.modCore c fun k => k.withLine b line) := 
  lobbyAgrees_modCore c d (by rw [CoreSt.withLine]) (by rw [CoreSt.withLine])

theorem byte_of_mem {s t : State} (h : t.mem = s.mem) (b : Nat) : t.byte b = s.byte b := by
  rw [State.byte, State.byte, h]

section
variable {s : State} {c : CoreId} {l : BitVec 3} {r : BitVec 6} {upper : Bool} {e : Dev} {line : List Byte}

theorem lobRdv_answers {P : State → Prop} (h : ready s.part s.dev c [] [r.extractLsb' 0 5] = true) (hr : r.getLsbD 5 = false)
    (hread : (s.dev.modCore c CoreSt.take).lobRead s.part c l = (e, line))
    (hP : P (State.mk s.part s.mem ((e.modCore c fun k => k.withLine (64 * r.toNat + if upper then 32 else 0) line).retire
      s.part c) s.pending)) : Answers (.lobRdv c l r upper) s P := by
  refine issue_answers h (exec_lobRdv ..) ?_
  rw [hr, if_neg Bool.false_ne_true]
  simp only [hread]
  exact hP

/-- The lanes after LOB.RDV, where `e` still has the core's vector registers. -/
theorem lobRdv_lanes (hv : (e.core c).v = (s.k c).v) (b j : Nat) :
    smGet 0 ((e.modCore c fun k => k.withLine b line).retire s.part c |>.core c).v j =
      if b ≤ j ∧ j < b + 32 then BitVec.ofNat 32 (leNat ((line.drop (4 * (j - b))).take 4)) else smGet 0 (s.k c).v j := by
  rw [retire_v, Dev.core_modCore_same, CoreSt.withLine_v, hv]

theorem PantryWritten.ctl {a n : Nat} {d e : Dev} (h : PantryWritten c a n d e) : e.ctl = d.ctl := by
  obtain ⟨m, rfl, -⟩ := h
  rfl
theorem PantryWritten.core {a n : Nat} {d e : Dev} (h : PantryWritten c a n d e) (k : CoreId) : e.core k = d.core k := by
  obtain ⟨m, rfl, -⟩ := h
  rfl

/-- LOB.RDP of a line that fits. -/
theorem lobRdp_answers {P : State → Prop} {sa : BitVec 6} {a : Nat} (h : ready s.part s.dev c [sa] [] = true)
    (ha : ((s.k c).getS sa).toNat = a) (hin : a + 127 ≤ 0x3FFFFF) (hm : a % 128 = 0)
    (hread : (s.dev.modCore c CoreSt.take).lobRead s.part c l = (e, line)) (hlen : line.length = 128)
    (hinj : e.injBits c.site.toNat 1 c.p.toNat = 0)
    (hP : ∀ e', PantryWritten c a line.length e e' →
      P (State.mk s.part (applyWr s.mem [(pantryAt c a, line)]) (e'.retire s.part c) s.pending)) :
    Answers (.lobRdp c l sa) s P := by
  have ha' : (((s.dev.modCore c CoreSt.take).core c).getS sa).toNat = a := by rw [Dev.core_modCore_same]; exact ha
  obtain ⟨e', hw, hwr⟩ := pantryWrite_of_checked (p := s.part) (d := e) (c := c) (a := a) (bs := line)
    (List.ne_nil_of_length_pos (by omega)) hinj (by omega) (by omega)
  refine issueW_answers (ws := [(pantryAt c a, line)]) h (exec_lobRdp ..) ?_ (hP e' hwr)
  simp only [ha', addrCheck_range_ok (n := 128) hin hm, hread, hw]

/-- LOB.RDP beyond the pantry or misaligned. -/
theorem lobRdp_excepts {P : State → Prop} {sa : BitVec 6} {a cause : Nat} (h : ready s.part s.dev c [sa] [] = true)
    (ha : ((s.k c).getS sa).toNat = a) (hcheck : addrCheck a 128 128 = some cause)
    (hP : ∀ t, Excepts s t c cause (BitVec.ofNat 64 a) → P t) : Answers (.lobRdp c l sa) s P := by
  have ha' : (((s.dev.modCore c CoreSt.take).core c).getS sa).toNat = a := by rw [Dev.core_modCore_same]; exact ha
  refine issueW_answers (ws := []) h (exec_lobRdp ..) ?_ (hP _ (raiseExc_excepts s c cause _ false))
  simp only [ha', hcheck]

/-- LOB.RDV of a line that has landed. -/
theorem lobRdv_took {tile : LSlot} (h : ready s.part s.dev c [] [r.extractLsb' 0 5] = true) (hr : r.getLsbD 5 = false)
    (hread : (s.dev.modCore c CoreSt.take).lobRead s.part c l = (e, line))
    (hline : LineTaken s.part (s.dev.modCore c CoreSt.take) e c l tile) : Answers (.lobRdv c l r upper) s fun t =>
      Took s t c l tile ∧ (∀ b, t.byte b = s.byte b) ∧
      (∀ i, i < 32 → smGet 0 (t.k c).v (64 * r.toNat + (if upper then 32 else 0) + i) =
        BitVec.ofNat 32 (leNat ((line.drop (4 * i)).take 4))) ∧
      ∀ i, i < 64 * r.toNat + (if upper then 32 else 0) ∨ 64 * r.toNat + (if upper then 32 else 0) + 32 ≤ i →
        smGet 0 (t.k c).v i = smGet 0 (s.k c).v i := by
  have hv : (e.core c).v = (s.k c).v := by rw [hline.own, Dev.core_modCore_same]; rfl
  refine lobRdv_answers h hr hread ⟨?_, byte_of_mem rfl, fun i hi => ?_, fun i hi => ?_⟩
  · exact hline.took (lobbyAgrees_withLine c e _ _) (by rw [Dev.core_modCore_same, CoreSt.withLine]) s.mem
  · refine (lobRdv_lanes hv _ _).trans ?_
    rw [if_pos (by omega), Nat.add_sub_cancel_left]
  · exact (lobRdv_lanes hv _ _).trans (if_neg (by omega))

/-- LOB.RDV while EMPTY is 1. -/
theorem lobRdv_under (h : ready s.part s.dev c [] [r.extractLsb' 0 5] = true) (hr : r.getLsbD 5 = false)
    (hempty : s.dev.lobEmpty s.part c l = true) : Answers (.lobRdv c l r upper) s fun t => Under s t c l ∧
      ∀ i, i < 32 → smGet 0 (t.k c).v (64 * r.toNat + (if upper then 32 else 0) + i) =
        if (s.dev.lobby c l).last = [] then 0 else BitVec.ofNat 32 (leNat (((s.dev.lobby c l).last.drop (4 * i)).take 4)) := by
  have hu := underrun_underran s.part (s.dev.modCore c CoreSt.take) c l
  have hread := lobRead_empty (p := s.part) (d := s.dev.modCore c CoreSt.take) (c := c) (l := l)
    (by rw [lobEmpty_take]; exact hempty)
  have hv : (((s.dev.modCore c CoreSt.take).underrun s.part c l).core c).v = (s.k c).v := by
    rw [hu.core, Dev.core_modCore_same]; rfl
  rw [lobby_take] at hread
  refine lobRdv_answers h hr hread ⟨hu.under (lobbyAgrees_withLine c _ _ _), fun i hi => ?_⟩
  refine (lobRdv_lanes hv _ _).trans ?_
  rw [if_pos (by omega), Nat.add_sub_cancel_left, lastValue_word]

/-- LOB.RDP of a line that has landed, to a place in the pantry. -/
theorem lobRdp_took {tile : LSlot} {sa : BitVec 6} {a : Nat} (h : ready s.part s.dev c [sa] [] = true)
    (ha : ((s.k c).getS sa).toNat = a) (hin : a + 127 ≤ 0x3FFFFF) (hm : a % 128 = 0)
    (hread : (s.dev.modCore c CoreSt.take).lobRead s.part c l = (e, line))
    (hline : LineTaken s.part (s.dev.modCore c CoreSt.take) e c l tile) (hlen : line.length = 128)
    (hinj : s.dev.injBits c.site.toNat 1 c.p.toNat = 0) : Answers (.lobRdp c l sa) s fun t =>
      Took s t c l tile ∧ (t.k c).v = (s.k c).v ∧ MemKept s t (pantryAt c a) 128 ∧
      ∀ i b, (line)[i]? = some b → t.byte (pantryAt c a + i) = b := by
  have hv : (e.core c).v = (s.k c).v := by rw [hline.own, Dev.core_modCore_same]; rfl
  have hinj' : e.injBits c.site.toNat 1 c.p.toNat = 0 := by rw [hline.inj]; exact hinj
  refine lobRdp_answers h ha hin hm hread hlen hinj' fun e' hw => ⟨?_, ?_, fun b hb => ?_, fun i b hb => ?_⟩
  · exact hline.took ⟨hw.ctl, fun k _ => hw.core k, by rw [hw.core], by rw [hw.core]⟩ (by rw [hw.core]) _
  · exact (retire_v ..).trans (by rw [hw.core, hv])
  · rw [byte_written, if_neg (by omega)]
  · have hi : i < line.length := (List.getElem?_eq_some_iff.1 hb).1
    rw [byte_written, if_pos (by omega), Nat.add_sub_cancel_left, List.getD_eq_getElem?_getD, hb, Option.getD_some]

/-- LOB.HDR with no current tile. -/
theorem lobHdr_under {word : BitVec 2} (h : ready s.part s.dev c [r] [] = true)
    (hno : s.dev.lobEn s.part c l = false ∨ s.dev.curTile s.part c l = none) : Answers (.lobHdr c l r word) s fun t =>
      Under s t c l ∧
      (t.k c).getS r = if r = 0 then 0 else BitVec.ofNat 32 ((s.dev.lobby c l).held.toNat / 2 ^ (32 * word.toNat)) := by
  have hu := (underrun_underran s.part (s.dev.modCore c CoreSt.take) c l).under
    (lobbyAgrees_setS c _ r (hdrWord (s.dev.lobby c l).held word.toNat))
  have hget : ∀ d : Dev, ((d.retireS s.part c r (hdrWord (s.dev.lobby c l).held word.toNat)).core c).getS r =
      if r = 0 then 0 else BitVec.ofNat 32 ((s.dev.lobby c l).held.toNat / 2 ^ (32 * word.toNat)) := fun d => by
    rw [Dev.retireS, retire_getS, Dev.core_modCore_same, CoreSt.getS_setS, hdrWord_eq, if_pos rfl]
  refine issue_answers h (exec_lobHdr ..) ?_
  simp only [lobby_take]
  split
  next hen htile =>
    rw [lobEn_take] at hen
    rw [curTile_take] at htile
    simp [hen, htile] at hno
  next => exact ⟨hu, hget _⟩

end

/-- Settles O19: a line taken by what the read leaves of the lobby, an underrun by the two registers and the Notice. -/
theorem lobbyReads : Obligations.LobbyReads := by
  constructor
  · intro s c l r sa upper tile h hr hen htile x hlanded line a next took
    obtain ⟨e, hread, hline⟩ := lobRead_line (p := s.part) (d := s.dev.modCore c CoreSt.take) (c := c) (l := l) (tile := tile)
      (by rw [lobEn_take]; exact hen) (by rw [curTile_take]; exact htile) (by rw [lobby_take]; exact hlanded)
    rw [lobby_take] at hread
    have hs : ready s.part s.dev c [sa] [] = true := ready_mono h (by simp) (by simp)
    refine ⟨lobRdv_took (ready_mono h (by simp) (by simp)) hr hread hline, ?_⟩
    by_cases hin : a + 127 ≤ 0x3FFFFF
    · by_cases hm : a % 128 = 0
      · by_cases hfits : line.length = 128 ∧ s.dev.injBits c.site.toNat 1 c.p.toNat = 0
        · obtain ⟨t, ht, htook⟩ := lobRdp_took hs rfl hin hm hread hline hfits.1 hfits.2
          exact ⟨t, ht, fun h => absurd hin (Nat.not_le.2 h), fun _ h => absurd hm h, fun _ _ _ _ => htook⟩
        · exact issueW_answers hs (exec_lobRdp ..) rfl
            ⟨fun h => absurd hin (Nat.not_le.2 h), fun _ h => absurd hm h, fun _ _ hlen hinj => absurd ⟨hlen, hinj⟩ hfits⟩
      · exact lobRdp_excepts hs rfl (addrCheck_range_misaligned (n := 128) hin hm) fun t ht =>
          ⟨fun h => absurd hin (Nat.not_le.2 h), fun _ _ => ht, fun _ h => absurd h hm⟩
    · exact lobRdp_excepts hs rfl (addrCheck_range_beyond (n := 128) (Nat.lt_of_not_le hin)) fun t ht =>
        ⟨fun _ => ht, fun h => absurd h hin, fun h => absurd h hin⟩
  · intro s c l r word upper h x was under
    exact ⟨lobRdv_under (ready_mono h (by simp) (by simp)), lobHdr_under (ready_mono h (by simp) (by simp))⟩

end Sys2Proof.Machine
end
